-- ==== Sys2Proof/Word.lean ====
section
/-! DEFINITION. The words the NX4160 works on, and the finite tables the state is made of. -/
namespace Sys2Proof

/-- One byte of a payload, a record or an image. -/
abbrev Byte := BitVec 8

/-- One 32-bit register or record word (R450). -/
abbrev Word := BitVec 32

/-- A table by key, keys strictly rising. What an absent key reads as is an argument of each operation in
Machine/Tab.lean. -/
abbrev Tab (α : Type) := List (Nat × α)

/-- Shaft angle counts in one revolution (R9). -/
abbrev revAC : Nat := 4194304

end Sys2Proof
end

