-- ==== Sys2Proof/Syntax.lean ====
section
/-! DEFINITION. The commands of the block: one constructor of `Instr` per row of spec/opcode_table.json, with the
operands the environment brings (what arrives on a pin, a link, a converter or the host's rings). A condition that the
spec lets the part work out from its own state is no operand. -/
namespace Sys2Proof

/-- The path a register request arrives on (R449, R451). -/
inductive Chan where
  | pcie | smbus | fabric
  deriving DecidableEq, Repr

/-- Who writes a register: the channel, the source address and the session a packet names (R380, R354). -/
structure Writer where
  chan : Chan
  src  : BitVec 12
  sess : BitVec 8
  deriving DecidableEq, Repr

/-- How a security message reached the part: as the command of that TAG on QP0, or through the mailbox (R381, R402). -/
inductive Via where
  | qp0 (tag : BitVec 16)
  | mbox
  deriving DecidableEq, Repr

/-- The four words of a slot table entry, field by field (R144). -/
structure SlotEntry where
  kind    : BitVec 4
  head    : BitVec 4
  startAc : BitVec 22
  bufref  : BitVec 17
  set     : BitVec 3
  pos     : BitVec 12
  hs      : BitVec 6
  trk     : BitVec 24
  stream  : BitVec 6
  ord     : BitVec 13
  entry   : BitVec 7
  tpos    : BitVec 5
  sys     : Bool
  deriving DecidableEq, Repr

/-- The four work classes of the planner (R22). -/
inductive WorkClass where
  | host | recovery | parity | selftest
  deriving DecidableEq, Repr

/-- One slot of a plan: where it goes and the work it serves (R19, R21). `work` is the work item's number. -/
structure PlanSlot where
  ch    : Fin 16
  entry : SlotEntry
  cls   : WorkClass
  work  : Nat
  deriving DecidableEq, Repr

/-- What the channel found in one read block (R127 to R133). `info` is the decoded and descrambled information. -/
structure ReadRes where
  sm1       : Option Nat
  sm2       : Option Nat
  converged : Bool
  iter      : Nat
  info      : List Byte
  clip      : Bool
  unsat     : Nat
  deriving DecidableEq, Repr

/-- What the channel found in one verify block (R137). -/
structure VerifyRes where
  marks     : Bool
  converged : Bool
  iter      : Nat
  equal     : Bool
  corrected : Nat
  deriving DecidableEq, Repr

/-- One system record as the heads read it back (R66, R67). -/
structure SysRec where
  rtype : BitVec 16
  act   : Fin 4
  bytes : List Byte
  deriving DecidableEq, Repr

/-- One chunk locator entry (R56). -/
structure Locator where
  chunk     : Nat
  streamOfs : Nat
  clen      : Nat
  raw       : Bool
  effort    : BitVec 2
  nblk      : Nat
  lcrc      : Word
  prevLb    : Word
  csec      : Word
  sbi       : Nat
  deriving DecidableEq, Repr

/-- A fabric packet behind its link header: the fabric header of R329 and the payload. -/
structure Pkt where
  ptype   : Byte
  flags   : Byte
  dst     : BitVec 12
  src     : BitVec 12
  ttl     : Byte
  sess    : Byte
  seq     : Word
  inst    : BitVec 16
  payload : List Byte
  deriving DecidableEq, Repr

/-- The link header of R323. -/
structure LinkHdr where
  lseq : BitVec 12
  ack  : BitVec 12
  vc   : BitVec 2
  lctl : Bool
  nak  : Bool
  cvc  : BitVec 2
  cred : BitVec 10
  deriving DecidableEq, Repr

/-- How the LCRC of a received packet came out (R324, R325). -/
inductive LCrc where
  | good | bad | inverted
  deriving DecidableEq, Repr

/-- Why a port went down, as event 0x8001 codes it (R339, R358). -/
inductive DownCause where
  | symbols | heartbeats | replays | fence | leaving | laneOff
  deriving DecidableEq, Repr

/-- One neighbour entry of an LSA (R335). -/
structure LsaNbr where
  addr    : BitVec 12
  ownPort : Byte
  nbrPort : Byte
  cost    : BitVec 16
  deriving DecidableEq, Repr

/-- A link-state advert (R335). -/
structure Lsa where
  origin   : BitVec 12
  flags    : BitVec 16
  nodeId   : BitVec 64
  aseq     : Word
  claimAge : Word
  partner  : BitVec 12
  nbrs     : List LsaNbr
  deriving DecidableEq, Repr

/-- One actuator's part of an ALIGN frame (R368). -/
structure AlignAct where
  act    : Fin 4
  ac     : BitVec 22
  state  : BitVec 4
  integ  : Int
  vcm    : Int
  notch1 : Int
  notch2 : Int
  heads  : List (Fin 64 × Int × Int × Int)
  deriving DecidableEq, Repr

/-- One change of queue state, as a QSTATE frame carries it (R369). -/
inductive QChange where
  | qp (q : Fin 128) (state : BitVec 2) (log2 : BitVec 4) (vector : Byte) (ien : Bool) (rights : BitVec 6) (sq cq : BitVec 64)
  | fetch (q : Fin 128) (idx : Nat)
  | fetched (q : Fin 128) (bytes : List Byte)
  | awp (zone : Nat) (awp : Nat)
  | admission (q : Fin 128) (tag : BitVec 16) (csec : Word) (act : Fin 4) (reserved : Nat) (bufs : List Nat)
  | dataIn (csec : Word)
  | rtag (rtag : BitVec 16)
  | e2eRx (src : BitVec 12) (next : Nat)
  | posting (q : Fin 128) (tag status : BitVec 16) (result : BitVec 64)
  | posted (q : Fin 128) (tag : BitVec 16)
  deriving DecidableEq, Repr

/-- The commands of the block. Each constructor's docstring is its row of spec/opcode_table.json. -/
inductive Instr where
  /-- INDEX (R9). The shaft angle wraps from 4,194,303 to 0, which makes the index event in LOCKED or COAST. -/
  | index (period : Nat)
  /-- ANGLE_WORD (R15). A valid angle word arrives from reader C, and the ATB corrects its phase or counts towards ACQUIRE. -/
  | angleWord (head : Fin 64) (w : BitVec 48)
  /-- COAST_ENTRY (R14). 8,192 AC pass in LOCKED without a valid reference word and the ATB enters COAST. -/
  | coastEntry
  /-- COAST_MAX_EXPIRY (R14). COAST_MAX angle-word intervals pass in COAST without a valid reference word and the ATB goes to ACQUIRE. -/
  | coastMaxExpiry
  /-- ATB_NOW_AC_READ (R17). A read of ATB_NOW_AC returns the shaft angle and latches ATB_REV into ATB_NOW_REV. -/
  | atbNowAcRead
  /-- SEQ_CTX_READ (R168). A read of SEQ_CTXn returns the context state and clears RQ_MAX. -/
  | seqCtxRead (ctx : Fin 5)
  /-- EVR_STATUS_READ (R422). A read of EVR_STATUS returns the recorder state and clears QMAX. -/
  | evrStatusRead
  /-- CUTOFF (R19). The shaft angle reaches 4,194,304 − RPL_CUTOFF and the planner freezes its work list for the next revolution. -/
  | cutoff
  /-- RPL_COMMIT (R20). The planner commits the pending banks of one actuator's four channels in a single action. -/
  | rplCommit (act : Fin 4) (plan : List PlanSlot)
  /-- SLOT_DEADLINE (R24). The shaft angle reaches a slot's deadline and the sequencer samples its READY bit. -/
  | slotDeadline (act : Fin 4) (start : BitVec 22)
  /-- BUFFER_GRANT (R146). The BUF grants a freed media buffer to a waiting read slot and sends its completion pulse. -/
  | bufferGrant (ch : Fin 16) (bank : Bool) (idx : Fin 1536)
  /-- COMPLETION_PULSE (R240). A DMA transfer ends and sends its single completion pulse, setting a slot's READY bit where named. -/
  | completionPulse (n : Fin 32)
  /-- SLOT_START (R153). A slot's start angle arrives and its armed read, write or seek opens exactly then. -/
  | slotStart (ch : Fin 16) (idx : Fin 1536)
  /-- SLOT_END (R423). An executing slot reaches its END angle and its class and PASSED counters are incremented. -/
  | slotEnd (ch : Fin 16) (idx : Fin 1536)
  /-- REGISTER_WRITE (R453). A write to a register without behaviour of its own is judged field by field and applied. -/
  | registerWrite (w : Writer) (off : BitVec 16) (data : List Word)
  /-- SYSTEM_DIRECTORY_LOAD (R67). At power-up the part reads the system directory, Geometry Table and calibration records through the heads. -/
  | systemDirectoryLoad (found : List SysRec)
  /-- SYSREC_STAGE (R72). A STAGE message places record bytes into the system-record staging area. -/
  | sysrecStage (via : Via) (ofs : Word) (bytes : List Byte)
  /-- SYSREC_COMMIT (R72). A COMMIT message checks the staged record and starts writing it to every named surface. -/
  | sysrecCommit (via : Via) (cp2 len : Word)
  /-- SYSREC_WRITTEN (R72). Every copy of a committed record has been written and read back, and the record comes into force. -/
  | sysrecWritten (ok : Bool)
  /-- SYSREC_READ (R72). A READ message returns bytes of the system record in force. -/
  | sysrecRead (via : Via) (cp2 ofs count : Word)
  /-- PES_SAMPLE (R73). A head reaches a multiple of 1,024 AC of media angle and the SRV forms its position and PES. -/
  | pesSample (head : Fin 64) (a1 a2 : BitVec 16)
  /-- VCM_UPDATE (R75). Once per 1,024 AC the actuator's VCM loop updates and sends a VCM frame over the MDL. -/
  | vcmUpdate (act : Fin 4)
  /-- OFF_TRACK (R88). A head coasts for more than STRIPE_COAST samples, becomes off track and loses its remaining slots. -/
  | offTrack (head : Fin 64)
  /-- SEEK_ARRIVAL (R81). A seek arrives at its new track and the actuator enters SETTLING. -/
  | seekArrival (act : Fin 4)
  /-- SHOCK_ASSERT (R87). SHOCK_N goes low while enabled and every write gate turns off within 100 ns. -/
  | shockAssert
  /-- SHOCK_HOLD_EXPIRY (R87). SHOCK_N has been high for SHOCK_HOLD samples and the shock hold ends. -/
  | shockHoldExpiry
  /-- ACT_PARK_CMD (R96). SRV_ACTCMDn.CMD = 1 requests a park of the actuator. -/
  | actParkCmd (w : Writer) (act : Fin 4)
  /-- ACT_UNPARK_CMD (R97). SRV_ACTCMDn.CMD = 2 requests an unpark of the actuator. -/
  | actUnparkCmd (w : Writer) (act : Fin 4)
  /-- UNPARK_TIMEOUT (R97). The actuator has not reached FOLLOWING within 1 s of the load command and the SRV unloads. -/
  | unparkTimeout (act : Fin 4)
  /-- UNPARK_RETRY (R97). 500 ms after a failed load the SRV tries again, or after three attempts leaves the actuator PARKED. -/
  | unparkRetry (act : Fin 4)
  /-- SSW_SEED_CHECK (R99). Servo-writing operation 1 checks the seed band and measures PES_GAIN. -/
  | sswSeedCheck (w : Writer) (act : Fin 4)
  /-- SSW_PROPAGATE (R99). Servo-writing operation 2 writes and checks stripes track by track from the seed band. -/
  | sswPropagate (w : Writer) (act : Fin 4)
  /-- SSW_VERIFY (R99). Servo-writing operation 3 reads every stripe and enters skips for bad positions. -/
  | sswVerify (w : Writer) (act : Fin 4)
  /-- SSW_CALIBRATE (R99). Servo-writing operation 4 measures offsets, strokes, gains and seek angles and writes the calibration record. -/
  | sswCalibrate (w : Writer) (act : Fin 4)
  /-- SSW_PAUSE (R99). Operation 14 stops the running operation at the end of its current track. -/
  | sswPause (w : Writer) (act : Fin 4)
  /-- SSW_ABORT (R99). Operation 15 stops the running operation at the end of the current revolution. -/
  | sswAbort (w : Writer) (act : Fin 4)
  /-- SSW_DONE (R99). A servo-writing operation finishes, and SRV_SSW_STATUS shows its result. -/
  | sswDone (ok : Bool) (rec : List Byte) (skips : List (Fin 64 × Nat × Nat))
  /-- SPIN_TICK (R100). Every 2 µs of crystal time the part sends a SPIN frame to the motor stage. -/
  | spinTick
  /-- ISENSE (R100). An ISENSE frame of phase currents arrives from the motor stage. -/
  | isense (frame : BitVec 64)
  /-- VSENSE (R100). A VSENSE frame of phase voltages arrives, giving back-EMF speed when tri-stated. -/
  | vsense (frame : BitVec 64)
  /-- MDL_STATUS (R100). A STATUS frame arrives with the parked mask, faults and motor supply. -/
  | mdlStatus (frame : BitVec 64)
  /-- MDL_LOST (R103). No valid frame arrives from the stage for 8 µs; write gates off, slots abandoned, SPN to FAULT. -/
  | mdlLost
  /-- PREHEAT_TICK (R108). Once a second in PREHEAT the part reads TEMP_HDA, moves the current path and ends pre-heat at THRESH. -/
  | preheatTick
  /-- PREHEAT_TIMEOUT (R108). MAX_S seconds pass in pre-heat before THRESH; COLD is set and an event recorded. -/
  | preheatTimeout
  /-- ALIGN_DONE (R104). The 500 ms DC alignment ends and the SPN enters RAMP. -/
  | alignDone
  /-- SPEED_LOCK (R105). Speed stays within ±0.1 % for 64 revolutions; the SPN enters LOCKED and sets GEN_READY bit 11. -/
  | speedLock (period : Nat)
  /-- SPINUP_TIMEOUT (R105). Commutation or speed lock does not come within its bound; the part brakes, returns its token and counts a failure. -/
  | spinupTimeout (lock : Bool)
  /-- SPINUP_RETRY (R105). 10 s after a failed spin-up the part tries again, or enters FAULT after three failures. -/
  | spinupRetry
  /-- SPEED_LOCK_LOSS (R106). Speed error exceeds ±0.1 % for 16 revolutions and speed lock is withdrawn. -/
  | speedLockLoss
  /-- BRAKE_DONE (R104). In STOPPING the measured speed falls below 1 % of the target and the SPN enters OFF. -/
  | brakeDone
  /-- SPEED_CHANGE_DONE (R107). The CHANGING ramp reaches the new speed; the part stores RPM and reports speed lock. -/
  | speedChangeDone
  /-- TOKEN_REQUEST_REPEAT (R110). Every 1 s while waiting, the module repeats its token request to the shift boss. -/
  | tokenRequestRepeat
  /-- TOKEN_RETURN_TIMER (R111). 1 s after speed lock or a completed speed change, the module returns its token. -/
  | tokenReturnTimer
  /-- TOKEN_LEASE_EXPIRY (R111). A token held for LEASE_S seconds is reclaimed by the shift boss. -/
  | tokenLeaseExpiry (slot : Fin 16)
  /-- BOSS_HOLD_EXPIRY (R112). 500 ms after taking office a new shift boss begins to grant tokens. -/
  | bossHoldExpiry
  /-- SOLO_WAIT_EXPIRY (R113). A module with no fabric link up grants itself a token after SOLO_WAIT and sets SOLO. -/
  | soloWaitExpiry
  /-- PHASE_REF_SEND (R350). Every 64 revolutions at its index the shift boss broadcasts PHASE_REF. -/
  | phaseRefSend
  /-- PHASE_REF_LOSS (R114). No phase reference arrives for 256 revolutions; PHASE_LOCKED clears and the untrimmed speed holds. -/
  | phaseRefLoss
  /-- PFAIL_ASSERT (R115). PFAIL_N has been low for 1 µs; gates off, slots abandoned, PARK and SPIN MODE 0 sent, SPN to PFAIL. -/
  | pfailAssert
  /-- PFAIL_DEASSERT (R116). PFAIL_N rises again and the part waits for parked actuators and 100 ms high. -/
  | pfailDeassert
  /-- PFAIL_RECOVER (R116). With every actuator parked and PFAIL_N high for 100 ms the SPN leaves PFAIL for OFF or FAULT. -/
  | pfailRecover
  /-- TEMP_SAMPLE (R469). Every 100 ms the thermistor is converted into SPN_TEMP. -/
  | tempSample (t : BitVec 16)
  /-- READ_BLOCK_END (R133). A read block's decode ends with DEC_OK or DEC_FAIL and its result enters the result queue. -/
  | readBlockEnd (ch : Fin 16) (bank : Bool) (idx : Fin 1536) (r : ReadRes)
  /-- VERIFY_RESULT (R137). A written block's verify ends VERIFY_OK or VERIFY_FAIL, tagged with its bank index. -/
  | verifyResult (ch : Fin 16) (bank : Bool) (idx : Fin 1536) (r : VerifyRes)
  /-- L1_DONE (R129). The recovery engine ends L1 for a retained block, succeeding or passing it to the recovery list. -/
  | l1Done (act : Fin 4) (ok : Bool) (info : List Byte)
  /-- CH_FENCE_REQ (R142). A write of CHn_CTL.FENCE_REQ asks for a fence or its release. -/
  | chFenceReq (w : Writer) (ch : Fin 16) (on : Bool)
  /-- CH_BIST_MEMORY (R143). Self-test 1 march-tests the channel's memories. -/
  | chBistMemory (w : Writer) (ch : Fin 16)
  /-- CH_BIST_ADC (R143). Self-test 2 checks the A and B ADCs against internal levels. -/
  | chBistAdc (w : Writer) (ch : Fin 16)
  /-- CH_BIST_LOOPBACK (R143). Self-test 3 encodes, equalises and decodes 64 ideal blocks. -/
  | chBistLoopback (w : Writer) (ch : Fin 16)
  /-- CH_BIST_DECODER (R143). Self-test 4 decodes stored codewords with known error patterns. -/
  | chBistDecoder (w : Writer) (ch : Fin 16)
  /-- CH_BIST_ALL (R143). TEST 15 runs all four self-tests in order. -/
  | chBistAll (w : Writer) (ch : Fin 16)
  /-- CH_BIST_ABORT (R143). TEST 14 aborts the running self-test. -/
  | chBistAbort (w : Writer) (ch : Fin 16)
  /-- CH_BIST_DONE (R143). A channel self-test ends and CHn_BIST_RES shows pass or fail. -/
  | chBistDone (ch : Fin 16) (failed : BitVec 4)
  /-- GROUP_DISPATCH (R149). A context runs the vector for the next slot group once its deadline has passed. -/
  | groupDispatch (ctx : Fin 5)
  /-- HARVEST (R149). A context runs the HARVEST vector once for the oldest result. -/
  | harvest (ctx : Fin 5)
  /-- TRAP (R161). A pending trap cause is taken, the trap frame saved and its vector run. -/
  | trap (ctx : Fin 5)
  /-- NOP (R154). Micro-op NOP does nothing for one cycle. -/
  | nop (ctx : Fin 5)
  /-- ISSUE (R154). Micro-op ISSUE sends a nano-word to its units and starts its HOLD count. -/
  | issue (ctx : Fin 5)
  /-- ISSUEW (R154). Micro-op ISSUEW sends a nano-word and waits for every acknowledgement. -/
  | issuew (ctx : Fin 5)
  /-- ISSUEW_ACK (R154). Every target acknowledges an ISSUEW and the routine continues. -/
  | issuewAck (ctx : Fin 5)
  /-- ISSUEW_TIMEOUT (R154). An ISSUEW timeout expires, TIMEOUT is set and the routine continues. -/
  | issuewTimeout (ctx : Fin 5)
  /-- HOLD_EXPIRY (R152). A nano-word's HOLD count expires and the context may issue again. -/
  | holdExpiry (ctx : Fin 5)
  /-- WAITA (R155). Micro-op WAITA computes a target position and waits for it. -/
  | waita (ctx : Fin 5)
  /-- WAITA_REACHED (R155). The position reaches the WAITA target and the routine continues. -/
  | waitaReached (ctx : Fin 5)
  /-- WAITC (R154). Micro-op WAITC waits for a flag to be set or clear. -/
  | waitc (ctx : Fin 5)
  /-- WAITC_MET (R154). The awaited flag reaches its value and the routine continues. -/
  | waitcMet (ctx : Fin 5)
  /-- WAITC_TIMEOUT (R154). A WAITC timeout in AC expires and TIMEOUT is set. -/
  | waitcTimeout (ctx : Fin 5)
  /-- BR (R154). Micro-op BR branches on a flag. -/
  | br (ctx : Fin 5)
  /-- JMP (R154). Micro-op JMP branches unconditionally. -/
  | jmp (ctx : Fin 5)
  /-- CALL (R154). Micro-op CALL pushes the return address and branches. -/
  | callOp (ctx : Fin 5)
  /-- RET (R154). Micro-op RET pops the stack or ends the routine. -/
  | ret (ctx : Fin 5)
  /-- LOOP (R154). Micro-op LOOP decrements a loop counter and branches while non-zero. -/
  | loopOp (ctx : Fin 5)
  /-- LDC (R154). Micro-op LDC loads a loop counter. -/
  | ldc (ctx : Fin 5)
  /-- SETF (R154). Micro-op SETF sets a writable flag. -/
  | setf (ctx : Fin 5)
  /-- CLRF (R154). Micro-op CLRF clears a writable flag. -/
  | clrf (ctx : Fin 5)
  /-- EVT (R158). Micro-op EVT queues an event record with code 0x4800 + A. -/
  | evt (ctx : Fin 5)
  /-- TRAPRET (R162). Micro-op TRAPRET restores the trap frame and resumes the interrupted routine. -/
  | trapret (ctx : Fin 5)
  /-- HALT (R154). Micro-op HALT stops the context and sets SEQ_ERR.HALT. -/
  | halt (ctx : Fin 5)
  /-- MICROCODE_BOOT (R166). At power-up the part reads and checks the primary then alternate image and runs INIT. -/
  | microcodeBoot (primary alternate : List Byte)
  /-- MICROCODE_INSTALL (R167). At the first index with every bank and queue empty, the accepted image is loaded and INIT runs. -/
  | microcodeInstall
  /-- RECONSTRUCT_DONE (R183). The XTP delivers a rebuilt block after the last member payload arrives. -/
  | reconstructDone (act : Fin 4)
  /-- XTP_FENCE_REQ (R181). A write of XTP_CTL.FENCE_REQ asks for an XTP fence or its release. -/
  | xtpFenceReq (w : Writer) (on : Bool)
  /-- CHUNK_COMPRESS_DONE (R200). A compression engine finishes a chunk and the packer places it in chunk order. -/
  | chunkCompressDone (k : Fin 4) (deflated : Nat)
  /-- CMP_OUTPUT_RESUME (R201). Space appears in a stalled engine's output path and it resumes bit-exact. -/
  | cmpOutputResume (k : Fin 4)
  /-- CRY_UNIT_DONE (R205). A crypto lane finishes encrypting or decrypting one data unit. -/
  | cryUnitDone (lane : Fin 4)
  /-- DECOMPRESS_DONE (R212). A decompression ends; the chunk passes LCRC or fails with DECOMPRESS_LIMIT or DATA_INTEGRITY. -/
  | decompressDone (k : Fin 4)
  /-- CMP_FENCE_REQ (R202). A write of CMP_CTL.FENCE_REQ asks for an engine fence or release. -/
  | cmpFenceReq (w : Writer) (mask : BitVec 4)
  /-- CRY_FENCE_REQ (R205). A write of CRY_CTL.FENCE_REQ asks for a lane fence or release. -/
  | cryFenceReq (w : Writer) (mask : BitVec 4)
  /-- COMMIT_RECORD_WRITE (R215). Once every block has verified and earlier units committed, the unit's commit record is written. -/
  | commitRecordWrite (csec : Word) (ok1 ok2 : Bool)
  /-- CHECKPOINT_DONE (R217). Every checkpoint copy is written and read back, and a type-4 record is written. -/
  | checkpointDone
  /-- COPY_IN_PLACE_DONE (R219). Every target of a staged unit is written and verified, and a type-3 record is written. -/
  | copyInPlaceDone (csec : Word)
  /-- JOURNAL_REPLAY (R221). At power-up the part replays the journal over the newest checkpoint and sets GEN_READY bit 21. -/
  | journalReplay (partner : List (List Byte))
  /-- BUF_INIT_DONE (R229). Memory training and zeroing complete, retired pages apply and GEN_READY bit 2 is set. -/
  | bufInitDone
  /-- SHEEPDOG_STEP (R235). The sheepdog reads the next granule and acts on any error. -/
  | sheepdogStep (syn : List Byte) (partnerOk : Bool)
  /-- SHEEPDOG_REWRITE (R233). A log entry reaching CE_THR has its granule rewritten at priority and REWRITTEN set. -/
  | sheepdogRewrite (idx : Fin 64)
  /-- DMA_BURST (R239). At a burst end the DMA engine arbitrates and moves the next burst. -/
  | dmaBurst (syn : List Byte)
  /-- DMA_PAUSE_WRITE (R242). A write of DMA_PAUSE pauses or resumes DMA channels. -/
  | dmaPauseWrite (w : Writer) (mask : Word)
  /-- DMA_PAUSE_DRAINED (R242). A paused channel completes its read bursts and sets DMA_PAUSED. -/
  | dmaPauseDrained (n : Fin 32)
  /-- MAP_FILL_DONE (R246). A map cache miss fill completes its line. -/
  | mapFillDone (line : BitVec 24) (syn : List Byte)
  /-- MAP_CLEAN (R248). Maintenance CLEAN writes back a dirty line. -/
  | mapClean (w : Writer)
  /-- MAP_CLEAN_INV (R248). Maintenance CLEAN_INV cleans then invalidates a line. -/
  | mapCleanInv (w : Writer)
  /-- MAP_ZERO (R248). Maintenance ZERO allocates a line of zeros, dirty. -/
  | mapZero (w : Writer)
  /-- MAP_LOCK_FILL (R248). Maintenance LOCK_FILL fills a line into an invalid locked way. -/
  | mapLockFill (w : Writer)
  /-- MAP_CLEAN_ALL (R248). Maintenance CLEAN_ALL cleans every line. -/
  | mapCleanAll (w : Writer)
  /-- MAP_CLEAN_INV_ALL (R248). Maintenance CLEAN_INV_ALL cleans and invalidates every line. -/
  | mapCleanInvAll (w : Writer)
  /-- MAP_MAINT_DONE (R248). A map maintenance operation completes and BUSY clears. -/
  | mapMaintDone
  /-- MAP_DISABLE (R250). A write of 0 to MAP_CTL.ENABLE starts a clean of every dirty line. -/
  | mapDisable (w : Writer)
  /-- MAP_DISABLE_DONE (R250). The disable clean completes; lines invalid, ENABLE reads 0. -/
  | mapDisableDone
  /-- BUF_DIAG_WRITE (R236). A write of BUF_DIAG sets diagnostic mode and writes an audit record. -/
  | bufDiagWrite (w : Writer) (v : Word)
  /-- LOCATOR_INDEX_BUILD_DONE (R254). A zone's locator index finishes building by walking PREV_LB. -/
  | locatorIndexBuildDone (zone : Nat) (ok : Bool) (locs : List Locator)
  /-- PERST_ASSERT (R261). PERST_N asserts; every QP returns to DISABLED and outstanding commands end without completion. -/
  | perstAssert
  /-- PERST_DEASSERT (R260). PERST_N rises and the endpoint becomes ready within 100 ms. -/
  | perstDeassert
  /-- FUNCTION_LEVEL_RESET (R261). A Function Level Reset resets the HQI and ends outstanding commands. -/
  | functionLevelReset
  /-- HOT_RESET (R261). A PCIe hot reset resets the HQI and ends outstanding commands. -/
  | hotReset
  /-- HQI_ENABLE (R263). A write of 1 to HQI_CTL.EN makes QP0 ACTIVE. -/
  | hqiEnable (w : Writer)
  /-- HQI_DISABLE (R263). A write of 0 to HQI_CTL.EN returns every QP to DISABLED. -/
  | hqiDisable (w : Writer)
  /-- GW_ENABLE (R275). A write of 1 to HQI_CTL.GW_EN starts gateway polling. -/
  | gwEnable (w : Writer)
  /-- GW_DISABLE (R275). A write of 0 to HQI_CTL.GW_EN stops gateway polling. -/
  | gwDisable (w : Writer)
  /-- GW_POLL_PASS (R275). The poll wait expires and the gateway reads the doorbell summary. -/
  | gwPollPass
  /-- SUMMARY_READ_DONE (R275). The summary read returns and each non-zero word is swapped with 0. -/
  | summaryReadDone (words : Option (List (BitVec 64)))
  /-- SUMMARY_SWAP_DONE (R275). A summary Swap completes and each set bit sends a doorbell hint. -/
  | summarySwapDone (word : Fin 64) (old : BitVec 64)
  /-- SWAP_TIMEOUT (R276). A Swap fails or is not completed within 50 ms and polling stops. -/
  | swapTimeout (status : Byte)
  /-- DOORBELL_PAGE_READ_DONE (R277). The doorbell page read returns; tails and heads are compared and fetches start. -/
  | doorbellPageReadDone (page : Option (List (BitVec 16 × BitVec 16)))
  /-- DESCRIPTOR_READ_DONE (R280). A descriptor read completes and each entry is checked and admitted. -/
  | descriptorReadDone (qp : Fin 128) (entries : Option (List (List Byte)))
  /-- COMPLETION_POST (R283). The Completion Poster writes a completion entry when the CQ has room. -/
  | completionPost
  /-- CQ_FULL_POLL (R271). While completions wait for a full CQ the part re-reads its doorbell page every IDLE_US. -/
  | cqFullPoll
  /-- HOLD_TIMEOUT (R434). A held command completes NOT_READY when its bound, failure or HOLD_S passes. -/
  | holdTimeout (qp : Fin 128) (tag : BitVec 16)
  /-- IDENTIFY (R313). IDENTIFY returns the 4,096-byte module page. -/
  | identify (tag : BitVec 16)
  /-- CREATE_QP (R314). CREATE QP makes a DISABLED QP ACTIVE with its rings, vector and rights. -/
  | createQp (tag : BitVec 16)
  /-- DELETE_QP (R288). DELETE QP aborts the QP's outstanding commands, posts them and disables the QP. -/
  | deleteQp (tag : BitVec 16)
  /-- GET_LOG (R316). GET LOG returns bytes of a log page. -/
  | getLog (tag : BitVec 16)
  /-- GET_COUNTERS (R317). GET COUNTERS returns counters from a private snapshot. -/
  | getCounters (tag : BitVec 16)
  /-- SET_RIGHTS (R314). SET RIGHTS replaces a QP's rights mask. -/
  | setRights (tag : BitVec 16)
  /-- ABORT (R285). ABORT ends a target command at the Completion Poster. -/
  | abortCmd (tag : BitVec 16)
  /-- SELF_TEST_SHORT (R318). A short self-test fences and tests each channel, engine, lane and the XTP in turn. -/
  | selfTestShort (tag : BitVec 16)
  /-- SELF_TEST_EXTENDED (R318). An extended self-test adds a verify scan of one track per head per band. -/
  | selfTestExtended (tag : BitVec 16)
  /-- SELF_TEST_ABORT (R318). SELF-TEST 15 ends the running self-test. -/
  | selfTestAbort (tag : BitVec 16)
  /-- SET_POWER_STATE (R439). POWER CONTROL action 1 changes the power state. -/
  | setPowerState (tag : BitVec 16)
  /-- DOMAINS_OFF (R436). POWER CONTROL action 2 turns named domains off once held work drains. -/
  | domainsOff (tag : BitVec 16)
  /-- DOMAINS_ON (R437). POWER CONTROL action 3 turns named domains on. -/
  | domainsOn (tag : BitVec 16)
  /-- DOMAIN_SWITCH_DONE (R436). A domain finishes switching, and its request completes. -/
  | domainSwitchDone
  /-- POWER_PARK (R96). POWER CONTROL action 4 requests a park of named actuators. -/
  | powerPark (tag : BitVec 16)
  /-- POWER_UNPARK (R97). POWER CONTROL action 5 unparks named actuators. -/
  | powerUnpark (tag : BitVec 16)
  /-- SPIN_UP (R104). POWER CONTROL action 6 clears failed attempts and spins up. -/
  | spinUp (tag : BitVec 16)
  /-- SPIN_DOWN (R439). POWER CONTROL action 7 spins the spindle down. -/
  | spinDown (tag : BitVec 16)
  /-- LOCATE_ON (R443). SERVICE action 1 turns locate on. -/
  | locateOn (tag : BitVec 16)
  /-- LOCATE_OFF (R443). SERVICE action 2 turns locate off. -/
  | locateOff (tag : BitVec 16)
  /-- SAFE_REMOVAL_REQUEST (R444). SERVICE action 3 starts safe removal. -/
  | safeRemovalRequest (tag : BitVec 16)
  /-- SAFE_REMOVAL_CANCEL (R444). SERVICE action 4 cancels a PREPARING or SAFE removal. -/
  | safeRemovalCancel (tag : BitVec 16)
  /-- MICROCODE_LOAD (R167). MICROCODE LOAD takes and checks an image while media work continues. -/
  | microcodeLoad (tag : BitVec 16) (image : List Byte)
  /-- SANITIZE_CRYPTO_ERASE_ALL (R395). SANITIZE action 1 replaces every range key and empties every zone. -/
  | sanitizeCryptoEraseAll (tag : BitVec 16)
  /-- SANITIZE_CRYPTO_ERASE_RANGE (R395). SANITIZE action 2 replaces one range key and empties its zones. -/
  | sanitizeCryptoEraseRange (tag : BitVec 16)
  /-- SANITIZE_OVERWRITE (R395). SANITIZE action 3 crypto-erases, then DC-erases every data and staging track. -/
  | sanitizeOverwrite (tag : BitVec 16)
  /-- FABRIC_QUERY (R355). FABRIC QUERY returns a fabric page. -/
  | fabricQuery (tag : BitVec 16)
  /-- READ (R306). READ transfers host blocks from a zone. -/
  | readBlocks (qp : Fin 128) (tag : BitVec 16)
  /-- VERIFY (R306). VERIFY reads host blocks without transferring them. -/
  | verifyBlocks (qp : Fin 128) (tag : BitVec 16)
  /-- ZONE_WRITE (R308). ZONE WRITE writes host blocks at the admitted write pointer as one commit unit. -/
  | zoneWrite (qp : Fin 128) (tag : BitVec 16)
  /-- ZONE_APPEND (R308). ZONE APPEND writes host blocks at AWP and returns where they landed. -/
  | zoneAppend (qp : Fin 128) (tag : BitVec 16)
  /-- ZONE_OPEN (R310). ZONE MANAGE OPEN takes an open-zone slot. -/
  | zoneOpen (qp : Fin 128) (tag : BitVec 16)
  /-- ZONE_CLOSE (R310). ZONE MANAGE CLOSE waits for commits and closes the zone. -/
  | zoneClose (qp : Fin 128) (tag : BitVec 16)
  /-- ZONE_FINISH (R310). ZONE MANAGE FINISH makes the zone FULL. -/
  | zoneFinish (qp : Fin 128) (tag : BitVec 16)
  /-- ZONE_RESET (R310). ZONE MANAGE RESET empties the zone and frees its groups. -/
  | zoneReset (qp : Fin 128) (tag : BitVec 16)
  /-- ZONE_OFFLINE (R310). ZONE MANAGE OFFLINE resets the zone and holds it OFFLINE. -/
  | zoneOffline (qp : Fin 128) (tag : BitVec 16)
  /-- ZONE_REPORT (R311). ZONE REPORT returns entries for matching zones. -/
  | zoneReport (qp : Fin 128) (tag : BitVec 16)
  /-- FLUSH (R299). FLUSH completes when every covered earlier unit has committed. -/
  | flush (qp : Fin 128) (tag : BitVec 16)
  /-- PEER_MOVE (R312). PEER MOVE reads blocks and appends them to a zone of another module. -/
  | peerMove (qp : Fin 128) (tag : BitVec 16)
  /-- CONV_READ (R307). CONV READ reads conventional blocks through remaps and staging. -/
  | convRead (qp : Fin 128) (tag : BitVec 16)
  /-- CONV_WRITE (R309). CONV WRITE writes conventional blocks as one staged unit. -/
  | convWrite (qp : Fin 128) (tag : BitVec 16)
  /-- AUTH_CHALLENGE (R382). AUTH CHALLENGE draws a new nonce and challenge ID for the channel. -/
  | authChallenge (via : Via)
  /-- AUTH_RESPONSE (R382). AUTH RESPONSE verifies a signature and opens a session. -/
  | authResponse (via : Via) (role : Byte) (cid : Word) (sig : List Byte)
  /-- AUTH_END (R384). AUTH END ends the session. -/
  | authEnd (via : Via) (sess : Fin 16)
  /-- AUTH_SET_KEY (R381). AUTH SET_KEY sets a role's public key. -/
  | authSetKey (via : Via) (role : Byte) (cid : Word) (key sig : List Byte)
  /-- INTEGRATE (R376). LIFECYCLE INTEGRATE moves BLANK to INTEGRATION. -/
  | integrate (via : Via) (key : List Byte)
  /-- CLAIM (R376). LIFECYCLE CLAIM moves INTEGRATION to FIELDED. -/
  | claim (via : Via) (key : List Byte) (cid : Word) (sig : List Byte)
  /-- RETURN (R376). LIFECYCLE RETURN moves FIELDED to INTEGRATION. -/
  | returnLifecycle (via : Via)
  /-- DECOMMISSION (R397). LIFECYCLE DECOMMISSION zeroises the keys and enters DECOMMISSIONED. -/
  | decommission (via : Via)
  /-- CONSENT (R383). LIFECYCLE CONSENT gives or withdraws maker consent. -/
  | consent (via : Via) (seconds : Word)
  /-- COMMIT_SVN (R390). LIFECYCLE COMMIT_SVN raises the ISVN or FSVN minimum. -/
  | commitSvn (via : Via) (firmware : Bool)
  /-- KEYS_CREATE (R386). KEYS CREATE generates a range key and unlocks it. -/
  | keysCreate (via : Via) (range : Byte) (autolock : Bool)
  /-- KEYS_LOCK (R387). KEYS LOCK waits for the range's work and removes its key from the lanes. -/
  | keysLock (via : Via) (range : Byte)
  /-- KEYS_UNLOCK (R386). KEYS UNLOCK unwraps a range key into the lanes. -/
  | keysUnlock (via : Via) (range : Byte)
  /-- KEYS_DESTROY (R386). KEYS DESTROY overwrites a range key and unconfigures it. -/
  | keysDestroy (via : Via) (range : Byte)
  /-- KEYS_SET_CONV (R386). KEYS SET_CONV names the conventional range. -/
  | keysSetConv (via : Via) (range : Byte)
  /-- KEYS_QUERY (R381). KEYS QUERY returns the state of every range. -/
  | keysQuery (via : Via)
  /-- PEERCERT_ANCHOR (R381). PEERCERT ANCHOR sets the operator peer-move anchor key. -/
  | peercertAnchor (via : Via) (key : List Byte)
  /-- PEERCERT_DEVICE_KEY (R381). PEERCERT DEVICE_KEY returns the NODE_ID and device public key. -/
  | peercertDeviceKey (via : Via)
  /-- PEERCERT_CERT (R389). PEERCERT CERT sets the peer-move certificate. -/
  | peercertCert (via : Via) (cert : List Byte)
  /-- FIRMWARE_CHUNK (R391). FIRMWARE CHUNK writes image bytes to the alternate area. -/
  | firmwareChunk (via : Via) (ofs : Word) (bytes : List Byte)
  /-- FIRMWARE_FINISH (R391). FIRMWARE FINISH checks the image and swaps the areas when it passes. -/
  | firmwareFinish (via : Via) (good : Bool) (fsvn : Word) (keySlot : Fin 4)
  /-- MAILBOX_GO (R402). A write of CRY_MBOX_CTL.GO runs the mailbox request. -/
  | mailboxGo (w : Writer)
  /-- MAILBOX_RELEASE (R402). A write of RELEASE frees the mailbox. -/
  | mailboxRelease (w : Writer)
  /-- MAILBOX_TIMEOUT (R402). 1 s after a response without access from the claimant the mailbox is freed. -/
  | mailboxTimeout
  /-- SESSION_IDLE_TIMEOUT (R384). A session unused for 900 s ends. -/
  | sessionIdleTimeout (sess : Fin 16)
  /-- CHALLENGE_EXPIRY (R382). A challenge expires 30 s after it was drawn. -/
  | challengeExpiry (chan : Chan) (src : BitVec 12)
  /-- CONSENT_EXPIRY (R383). Maker consent runs out and every maker session ends. -/
  | consentExpiry
  /-- LOCKOUT_EXPIRY (R384). An authentication refusal period ends. -/
  | lockoutExpiry (role : Fin 4)
  /-- ENTROPY_HEALTH_FAIL (R392). A continuous entropy test fails. -/
  | entropyHealthFail
  /-- PORT_TRAINED (R321). A port completes training and lock, and starts HELLO. -/
  | portTrained (port : Fin 5)
  /-- TRAINING_TIMEOUT (R321). A port not locked within 500 ms restarts training. -/
  | trainingTimeout (port : Fin 5)
  /-- HELLO_TICK (R321). Every 100 µs in HELLO the port sends a HELLO. -/
  | helloTick (port : Fin 5)
  /-- HELLO (R321). A HELLO arrives and the port measures link delay, or detects a self-loop. -/
  | hello (port : Fin 5) (nodeId : BitVec 64) (addr : BitVec 12) (nport : Byte) (pairState : Byte) (inst : BitVec 16)
  /-- HEARTBEAT_TICK (R326). Every 2 µs the part sends a HEARTBEAT on each UP lane. -/
  | heartbeatTick
  /-- HEARTBEAT (R326). A HEARTBEAT arrives carrying ACK and credit. -/
  | heartbeat (port : Fin 5) (h : LinkHdr)
  /-- DELAY_TICK (R326). Once a second the part sends DELAY_REQ. -/
  | delayTick
  /-- DELAY_REQ (R326). A DELAY_REQ arrives and is answered with DELAY_RESP. -/
  | delayReq (port : Fin 5) (t1 t2 : BitVec 64)
  /-- DELAY_RESP (R326). A DELAY_RESP arrives and the link delay is updated, bringing the port UP. -/
  | delayResp (port : Fin 5) (t1 t2 t3 t4 : BitVec 64)
  /-- LINK_PACKET (R324). A sequenced packet arrives, is checked and is taken, forwarded or NAKed. -/
  | linkPacket (port : Fin 5) (h : LinkHdr) (crc : LCrc) (p : Pkt)
  /-- LINK_NAK (R324). A NAK arrives and the sender replays its unacknowledged packets. -/
  | linkNak (port : Fin 5) (h : LinkHdr)
  /-- ACK_TIMEOUT (R324). ACK has not advanced for 4 µs and the sender replays. -/
  | ackTimeout (port : Fin 5)
  /-- PORT_DOWN (R339). A port goes down by symbol loss, missed heartbeats, replays, fence, LEAVING or lane off. -/
  | portDown (port : Fin 5) (cause : DownCause)
  /-- PARTNER_WAIT_EXPIRY (R340). Packets for the partner's address waiting 32 µs without takeover are discarded. -/
  | partnerWaitExpiry
  /-- UP_HOLD_EXPIRY (R337). A port UP for UP_HOLD becomes eligible for routes. -/
  | upHoldExpiry (port : Fin 5)
  /-- LSA_TICK (R335). Every second the module floods its LSA. -/
  | lsaTick
  /-- LSA (R335). An LSA arrives and is stored when newer. -/
  | lsa (port : Fin 5) (l : Lsa)
  /-- LSA_EXPIRY (R335). An LSA not refreshed for 4 s is removed. -/
  | lsaExpiry (addr : BitVec 12) (nodeId : BitVec 64)
  /-- ROUTE_COMPUTE (R336). After LSAs settle, the management cores compute routes. -/
  | routeCompute
  /-- ROUTE_INSTALL_DONE (R336). Route installation completes and GEN_READY bit 7 is set. -/
  | routeInstallDone
  /-- TAKEOVER (R348). A TAKEOVER arrives and the entry for the survivor's other address is copied. -/
  | takeover (taken survivor : BitVec 12)
  /-- PHASE_REF (R114). A PHASE_REF arrives; the module trims its speed towards its slot phase. -/
  | phaseRef (src : BitVec 12) (rpm : BitVec 16) (angleAtArrival : BitVec 22)
  /-- TOKEN_REQ (R110). A token request reaches the shift boss, which queues or grants it. -/
  | tokenReq (src : BitVec 12) (shelf : Byte) (slot : Fin 16) (held : Byte)
  /-- TOKEN_GRANT (R110). A token grant arrives and the module enters ALIGN or begins its ramp. -/
  | tokenGrant (src : BitVec 12)
  /-- TOKEN_RETURN (R111). A returned token reaches the shift boss's ledger. -/
  | tokenReturn (src : BitVec 12) (shelf : Byte) (slot : Fin 16) (held : Byte)
  /-- LEDGER_QUERY (R112). A new shift boss's query arrives and the module reports its tokens. -/
  | ledgerQuery (src : BitVec 12)
  /-- LEDGER_HELD (R112). A module's report of held tokens reaches the new shift boss. -/
  | ledgerHeld (src : BitVec 12) (slot : Fin 16) (held : Byte)
  /-- DB_HINT (R277). A doorbell hint arrives and the module reads its doorbell page. -/
  | dbHint (src : BitVec 12)
  /-- RMA_READ (R346). A remote read reaches the gateway, which issues PCIe reads. -/
  | rmaRead (src : BitVec 12) (addr : BitVec 64) (len : Word) (rtag : BitVec 16)
  /-- GW_PCIE_READ_DONE (R346). A gateway PCIe read completes and RMA_RDATA is returned. -/
  | gwPcieReadDone (src : BitVec 12) (rtag : BitVec 16) (status : Byte) (ofs : Word) (last : Bool) (data : List Byte)
  /-- RMA_WRITE (R346). A remote write reaches the gateway and is issued to PCIe in order. -/
  | rmaWrite (src : BitVec 12) (addr : BitVec 64) (data : List Byte)
  /-- RMA_IRQ (R346). A remote interrupt request reaches the gateway, which sends MSI-X. -/
  | rmaIrq (src : BitVec 12) (vector : Byte)
  /-- RMA_RDATA (R345). Remote read data arrives at the requesting module. -/
  | rmaRdata (src : BitVec 12) (rtag : BitVec 16) (status : Byte) (last : Bool) (ofs : Word) (data : List Byte)
  /-- E2E_ACK (R342). An end-to-end acknowledgement arrives and frees acknowledged packets. -/
  | e2eAck (src : BitVec 12) (seq : Word)
  /-- E2E_RETX_TIMEOUT (R344). A packet unacknowledged for 16 µs is retransmitted, or the destination is declared unreachable. -/
  | e2eRetxTimeout (dst : BitVec 12)
  /-- GW_RETRY_TICK (R347). Each millisecond a module retries delivery to an unreachable gateway. -/
  | gwRetryTick
  /-- GW_HOLD_EXPIRY (R347). The gateway is unreachable for GW_HOLD seconds and outstanding commands end. -/
  | gwHoldExpiry
  /-- MGMT_RD (R354). A management read packet reads BAR0 and is answered. -/
  | mgmtRd (src : BitVec 12) (off : BitVec 16) (len : Byte)
  /-- MGMT_WR (R354). A management write packet writes BAR0 under its session and is answered. -/
  | mgmtWr (src : BitVec 12) (sess : Byte) (off : BitVec 16) (data : List Word)
  /-- MGMT_RSP (R354). A management response arrives. -/
  | mgmtRsp (src : BitVec 12) (status : Byte) (data : List Word)
  /-- PM_OPEN (R352). A peer-move open arrives and the peer accepts or refuses. -/
  | pmOpen (src : BitVec 12) (sess cp1 cp2 : Word) (flags : Byte) (pub cert sig : List Byte)
  /-- PM_ACCEPT (R352). A peer-move accept arrives and the source derives keys and sends data. -/
  | pmAccept (src : BitVec 12) (sess : Word) (pub cert sig : List Byte)
  /-- PM_DATA (R352). An encrypted peer-move data packet arrives and is authenticated. -/
  | pmData (src : BitVec 12) (sess : Word) (pno : BitVec 64) (ct tag : List Byte)
  /-- PM_DONE (R352). A peer-move done arrives; the peer appends or the source completes. -/
  | pmDone (src : BitVec 12) (sess : Word) (blocks : Nat) (status : BitVec 16) (lba : BitVec 64)
  /-- PM_REFUSE (R353). A peer-move refusal arrives and the PEER MOVE completes PEER_REFUSED. -/
  | pmRefuse (src : BitVec 12) (sess : Word) (status : BitVec 16)
  /-- PM_SESSION_TIMEOUT (R353). No packet of a session arrives for 100 ms and the peer refuses it. -/
  | pmSessionTimeout (sess : Word)
  /-- PORT_FENCE_REQ (R356). A write of FAB_PORTn_CTL.FENCE_REQ fences or releases a port. -/
  | portFenceReq (w : Writer) (port : Fin 5) (on : Bool)
  /-- CANARY_TICK (R364). Every 1 µs the module sends a canary on each UP partner lane. -/
  | canaryTick
  /-- CANARY_WINDOW (R365). A canary window ends and is counted missed or valid. -/
  | canaryWindow (l0 l1 : Option (BitVec 24))
  /-- HANDOVER_N_FALL (R363). HANDOVER_N goes low; the owner releases OWN_N and the non-owner may take ownership. -/
  | handoverNFall (byEnclosure : Bool)
  /-- OWN_PEER_RELEASE_TIMEOUT (R362). OWN_PEER_N is high for 10 µs with HANDOVER_N high, and the non-owner takes ownership. -/
  | ownPeerReleaseTimeout
  /-- SIDE_B_POWERUP_TIMEOUT (R362). Side B sees OWN_PEER_N high for 2 s after power-up and takes ownership. -/
  | sideBPowerupTimeout
  /-- OWN_CHECK (R362). 100 ns after asserting OWN_N the module samples OWN_PEER_N for a conflict. -/
  | ownCheck (peerLow : Bool)
  /-- HANDOVER_PULL_RELEASE (R363). A module pulling HANDOVER_N releases it on the new OWN_N or after 10 µs. -/
  | handoverPullRelease
  /-- TAKEOVER_SEND_AS_DRIVE (R371). 8 µs after taking OWN_N the new owner sends as the drive address and reconciles completions. -/
  | takeoverSendAsDrive (posted : List (Fin 128 × BitVec 16))
  /-- TAKEOVER_REBUILD_DONE (R371). The new owner's work list is rebuilt from the mirrored journal. -/
  | takeoverRebuildDone
  /-- PAIR_ACK (R366). A pair ACK frame arrives. -/
  | pairAck (pack : BitVec 16)
  /-- ALIGN (R368). An ALIGN frame arrives and the shadow takes the owner's servo state. -/
  | alignFrame (pseq : BitVec 16) (rev : Word) (acts : List AlignAct)
  /-- SELECT (R367). A SELECT frame arrives naming the heads the shadow follows. -/
  | selectFrame (pseq : BitVec 16) (act : Fin 4) (hs : BitVec 6) (trk : BitVec 24) (tpos : BitVec 5) (heads : List (Fin 64))
  /-- PAIR_DATA (R369). A DATA frame arrives and mirrored write data is stored. -/
  | pairData (pseq : BitVec 16) (addr : BitVec 64) (bytes : List Byte)
  /-- JRNL (R369). A JRNL frame arrives and the shadow writes and applies the commit record. -/
  | jrnl (pseq : BitVec 16) (rec : List Byte)
  /-- QSTATE (R369). A QSTATE frame arrives with one change of queue state. -/
  | qstate (pseq : BitVec 16) (c : QChange)
  /-- CFG (R369). A CFG frame arrives with an accepted register write to apply. -/
  | cfgFrame (pseq : BitVec 16) (off : BitVec 16) (v : Word)
  /-- SNAPSHOT (R365). A SNAPSHOT frame marks the start or end of the full state. -/
  | snapshotFrame (pseq : BitVec 16) (mark : Byte)
  /-- PAIR_FRAME_RETRY (R366). An unacknowledged pair frame is repeated after 4 µs, or the partner is treated as lost. -/
  | pairFrameRetry
  /-- ALIGN_SEND (R368). Every 64 PES samples the owner sends an ALIGN frame. -/
  | alignSend
  /-- ALIGN_LATE (R368). An ALIGN frame is two intervals late and the shadow clears ALIGNED. -/
  | alignLate
  /-- YIELD (R373). A write of PAIR_CTL.YIELD starts a planned handover. -/
  | yield (w : Writer)
  /-- YIELD_HANDOVER (R373). At the first index with every bank empty the yielding owner pulls HANDOVER_N. -/
  | yieldHandover
  /-- FAULT_RAISE (R403). A fault source raises a fault and its reaction class is applied. -/
  | faultRaise (src : Fin 128)
  /-- FLT_STATUS_CLEAR (R413). A W1C write of FLT_STATUS clears bits whose cause has gone. -/
  | fltStatusClear (w : Writer) (k : Fin 4) (v : Word)
  /-- FAULT_PIN_PULSE_END (R412). The 20 µs FAULT_N pulse ends and the pin follows MODE. -/
  | faultPinPulseEnd
  /-- MASK_WINDOW_END (R411). 256 core cycles after a unit reset its consequential sources are unmasked. -/
  | maskWindowEnd (unit : Fin 64)
  /-- EVR_RECORD_WRITTEN (R416). The EVR writes and verifies an event record in MRAM. -/
  | evrRecordWritten (ok : Bool)
  /-- AUDIT_COPY_DONE (R417). Audit records are written to media, read back and counted copied. -/
  | auditCopyDone
  /-- RESERVE_COPY_DONE (R419). A reserve-ring record is copied to media. -/
  | reserveCopyDone
  /-- PMC_SNAP_TAKE (R427). A write of PMC_SNAP.TAKE latches every counter into the register snapshot. -/
  | pmcSnapTake (w : Writer)
  /-- PMC_PRESET (R428). A write of PMC_PRESET_HI presets the selected counter. -/
  | pmcPreset (w : Writer) (v : Word)
  /-- PART_RESET (R432). VDD_AON returns to range and every block takes its reset state. -/
  | partReset
  /-- PART_RESET_WRITE (R432). A write of PWR_RST.PART acts as PFAIL_N and resets once parked or after 100 ms. -/
  | partResetWrite (w : Writer)
  /-- AON_READY (R433). PD_AON becomes ready; straps are sampled and the other domains power. -/
  | aonReady (loc : BitVec 12) (pairPrsntN pairSide ownPeerN : Bool)
  /-- READY_BOUND_EXPIRY (R433). A function's ready bound expires without its bit and source 117 is raised. -/
  | readyBoundExpiry (bit : Fin 22)
  /-- IDLE_TIMEOUT (R439). IDLE_S seconds without a committed slot take the part to ACTIVE_IDLE. -/
  | idleTimeout
  /-- DARK_ENTRY (R439). Once the DARK completion has left, the buffer self-refreshes and PD_CORE and PD_PCIE turn off. -/
  | darkEntry
  /-- DARK_WAKE (R440). A write of PWR_STATE.WAKE in DARK leaves for SPUN_DOWN. -/
  | darkWake (w : Writer)
  /-- ATTN_RELEASE (R442). ATTN_N is released and the press acts as short or is ignored. -/
  | attnRelease (ms : Nat)
  /-- ATTN_LONG_PRESS (R442). A press lasting 3 s requests safe removal. -/
  | attnLongPress
  /-- LOCATE_TIMEOUT (R443). Locate turns off after LOC_MIN minutes. -/
  | locateTimeout
  /-- REMOVAL_SAFE (R444). Preparation completes, LEAVING is flooded, lanes go off and REMOVAL is SAFE. -/
  | removalSafe
  /-- PREP_TIMEOUT (R444). Preparation has not finished within PREP_S and fails. -/
  | prepTimeout
  /-- LATCH_RISE (R445). LATCH_N rises, logged when SAFE and otherwise a surprise removal. -/
  | latchRise
  /-- PRSNT_RISE (R445). PRSNT_N rises outside SAFE and a surprise removal begins. -/
  | prsntRise
  /-- SURPRISE_END (R446). LATCH_N and PRSNT_N low for 1 s end SURPRISE. -/
  | surpriseEnd
  /-- GEN_SAVE (R457). A write of GEN_SAVE.SAVE stores the writer's role fields in the set-up image. -/
  | genSave (w : Writer)
  /-- GEN_CLEAR (R457). A write of GEN_SAVE.CLEAR removes the writer's role entries. -/
  | genClear (w : Writer)
  /-- SAVE_DONE (R457). A save or clear finishes writing MRAM and RESULT is set. -/
  | saveDone (ok : Bool)
  /-- SMB_WRITE (R458). SMBus command WRITE writes registers. -/
  | smbWrite (off : BitVec 16) (data : List Word) (pec : Bool)
  /-- SMB_SET_READ (R458). SMBus command SET_READ sets offset and length of the next READ. -/
  | smbSetRead (off : BitVec 16) (len : Byte) (pec : Bool)
  /-- SMB_READ (R458). SMBus command READ returns registers. -/
  | smbRead (pec : Bool)
  /-- SMB_STATUS (R458). SMBus command STATUS returns the status of the last WRITE. -/
  | smbStatus (pec : Bool)
  /-- PAL_ACK (R466). A preamplifier ACK frame arrives. -/
  | palAck (act : Fin 4) (frame : BitVec 48)
  /-- PAL_STATUS (R465). A preamplifier STATUS frame arrives. -/
  | palStatus (act : Fin 4) (frame : BitVec 48)
  /-- PAL_ACK_TIMEOUT (R466). A PAL frame unacknowledged for 500 ns is resent, and a second miss raises the channel source. -/
  | palAckTimeout (act : Fin 4) (pos : Fin 4)
  /-- PCIE_LINK_UP (R290). The PCIe link trains up; HQI_STATUS shows speed and width, event 0x7000 is recorded and gateway polling may run. -/
  | pcieLinkUp (gen width : BitVec 4)
  /-- PCIE_LINK_DOWN (R290). The PCIe link goes down; gateway polling stops, event 0x7001 is recorded and source 104 is raised when HQI_CTL.EN is 1. -/
  | pcieLinkDown
  /-- HOST_DATA_READ_DONE (R283). A read of host write data, a page list or an SGL completes over PCIe, and the data passes into chunk buffers or the command fails INTERNAL. -/
  | hostDataReadDone (qp : Fin 128) (tag : BitVec 16) (data : Option (List Byte))
  /-- POWER_UP_SELF_TESTS (R392). Firmware verification and the power-up self-tests finish, setting GEN_READY bits 1 and 9 or entering the error state. -/
  | powerUpSelfTests (fwOk katOk : Bool) (laneOk : BitVec 4)
  /-- PART_RESET_DELAY_EXPIRY (R432). 100 ms after a write of PWR_RST.PART with some actuator still unparked, the written part reset takes effect. -/
  | partResetDelayExpiry
  deriving DecidableEq, Repr

end Sys2Proof
end

