-- ==== Sys2Proof/Decode.lean ====
section
/-! DEFINITION. Commands spelled as words. The rows of spec/opcode_table.json give no command any bits, so no word
spells one. -/
namespace Sys2Proof

/-- The command that `nbits` bits `w` spell, numbered as the table numbers them: none, for the table gives no row bits. -/
def decodeTableWord (_nbits _w : Nat) : Option Instr := none

end Sys2Proof
end

