-- ==== Sys2Proof/Config.lean ====
section
/-! DEFINITION. What an implementation fixes and the spec leaves open: free values and opaque functions, none with a
body, so that nothing rests on a value of theirs. Named in notes/assumptions/10.md, 11.md and 17.md. -/
namespace Sys2Proof.Config

open Sys2Proof

/-- A number the spec does not fix, by the count of free values drawn before it. -/
opaque freeNat : Nat → Nat

/-- A signed number the spec does not fix. -/
opaque freeInt : Nat → Int

/-- Bytes the spec does not fix: so many, by the count of free values drawn before. -/
opaque freeBytes : Nat → Nat → List Byte

/-- Does an ECDSA P-384 signature over a message verify under a public key (R381, R382)? -/
opaque sigOk (key msg sig : List Byte) : Bool

/-- The maker's public keys whose digests one-time-programmable memory holds: microcode keys 0 to 3, firmware keys 4 to 7
(R390). -/
opaque makerKey (slot : Nat) : List Byte

/-- SHA-384 of a message (R391). -/
opaque sha384 (msg : List Byte) : List Byte

/-- Output of the DRBG, by the count of draws (R385, R392). -/
opaque drbg (draw : Nat) : BitVec 384

/-- AES-256-XTS encryption of a data unit under the key of that number, with its tweak (R204). -/
opaque xtsEnc (key : Nat) (tweak : Nat) (plain : List Byte) : List Byte

/-- AES-256-XTS decryption of a data unit (R204). -/
opaque xtsDec (key : Nat) (tweak : Nat) (cipher : List Byte) : List Byte

/-- Number of the key a peer-move session derives from the shared secret of the own key of that draw and the other's public
key, with the fixed info (R352). -/
opaque ecdhKey (draw : Nat) (peerPub info : List Byte) : Nat

/-- Serial number of the part, 16 ASCII characters (R313). -/
opaque serial : Fin 16 → Byte

/-- AES-256-GCM sealing of a peer-move packet under its IV: ciphertext and tag (R352). -/
opaque gcmSeal (key : Nat) (iv : Nat) (aad plain : List Byte) : List Byte × List Byte

/-- AES-256-GCM opening of a peer-move packet; none when its tag does not check (R352). -/
opaque gcmOpen (key : Nat) (iv : Nat) (aad cipher tag : List Byte) : Option (List Byte)

/-- Public key of the device key pair of that NODE_ID (R376, R381). -/
opaque devicePub (nodeId : Nat) : List Byte

/-- A public key agreed upon for one peer-move session, by the count of draws (R352). -/
opaque ephPub (draw : Nat) : List Byte

/-- The device's signature over a message (R352). -/
opaque deviceSign (nodeId : Nat) (msg : List Byte) : List Byte

/-- DEFLATE output of a chunk at an effort level (R198). -/
opaque deflate (effort : Nat) (plain : List Byte) : List Byte

/-- What a DEFLATE stream expands to before its end or its first error, and whether it is valid to its end (R212). -/
opaque inflate (comp : List Byte) : List Byte × Bool

/-- The check byte of an ECC word: the code of R226 is not given column by column. -/
opaque eccCheck (data : Nat) : Byte

/-- Does an odd-weight syndrome match a column of the code (R226)? -/
opaque eccColumn (syn : Byte) : Bool

end Sys2Proof.Config
end

