-- ==== Sys2Proof/Machine/Flags.lean ====
section
/-! DEFINITION. Bits, signs, checks and byte orders: the computations every family shares. -/
namespace Sys2Proof.Machine

open Sys2Proof

/-- Bits [lsb + w − 1 : lsb] of a number. -/
def bitsOf (n lsb w : Nat) : Nat := (n >>> lsb) % 2 ^ w

/-- Bit `b` of a number. -/
def bitOf (n b : Nat) : Bool := (n >>> b) % 2 == 1

/-- A Bool as 0 or 1. -/
def b2n (b : Bool) : Nat := if b then 1 else 0

/-- `v` with field [lsb + w − 1 : lsb] replaced by `x`. -/
def putField (v : Word) (lsb w x : Nat) : Word :=
  let m : Word := BitVec.ofNat 32 ((2 ^ w - 1) <<< lsb)
  (v &&& ~~~m) ||| (BitVec.ofNat 32 (x <<< lsb) &&& m)

/-- The numbers below `n` whose bit is set in `m`, rising. -/
def setBits (n : Nat) (m : Nat) : List Nat := (List.range n).filter (bitOf m)

/-- Saturating count in `w` bits. -/
def satInc {w : Nat} (c : BitVec w) : BitVec w := if c.toNat + 1 < 2 ^ w then c + 1 else c

/-- Saturation of an integer to a signed range of `w` bits (R73, R76). -/
def satSigned (w : Nat) (x : Int) : Int :=
  let hi : Int := 2 ^ (w - 1) - 1
  let lo : Int := -(2 ^ (w - 1))
  if x > hi then hi else if x < lo then lo else x

/-- The `w`-bit two's complement pattern of an integer. -/
def toTwos (w : Nat) (x : Int) : Nat := (x % (2 ^ w)).toNat

/-- The integer a `w`-bit two's complement pattern stands for. -/
def ofTwos (w n : Nat) : Int := if n < 2 ^ (w - 1) then n else (n : Int) - 2 ^ w

/-- The difference of two revolution numbers as a signed number (R11). -/
def revDiff (a b : BitVec 32) : Int := ofTwos 32 (a - b).toNat

/-- `a − b` on the circle of one revolution (R12). -/
def angSub (a b : Nat) : Nat := (a + revAC - b % revAC) % revAC

/-- Signed angle difference, from −2,097,152 to 2,097,151 (R114). -/
def angDiff (a b : Nat) : Int := ofTwos 22 (angSub a b)

/-- Floor of the base 2 logarithm, searched from bit `n` down; 0 for 0. -/
def log2At : Nat → Nat → Nat
  | 0, _ => 0
  | k + 1, n => if 2 ^ (k + 1) ≤ n then k + 1 else log2At k n

/-- Floor of the base 2 logarithm of a 32-bit number. -/
def flog2 (n : Nat) : Nat := log2At 31 n

/-- Quotient rounded up. -/
def ceilDiv (a b : Nat) : Nat := if b = 0 then 0 else (a + b - 1) / b

/-- Nearest integer of `a / b`, ties up, for positive `b`. -/
def roundDiv (a : Int) (b : Int) : Int := (2 * a + b) / (2 * b)

/-! ### Bytes -/

/-- The `n` bytes of a number, least significant first. -/
def leBytes : Nat → Nat → List Byte
  | 0, _ => []
  | n + 1, v => BitVec.ofNat 8 v :: leBytes n (v / 256)

/-- The number a list of bytes spells, least significant first. -/
def ofLe : List Byte → Nat
  | [] => 0
  | b :: t => b.toNat + 256 * ofLe t

/-- The number a list of bytes spells, most significant first. -/
def ofBe (l : List Byte) : Nat := l.foldl (fun a b => 256 * a + b.toNat) 0

/-- Bytes `ofs` to `ofs + n − 1` of a record as a little-endian number. -/
def leAt (l : List Byte) (ofs n : Nat) : Nat := ofLe ((l.drop ofs).take n)

/-- The same as a signed number. -/
def leAtS (l : List Byte) (ofs n : Nat) : Int := ofTwos (8 * n) (leAt l ofs n)

/-- A list brought to length `n` with zero bytes. -/
def padTo (n : Nat) (l : List Byte) : List Byte := (l ++ List.replicate (n - l.length) 0).take n

/-! ### Checks -/

/-- One bit of a CRC-8 with polynomial x^8 + x^2 + x + 1, most significant bit first (R100, R465). -/
def crc8Bit (c : Nat) (b : Bool) : Nat :=
  let t := bitOf c 7 != b
  let s := (c * 2) % 256
  if t then s ^^^ 7 else s

/-- CRC-8 over the `n` low bits of `v`, most significant first, initial value 0 (R100). -/
def crc8 (n v : Nat) : Nat := (List.range n).foldl (fun c i => crc8Bit c (bitOf v (n - 1 - i))) 0

/-- One bit of CRC-32C, reflected (R52). -/
def crcStep (c : Nat) : Nat := if c % 2 = 1 then (c / 2) ^^^ 0x82F63B78 else c / 2

/-- CRC-32C of a list of bytes (R52): reflected, initial value and final exclusive-or 0xFFFF_FFFF. -/
def crc32c (l : List Byte) : Nat :=
  (l.foldl (fun c b =>
    let x := c ^^^ b.toNat
    crcStep (crcStep (crcStep (crcStep (crcStep (crcStep (crcStep (crcStep x)))))))) 0xFFFFFFFF) ^^^ 0xFFFFFFFF

end Sys2Proof.Machine
end

