-- ==== Sys2Proof/Machine/State.lean ====
section
/-! DEFINITION. The state of the block, as plain data, and its value at reset. Every field's docstring names the rule of
spec/ that gives it; in brackets its reset value. "M" marks a field that is the model's own. -/
namespace Sys2Proof.Machine

open Sys2Proof

/-! ### Registers -/

/-- One WS field whose last written value waits for an index (R31, R32). -/
structure Staged where
  /-- Offset of the register (R32). [none staged] -/
  off : Nat
  /-- Lowest bit of the field (R32). [none staged] -/
  lsb : Nat
  /-- ATB_REV that begins at the index where it takes effect (R31). [none staged] -/
  rev : BitVec 32
  deriving DecidableEq, Repr

/-- The stored part of the register map: what is written (RW, WS) and what hardware sets and software clears (W1C). -/
structure Regs where
  /-- Last written value of each RW and WS register, by offset (R5). [each register's own reset value] -/
  vals : Tab Word
  /-- Values of the WS registers in force, by offset (R31 to R33). [each register's own reset value] -/
  force : Tab Word
  /-- WS fields that wait for an index (R32, ATB_STAGE). [none] -/
  staged : List Staged
  /-- W1C status bits, by offset (R5, R452). [all 0] -/
  w1c : Tab Word
  /-- FLT_SRC_CFG.CLASS by source (R403, R408). [R408's default] -/
  cls : Tab (BitVec 3)
  /-- GEN_LAST_IGNORED (18, R454). [0] -/
  lastIgnored : Word
  /-- CRY_AUTH.DENIED (14, R380). [0] -/
  denied : BitVec 8
  /-- Value the last register read returned (R5; M, the answer on the bus). [0] -/
  rdata : Word
  deriving DecidableEq, Repr

/-! ### Angle time base -/

/-- The four states of R14. -/
inductive AtbSt where
  | stopped | acquire | locked | coast
  deriving DecidableEq, Repr

/-- The angle time base (01). -/
structure Atb where
  /-- State of R14. [STOPPED] -/
  st : AtbSt
  /-- Shaft angle, 22 bits (R9). [0] -/
  ac : BitVec 22
  /-- ATB_REV, 32 bits (R9, R11). [0] -/
  rev : BitVec 32
  /-- ATB_NOW_REV, latched (R17). [0] -/
  nowRev : BitVec 32
  /-- Index k of the last valid reference word in ACQUIRE (R14). [none] -/
  lastK : Option (BitVec 10)
  /-- The last valid reference word differed by more than TOL (R15). [no] -/
  bad : Bool
  /-- Phase error in AC still to be removed by the rate (R15). [0] -/
  phaseErr : Int
  /-- The ATB's own fence holds (R405). [no] -/
  fenced : Bool
  deriving DecidableEq, Repr

/-! ### Servo -/

/-- Actuator states of R79, in code order. -/
inductive ActState where
  | parked | loading | acquiring | following | seeking | settling | unloading | ssw | fenced
  deriving DecidableEq, Repr

/-- One head's servo state (03). -/
structure HeadSt where
  /-- Track identity in its last valid angle word, 24 bits (R74). [0] -/
  lastTrack : BitVec 24
  /-- PES of its last sample, 16 bits signed (R73). [0] -/
  pes : Int
  /-- Its last sample was valid (R74). [no] -/
  valid : Bool
  /-- Consecutive valid samples within RSETTLE (R81). [0] -/
  rdCnt : Nat
  /-- Consecutive valid samples within WSETTLE (R81). [0] -/
  wrCnt : Nat
  /-- Settled for reading (R81). [no] -/
  rdSettled : Bool
  /-- Settled for writing (R81). [no] -/
  wrSettled : Bool
  /-- Consecutive invalid samples (R88). [0] -/
  coast : Nat
  /-- Off track (R88). [no] -/
  offTrack : Bool
  /-- Microactuator saturated in the last sample (R77). [no] -/
  saturated : Bool
  /-- Good samples still needed before the write gate re-arms (R86). [0, armed] -/
  rearm : Nat
  /-- Last microactuator command, 12 bits signed (R76). [0] -/
  ma : Int
  /-- Microactuator integrator (R368). [0] -/
  maInt : Int
  /-- Live correction L in 1/4,096 pitch (R92). [0] -/
  live : Int
  /-- Revolution means behind L, newest first, at most 64 (R92). [none] -/
  means : List Int
  /-- Sum of displacement less centre in this revolution (R92). [0] -/
  sum : Int
  /-- Samples in that sum (R92). [0] -/
  cnt : Nat
  deriving DecidableEq, Repr

/-- One actuator's state (03). -/
structure ActSt where
  /-- State of R79. [PARKED] -/
  st : ActState
  /-- Last head set used; none after unpark (R80). [none] -/
  lastSet : Option (BitVec 6)
  /-- Heads that are active with that set (R73, R80). [none] -/
  heads : List (Fin 64)
  /-- Track identity it stands on (R82). [0] -/
  track : BitVec 24
  /-- Seek under way: head set, first track, track position (R81). [none] -/
  seek : Option (BitVec 6 × BitVec 24 × BitVec 5)
  /-- Distance bin of the last seek (R82). [0] -/
  bin : Nat
  /-- Outcomes of the last seeks by bin, true where a slot was dropped unsettled, at most 256 each (R83). [none] -/
  settles : Tab (List Bool)
  /-- A requested park holds it (R97). [no] -/
  reqPark : Bool
  /-- A requested park waits for an empty bank (R96). [no] -/
  parkPend : Bool
  /-- Failed unpark attempts (R97). [0] -/
  tries : Nat
  /-- Waits 500 ms before the next unpark attempt (R97). [no] -/
  retryWait : Bool
  /-- Last VCM command, 18 bits signed (R76). [0] -/
  vcm : Int
  /-- VCM integrator (R368). [0] -/
  integ : Int
  /-- Notch states (R368). [0, 0] -/
  notches : Int × Int
  /-- Heads whose BIAS and heater were sent this revolution (R126). [none] -/
  biased : List (Fin 64)
  /-- PAL sequence numbers by position, 2 bits each (R465). [0] -/
  palSeq : Tab Nat
  /-- PAL frames by position that wait for an ACK, with their number of sendings (R466). [none] -/
  palWait : List (Nat × BitVec 48 × Nat)
  /-- Last preamplifier STATUS data (R465). [0] -/
  palStatus : BitVec 24
  deriving DecidableEq, Repr

/-- The stripe servo (03). -/
structure Srv where
  /-- Heads by number (R73 to R92). [each as HeadSt.init] -/
  heads : Tab HeadSt
  /-- Actuators by number (R79). [each PARKED] -/
  acts : Tab ActSt
  /-- The shock hold is in force (R87). [no] -/
  shock : Bool
  /-- A servo-writing operation runs (SRV_SSW_STATUS.BUSY, R99). [no] -/
  sswBusy : Bool
  /-- SRV_SSW_STATUS.RESULT (R99). [0] -/
  sswResult : BitVec 3
  /-- SRV_SSW_STATUS.OP (R99). [0] -/
  sswOp : BitVec 4
  /-- Actuator of that operation (R99). [0] -/
  sswAct : Fin 4
  /-- SRV_SSW_STATUS.TRACK (R99). [0] -/
  sswTrack : BitVec 24
  /-- PAUSE or ABORT asked for: 14 or 15 (R99). [0] -/
  sswStop : BitVec 4
  deriving DecidableEq, Repr

/-! ### Spindle -/

/-- SPN states of R104, in code order. -/
inductive SpnState where
  | off | preheat | waitToken | align | ramp | locked | changing | stopping | pfail | fault
  deriving DecidableEq, Repr

/-- The shift boss's ledger (R110 to R112). -/
structure Ledger where
  /-- This module is the shift boss (R349). [no] -/
  office : Bool
  /-- The 500 ms after taking office run: nothing is granted (R112). [no] -/
  holdoff : Bool
  /-- Slots that hold a token (R110). [none] -/
  held : List (Fin 16)
  /-- Slots that wait, first request first (R110). [none] -/
  queue : List (Fin 16)
  deriving DecidableEq, Repr

/-- Spindle control (04). -/
structure Spn where
  /-- State of R104. [OFF] -/
  st : SpnState
  /-- Spin-up has been requested and not ended (R105). [no] -/
  wanted : Bool
  /-- Failed spin-up attempts (R105). [0] -/
  attempts : Nat
  /-- Waits 10 s before the next attempt (R105). [no] -/
  retryWait : Bool
  /-- Seconds spent in PREHEAT (R108). [0] -/
  preheatS : Nat
  /-- Current path of PREHEAT: 0 U-V, 1 V-W, 2 W-U (R108). [0] -/
  path : Fin 3
  /-- A token is held (SPN_TOKEN.HELD, R110). [no] -/
  token : Bool
  /-- The token was self-granted (SPN_TOKEN.SOLO, R113). [no] -/
  solo : Bool
  /-- Shift boss last asked (SPN_TOKEN.BOSS). [0x000] -/
  boss : BitVec 12
  /-- REG: last revolution within 0.005 % (R106). [0] -/
  reg : Bool
  /-- Consecutive revolutions off by more than 0.1 % (R106). [0] -/
  offCnt : Nat
  /-- New speed of CHANGING (R107). [none] -/
  newRpm : Option Nat
  /-- In CHANGING the ramp has begun (R107). [no] -/
  ramping : Bool
  /-- PHASE_LOCKED (R114). [0] -/
  phaseLocked : Bool
  /-- Successive references within 16,384 AC (R114). [0] -/
  phaseGood : Nat
  /-- SPN_PHASE_ERR (R114). [0] -/
  phaseErr : Int
  /-- Speed trim in parts per million (R114). [0] -/
  trim : Int
  /-- SPN_TEMP.TEMP_HDA, 16 bits (R109). [0x8000] -/
  temp : BitVec 16
  /-- The thermistor is faulty now (R109). [no] -/
  tempBad : Bool
  /-- State in which PFAIL_N met the SPN (R116). [none] -/
  before : Option SpnState
  /-- PFAIL_N is low (R115). [no] -/
  pfailLow : Bool
  /-- The MDL is lost now (R103). [no] -/
  mdlLost : Bool
  /-- The SPN's fence holds (R405). [no] -/
  fenced : Bool
  /-- Crystal tick at which spin-up was last requested (event 0x2000; M). [0] -/
  reqTick : Nat
  /-- Cause of the last failed spin-up, as event 0x2001 codes it (R105). [0] -/
  failCause : Nat
  /-- Last revolution's period in ns, from the index (R106). [0] -/
  period : Nat
  deriving DecidableEq, Repr

/-- The motor drive link (R100). -/
structure Mdl where
  /-- SEQ of the next frame to the stage, 4 bits (R100). [0] -/
  seq : BitVec 4
  /-- Received frames discarded (R100). [0] -/
  discards : Nat
  /-- TYPE of the last valid frame (R100, event 0x2002). [0] -/
  lastType : BitVec 4
  /-- Phase currents U, V, W of ISENSE (R100). [0] -/
  cur : BitVec 36
  /-- Phase voltages U, V, W of VSENSE (R100). [0] -/
  volt : BitVec 36
  /-- Parked mask of STATUS (R100). [0xF: DESIGN CHOICE, heads on the ramp] -/
  parked : BitVec 4
  /-- Undervoltage, over-temperature and WATCHDOG of STATUS (R100). [0] -/
  faults : BitVec 3
  /-- Stage's discard count of STATUS (R100). [0] -/
  stageDiscards : BitVec 8
  /-- Motor supply in 10 mV of STATUS (R100). [0] -/
  supply : BitVec 12
  /-- MODE of the SPIN frames being sent (R100). [0] -/
  mode : BitVec 4
  deriving DecidableEq, Repr

/-! ### Channels -/

/-- One retained-sample entry in use (R135, R172). -/
structure Retained where
  /-- Head of the block (R135). -/
  head : Fin 64
  /-- Track identity of the block (R135). -/
  track : BitVec 24
  /-- Block position (R135). -/
  pos : BitVec 12
  /-- Reads accumulated (R172). -/
  reads : Nat
  /-- Held (R135). -/
  held : Bool
  deriving DecidableEq, Repr

/-- One result in a result queue (R150). -/
structure Res where
  /-- Bank of the slot (R150). -/
  bank : Bool
  /-- Entry index (R150). -/
  idx : Nat
  /-- A verify result, else a read result (R150). -/
  vfy : Bool
  /-- DEC_OK or VERIFY_OK (R150). -/
  ok : Bool
  /-- The SRV cut the block (R150). -/
  wus : Bool
  /-- The block was retained (R150). -/
  retained : Bool
  /-- Channel of the result (R150). -/
  ch : Fin 16
  /-- Arrival number, for the harvest head (R150). -/
  arr : Nat
  /-- Work item served (R19; M). -/
  work : Nat
  /-- Media buffer of the slot (R144; M). -/
  buf : Nat
  deriving DecidableEq, Repr

/-- The seven channel flags of R139. -/
structure ChFlags where
  /-- SYNC1_FOUND (R139). [0] -/
  sync1 : Bool
  /-- SYNC2_FOUND (R139). [0] -/
  sync2 : Bool
  /-- DEC_OK (R139). [0] -/
  decOk : Bool
  /-- DEC_FAIL (R139). [0] -/
  decFail : Bool
  /-- VERIFY_OK (R139). [0] -/
  vfyOk : Bool
  /-- VERIFY_FAIL (R139). [0] -/
  vfyFail : Bool
  /-- WUS (R139). [0] -/
  wus : Bool
  deriving DecidableEq, Repr

/-- One read/write channel (05). -/
structure ChSt where
  /-- Fenced (CHn_STATUS.FENCED). [0] -/
  fenced : Bool
  /-- FENCE_CAUSE: 0 none, 1 request, 2 fault, 3 SELF-TEST. [0] -/
  cause : BitVec 2
  /-- A fence was asked for by SELF-TEST and waits or holds (R142, R318). [no] -/
  testReq : Bool
  /-- The planner plans no slot for the channel (R142). [no] -/
  noPlan : Bool
  /-- The condition flags (R139). [0] -/
  flags : ChFlags
  /-- LAST_ITER (R140). [0] -/
  lastIter : BitVec 4
  /-- Retained-sample store, four entries, oldest first (R135). [empty] -/
  store : List Retained
  /-- Loaded parameter set: head, selector, entry (CHn_PSET_NOW, R125). [0, 0, 0] -/
  pset : Fin 64 × BitVec 3 × BitVec 7
  /-- A self-test runs (R143). [no] -/
  bist : Bool
  /-- CHn_BIST_RES.RESULT. [0] -/
  bistRes : BitVec 3
  /-- CHn_BIST_RES.TEST. [0] -/
  bistTest : BitVec 4
  /-- CHn_BIST_RES.FAILED. [0] -/
  bistFailed : BitVec 4
  /-- Result queue of the channel, oldest first (R150). [empty] -/
  rq : List Res
  /-- Write gate on (R84). [off] -/
  gate : Bool
  /-- Blocks being verified: bank, index, whether the gate was cut (R131, R137). [none] -/
  vfy : List (Bool × Nat × Bool)
  deriving DecidableEq, Repr

/-! ### Sequencer -/

/-- The classes in which a slot ends (R30). -/
inductive EndClass where
  | retired | wasted | starvedFront | starvedBack
  deriving DecidableEq, Repr

/-- Where a slot is on its way (R30, R153). -/
inductive SlotSt where
  | planned | armed | executing | ended (c : EndClass)
  deriving DecidableEq, Repr

/-- One slot of a bank: its entry and what stands beside it (R144, R146). -/
structure Slot where
  /-- The 16-byte entry (R144). -/
  e : SlotEntry
  /-- READY bit (R146). -/
  ready : Bool
  /-- Progress (R30, R153). -/
  st : SlotSt
  /-- Deadline has passed (R24). -/
  due : Bool
  /-- Work class (R22). -/
  cls : WorkClass
  /-- Work item served (R19). -/
  work : Nat
  /-- The gate was cut or refused (R85, R86). -/
  cut : Bool
  /-- Its group has been dispatched (R149). -/
  disp : Bool
  /-- Verification of the armed write is armed (R152). -/
  vfyArm : Bool
  /-- DMAOP issued for it: 1 read destination armed, 2 write source confirmed, 3 buffer released (R152). -/
  dma : Nat
  /-- Offset of its head's target, as SRVOP codes it: 0 none, 2 to 5 (R152). -/
  ofs : Nat
  /-- Its decode or verify outcome has been presented (R133, R138). -/
  res : Bool
  deriving DecidableEq, Repr

/-- What a context waits for (R154). -/
inductive Wait where
  | none | angle (target : Nat) | flag (n : BitVec 6) (set : Bool) | ack
  deriving DecidableEq, Repr

/-- Context states of SEQ_CTXn (R168), in code order. -/
inductive CtxSt where
  | stopped | idle | wait | run | trap | halted | fenced
  deriving DecidableEq, Repr

/-- A slot group under way (R148). -/
structure Group where
  /-- START_AC. (R148) -/
  start : BitVec 22
  /-- KIND. (R148) -/
  kind : BitVec 4
  /-- Bit p for each channel position still in the group. (R148) -/
  mask : BitVec 4
  /-- Bank of its entries. (R148) -/
  bank : Bool
  /-- ATB_REV of its revolution. (R155) -/
  rev : BitVec 32
  /-- Actuator of a maintenance group (R163); 0 in a run context. -/
  act : Nat
  deriving DecidableEq, Repr

/-- What a trap saves (R161). -/
structure Frame where
  /-- Saved micro-PC. (R161) -/
  upc : BitVec 13
  /-- Saved loop counters. (R161) -/
  lc0 : BitVec 16
  /-- Saved LC1. (R161) -/
  lc1 : BitVec 16
  /-- Saved flags 0 to 31. (R161) -/
  flags : BitVec 32
  /-- Saved call stack. (R161) -/
  stack : List (BitVec 13)
  /-- Saved HOLD count. (R161) -/
  hold : BitVec 8
  /-- What the routine waited for. (R161) -/
  wait : Wait
  /-- A routine was running. (R161) -/
  running : Bool
  deriving DecidableEq, Repr

/-- One context (06). -/
structure Ctx where
  /-- STATE (R168). [STOPPED] -/
  st : CtxSt
  /-- Micro-PC, 13 bits (R157). [0] -/
  upc : BitVec 13
  /-- LC0 (R149). [0] -/
  lc0 : BitVec 16
  /-- LC1. [0] -/
  lc1 : BitVec 16
  /-- Call stack, depth at most 4, top first (R154). [empty] -/
  stack : List (BitVec 13)
  /-- Flag TIMEOUT (R156). [0] -/
  timeout : Bool
  /-- Flags U0 to U13 (R156). [0] -/
  u : BitVec 14
  /-- Flag SLOT_LATE (R156). [0] -/
  late : Bool
  /-- Flag ABORT_SLOT (R156). [0] -/
  abortSlot : Bool
  /-- Pending trap causes: bit 0 HANDOVER, 1 FENCE, 2 ABORT_SLOT, 3 DEBUG (R160). [0] -/
  traps : BitVec 4
  /-- LAST_TRAP (R168). [0] -/
  lastTrap : BitVec 3
  /-- Trap frame while a handler runs (R161). [none] -/
  frame : Option Frame
  /-- HOLD cycles still running (R152). [0] -/
  hold : BitVec 8
  /-- What the context waits for (R154). [nothing] -/
  wait : Wait
  /-- Current group (R148). [none] -/
  group : Option Group
  /-- A HARVEST run is in progress, with the micro-PC it left (R149). [none] -/
  harvest : Option (BitVec 13 × Wait × Bool)
  /-- Micro-ops executed in the HARVEST run (R159). [0] -/
  hcount : Nat
  /-- A routine runs (R149). [no] -/
  running : Bool
  /-- Active bank (SEQ_CTXn.BANK, R29). [0] -/
  bank : Bool
  /-- RQ_MAX (R168). [0] -/
  rqMax : BitVec 5
  /-- Runs INIT at the next index (R405). [no] -/
  initPend : Bool
  deriving DecidableEq, Repr

/-- The slot sequencer (06). -/
structure Seq where
  /-- Contexts 0 to 4 (R149). [STOPPED] -/
  ctx : Tab Ctx
  /-- Banks by 2 × channel + bank (R144); key 32 + bank holds the maintenance banks (R163). [empty] -/
  banks : Tab (List Slot)
  /-- Which bank of channel n is pending and committed for the next index, by channel (R20, R29). [none] -/
  committed : Tab Bool
  /-- Micro store (R151). [HALT everywhere: DESIGN CHOICE, no image in force] -/
  micro : Tab Word
  /-- Nano store (R151). [0] -/
  nano : Tab (BitVec 160)
  /-- SEQ_MCODE.ISVN. [0] -/
  isvn : Word
  /-- KEY_SLOT of the image in force (R164). [0] -/
  keySlot : Byte
  /-- An accepted image that waits for its index, and its command's TAG (R167). [none] -/
  pendImg : Option (List Byte × BitVec 16)
  /-- Next arrival number of results (R150). [0] -/
  arr : Nat
  deriving DecidableEq, Repr

/-! ### Planner, recovery, relocation, parity -/

/-- One item of work the planner may place (R19, R22). -/
structure Work where
  /-- Number, in the order of becoming eligible (R22). -/
  num : Nat
  /-- Class (R22). -/
  cls : WorkClass
  /-- Actuator. (R20) -/
  act : Fin 4
  /-- Head. (R21) -/
  head : Fin 64
  /-- Track identity. (R21) -/
  track : BitVec 24
  /-- Block position. (R21) -/
  pos : BitVec 12
  /-- KIND of its slot (R145). -/
  kind : BitVec 4
  /-- Zone whose stream it belongs to (R21). -/
  zone : Option Nat
  /-- Stream block index. (R53) -/
  sbi : Nat
  /-- Expected TGN (R133). -/
  tgn : Word
  /-- Placed in a bank (R19). -/
  placed : Bool
  /-- Content final, for a write (R209). -/
  final : Bool
  /-- A member read for L6 or for an accumulator rebuild: number of the recovery entry, member, failed reads (R180, R182). -/
  mem : Option (Nat × Nat × Nat)
  deriving DecidableEq, Repr

/-- The revolution planner (01). -/
structure Rpl where
  /-- Work list, oldest first (R19). [empty] -/
  work : List Work
  /-- Next work number. [0] -/
  next : Nat
  /-- Numbers of the frozen work list (R19). [empty] -/
  frozen : List Nat
  /-- Revolution being planned: the one after the cut-off (R19). [none] -/
  planning : Option (BitVec 32)
  /-- Revolutions a class had work and no slot, by 4 × actuator + class (R22). [0] -/
  unserved : Tab Nat
  /-- Classes ranked 0 for this planning, by 4 × actuator + class (R22). [none] -/
  aged : List Nat
  /-- RPL_LAST_COMMIT (R23). [0] -/
  lastCommit : BitVec 22
  /-- The planner plans nothing (R167, R373, R439). [no] -/
  halt : Bool
  /-- Read slots that wait for a media buffer: channel, bank, index (R24). [none] -/
  waiting : List (Nat × Bool × Nat)
  deriving DecidableEq, Repr

/-- One block on a recovery list (R170). -/
structure RecEnt where
  /-- Number of the entry (M). -/
  num : Nat
  /-- Only the scan of an extended self-test waits for the block (R318). -/
  scan : Bool
  /-- Head. (R170) -/
  head : Fin 64
  /-- Track identity. (R170) -/
  track : BitVec 24
  /-- Block position. (R170) -/
  pos : BitVec 12
  /-- Level being tried, 2 to 6 (R170). -/
  level : Nat
  /-- Reads of the level that have ended (R171). -/
  reads : Nat
  /-- Revolutions counted against the level's budget (R171). -/
  revs : Nat
  /-- A read of the level is committed in this revolution (R171). -/
  inRev : Bool
  /-- Fewest unsatisfied checks so far and the set that left them (R173). -/
  best : Option (Nat × BitVec 3)
  /-- Expected TGN; zone; stream block index (R182). -/
  tgn : Word
  /-- Zone of the block (R182). -/
  zone : Option Nat
  /-- Its stream block index (R53). -/
  sbi : Nat
  /-- Erased members found so far at L6, bit m (R182). -/
  erased : Word
  /-- Members still to be read at L6 (R182). -/
  members : List Nat
  /-- Payloads of members read for L6, by member (R182). -/
  known : List (Nat × List Byte)
  /-- A0 and A1 of the column, copied when L6 began with the accumulator held (R182). -/
  acc : Option (List Byte × List Byte)
  deriving DecidableEq, Repr

/-- One Relocation Table entry (R187). -/
structure RltEnt where
  /-- HEAD. (R187) -/
  head : Fin 64
  /-- KIND: true REMAP, false SKIP. (R187) -/
  remap : Bool
  /-- PENDING. (R187) -/
  pending : Bool
  /-- CAUSE. (R188) -/
  cause : Nat
  /-- T_HEAD. (R187) -/
  thead : Byte
  /-- TRACK. (R187) -/
  track : BitVec 24
  /-- T_TRACK. (R187) -/
  ttrack : BitVec 24
  /-- POS; 0xFFFF the whole track. (R187) -/
  pos : BitVec 16
  /-- T_POS. (R187) -/
  tpos : BitVec 16
  deriving DecidableEq, Repr

/-- Recovery and relocation (07). -/
structure Rcv where
  /-- Recovery list by actuator, oldest first (R170). [empty] -/
  lists : Tab (List RecEnt)
  /-- L1 requests by actuator, in order of arrival: channel, work number, retained (R134). [empty] -/
  l1 : Tab (List (Fin 16 × Nat × Bool))
  /-- Relocation Table (R187). [empty] -/
  rlt : List RltEnt
  /-- Entries refused for want of room (R191). [0] -/
  refused : Nat
  /-- Relocation records on media are up to date, by actuator (R189). [all] -/
  clean : Tab Bool
  /-- Spare group by actuator, with positions used (R190). [none] -/
  spare : Tab (Word × Nat)
  /-- Blocks recovered above L2, reconstructed, uncorrectable, by 4 × kind + actuator (R316). [0] -/
  tallies : Tab Nat
  /-- Blocks replanned after LIST_FULL (R176). [0] -/
  fullCount : Nat
  deriving DecidableEq, Repr

/-- One track group of a zone (R253). -/
structure ZGroup where
  /-- TGN (R61). -/
  tgn : Word
  /-- FIRST_SBI. (R253) -/
  firstSbi : Nat
  /-- USED (R178). -/
  used : Nat
  /-- OPEN. (R253) -/
  isOpen : Bool
  /-- NO_PARITY. (R253) -/
  noPar : Bool
  /-- REBUILD. (R253) -/
  rebuild : Bool
  /-- ACC: accumulator slot (R177). -/
  acc : Option (Fin 256)
  /-- Parity close queued or running (R179). -/
  closing : Bool
  deriving DecidableEq, Repr

/-- The parity engine (07). -/
structure Xtp where
  /-- Fenced (XTP_STATUS.FENCED). [0] -/
  fenced : Bool
  /-- Accumulator slots in use (R177). [none] -/
  slots : List (Fin 256)
  /-- Stream positions whose payload an accumulator holds: TGN, member, column (R177, R182). [none] -/
  added : List (Word × Nat × Nat)
  /-- Parity failures by TGN, column, member (R179). [none] -/
  parFails : List (Word × Nat × Nat × Nat)
  deriving DecidableEq, Repr

/-! ### Chunk path and journal -/

/-- One chunk on its way through the engines and the packer (R196 to R206). -/
structure ChunkJob where
  /-- Zone. (R196) -/
  zone : Nat
  /-- Logical chunk number. (R196) -/
  chunk : Nat
  /-- Commit unit (R214). -/
  csec : Word
  /-- NBLK. (R196) -/
  nblk : Nat
  /-- Effort level (R198). -/
  effort : BitVec 2
  /-- Stored length, once known (R199). -/
  slen : Option Nat
  /-- Stored raw (R199). -/
  raw : Bool
  /-- LCRC (R203). -/
  lcrc : Word
  /-- Its logical data (R196). -/
  data : List Byte
  deriving DecidableEq, Repr

/-- What an engine works on (R200). -/
inductive EngJob where
  | none
  | compress (zone chunk : Nat) (csec : Word)
  | inflate (zone chunk : Nat) (qp : Fin 128) (tag : BitVec 16)
  deriving DecidableEq, Repr

/-- One compression engine (R198 to R202). -/
structure Engine where
  /-- Fenced (R202). [0] -/
  fenced : Bool
  /-- Chunk it holds (CMP_STATUS.BUSY). [none] -/
  job : EngJob
  /-- Stalled on a full output path (R201). [no] -/
  stalled : Bool
  deriving DecidableEq, Repr

/-- One block of a zone stream that is not yet committed (R53). -/
structure Blk where
  /-- Stream block index. (R53) -/
  sbi : Nat
  /-- Zone. (R53) -/
  zone : Nat
  /-- Commit unit. (R214) -/
  csec : Word
  /-- A locator block (R57). -/
  loc : Bool
  /-- SBI of the block it replaces, for a copy (R54). -/
  link : Option Nat
  /-- Its payload is encrypted (R209). -/
  enc : Bool
  /-- Encrypted and in the accumulator (R209). -/
  final : Bool
  /-- Ended VERIFY_OK (R215). -/
  ok : Bool
  /-- Replaced by a copy (R54). -/
  replaced : Bool
  /-- Verify failures of its content (R186). -/
  fails : Nat
  /-- First byte belongs to a raw chunk (R208). -/
  raw : Bool
  /-- CHUNK field (R55). -/
  chunk : Nat
  /-- Its payload: as packed until it is final, then as sent to the writer (R204, R206). -/
  data : List Byte
  deriving DecidableEq, Repr

/-- One commit unit (R214). -/
structure CUnit where
  /-- CSEQ. (R214) -/
  csec : Word
  /-- A staged conventional unit. (R219) -/
  conv : Bool
  /-- Zone; for a conventional unit the actuator of its staging band. (R215) -/
  zone : Nat
  /-- First conventional block. (R219) -/
  cblk : Nat
  /-- Command: QP. (R214) -/
  qp : Fin 128
  /-- Command: TAG. (R214) -/
  tag : BitVec 16
  /-- FUA. (R215) -/
  fua : Bool
  /-- Host blocks. (R214) -/
  count : Nat
  /-- Zone write pointer after the unit. (R216) -/
  wp : Nat
  /-- First chunk. (R216) -/
  firstChunk : Nat
  /-- Chunks. (R216) -/
  nchunk : Nat
  /-- Chunks the packer has placed. (R206) -/
  placed : Nat
  /-- Chunks since the last locator block. (R207) -/
  sinceLoc : Nat
  /-- Locator entries of the unit placed so far. (R207) -/
  locs : List Locator
  /-- First stream or staging position. (R216) -/
  firstSbi : Nat
  /-- Position of its last locator block or descriptor. (R216) -/
  locSbi : Nat
  /-- One more than its highest position. (R216) -/
  nextSbi : Nat
  /-- Payload-stream offset at NEXT_SBI. (R216) -/
  streamEnd : Nat
  /-- Positions reserved at admission. (R301) -/
  reserved : Nat
  /-- The whole layout is final. (R210) -/
  laid : Bool
  /-- It can no longer commit: the status of that case. (R298) -/
  dead : Option (BitVec 16)
  /-- Its record has been written. (R214) -/
  committed : Bool
  /-- Its chunk buffers hold all its data. (R283) -/
  dataIn : Bool
  /-- Key range. (R387) -/
  key : Byte
  /-- Logical data in its chunk buffers (R283). -/
  data : List Byte
  /-- Effort level asked for; 0 with NO_COMPRESS (R198). -/
  effort : Nat
  /-- Its chunks have gone to the engines (R200). -/
  formed : Bool
  /-- Place of its command in fetch order (R279, R299). -/
  ord : Nat
  /-- Data addresses of the chunk buffers that mirror its data, in a shadow (R369, R371). -/
  mir : List Nat
  deriving DecidableEq, Repr

/-- The compression engines and the packer (08). -/
structure Cmp where
  /-- Engines by number (R198). [idle, unfenced] -/
  eng : Tab Engine
  /-- Chunks waiting for an engine or for the packer, in fetch order (R200). [empty] -/
  jobs : List ChunkJob
  /-- Decompressions waiting (R200): zone, chunk, QP, TAG. [empty] -/
  inflates : List (Nat × Nat × Fin 128 × BitVec 16)
  /-- Blocks of the zone streams not yet committed (R53). [empty] -/
  blks : List Blk
  /-- Commit units not yet forgotten, in CSEQ order (R214). [empty] -/
  units : List CUnit
  /-- Next CSEQ to be given (R214). [1] -/
  nextCsec : Word
  /-- Event 0x6000 was recorded for the present all-fenced time (R202). [no] -/
  rawEvent : Bool
  /-- Decrypted payloads of stream blocks held for commands: zone, SBI, payload (R204, R212). [none] -/
  plain : List (Nat × Nat × List Byte)
  /-- Payloads as read or rebuilt, that wait for their decryption: zone, SBI, payload (R204, R205). [none] -/
  got : List (Nat × Nat × List Byte)
  /-- Stream blocks the XTP rebuilt, until their chunks' LCRC checks: zone, SBI, TGN, column, erased members, target (R184).
  [none] -/
  rebuilt : List (Nat × Nat × Nat × Nat × Nat × Nat)
  deriving DecidableEq, Repr

/-- The crypto lanes (08). -/
structure Cry where
  /-- Lanes fenced (CRY_STATUS.FENCED). [0] -/
  fenced : BitVec 4
  /-- Data unit a lane works on, by lane: zone and SBI, with decrypt (R205). [none] -/
  lane : Tab (Nat × Nat × Bool)
  /-- Data units waiting for a lane: zone, SBI, decrypt (R205). [empty] -/
  queue : List (Nat × Nat × Bool)
  deriving DecidableEq, Repr

/-- One journal record (R216). -/
structure JRec where
  /-- TYPE. (R216) -/
  jtype : Byte
  /-- FLAGS. (R216) -/
  flags : Byte
  /-- CSEQ. (R216) -/
  csec : Word
  /-- ZONE. (R216) -/
  zone : Word
  /-- FIRST_SBI. (R216) -/
  firstSbi : Word
  /-- LOC_SBI. (R216) -/
  locSbi : Word
  /-- NEXT_SBI. (R216) -/
  nextSbi : Word
  /-- WP. (R216) -/
  wp : Word
  /-- FIRST_CHUNK. (R216) -/
  firstChunk : BitVec 16
  /-- NCHUNK. (R216) -/
  nchunk : Byte
  /-- STREAM_END. (R216) -/
  streamEnd : BitVec 64
  /-- TGN. (R216) -/
  tgn : Word
  /-- WREV. (R216) -/
  wrev : Word
  /-- JSEQ. (R216) -/
  jseq : Word
  deriving DecidableEq, Repr

/-- Zone states of R252, in code order. -/
inductive ZState where
  | empty | opened | closed | full | readOnly | offline
  deriving DecidableEq, Repr

/-- One Zone Table entry with what hangs on it (R252 to R254, R300). -/
structure Zone where
  /-- ZSTATE. [EMPTY] (R252) -/
  st : ZState
  /-- Actuator bound (R305). [0] -/
  act : Fin 4
  /-- KEY_RANGE (R305). [0] -/
  key : Byte
  /-- OSLOT (R304). [none] -/
  oslot : Option (Fin 64)
  /-- WP (R252). [0] -/
  wp : Nat
  /-- AWP (R300). [0] -/
  awp : Nat
  /-- LOC_HEAD (R252). [none] -/
  locHead : Option Nat
  /-- NEXT_SBI (R252). [0] -/
  nextSbi : Nat
  /-- STREAM_END (R252). [0] -/
  streamEnd : Nat
  /-- Group list (R253). [empty] -/
  groups : List ZGroup
  /-- Locator index slot (R254). [none] -/
  idx : Option (Fin 512)
  /-- TAIL held: chunk number and its logical bytes (R197). [none] -/
  tail : Option (Nat × List Byte)
  /-- Locator index: newest committed locator by chunk (R254). [empty] -/
  locs : List Locator
  /-- Packer's cursor, payload-stream offset (R206). [0] -/
  cursor : Nat
  /-- Next stream position (R53). [0] -/
  nextPos : Nat
  /-- The stream is stopped (R186). [no] -/
  stopped : Bool
  deriving DecidableEq, Repr

/-- A Zone Table checkpoint with its free-group bitmaps, as on media (R217, R252, R255). -/
structure Ckpt where
  /-- Highest JSEQ covered. (R217) -/
  jseq : Word
  /-- Next CSEQ. (R217) -/
  csec : Word
  /-- Zone Table and group lists. (R252) -/
  zones : Tab Zone
  /-- Fill cursors by actuator. (R255) -/
  fill : Tab Nat
  /-- Staging cursors by actuator. (R217) -/
  stage : Tab Nat
  deriving DecidableEq, Repr

/-- Zones, the conventional region and the journal's working state (08, 09, 11). -/
structure Zon where
  /-- Zones by index, 262,144 of them (R252). [EMPTY] -/
  zones : Tab Zone
  /-- Fill cursors by actuator (R94). [256] -/
  fill : Tab Nat
  /-- Staging cursors by actuator (R217). [0] -/
  stage : Tab Nat
  /-- Staged units committed and not yet copied: CSEQ (R220). [none] -/
  staged : List Word
  /-- Records beyond the newest checkpoint (JRN_STATUS.UNCHK). [0] -/
  unchk : Nat
  /-- JRN_CSEQ. [0] -/
  csec : Word
  /-- A checkpoint is being written, with what it captured (CKPT_BUSY). [none] -/
  ckptBusy : Option Ckpt
  /-- No commit record may be written: PFAIL_N or source 121 (R218, R405). [no] -/
  jstop : Bool
  /-- Groups closed whose parity close is queued: TGN (R179). [none] -/
  closes : List Word
  /-- Locator index builds under way: zone (R254). [none] -/
  builds : List Nat
  /-- Zones that hold a locator index slot, the longest unused first (R254). [none] -/
  used : List Nat
  deriving DecidableEq, Repr

/-! ### Records in force -/

/-- Frequency zone entry (R70). -/
structure FZone where
  /-- FIRST_TRACK. (R70) -/
  first : Nat
  /-- BPR. (R70) -/
  bpr : Nat
  /-- PITCH. (R70) -/
  pitch : Nat
  /-- N. (R70) -/
  n : Nat
  /-- ANG0. (R70) -/
  ang0 : Nat
  /-- SKEW. (R70) -/
  skew : Nat
  deriving DecidableEq, Repr

/-- Head-set entry (R70). -/
structure HSet where
  /-- ACTUATOR. (R70) -/
  act : Nat
  /-- HEADS in set order. (R70) -/
  heads : List Nat
  /-- PAR_A. (R70) -/
  parA : Nat
  /-- PAR_B. (R70) -/
  parB : Nat
  deriving DecidableEq, Repr

/-- A Geometry Table (R70). -/
structure Geom where
  /-- GT_ACTUATORS. (R70) -/
  acts : Nat
  /-- GT_RPM. (R70) -/
  rpm : Nat
  /-- GT_DATA_TRACKS. (R70) -/
  tracks : Nat
  /-- Surface entries: FIRST_ZONE and ZONE_COUNT. (R70) -/
  surfs : List (Nat × Nat)
  /-- Head entries: SURFACE, ACTUATOR, PRESENT. (R70) -/
  heads : List (Nat × Nat × Bool)
  /-- Frequency zones. (R70) -/
  zones : List FZone
  /-- Head sets. (R70) -/
  sets : List HSet
  /-- Conventional extents: FIRST_TGN, GROUPS. (R70) -/
  conv : List (Word × Nat)
  /-- Staging extents. (R70) -/
  stage : List (Word × Nat)
  /-- GT_CRC. (R70) -/
  crc : Word
  deriving DecidableEq, Repr

/-- One head's calibration block (R90). -/
structure CalHead where
  /-- HEAD. (R90) -/
  head : Nat
  /-- CALIBRATED. (R90) -/
  cal : Bool
  /-- STROKE_POS. (R90) -/
  strokePos : Nat
  /-- STROKE_NEG. (R90) -/
  strokeNeg : Nat
  /-- MA_GAIN. (R90) -/
  maGain : Nat
  /-- PES_GAIN. (R90) -/
  pesGain : Nat
  /-- AMP_NOM. (R90) -/
  ampNom : Nat
  /-- WOFS, ROFS, DH of the 256 bands. (R90) -/
  bands : List (Int × Int × Int)
  deriving DecidableEq, Repr

/-- One actuator's calibration record (R90). -/
structure Calib where
  /-- BW. (R90) -/
  bw : Nat
  /-- ATB_OFS. (R90) -/
  ofs : BitVec 22
  /-- MA_MARGIN. (R90) -/
  margin : Nat
  /-- SEEK_AC of bins 0 to 22. (R90) -/
  seek : List Nat
  /-- Head blocks. (R90) -/
  heads : List CalHead
  deriving DecidableEq, Repr

/-- What the heads' records say once accepted (02, 03, 05). -/
structure Recs where
  /-- Geometry Table in force (R70). [none] -/
  geom : Option Geom
  /-- Calibration record in force by actuator (R90). [none] -/
  cal : Tab (Option Calib)
  /-- Bytes of each record in force, by 4 × type + actuator (R72). [none] -/
  bytes : Tab (List Byte)
  /-- The 2 MiB staging area of R72. [zeros] -/
  area : Tab Byte
  /-- A COMMIT under way: how it came, type, actuator, bytes (R72). [none] -/
  commit : Option (Via × Nat × Fin 4 × List Byte)
  /-- Generation of the system directory (R66). [0] -/
  gen : Nat
  /-- The heads were read and no valid Geometry Table was found (R67). [no] -/
  noGeom : Bool
  deriving DecidableEq, Repr

/-! ### Buffer memory, DMA, map cache -/

/-- One corrected-read log entry (R232). -/
structure CeEnt where
  /-- Word address / 8. (R232) -/
  word : Nat
  /-- Count, saturating at 65,535. (R232) -/
  count : Nat
  /-- Last syndrome. (R232) -/
  syn : Byte
  /-- REWRITTEN. (R232) -/
  rewritten : Bool
  deriving DecidableEq, Repr

/-- Buffer memory and its manager (09). -/
structure Buf where
  /-- The 14 GiB of data bytes, by data address (R225, R230). [0 each, as R229 writes them] -/
  mem : List Host.Cell
  /-- ECC words stored poisoned, by data address / 8, rising (R227). [none] -/
  poison : List Nat
  /-- Chosen check bytes in the diagnostic region, by word number (R236). [none] -/
  chk : Tab Byte
  /-- Corrected-read log, entry by index; none is a free entry (R232). [free] -/
  ce : List (Nat × CeEnt)
  /-- Sheepdog's next granule (BUF_SCRUB_POS). [0] -/
  pos : Nat
  /-- BUF_SCRUB_PASS. [0] -/
  passes : Word
  /-- Pages of pool regions retired (R234). [none] -/
  noPool : List Nat
  /-- Fixed-region pages moved to a spare: page and spare index (R234). [none] -/
  spared : List (Nat × Nat)
  /-- BUF_DIAG_RD (R236). [0] -/
  diagRd : BitVec 16
  /-- In self-refresh (R229). [no] -/
  selfRefresh : Bool
  deriving DecidableEq, Repr

/-- Consumer of a DMA transfer's pulse (R240). -/
inductive DmaDst where
  | none | slot (ch : Nat) (bank : Bool) (idx : Nat) | cmd (qp : Fin 128) (tag : BitVec 16)
  deriving DecidableEq, Repr

/-- One DMA channel (R238 to R244). -/
structure DmaCh where
  /-- Data address of the next burst. [0] (R244) -/
  addr : Nat
  /-- Bytes remaining. [0] (R244) -/
  remain : Nat
  /-- BUSY. [0] (R244) -/
  busy : Bool
  /-- The transfer reads memory. (R242) -/
  reads : Bool
  /-- Consumer of the pulse. (R240) -/
  dst : DmaDst
  /-- Bursts it has waited (R239). [0] -/
  waited : Nat
  /-- The transfer carries poison (R243). [no] -/
  poison : Bool
  deriving DecidableEq, Repr

/-- The DMA engine (09). -/
structure Dma where
  /-- Channels 0 to 31 (R238). [idle] -/
  ch : Tab DmaCh
  /-- DMA_PAUSED. [0] -/
  paused : Word
  /-- DMA_PROTO_EVT. [0] -/
  proto : Word
  /-- Last channel served, by priority (R239). [31, so that 0 comes first: DESIGN CHOICE] -/
  last : Tab Nat
  deriving DecidableEq, Repr

/-- One line of the map cache (R245). -/
structure MapLine where
  /-- Tag, address bits [29:19]. (R245) -/
  tag : Nat
  /-- Dirty. (R245) -/
  dirty : Bool
  deriving DecidableEq, Repr

/-- The map cache (09). -/
structure MapC where
  /-- Valid lines by 8 × set + way (R245). [all invalid] -/
  lines : Tab (Option MapLine)
  /-- Tree bits b0 to b6 of each set (R247). [0: DESIGN CHOICE] -/
  tree : Tab (BitVec 7)
  /-- Fills in progress: line, and whether the access writes (R245, R246). [none] -/
  fills : List (Nat × Bool)
  /-- Maintenance operation under way: OP and line (R248). [none] -/
  maint : Option (BitVec 4 × BitVec 24)
  /-- A disable clean runs (R250). [no] -/
  disabling : Bool
  /-- Fenced (MAP_STATUS.FENCED). [0] -/
  fenced : Bool
  deriving DecidableEq, Repr

/-! ### Host interface -/

/-- QP states of R262, in code order. -/
inductive QpSt where
  | disabled | active | error | deleting
  deriving DecidableEq, Repr

/-- One queue pair (10). -/
structure Qp where
  /-- State. [DISABLED] (R262) -/
  st : QpSt
  /-- LOG2_DEPTH. [0] (R266) -/
  log2 : BitVec 4
  /-- SQ base. [0] (R266) -/
  sq : BitVec 64
  /-- CQ base. [0] (R266) -/
  cq : BitVec 64
  /-- MSI-X vector. [0] (R284) -/
  vector : Byte
  /-- Interrupts enabled. [0] (R284) -/
  ien : Bool
  /-- Rights mask. [0] (R264) -/
  rights : BitVec 6
  /-- Fetch index. [0] (R278) -/
  fetch : Nat
  /-- SQ_TAIL last read. [0] (R277) -/
  tail : Nat
  /-- CQ tail of the part. [0] (R271) -/
  cqTail : Nat
  /-- Phase of the entries being written. [1] (R269) -/
  phase : Bool
  /-- CQ_HEAD last read. [0] (R271) -/
  cqHead : Nat
  /-- Entries of a descriptor read under way. [none] (R278) -/
  reading : Option Nat
  /-- TAG of the DELETE QP that runs (R288). [none] -/
  delTag : Option (BitVec 16)
  deriving DecidableEq, Repr

/-- How far a fetched command is (R295, R434). -/
inductive CmdSt where
  | fetched | held | waiting | running | ended
  deriving DecidableEq, Repr

/-- One fetched command (R267). -/
structure Cmd where
  /-- QP. (R267) -/
  qp : Fin 128
  /-- TAG. (R267) -/
  tag : BitVec 16
  /-- OPCODE. (R267) -/
  opc : Byte
  /-- FLAGS. (R267) -/
  flags : Byte
  /-- DPTR0. (R268) -/
  dptr0 : BitVec 64
  /-- DPTR1. (R268) -/
  dptr1 : BitVec 64
  /-- ADDR. (R267) -/
  addr : BitVec 64
  /-- COUNT. (R267) -/
  count : Word
  /-- CP0 to CP6. (R267) -/
  cp : List Word
  /-- Place in fetch order (R279). -/
  ord : Nat
  /-- Rights of the QP when it was fetched (R264). -/
  rights : BitVec 6
  /-- Progress. (R295) -/
  st : CmdSt
  /-- Commit unit. (R214) -/
  csec : Option Word
  /-- Rank of the worst outcome of its blocks, 0 to 5 (R192, R213). -/
  rank : Nat
  /-- Lowest failed logical block address. (R192) -/
  fail : Option Nat
  /-- Chunks, or conventional blocks, of the command that failed. (R192, R213) -/
  bad : List Nat
  /-- Bytes written for the host so far. (R283) -/
  data : List Byte
  /-- Host segments: address and length (R268). -/
  segs : List (BitVec 64 × Nat)
  /-- What it waits for from the host: 0 nothing, 1 its page list or SGL, 2 its data (R268, R283). -/
  need : Nat
  /-- Status and result that wait for its list (R268). -/
  fin : Option (Nat × Nat)
  /-- AWP of the zone at its admission (R306). -/
  top : Nat
  /-- Chunks decoded for it: chunk number and data (R212). -/
  parts : List (Nat × List Byte)
  deriving DecidableEq, Repr

/-- A completion committed to the poster (R283). -/
structure Post where
  /-- QP. (R269) -/
  qp : Fin 128
  /-- TAG. (R269) -/
  tag : BitVec 16
  /-- STATUS. (R269) -/
  status : BitVec 16
  /-- RESULT. (R269) -/
  result : BitVec 64
  /-- Mirrored frame that must be acknowledged first, in a pair (R369). -/
  need : Option (BitVec 16)
  /-- QSTATE has named it posting (R369). -/
  told : Bool
  deriving DecidableEq, Repr

/-- Steps of gateway polling (R275). -/
inductive GwSt where
  | off | waiting | reading | swapping
  deriving DecidableEq, Repr

/-- The Fraolt rings (10). -/
structure Hqi where
  /-- QPs by number (R262). [DISABLED] -/
  qps : Tab Qp
  /-- Fetched commands, in fetch order (R278). [none] -/
  cmds : List Cmd
  /-- Next place in fetch order. [0] -/
  ord : Nat
  /-- The Completion Poster's list, oldest first (R283). [empty] -/
  posts : List Post
  /-- Completions marked posting by QSTATE, for a takeover (R369, R371). [none] -/
  posting : List (Fin 128 × BitVec 16)
  /-- Gateway polling (R275). [off] -/
  gw : GwSt
  /-- Words still to be swapped in this pass (R275). [none] -/
  words : List (Fin 64)
  /-- A bit was found in this pass (R275). [no] -/
  found : Bool
  /-- Crystal tick at which a pass last found a set bit (R275, `last_seen`). [0] -/
  seen : Nat
  /-- GW_ACTIVE (R275). [0] -/
  active : Bool
  /-- Polling stopped by R276 until GW_EN goes 0 then 1. [no] -/
  swapFail : Bool
  /-- The doorbell page is being read (R277). [no] -/
  dbRead : Bool
  /-- It must be read once more (R277). [no] -/
  dbAgain : Bool
  /-- Last QP served of QP1 to QP127 (R279). [127: DESIGN CHOICE, QP1 first] -/
  rr : Nat
  /-- HQI_STATUS.SPEED and WIDTH. [0, 0] -/
  link : BitVec 4 × BitVec 4
  /-- HQI_QP_ERR. [0] -/
  qpErr : Word
  /-- PERST_N is low (R260). [no] -/
  perst : Bool
  /-- Doorbell hints for 0x000 or 0xFFF, counted and ignored (R275). [0] -/
  badHints : Nat
  /-- The HQI fetches nothing (R439, R446). [no] -/
  noFetch : Bool
  /-- Its fence holds until EN goes 0 then 1 (R405). [no] -/
  fenced : Bool
  deriving DecidableEq, Repr

/-! ### Security -/

/-- Roles (R379). -/
inductive Role where
  | maker | installer | operator
  deriving DecidableEq, Repr

/-- An open session (R384). -/
structure Session where
  /-- Number, 1 to 15. (R382) -/
  num : Fin 16
  /-- Role. (R384) -/
  role : Role
  /-- Channel. (R380) -/
  chan : Chan
  /-- Source address. (R380) -/
  src : BitVec 12
  deriving DecidableEq, Repr

/-- A challenge drawn and not yet used (R382). -/
structure Challenge where
  /-- Channel. (R382) -/
  chan : Chan
  /-- Source. (R382) -/
  src : BitVec 12
  /-- Nonce. (R382) -/
  nonce : BitVec 384
  /-- Challenge ID. (R382) -/
  cid : Word
  deriving DecidableEq, Repr

/-- Lifecycle states of R376, in code order. -/
inductive Life where
  | blank | integration | fielded | decommissioned
  deriving DecidableEq, Repr

/-- One key range (R386). -/
structure KeyRange where
  /-- 0 UNCONFIGURED, 1 LOCKED, 2 UNLOCKED. [0] (R386) -/
  st : BitVec 2
  /-- AUTOLOCK. [0] (R386) -/
  auto : Bool
  /-- Number of the key value, drawn from the DRBG (R385). [0] -/
  keyNo : Nat
  deriving DecidableEq, Repr

/-- The mailbox (R402). -/
structure Mbox where
  /-- Claimant. [none] (R402) -/
  claim : Option (Chan × BitVec 12)
  /-- BUSY. [0] (R402) -/
  busy : Bool
  /-- STATUS. [0] (R402) -/
  status : BitVec 16
  /-- Its 512 bytes. [0] (R402) -/
  bytes : Tab Byte
  /-- Place in fetch order at which its message began (R387). [0] -/
  ord : Nat
  /-- Its LOCK or DESTROY waits for the range's work (R387). [no] -/
  waits : Bool
  deriving DecidableEq, Repr

/-- Roles, keys and the boundary: what a part reset ends (14). -/
structure Sec where
  /-- Open sessions (R384). [none] -/
  sessions : List Session
  /-- Challenges, one at most per channel and source (R382). [none] -/
  challenges : List Challenge
  /-- Next challenge ID. [1: DESIGN CHOICE] -/
  nextCid : Word
  /-- Consecutive failures by role, 0 maker, 1 installer, 2 operator (CRY_AUTH, R384). [0] -/
  fails : Tab Nat
  /-- Refusal period now in force by role, in seconds; 0 none (R384). [0] -/
  refuse : Tab Nat
  /-- Last refusal period by role (R384). [0] -/
  period : Tab Nat
  /-- Maker consent runs (R383). [no] -/
  consent : Bool
  /-- Error state (R393). [no] -/
  error : Bool
  /-- Sanitize action in progress (CRY_SEC_STATUS.SAN_ACTION). [0] -/
  sanAction : BitVec 4
  /-- Mailbox (R402). [free] -/
  mbox : Mbox
  /-- Keys in the lanes by range: one more than the key's number, 0 for none (R386). [none] -/
  lanes : Tab Nat
  deriving DecidableEq, Repr

/-! ### Fabric -/

/-- Port states of FAB_PORTn_STATUS (R356), in code order. -/
inductive PortSt where
  | disabled | training | hello | up | down | fenced | loopback
  deriving DecidableEq, Repr

/-- One port (12). The partner link is port 4. -/
structure Port where
  /-- STATE. [DISABLED] (R321) -/
  st : PortSt
  /-- Neighbour's address. [0] (R331) -/
  nbr : BitVec 12
  /-- Neighbour's NODE_ID. [0] (R331) -/
  nodeId : BitVec 64
  /-- Neighbour's port. [0] (R331) -/
  nport : Byte
  /-- Delay results, newest first, at most 8 (R326). [none] -/
  delays : List Nat
  /-- Next LSEQ to send. [0] (R323) -/
  txSeq : BitVec 12
  /-- Next LSEQ expected. [0] (R324) -/
  rxSeq : BitVec 12
  /-- A NAK was sent and the expected packet has not come (R324). [no] -/
  naked : Bool
  /-- Replay buffer: LSEQ and packet, oldest first (R324). [empty] -/
  replay : List (BitVec 12 × Pkt)
  /-- Replays of the oldest packet since ACK advanced (R339). [0] -/
  again : Nat
  /-- REPLAYS. [0] (R356) -/
  replays : BitVec 16
  /-- UNCORR. [0] (R356) -/
  uncorr : BitVec 16
  /-- Credit in units by VC (R328). [128, 256, 512, 512 at UP] -/
  credit : Tab Nat
  /-- CRED last seen by VC (R328). [0] -/
  seen : Tab Nat
  /-- Units freed by VC since link-up (R328). [0] -/
  freed : Tab Nat
  /-- UP for UP_HOLD (R337). [no] -/
  ready : Bool
  /-- UP lanes of the partner link: bit 0 L0, bit 1 L1 (R322). [0] -/
  lanes : BitVec 2
  /-- Next CVC to return (R328). [0] -/
  cvc : BitVec 2
  /-- Output queue: packets that wait for credit or replay room, oldest first (R327). [empty] -/
  queue : List Pkt
  /-- Deficit in bytes of VC1 to VC3 (R327). [0] -/
  deficit : Tab Nat
  deriving DecidableEq, Repr

/-- One routing table entry (R338). -/
structure Route where
  /-- VALID. [0] (R338) -/
  valid : Bool
  /-- PRI. [0] (R338) -/
  pri : Fin 8
  /-- ALT. [0] (R338) -/
  alt : Fin 8
  /-- ALT_VALID. [0] (R338) -/
  altValid : Bool
  /-- USING_ALT. [0] (R338) -/
  usingAlt : Bool
  /-- PRI_COST. [0] (R338) -/
  priCost : Byte
  /-- ALT_COST. [0] (R338) -/
  altCost : Byte
  deriving DecidableEq, Repr

/-- What the part sends to one destination (R342, R344). -/
structure E2eTx where
  /-- Next SEQ. [0] (R342) -/
  seq : Word
  /-- Unacknowledged packets, oldest first. [none] (R342) -/
  unacked : List Pkt
  /-- Packets that wait for room among the 64. [none] (R342) -/
  queue : List Pkt
  /-- Retransmissions without progress. [0] (R344) -/
  tries : Nat
  /-- RESYNC on the next packet. [no] (R344) -/
  resync : Bool
  deriving DecidableEq, Repr

/-- What the part receives from one source (R342). -/
structure E2eRx where
  /-- INST held; none before the first packet. [none] (R342) -/
  inst : Option (BitVec 16)
  /-- Next SEQ expected. [0] (R342) -/
  next : Word
  /-- Packets received out of order, at most 64. [none] (R342) -/
  early : List Pkt
  deriving DecidableEq, Repr

/-- One peer-move session (R352). -/
structure PmSess where
  /-- Session number. (R352) -/
  num : Word
  /-- The other module. (R352) -/
  peer : BitVec 12
  /-- This module is the source S. (R352) -/
  isSrc : Bool
  /-- Step reached: 1 opened, 2 accepted, 3 data sent or arriving, 4 append running. (R352) -/
  step : Nat
  /-- QP and TAG of the PEER MOVE at the source; at the target, those its append goes by (R312). -/
  cmd : Option (Fin 128 × BitVec 16)
  /-- Plain data arrived or to send. (R352) -/
  data : List Byte
  /-- Number of the session key (R352). -/
  keyNo : Nat
  /-- This module's ECDH public key (R352). -/
  pub : List Byte
  /-- CP1, CP2 and FLAGS of the command (R312; M). -/
  cp1 : Word
  /-- CP2 of the command (R312; M). -/
  cp2 : Word
  /-- FLAGS of the command (R312; M). -/
  flags : Byte
  /-- Next packet number (R352). -/
  pno : Nat
  deriving DecidableEq, Repr

/-- What a remote read fetches (R277, R345). -/
inductive RPurpose where
  | page | desc (qp : Fin 128) | data (qp : Fin 128) (tag : BitVec 16)
  deriving DecidableEq, Repr

/-- The Pulum fabric (12). -/
structure Fab where
  /-- LOC[11:0] as sampled (R332). [0] -/
  loc : BitVec 12
  /-- Address in use (FAB_STATUS.ADDR). [0x000] -/
  addr : BitVec 12
  /-- NOADDR. [0] (R332) -/
  noaddr : Bool
  /-- Ports 0 to 4 (R320). [DISABLED] -/
  ports : Tab Port
  /-- Stored LSAs (R335). [none] -/
  lsas : List Lsa
  /-- Routing table by address (R338). [0] -/
  routes : Tab Route
  /-- Routes computed and not yet installed (R336). [none] -/
  computed : Option (Tab Route)
  /-- ASEQ of the latest LSA (FAB_LSA_SEQ). [0] -/
  aseq : Word
  /-- CLAIM_AGE in seconds (R335). [0] -/
  age : Word
  /-- INST, drawn at part reset (R329). [free value 0] -/
  inst : BitVec 16
  /-- Next broadcast SEQ (R330). [0] -/
  bseq : Word
  /-- Last broadcast SEQ taken, by source: INST and SEQ (R330). [none] -/
  bseen : Tab (Option (BitVec 16 × Word))
  /-- End-to-end sending by destination (R342). [fresh] -/
  tx : Tab E2eTx
  /-- End-to-end receiving by source (R342). [fresh] -/
  rx : Tab E2eRx
  /-- TAKEOVER flag (R348). [0] -/
  takeover : Bool
  /-- Shift boss of the shelf (FAB_STATUS.BOSS). [0x000] -/
  boss : BitVec 12
  /-- LEAVING is flooded (R351). [no] -/
  leaving : Bool
  /-- Packets for the partner's address that wait (R340). [none] -/
  partnerWait : List Pkt
  /-- The gateway is unreachable (R347). [no] -/
  gwDown : Bool
  /-- Packets for the gateway held while it is unreachable (R347). [none] -/
  gwHeld : List Pkt
  /-- Remote reads outstanding: RTAG, what they fetch, bytes arrived, whether all have (R277, R345). [none] -/
  rtags : List (BitVec 16 × RPurpose × List Byte × Bool)
  /-- Next RTAG. [0] (R345) -/
  nextRtag : BitVec 16
  /-- Remote reads served as gateway: source, RTAG, address, length (R346). [none] -/
  serving : List (BitVec 12 × BitVec 16 × BitVec 64 × Word)
  /-- Peer-move sessions (R352). [none] -/
  pm : List PmSess
  /-- Packets discarded and counted (R330, R331). [0] -/
  discards : Nat
  /-- The last MGMT_RSP received: status and data (R354). [0, none] -/
  mgmtRsp : Byte × List Word
  deriving DecidableEq, Repr

/-! ### Pair -/

/-- The pair controller (13). -/
structure Pair where
  /-- PAIRED. [0] (R359) -/
  paired : Bool
  /-- SIDE: true is side B. [0] (R359) -/
  sideB : Bool
  /-- OWN_N is held low by this module. [no] (R362) -/
  ownLow : Bool
  /-- OWNER. [0] (R362) -/
  owner : Bool
  /-- OWN_PEER_N is low (PEER_OWN). [0] -/
  peerLow : Bool
  /-- OWN_PEER_N has been low since PD_AON became ready (R362). [no] -/
  peerSeen : Bool
  /-- ALIGNED. [0] (R368) -/
  aligned : Bool
  /-- CANARY_OK. [0] (R365) -/
  canaryOk : Bool
  /-- MIRROR_OK. [0] (R365) -/
  mirrorOk : Bool
  /-- Consecutive missed windows. [0] (R365) -/
  missRun : Nat
  /-- Consecutive valid windows. [0] (R365) -/
  goodRun : Nat
  /-- Canary count, 8 bits. [0] (R364) -/
  canary : Byte
  /-- ALIGNED in the partner's last canary (R364). [0] -/
  peerAligned : Bool
  /-- YIELDING in the partner's last canary (R364). [0] -/
  peerYield : Bool
  /-- The partner is taken as lost now. [no] (R365) -/
  lost : Bool
  /-- LAST_CAUSE. [0] (R374) -/
  lastCause : BitVec 4
  /-- HANDOVERS. [0] (R374) -/
  handovers : BitVec 16
  /-- MISSED. [0] (R374) -/
  missed : BitVec 16
  /-- TAKE_TIME. [0] (R374) -/
  takeTime : BitVec 16
  /-- This module pulls HANDOVER_N low. [no] (R363) -/
  pulling : Bool
  /-- HANDOVER_N is low. [no] (R363) -/
  handoverLow : Bool
  /-- YIELDING. [0] (R373) -/
  yielding : Bool
  /-- Cause under which this module is taking ownership. [0] (R362) -/
  cause : BitVec 4
  /-- After a handover no pull until ALIGNED again. [no] (R365) -/
  noPull : Bool
  deriving DecidableEq, Repr

/-- Pair frames and mirroring (R366 to R369). -/
structure PFrames where
  /-- Next PSEQ. [0] (R366) -/
  pseq : BitVec 16
  /-- Last PSEQ received in order. [0xFFFF: DESIGN CHOICE, the first frame is PSEQ 0] (R366) -/
  pack : BitVec 16
  /-- Unacknowledged frames: PSEQ, KIND, payload. [none] (R366) -/
  unacked : List (BitVec 16 × Byte × List Byte)
  /-- Repetitions without progress. [0] (R366) -/
  reps : Nat
  /-- ALIGN frames applied in agreement, by actuator. [0] (R368) -/
  agree : Tab Nat
  /-- Comparisons in a row beyond the tolerance. [0] (R368) -/
  apart : Nat
  /-- Samples until the next ALIGN is due, M: counted in ALIGN_SEND. [0] (R368) -/
  aligns : Nat
  /-- A snapshot is being sent; PSEQ of its last frame. [none] (R365) -/
  snap : Option (BitVec 16)
  /-- A snapshot is being received. [no] (R365) -/
  snapIn : Bool
  /-- The pair link is fenced. [no] (R405) -/
  fenced : Bool
  /-- Side B waits 2 s after power-up, or the takeover's 8 µs run: 0 none, 1 to 6 step reached (R371). [0] -/
  takeStep : Nat
  deriving DecidableEq, Repr

/-! ### Faults and events -/

/-- One fault record slot (R409). -/
structure FRec where
  /-- UNIT; 0x3F when slot 31 overflowed. (R409) -/
  unit : BitVec 6
  /-- PRIMARY. (R409) -/
  primary : BitVec 7
  /-- CLASS. (R409) -/
  cls : BitVec 3
  /-- MERGED. (R409) -/
  merged : Bool
  /-- MERGE_COUNT. (R409) -/
  mcount : BitVec 8
  /-- Secondary-source mask. (R409) -/
  sec : BitVec 128
  /-- Consequential mask. (R411) -/
  csq : BitVec 128
  /-- CONSEQ_COUNT. (R411) -/
  ccount : BitVec 8
  /-- Operating seconds at opening. (R409) -/
  secs : BitVec 24
  deriving DecidableEq, Repr

/-- The fault collector (15). -/
structure Flt where
  /-- FLT_STATUS, 128 bits. [0] (R413) -/
  status : BitVec 128
  /-- FLT_RAW, 128 bits. [0] (R414) -/
  raw : BitVec 128
  /-- COUNT by source. [0] (R414) -/
  count : Tab (BitVec 16)
  /-- Record slots 0 to 31. [free] (R409) -/
  recs : Tab (Option FRec)
  /-- A 20 µs pulse is in progress. [0] (R412) -/
  pulsing : Bool
  /-- STOP in force. [0] (R406) -/
  stop : Bool
  /-- Units fenced by a fault, bit u. [0] (R405) -/
  fenced : BitVec 64
  /-- Units whose reset masks their consequential sources. [none] (R411) -/
  masking : BitVec 64
  /-- Faults latched in PD_AON during DARK. [0] (R441) -/
  dark : BitVec 128
  /-- FAULT_N driven low. [0] (R412) -/
  pin : Bool
  deriving DecidableEq, Repr

/-- An event on its way to the log, with its record (R415). -/
structure Ev where
  /-- Code. (R415) -/
  code : BitVec 16
  /-- Severity. (R415) -/
  sev : Fin 5
  /-- Fault source; 0xFF none. (R415) -/
  src : Byte
  /-- AUDIT flag. (R415) -/
  audit : Bool
  /-- OVERFLOW flag. (R415) -/
  overflow : Bool
  /-- RESERVE flag. (R415) -/
  reserve : Bool
  /-- Operating seconds. (R415) -/
  secs : Word
  /-- Power-cycle count. (R415) -/
  cycles : BitVec 24
  /-- Sub-second in 1/256 s. (R415) -/
  sub : Byte
  /-- Parameters 1 to 5. (R415) -/
  par : List Word
  deriving DecidableEq, Repr

/-- Events lost to a full queue, of one severity (R418). -/
structure Lost where
  /-- Count since the queue was last empty. [0] (R418) -/
  count : Nat
  /-- First code. [0] (R418) -/
  code1 : BitVec 16
  /-- Last code. [0] (R418) -/
  code2 : BitVec 16
  /-- First operating seconds. [0] (R418) -/
  secs1 : Word
  /-- Last operating seconds. [0] (R418) -/
  secs2 : Word
  deriving DecidableEq, Repr

/-- The event recorder's working state (15). -/
structure Evr where
  /-- Input queue, at most 16, oldest first (R418). [empty] -/
  queue : List Ev
  /-- QMAX. [0] (R422) -/
  qmax : BitVec 5
  /-- Events lost since the queue was empty, by severity (R418). [0] -/
  lost : Tab Lost
  /-- EVR_LOSSn.OVERFLOWED. [0] (R422) -/
  overflowed : Tab (BitVec 16)
  /-- EVR_LOSSn.DROPPED. [0] (R422) -/
  dropped : Tab (BitVec 16)
  /-- LOG_DEGRADED. [0] (R419) -/
  degraded : Bool
  /-- Reserve ring, oldest first, with copied flags, at most 32 (R419). [empty] -/
  ring : List (Ev × Bool)
  /-- MEDIA_COPY. [0] (R422) -/
  mediaCopy : Bool
  /-- Event 0xB102 has been written. [no] (R419) -/
  copied102 : Bool
  deriving DecidableEq, Repr

/-! ### Performance monitor, power, service, set-up -/

/-- The performance monitor (16). -/
structure Pmc where
  /-- Counters by number, 48 bits (R423, R425). [0] -/
  ctr : Tab (BitVec 48)
  /-- OVF bits. [0] (R426) -/
  ovf : BitVec 256
  /-- Register snapshot. [0] (R427) -/
  snap : Tab (BitVec 48)
  /-- OVF bits of the snapshot. [0] (R427) -/
  snapOvf : BitVec 256
  /-- PMC_SNAP.SEQ, 31 bits. [0] (R427) -/
  seq : BitVec 31
  /-- PMC_SMP_CTL.LOST. [0] (R429) -/
  lost : BitVec 16
  /-- A trigger waits for its captured slot: the skid in all, and what is left of it (R429). [none] -/
  trig : Option (Nat × Nat)
  /-- Captured entry words. [0] (R429) -/
  words : Word × Word × Word × Word
  /-- ATB_REV at the captured slot's end. [0] (R429) -/
  smpRev : Word
  /-- SKID. [0] (R429) -/
  skid : BitVec 4
  /-- Shaft angle at the captured slot's end. [0] (R429) -/
  smpAc : BitVec 22
  deriving DecidableEq, Repr

/-- Power states of R438, in code order. -/
inductive PwrSt where
  | active | activeIdle | spunDown | dark
  deriving DecidableEq, Repr

/-- A held change of power state or domains (R436, R439). -/
structure PwrReq where
  /-- TAG of the POWER CONTROL command; none for the part's own. (R436) -/
  tag : Option (BitVec 16)
  /-- Domains to turn off, CP1 bits. (R435) -/
  off : BitVec 14
  /-- Domains to turn on. (R435) -/
  on : BitVec 14
  /-- Power state to reach. (R439) -/
  target : Option PwrSt
  /-- Step reached: 0 held, 1 the domains are switched or the checkpoint is being written, 2 parking and stopping, 3 DARK waits
  for its completion to leave. (R436, R437, R439) -/
  step : Nat
  deriving DecidableEq, Repr

/-- Power and readiness (17). -/
structure Pwr where
  /-- PWR_STATE.STATE. [ACTIVE] (R438) -/
  st : PwrSt
  /-- Change held or in progress (PWR_STATE.BUSY). [none] -/
  req : Option PwrReq
  /-- PWR_DOMAIN.ON. [0] (R447) -/
  on : BitVec 14
  /-- PWR_DOMAIN.CORE. [0] (R447) -/
  core : Bool
  /-- PWR_DOMAIN.BUF_ACTIVE. [0] (R447) -/
  bufActive : Bool
  /-- A route wake runs in DARK. [no] (R441) -/
  routeWake : Bool
  /-- RESET_CAUSE: what the last part reset recorded, 1 supply, 2 PWR_RST. [0] (R432, R447) -/
  cause : BitVec 2
  /-- GEN_READY, 22 bits. [0] (R447) -/
  ready : BitVec 22
  /-- Ready bits whose bound has expired. [0] (R433) -/
  missed : BitVec 22
  /-- A written part reset waits. [no] (R432) -/
  rstPend : Bool
  /-- The DARK completion has been posted and must leave. [no] (R439) -/
  darkPend : Bool
  /-- GEN_READY bits of the domains that DARK turned off, as they stood (R440; M). [0] -/
  darkReady : BitVec 22
  /-- Crystal time since part reset in 2 µs ticks (R10, R468; M). [0] -/
  ticks : Nat
  /-- PD_AON is ready. [no] (R433) -/
  aon : Bool
  deriving DecidableEq, Repr

/-- Removal states of SVC_STATUS (R447), in code order. -/
inductive Removal where
  | normal | preparing | safe | surprise
  deriving DecidableEq, Repr

/-- The technician interface (17). -/
structure Svc where
  /-- REMOVAL. [NORMAL] (R444) -/
  removal : Removal
  /-- LOCATE. [0] (R443) -/
  locate : Bool
  /-- LATCH_OPEN. [0] (R447) -/
  latchOpen : Bool
  /-- SEATED. [0] (R447) -/
  seated : Bool
  /-- IGNORED. [0] (R442) -/
  ignored : BitVec 16
  /-- The long press of the present press has acted. [no] (R442) -/
  longDone : Bool
  /-- Preparation began at this tick. [0] (R444, event 0xC002) -/
  since : Nat
  /-- Place in fetch order at which preparation began (R444). [0] -/
  ord : Nat
  /-- Domains that step 5 of R444 turned off. [0] -/
  off : BitVec 14
  /-- Steps of R444 done: 0 none, 1 the work has ended, 2 the checkpoint is written, 3 parking and stopping. [0] -/
  step : Nat
  deriving DecidableEq, Repr

/-- Set-up access: SMBus and the saved image's progress (18). -/
structure Gen where
  /-- Offset and length of the next SMBus READ. [none] (R458) -/
  smbNext : Option (BitVec 16 × Byte)
  /-- Status of the last SMBus WRITE. [0] (R458) -/
  smbStatus : Byte
  /-- What the last SMBus READ or STATUS returned. [empty] (R458) -/
  smbOut : List Byte
  /-- GEN_SAVE.BUSY with the image that is being written. [none] (R457) -/
  saving : Option (Tab Word × Tab (BitVec 3))
  /-- GEN_SAVE.RESULT. [0] (R457) -/
  result : BitVec 2
  /-- Self-test that runs: its TAG and extended (R318). [none] -/
  selfTest : Option (BitVec 16 × Bool)
  /-- Results of that self-test so far (R318). [0] -/
  testRes : BitVec 64
  /-- Part of that self-test under way: channel 0 to 15, 16 the scan (R318). [0] -/
  testAt : Nat
  deriving DecidableEq, Repr

/-- What MRAM, one-time-programmable memory and flash keep over a part reset. -/
structure Nv where
  /-- Lifecycle state (R376). [BLANK: DESIGN CHOICE, a new part] -/
  life : Life
  /-- NODE_ID, set by the maker (R335). [0: DESIGN CHOICE] -/
  nodeId : BitVec 64
  /-- Public keys of maker, installer, operator, by role (R379). [none: DESIGN CHOICE] -/
  keys : Tab (List Byte)
  /-- KEK generation (R385). [0: DESIGN CHOICE] -/
  kekGen : Word
  /-- Key store: ranges by number (R386). [UNCONFIGURED: DESIGN CHOICE] -/
  ranges : Tab KeyRange
  /-- Conventional range (R386). [none: DESIGN CHOICE] -/
  convRange : Option Byte
  /-- Device key pair has been generated (R376). [no: DESIGN CHOICE] -/
  devKey : Bool
  /-- DRK-disable fuse blown (R397). [no: DESIGN CHOICE] -/
  drkFuse : Bool
  /-- Peer-move anchor (R381). [none: DESIGN CHOICE] -/
  anchor : List Byte
  /-- Peer-move certificate (R389). [none: DESIGN CHOICE] -/
  cert : List Byte
  /-- ISVN minimum (R390). [0: DESIGN CHOICE] -/
  isvnMin : Word
  /-- FSVN minimum (R390). [0: DESIGN CHOICE] -/
  fsvnMin : Word
  /-- Maker microcode key digests revoked, bit k; firmware keys at 4 + k (R390). [0: DESIGN CHOICE] -/
  revoked : Byte
  /-- Firmware FSVN in force (R391). [0: DESIGN CHOICE] -/
  fsvn : Word
  /-- FSVN of the firmware that runs from the next part reset (R391). [none: DESIGN CHOICE] -/
  fwNext : Option Word
  /-- Flash: bytes of the alternate firmware area (R391, R470). [none: DESIGN CHOICE] -/
  fwAlt : Tab Byte
  /-- Flash: which area is primary, and the selector's generation (R470). [0, 0: DESIGN CHOICE] -/
  fwSel : Bool × Nat
  /-- Event-log partition, event region, oldest first, at most 7,168 (R416). [empty: DESIGN CHOICE] -/
  log : List Ev
  /-- Audit region, oldest first, with copied flags, at most 1,024 (R417). [empty: DESIGN CHOICE] -/
  audit : List (Ev × Bool)
  /-- Audit counter (R398). [0] -/
  auditCtr : Word
  /-- Journal slots 0 to 1,023 (R216). [empty: DESIGN CHOICE] -/
  journal : Tab (Option JRec)
  /-- Slot the next record takes (R216). [0: DESIGN CHOICE] -/
  jslot : Nat
  /-- Next JSEQ (R216). [1] -/
  jseq : Word
  /-- Newest checkpoint on media (R217). [none: DESIGN CHOICE] -/
  ckpt : Option Ckpt
  /-- Set-up image: saved values by offset × 32 + lsb, and classes by source (R456). [empty: DESIGN CHOICE] -/
  image : Tab Word
  /-- Saved classes by source (R456). [empty: DESIGN CHOICE] -/
  imageCls : Tab (BitVec 3)
  /-- Generation of the image copy in force (R457). [0: DESIGN CHOICE] -/
  imageGen : Nat
  /-- Both image copies are bad (R457). [no: DESIGN CHOICE] -/
  imageBad : Bool
  deriving DecidableEq, Repr

/-- More of what MRAM keeps. -/
structure Nv2 where
  /-- Retired pages, in MRAM order, 32-bit entries (R234). [none: DESIGN CHOICE] -/
  retired : List Word
  /-- GT_RPM last accepted (R107). [none, so 5,400] -/
  gtRpm : Option Nat
  /-- Sanitize in progress: action and range (R394). [none: DESIGN CHOICE] -/
  sanitize : Option (BitVec 4 × Byte)
  /-- Operating seconds (R415). [0: DESIGN CHOICE] -/
  secs : Word
  /-- Power-cycle count (R415). [0: DESIGN CHOICE] -/
  cycles : BitVec 24
  /-- Stream blocks on media that are locators (none) or copies (of that SBI), by zone, rising, as their headers show (R50,
  R54, R57; M: the media, outside the part). [none: DESIGN CHOICE] -/
  special : Tab (List (Nat × Option Nat))
  /-- First target block in the staging descriptor on media of each staged unit, by CSEQ (R69; M: the media, outside the
  part). [none: DESIGN CHOICE] -/
  descs : Tab Nat
  /-- KEY_RANGE in the headers of a zone's blocks on media (R50, R208; M: the media, outside the part). [none: DESIGN
  CHOICE] -/
  hkeys : Tab Byte
  /-- Audit and reserve records copied to system record 0x0006 (R417, R419). [none: DESIGN CHOICE] -/
  mediaLog : List Ev
  deriving DecidableEq, Repr

/-! ### What the part sends -/

/-- One thing the part has sent or done at its balls (M: the record of its outputs). -/
inductive Out where
  /-- An MDL frame (R100). -/
  | mdl (f : BitVec 64)
  /-- A PAL frame to an actuator's preamplifiers (R465). -/
  | pal (act : Fin 4) (f : BitVec 48)
  /-- A sequenced fabric packet on a port, with its LSEQ (R323). -/
  | pkt (port : Fin 5) (lseq : BitVec 12) (p : Pkt)
  /-- A link-control packet: TYPE of R331 and up to three times (R326). -/
  | ctl (port : Fin 5) (ptype : Byte) (h : LinkHdr) (t : List (BitVec 64))
  /-- A write into host memory (R283). -/
  | hostWrite (addr : BitVec 64) (bytes : List Byte)
  /-- A read of host memory (R277, R278). -/
  | hostRead (addr : BitVec 64) (len : Nat)
  /-- An AtomicOp Swap with 0 (R275). -/
  | swap (addr : BitVec 64)
  /-- An MSI-X message (R284). -/
  | msix (vector : Byte)
  /-- A canary on a partner lane (R364). -/
  | canary (d1 d2 d3 : Byte)
  /-- A block written by a head: the slot's bytes (R42, R130). -/
  | write (head : Fin 64) (track : BitVec 24) (pos : BitVec 12) (bytes : List Byte)
  /-- A pair frame (R366). -/
  | pair (pseq : BitVec 16) (kind : Byte) (payload : List Byte)
  deriving DecidableEq, Repr

/-! ### The whole state -/

/-- The state of one NX4160. -/
structure State where
  /-- Commands that wait, first in, first out (M). [empty] -/
  pending : List Instr
  /-- Register storage (R5). -/
  regs : Regs
  /-- Angle time base (01). -/
  atb : Atb
  /-- Stripe servo (03). -/
  srv : Srv
  /-- Spindle (04). -/
  spn : Spn
  /-- Motor drive link (04). -/
  mdl : Mdl
  /-- Spin-up token ledger (04). -/
  ledger : Ledger
  /-- Channels 0 to 15 (05). -/
  chs : Tab ChSt
  /-- Sequencer (06). -/
  seq : Seq
  /-- Planner (01). -/
  rpl : Rpl
  /-- Recovery and relocation (07). -/
  rcv : Rcv
  /-- Parity engine (07). -/
  xtp : Xtp
  /-- Compression and packing (08). -/
  cmp : Cmp
  /-- Crypto lanes (08). -/
  cry : Cry
  /-- Zones and journal (08, 09, 11). -/
  zon : Zon
  /-- Records in force (02, 03, 05). -/
  recs : Recs
  /-- Buffer memory (09). -/
  buf : Buf
  /-- DMA engine (09). -/
  dma : Dma
  /-- Map cache (09). -/
  map : MapC
  /-- Host interface (10, 11). -/
  hqi : Hqi
  /-- Security (14). -/
  sec : Sec
  /-- Fabric (12). -/
  fab : Fab
  /-- Pair (13). -/
  pair : Pair
  /-- Pair frames (13). -/
  pfr : PFrames
  /-- Faults (15). -/
  flt : Flt
  /-- Events (15). -/
  evr : Evr
  /-- Counters (16). -/
  pmc : Pmc
  /-- Power (17). -/
  pwr : Pwr
  /-- Service (17). -/
  svc : Svc
  /-- Set-up access (18). -/
  gen : Gen
  /-- Non-volatile (14, 15, 08, 18). -/
  nv : Nv
  /-- Non-volatile, continued. -/
  nv2 : Nv2
  /-- What the part has sent, newest first (M). [empty] -/
  sent : List Out
  /-- Counter of free values drawn (M; nothing rests on its reset value). [0: DESIGN CHOICE] -/
  free : Nat
  deriving DecidableEq, Repr

/-! ### How a command can stop -/

/-- Why the machine stops. -/
inductive Fault where
  /-- A command names a byte of buffer memory at or above 14 GiB, which R225 says does not exist. Raised by the
  operations that store or load buffer bytes at an address from outside. Safe: the model stops where no such byte is. -/
  | addressOutside
  deriving DecidableEq, Repr

/-- Why a command has no meaning. -/
inductive Refusal where
  /-- Rejected by name in Machine/Dispatch.lean: no meaning is written. Safe: nothing is claimed of the command. -/
  | notModelled (mnemonic : String)
  deriving DecidableEq, Repr

/-- What a meaning answers. -/
abbrev Result := Host.Outcome State Fault Refusal

/-! ### Reset -/

/-- `Regs` at reset: each field as its docstring says. -/
def Regs.init : Regs := {
  vals := [], force := [], staged := [], w1c := [], cls := [], lastIgnored := 0, denied := 0, rdata := 0 }

/-- `Atb` at reset: each field as its docstring says. -/
def Atb.init : Atb := {
  st := .stopped, ac := 0, rev := 0, nowRev := 0, lastK := none, bad := false, phaseErr := 0, fenced := false }

/-- `HeadSt` at reset: each field as its docstring says. -/
def HeadSt.init : HeadSt := {
  lastTrack := 0, pes := 0, valid := false, rdCnt := 0, wrCnt := 0, rdSettled := false, wrSettled := false, coast :=
  0, offTrack := false, saturated := false, rearm := 0, ma := 0, maInt := 0, live := 0, means := [], sum := 0, cnt :=
  0 }

/-- `ActSt` at reset: each field as its docstring says. -/
def ActSt.init : ActSt := {
  st := .parked, lastSet := none, heads := [], track := 0, seek := none, bin := 0, settles := [], reqPark := false,
  parkPend := false, tries := 0, retryWait := false, vcm := 0, integ := 0, notches := (0, 0), biased := [], palSeq :=
  [], palWait := [], palStatus := 0 }

/-- `Srv` at reset: each field as its docstring says. -/
def Srv.init : Srv := {
  heads := [], acts := [], shock := false, sswBusy := false, sswResult := 0, sswOp := 0, sswAct := 0, sswTrack := 0,
  sswStop := 0 }

/-- `Ledger` at reset: each field as its docstring says. -/
def Ledger.init : Ledger := {
  office := false, holdoff := false, held := [], queue := [] }

/-- `Spn` at reset: each field as its docstring says. -/
def Spn.init : Spn := {
  st := .off, wanted := false, attempts := 0, retryWait := false, preheatS := 0, path := 0, token := false, solo :=
  false, boss := 0, reg := false, offCnt := 0, newRpm := none, ramping := false, phaseLocked := false, phaseGood := 0,
  phaseErr := 0, trim := 0, temp := 0x8000, tempBad := false, before := none, pfailLow := false, mdlLost := false,
  fenced := false, reqTick := 0, failCause := 0, period := 0 }

/-- `Mdl` at reset: each field as its docstring says. -/
def Mdl.init : Mdl := {
  seq := 0, discards := 0, lastType := 0, cur := 0, volt := 0, parked := 0xF, faults := 0, stageDiscards := 0, supply
  := 0, mode := 0 }

/-- `ChFlags` at reset: each field as its docstring says. -/
def ChFlags.init : ChFlags := {
  sync1 := false, sync2 := false, decOk := false, decFail := false, vfyOk := false, vfyFail := false, wus := false }

/-- `ChSt` at reset: each field as its docstring says. -/
def ChSt.init : ChSt := {
  fenced := false, cause := 0, testReq := false, noPlan := false, flags := ChFlags.init, lastIter := 0, store := [],
  pset := (0, 0, 0), bist := false, bistRes := 0, bistTest := 0, bistFailed := 0, rq := [], gate := false, vfy := [] }

/-- `Ctx` at reset: each field as its docstring says. -/
def Ctx.init : Ctx := {
  st := .stopped, upc := 0, lc0 := 0, lc1 := 0, stack := [], timeout := false, u := 0, late := false, abortSlot :=
  false, traps := 0, lastTrap := 0, frame := none, hold := 0, wait := .none, group := none, harvest := none, hcount :=
  0, running := false, bank := false, rqMax := 0, initPend := false }

/-- `Seq` at reset: each field as its docstring says. -/
def Seq.init : Seq := {
  ctx := [], banks := [], committed := [], micro := [], nano := [], isvn := 0, keySlot := 0, pendImg := none, arr := 0
  }

/-- `Rpl` at reset: each field as its docstring says. -/
def Rpl.init : Rpl := {
  work := [], next := 0, frozen := [], planning := none, unserved := [], aged := [], lastCommit := 0, halt := false,
  waiting := [] }

/-- `Rcv` at reset: each field as its docstring says. -/
def Rcv.init : Rcv := {
  lists := [], l1 := [], rlt := [], refused := 0, clean := [], spare := [], tallies := [], fullCount := 0 }

/-- `Xtp` at reset: each field as its docstring says. -/
def Xtp.init : Xtp := {
  fenced := false, slots := [], added := [], parFails := [] }

/-- `Engine` at reset: each field as its docstring says. -/
def Engine.init : Engine := {
  fenced := false, job := .none, stalled := false }

/-- `Cmp` at reset: each field as its docstring says. -/
def Cmp.init : Cmp := {
  eng := [], jobs := [], inflates := [], blks := [], units := [], nextCsec := 1, rawEvent := false, plain := [], got
  := [], rebuilt := [] }

/-- `Cry` at reset: each field as its docstring says. -/
def Cry.init : Cry := {
  fenced := 0, lane := [], queue := [] }

/-- `Zone` at reset: each field as its docstring says. -/
def Zone.init : Zone := {
  st := .empty, act := 0, key := 0, oslot := none, wp := 0, awp := 0, locHead := none, nextSbi := 0, streamEnd := 0,
  groups := [], idx := none, tail := none, locs := [], cursor := 0, nextPos := 0, stopped := false }

/-- `Zon` at reset: each field as its docstring says. -/
def Zon.init : Zon := {
  zones := [], fill := [], stage := [], staged := [], unchk := 0, csec := 0, ckptBusy := none, jstop := false, closes
  := [], builds := [], used := [] }

/-- `Recs` at reset: each field as its docstring says. -/
def Recs.init : Recs := {
  geom := none, cal := [], bytes := [], area := [], commit := none, gen := 0, noGeom := false }

/-- `Buf` at reset: each field as its docstring says. -/
def Buf.init : Buf := {
  mem := [], poison := [], chk := [], ce := [], pos := 0, passes := 0, noPool := [], spared := [], diagRd := 0,
  selfRefresh := false }

/-- `DmaCh` at reset: each field as its docstring says. -/
def DmaCh.init : DmaCh := {
  addr := 0, remain := 0, busy := false, reads := false, dst := .none, waited := 0, poison := false }

/-- `Dma` at reset: each field as its docstring says. -/
def Dma.init : Dma := {
  ch := [], paused := 0, proto := 0, last := [] }

/-- `MapC` at reset: each field as its docstring says. -/
def MapC.init : MapC := {
  lines := [], tree := [], fills := [], maint := none, disabling := false, fenced := false }

/-- `Qp` at reset: each field as its docstring says. -/
def Qp.init : Qp := {
  st := .disabled, log2 := 0, sq := 0, cq := 0, vector := 0, ien := false, rights := 0, fetch := 0, tail := 0, cqTail
  := 0, phase := true, cqHead := 0, reading := none, delTag := none }

/-- `Hqi` at reset: each field as its docstring says. -/
def Hqi.init : Hqi := {
  qps := [], cmds := [], ord := 0, posts := [], posting := [], gw := .off, words := [], found := false, seen := 0,
  active := false, swapFail := false, dbRead := false, dbAgain := false, rr := 127, link := (0, 0), qpErr := 0, perst
  := false, badHints := 0, noFetch := false, fenced := false }

/-- `KeyRange` at reset: each field as its docstring says. -/
def KeyRange.init : KeyRange := {
  st := 0, auto := false, keyNo := 0 }

/-- `Mbox` at reset: each field as its docstring says. -/
def Mbox.init : Mbox := {
  claim := none, busy := false, status := 0, bytes := [], ord := 0, waits := false }

/-- `Sec` at reset: each field as its docstring says. -/
def Sec.init : Sec := {
  sessions := [], challenges := [], nextCid := 1, fails := [], refuse := [], period := [], consent := false, error :=
  false, sanAction := 0, mbox := Mbox.init, lanes := [] }

/-- `Port` at reset: each field as its docstring says. -/
def Port.init : Port := {
  st := .disabled, nbr := 0, nodeId := 0, nport := 0, delays := [], txSeq := 0, rxSeq := 0, naked := false, replay :=
  [], again := 0, replays := 0, uncorr := 0, credit := [], seen := [], freed := [], ready := false, lanes := 0, cvc :=
  0, queue := [], deficit := [] }

/-- `Route` at reset: each field as its docstring says. -/
def Route.init : Route := {
  valid := false, pri := 0, alt := 0, altValid := false, usingAlt := false, priCost := 0, altCost := 0 }

/-- `E2eTx` at reset: each field as its docstring says. -/
def E2eTx.init : E2eTx := {
  seq := 0, unacked := [], queue := [], tries := 0, resync := false }

/-- `E2eRx` at reset: each field as its docstring says. -/
def E2eRx.init : E2eRx := {
  inst := none, next := 0, early := [] }

/-- `Fab` at reset: each field as its docstring says. -/
def Fab.init : Fab := {
  loc := 0, addr := 0, noaddr := false, ports := [], lsas := [], routes := [], computed := none, aseq := 0, age := 0,
  inst := 0, bseq := 0, bseen := [], tx := [], rx := [], takeover := false, boss := 0, leaving := false, partnerWait
  := [], gwDown := false, gwHeld := [], rtags := [], nextRtag := 0, serving := [], pm := [], discards := 0, mgmtRsp :=
  (0, []) }

/-- `Pair` at reset: each field as its docstring says. -/
def Pair.init : Pair := {
  paired := false, sideB := false, ownLow := false, owner := false, peerLow := false, peerSeen := false, aligned :=
  false, canaryOk := false, mirrorOk := false, missRun := 0, goodRun := 0, canary := 0, peerAligned := false,
  peerYield := false, lost := false, lastCause := 0, handovers := 0, missed := 0, takeTime := 0, pulling := false,
  handoverLow := false, yielding := false, cause := 0, noPull := false }

/-- `PFrames` at reset: each field as its docstring says. -/
def PFrames.init : PFrames := {
  pseq := 0, pack := 0xFFFF, unacked := [], reps := 0, agree := [], apart := 0, aligns := 0, snap := none, snapIn :=
  false, fenced := false, takeStep := 0 }

/-- `Flt` at reset: each field as its docstring says. -/
def Flt.init : Flt := {
  status := 0, raw := 0, count := [], recs := [], pulsing := false, stop := false, fenced := 0, masking := 0, dark :=
  0, pin := false }

/-- `Lost` at reset: each field as its docstring says. -/
def Lost.init : Lost := {
  count := 0, code1 := 0, code2 := 0, secs1 := 0, secs2 := 0 }

/-- `Evr` at reset: each field as its docstring says. -/
def Evr.init : Evr := {
  queue := [], qmax := 0, lost := [], overflowed := [], dropped := [], degraded := false, ring := [], mediaCopy :=
  false, copied102 := false }

/-- `Pmc` at reset: each field as its docstring says. -/
def Pmc.init : Pmc := {
  ctr := [], ovf := 0, snap := [], snapOvf := 0, seq := 0, lost := 0, trig := none, words := (0, 0, 0, 0), smpRev :=
  0, skid := 0, smpAc := 0 }

/-- `Pwr` at reset: each field as its docstring says. -/
def Pwr.init : Pwr := {
  st := .active, req := none, on := 0, core := false, bufActive := false, routeWake := false, cause := 0, ready := 0,
  missed := 0, rstPend := false, darkPend := false, darkReady := 0, ticks := 0, aon := false }

/-- `Svc` at reset: each field as its docstring says. -/
def Svc.init : Svc := {
  removal := .normal, locate := false, latchOpen := false, seated := false, ignored := 0, longDone := false, since :=
  0, ord := 0, off := 0, step := 0 }

/-- `Gen` at reset: each field as its docstring says. -/
def Gen.init : Gen := {
  smbNext := none, smbStatus := 0, smbOut := [], saving := none, result := 0, selfTest := none, testRes := 0, testAt
  := 0 }

/-- `Nv` at reset: each field as its docstring says. -/
def Nv.init : Nv := {
  life := .blank, nodeId := 0, keys := [], kekGen := 0, ranges := [], convRange := none, devKey := false, drkFuse :=
  false, anchor := [], cert := [], isvnMin := 0, fsvnMin := 0, revoked := 0, fsvn := 0, fwNext := none, fwAlt := [],
  fwSel := (false, 0), log := [], audit := [], auditCtr := 0, journal := [], jslot := 0, jseq := 1, ckpt := none,
  image := [], imageCls := [], imageGen := 0, imageBad := false }

/-- `Nv2` at reset: each field as its docstring says. -/
def Nv2.init : Nv2 := {
  retired := [], gtRpm := none, sanitize := none, secs := 0, cycles := 0, special := [], descs := [], hkeys := [],
  mediaLog := [] }

/-- The part right after a part reset, as R432 and R455 leave it: every field at the value its docstring states. -/
def State.reset : State := {
  pending := [], regs := Regs.init, atb := Atb.init, srv := Srv.init, spn := Spn.init, mdl := Mdl.init, ledger :=
  Ledger.init, chs := [], seq := Seq.init, rpl := Rpl.init, rcv := Rcv.init, xtp := Xtp.init, cmp := Cmp.init, cry :=
  Cry.init, zon := Zon.init, recs := Recs.init, buf := Buf.init, dma := Dma.init, map := MapC.init, hqi := Hqi.init,
  sec := Sec.init, fab := Fab.init, pair := Pair.init, pfr := PFrames.init, flt := Flt.init, evr := Evr.init, pmc :=
  Pmc.init, pwr := Pwr.init, svc := Svc.init, gen := Gen.init, nv := Nv.init, nv2 := Nv2.init, sent := [], free := 0 }

end Sys2Proof.Machine
end

