-- ==== Sys2Proof/Machine/RegMap.lean ====
section
/-! DEFINITION. The set-up register map: offsets, fields, types, reset values, roles, ranges (R449 and the register
tables of every chapter). -/
namespace Sys2Proof.Machine

open Sys2Proof

/-- Access types of R5. -/
inductive FTy where
  | ro | rw | ws | w1c | wo
  deriving DecidableEq, Repr

/-- One field of a register table. `idle` names the condition of R8 that a change needs: 0 none, 1 the actuator of the
register, 2 every actuator, 3 no servo-writing operation, 4 SPN OFF, 5 the channel, 6 the sequencer contexts, 7 HQI_CTL.EN
is 0, 8 HQI_CTL.GW_EN is 0, 9 every port fenced, 10 PMC_SMP_CTL.EN is 0. -/
structure Fld where
  /-- Lowest bit. -/
  lsb : Nat
  /-- Width. -/
  w : Nat
  /-- Type (R5). -/
  ty : FTy
  /-- Reset value. -/
  reset : Nat
  /-- Roles that may write it; none means unrestricted (R6). -/
  roles : List Role
  /-- Lowest value accepted. -/
  lo : Nat
  /-- Highest value accepted. -/
  hi : Nat
  /-- Condition of R8. -/
  idle : Nat
  /-- Kept in the set-up image (R456). -/
  persist : Bool
  deriving DecidableEq, Repr

/-- A read-only field. -/
def Fld.status (lsb w reset : Nat) : Fld := ⟨lsb, w, .ro, reset, [], 0, 0, 0, false⟩

/-- A write-one-to-clear field. -/
def Fld.clear (lsb w reset : Nat) : Fld := ⟨lsb, w, .w1c, reset, [], 0, 0, 0, false⟩

/-- A register, or a row of like registers: first offset, stride, how many, row of the register index, fields. -/
structure RegDef where
  /-- First offset. -/
  base : Nat
  /-- Distance of like registers; 0 for a single one. -/
  stride : Nat
  /-- How many. -/
  count : Nat
  /-- Row of the register index (R449). -/
  row : Nat
  /-- Fields, reserved ones left out. -/
  fields : List Fld
  deriving DecidableEq, Repr

/-- Registers of the map, part 1, in rising offset; each field's table is in the chapter R449 names. -/
def regDefs1 : List RegDef := [
  -- GEN_ID
  ⟨0x0000, 0x0, 1, 0, [Fld.status 16 16 0x4160,
    Fld.status 8 8 2,
    Fld.status 0 8 1]⟩,
  -- GEN_READY
  ⟨0x0004, 0x0, 1, 1, [Fld.status 21 1 0,
    Fld.status 20 1 0,
    Fld.status 16 4 0,
    Fld.status 12 4 0,
    Fld.status 11 1 0,
    Fld.status 8 3 0,
    Fld.status 6 2 0,
    Fld.status 4 2 0,
    Fld.status 0 4 0]⟩,
  -- GEN_STATUS
  ⟨0x0008, 0x0, 1, 1, [Fld.status 31 1 0,
    Fld.clear 30 1 0,
    Fld.status 28 2 0]⟩,
  -- GEN_OPEN_MAX
  ⟨0x000C, 0x0, 1, 0, [⟨24, 8, .rw, 64, [.installer], 1, 64, 0, true⟩,
    ⟨16, 8, .rw, 64, [.installer], 1, 64, 0, true⟩,
    ⟨8, 8, .rw, 64, [.installer], 1, 64, 0, true⟩,
    ⟨0, 8, .rw, 64, [.installer], 1, 64, 0, true⟩]⟩,
  -- GEN_SAVE
  ⟨0x0010, 0x0, 1, 0, [⟨31, 1, .wo, 0, [.installer, .operator], 0, 1, 0, false⟩,
    ⟨30, 1, .wo, 0, [.installer, .operator], 0, 1, 0, false⟩,
    Fld.status 16 8 0,
    Fld.status 2 1 0,
    Fld.status 0 2 0]⟩,
  -- GEN_LAST_IGNORED
  ⟨0x0014, 0x0, 1, 0, [Fld.status 30 2 0,
    Fld.status 26 4 0,
    Fld.status 0 16 0]⟩,
  -- HQI_CTL
  ⟨0x0400, 0x0, 1, 2, [⟨1, 1, .rw, 0, [], 0, 1, 0, false⟩,
    ⟨0, 1, .rw, 0, [], 0, 1, 0, false⟩]⟩,
  -- HQI_STATUS
  ⟨0x0404, 0x0, 1, 2, [Fld.status 24 4 0,
    Fld.status 20 4 0,
    Fld.clear 7 1 0,
    Fld.clear 6 1 0,
    Fld.clear 5 1 0,
    Fld.status 4 1 0,
    Fld.status 0 2 0]⟩,
  -- HQI_DB_BASE_LO, HQI_DB_BASE_HI LO
  ⟨0x0408, 0x0, 1, 2, [⟨12, 20, .rw, 0, [], 0, 1048575, 7, false⟩]⟩,
  -- HQI_DB_BASE_LO, HQI_DB_BASE_HI HI
  ⟨0x040C, 0x0, 1, 2, [⟨0, 32, .rw, 0, [], 0, 4294967295, 7, false⟩]⟩,
  -- HQI_GW
  ⟨0x0410, 0x0, 1, 2, [⟨0, 12, .rw, 0, [], 0, 4095, 7, false⟩]⟩,
  -- HQI_QP0_SQ_LO, HQI_QP0_SQ_HI, HQI_QP0_CQ_LO, HQI_QP0_CQ_HI LO
  ⟨0x0418, 0x0, 1, 2, [⟨12, 20, .rw, 0, [], 0, 1048575, 7, false⟩]⟩,
  -- HQI_QP0_SQ_LO, HQI_QP0_SQ_HI, HQI_QP0_CQ_LO, HQI_QP0_CQ_HI HI
  ⟨0x041C, 0x0, 1, 2, [⟨0, 32, .rw, 0, [], 0, 4294967295, 7, false⟩]⟩,
  -- HQI_QP0_SQ_LO, HQI_QP0_SQ_HI, HQI_QP0_CQ_LO, HQI_QP0_CQ_HI LO
  ⟨0x0420, 0x0, 1, 2, [⟨12, 20, .rw, 0, [], 0, 1048575, 7, false⟩]⟩,
  -- HQI_QP0_SQ_LO, HQI_QP0_SQ_HI, HQI_QP0_CQ_LO, HQI_QP0_CQ_HI HI
  ⟨0x0424, 0x0, 1, 2, [⟨0, 32, .rw, 0, [], 0, 4294967295, 7, false⟩]⟩,
  -- HQI_QP0_CFG
  ⟨0x0428, 0x0, 1, 2, [⟨31, 1, .rw, 0, [], 0, 1, 7, false⟩,
    ⟨16, 8, .rw, 0, [], 0, 255, 7, false⟩,
    ⟨0, 4, .rw, 0, [], 1, 12, 7, false⟩]⟩,
  -- HQI_QP0_RIGHTS
  ⟨0x042C, 0x0, 1, 2, [⟨0, 6, .rw, 55, [.operator], 0, 63, 0, true⟩]⟩,
  -- HQI_SUM_BASE_LO, HQI_SUM_BASE_HI LO
  ⟨0x0430, 0x0, 1, 2, [⟨12, 20, .rw, 0, [], 0, 1048575, 8, false⟩]⟩,
  -- HQI_SUM_BASE_LO, HQI_SUM_BASE_HI HI
  ⟨0x0434, 0x0, 1, 2, [⟨0, 32, .rw, 0, [], 0, 4294967295, 8, false⟩]⟩,
  -- HQI_GW_POLL
  ⟨0x0438, 0x0, 1, 2, [⟨16, 10, .rw, 50, [], 10, 1000, 0, false⟩,
    ⟨0, 8, .rw, 10, [], 5, 255, 0, false⟩]⟩,
  -- HQI_QP_SEL
  ⟨0x0440, 0x0, 1, 2, [⟨0, 7, .rw, 0, [], 0, 127, 0, false⟩]⟩,
  -- HQI_QP_INFO
  ⟨0x0444, 0x0, 1, 2, [Fld.status 30 2 0,
    Fld.status 16 13 0,
    Fld.status 12 4 0,
    Fld.status 0 12 0]⟩,
  -- HQI_QP_ERR
  ⟨0x0448, 0x0, 1, 2, [Fld.status 16 7 0,
    Fld.status 0 8 0]⟩,
  -- FAB_CTL
  ⟨0x0800, 0x0, 1, 3, [⟨31, 1, .rw, 0, [.installer], 0, 1, 9, true⟩,
    ⟨16, 12, .rw, 0, [.installer], 1, 4094, 0, true⟩,
    ⟨0, 4, .rw, 15, [.installer], 0, 15, 0, true⟩]⟩]

/-- Registers of the map, part 2, in rising offset; each field's table is in the chapter R449 names. -/
def regDefs2 : List RegDef := [
  -- FAB_STATUS
  ⟨0x0804, 0x0, 1, 3, [Fld.status 31 1 0,
    Fld.clear 30 1 0,
    Fld.status 29 1 0,
    Fld.status 28 1 0,
    Fld.status 12 12 0,
    Fld.status 0 12 0]⟩,
  -- FAB_PORTn_CTL
  ⟨0x0810, 0x10, 5, 3, [⟨1, 1, .rw, 0, [.installer], 0, 1, 0, false⟩,
    ⟨0, 1, .rw, 0, [.installer], 0, 1, 0, false⟩]⟩,
  -- FAB_PORTn_STATUS
  ⟨0x0814, 0x10, 5, 3, [Fld.status 29 3 0,
    Fld.status 16 12 0,
    Fld.status 0 16 0]⟩,
  -- FAB_PORTn_ERR
  ⟨0x0818, 0x10, 5, 3, [Fld.status 16 16 0,
    Fld.status 0 16 0]⟩,
  -- FAB_TIMING
  ⟨0x0860, 0x0, 1, 3, [⟨24, 8, .rw, 10, [.operator], 1, 255, 0, true⟩,
    ⟨16, 8, .rw, 10, [.installer], 1, 255, 0, true⟩,
    ⟨0, 4, .rw, 4, [.installer], 2, 15, 0, true⟩]⟩,
  -- FAB_LSA_SEQ
  ⟨0x0864, 0x0, 1, 3, [Fld.status 0 32 0]⟩,
  -- FAB_RMA_BASE_LO, FAB_RMA_BASE_HI, FAB_RMA_LIMIT_LO, FAB_RMA_LIMIT_HI LO
  ⟨0x0870, 0x0, 1, 3, [⟨0, 32, .rw, 0, [], 0, 4294967295, 8, false⟩]⟩,
  -- FAB_RMA_BASE_LO, FAB_RMA_BASE_HI, FAB_RMA_LIMIT_LO, FAB_RMA_LIMIT_HI HI
  ⟨0x0874, 0x0, 1, 3, [⟨0, 32, .rw, 0, [], 0, 4294967295, 8, false⟩]⟩,
  -- FAB_RMA_BASE_LO, FAB_RMA_BASE_HI, FAB_RMA_LIMIT_LO, FAB_RMA_LIMIT_HI LO
  ⟨0x0878, 0x0, 1, 3, [⟨0, 32, .rw, 4294967295, [], 0, 4294967295, 8, false⟩]⟩,
  -- FAB_RMA_BASE_LO, FAB_RMA_BASE_HI, FAB_RMA_LIMIT_LO, FAB_RMA_LIMIT_HI HI
  ⟨0x087C, 0x0, 1, 3, [⟨0, 32, .rw, 4294967295, [], 0, 4294967295, 8, false⟩]⟩,
  -- PAIR_CTL
  ⟨0x0C00, 0x0, 1, 4, [⟨8, 8, .rw, 16, [.installer], 1, 255, 0, true⟩,
    ⟨1, 1, .rw, 1, [.operator], 0, 1, 0, true⟩,
    ⟨0, 1, .wo, 0, [.operator], 0, 1, 0, false⟩]⟩,
  -- PAIR_STATUS
  ⟨0x0C04, 0x0, 1, 4, [Fld.status 31 1 0,
    Fld.status 30 1 0,
    Fld.status 29 1 0,
    Fld.status 28 1 0,
    Fld.status 27 1 0,
    Fld.status 26 1 0,
    Fld.status 25 1 0,
    Fld.clear 24 1 0,
    Fld.clear 23 1 0,
    Fld.clear 22 1 0,
    Fld.status 0 4 0]⟩,
  -- PAIR_COUNT
  ⟨0x0C08, 0x0, 1, 4, [Fld.status 16 16 0,
    Fld.status 0 16 0]⟩,
  -- PAIR_LAST
  ⟨0x0C0C, 0x0, 1, 4, [Fld.status 0 16 0]⟩,
  -- ATB_CTL
  ⟨0x1000, 0x0, 1, 5, [⟨12, 4, .ws, 15, [.installer], 0, 15, 0, true⟩,
    ⟨8, 4, .ws, 8, [.installer], 1, 15, 0, true⟩,
    ⟨0, 8, .ws, 64, [.installer], 16, 255, 0, true⟩]⟩,
  -- ATB_STATUS
  ⟨0x1004, 0x0, 1, 5, [Fld.status 8 2 0,
    Fld.clear 7 1 0,
    Fld.clear 6 1 0,
    Fld.status 0 2 0]⟩,
  -- ATB_NOW_AC
  ⟨0x1008, 0x0, 1, 5, [Fld.status 0 22 0]⟩,
  -- ATB_NOW_REV
  ⟨0x100C, 0x0, 1, 5, [Fld.status 0 32 0]⟩,
  -- ATB_OFS0 to ATB_OFS3
  ⟨0x1010, 0x4, 4, 5, [⟨0, 22, .rw, 0, [.installer], 0, 4194303, 1, false⟩]⟩,
  -- ATB_STAGE
  ⟨0x1020, 0x0, 1, 5, [Fld.status 0 1 0]⟩,
  -- ATB_STAGE_REV
  ⟨0x1024, 0x0, 1, 5, [Fld.status 0 32 0]⟩,
  -- SEQ_CTL
  ⟨0x1400, 0x0, 1, 6, [⟨8, 10, .ws, 512, [.installer], 64, 1023, 0, true⟩,
    ⟨0, 5, .rw, 31, [.maker], 0, 31, 6, false⟩]⟩,
  -- SEQ_ERR
  ⟨0x1404, 0x0, 1, 6, [Fld.clear 9 5 0,
    Fld.clear 4 5 0,
    Fld.clear 0 4 0]⟩,
  -- SEQ_MCODE
  ⟨0x1408, 0x0, 1, 6, [Fld.status 0 32 0]⟩]

/-- Registers of the map, part 3, in rising offset; each field's table is in the chapter R449 names. -/
def regDefs3 : List RegDef := [
  -- SEQ_LEAD
  ⟨0x1410, 0x0, 1, 7, [⟨0, 17, .ws, 8192, [.installer], 2048, 65536, 0, true⟩]⟩,
  -- SEQ_CTXn
  ⟨0x1420, 0x4, 5, 6, [Fld.status 29 3 0,
    Fld.status 26 3 0,
    Fld.status 25 1 0,
    Fld.status 20 5 0,
    Fld.status 0 13 0]⟩,
  -- RPL_PRIO
  ⟨0x1700, 0x0, 1, 7, [⟨6, 2, .ws, 3, [.operator], 0, 3, 0, true⟩,
    ⟨4, 2, .ws, 2, [.operator], 0, 3, 0, true⟩,
    ⟨2, 2, .ws, 1, [.operator], 0, 3, 0, true⟩,
    ⟨0, 2, .ws, 0, [.operator], 0, 3, 0, true⟩]⟩,
  -- RPL_AGE
  ⟨0x1704, 0x0, 1, 7, [⟨0, 16, .ws, 64, [.operator], 0, 65535, 0, true⟩]⟩,
  -- RPL_CUTOFF
  ⟨0x1708, 0x0, 1, 7, [⟨0, 21, .ws, 262144, [.installer], 65536, 1048576, 0, true⟩]⟩,
  -- RPL_STATUS
  ⟨0x170C, 0x0, 1, 7, [Fld.clear 0 4 0]⟩,
  -- RPL_LAST_COMMIT
  ⟨0x1710, 0x0, 1, 7, [Fld.status 0 22 0]⟩,
  -- RCV_CTL
  ⟨0x1740, 0x0, 1, 8, [⟨24, 4, .ws, 8, [.installer], 2, 8, 0, true⟩,
    ⟨16, 8, .ws, 32, [.installer], 8, 255, 0, true⟩,
    ⟨8, 8, .ws, 64, [.installer], 32, 255, 0, true⟩,
    ⟨4, 4, .ws, 6, [.operator], 2, 6, 0, true⟩]⟩,
  -- RCV_BUDGET
  ⟨0x1744, 0x0, 1, 8, [⟨24, 8, .ws, 32, [.installer], 0, 255, 0, true⟩,
    ⟨16, 8, .ws, 16, [.installer], 4, 255, 0, true⟩,
    ⟨8, 8, .ws, 16, [.installer], 4, 255, 0, true⟩,
    ⟨0, 8, .ws, 8, [.installer], 2, 255, 0, true⟩]⟩,
  -- RCV_STATUS
  ⟨0x1748, 0x0, 1, 8, [Fld.clear 0 4 0]⟩,
  -- RCV_FILL
  ⟨0x174C, 0x0, 1, 8, [Fld.status 24 8 0,
    Fld.status 16 8 0,
    Fld.status 8 8 0,
    Fld.status 0 8 0]⟩,
  -- RLT_STATUS
  ⟨0x1780, 0x0, 1, 8, [Fld.clear 31 1 0,
    Fld.clear 30 1 0,
    Fld.status 0 17 0]⟩,
  -- RLT_PENDING
  ⟨0x1784, 0x0, 1, 8, [Fld.status 0 17 0]⟩,
  -- SRV_CTL
  ⟨0x1800, 0x0, 1, 9, [⟨31, 1, .rw, 1, [.installer], 0, 1, 2, true⟩,
    ⟨24, 4, .ws, 4, [.installer], 1, 15, 0, true⟩,
    ⟨16, 8, .ws, 8, [.installer], 1, 255, 0, true⟩,
    ⟨12, 4, .ws, 3, [.installer], 1, 8, 0, true⟩,
    ⟨0, 12, .ws, 492, [.installer], 205, 1024, 0, true⟩]⟩,
  -- SRV_SETTLE
  ⟨0x1804, 0x0, 1, 9, [⟨24, 6, .ws, 4, [.installer], 1, 32, 0, true⟩,
    ⟨12, 12, .ws, 246, [.installer], 41, 4095, 0, true⟩,
    ⟨0, 12, .ws, 410, [.installer], 41, 2047, 0, true⟩]⟩,
  -- SRV_STATUS
  ⟨0x180C, 0x0, 1, 9, [Fld.clear 20 1 0,
    Fld.clear 16 4 0,
    Fld.status 12 4 0,
    Fld.status 8 4 0,
    Fld.status 4 4 0,
    Fld.status 0 4 0]⟩,
  -- SRV_VCMn
  ⟨0x1810, 0x10, 4, 9, [⟨16, 8, .ws, 64, [.installer], 16, 255, 0, true⟩,
    ⟨8, 8, .ws, 64, [.installer], 0, 255, 0, true⟩,
    ⟨0, 8, .ws, 64, [.installer], 16, 255, 0, true⟩]⟩,
  -- SRV_MAn
  ⟨0x1814, 0x10, 4, 9, [⟨16, 8, .ws, 64, [.installer], 16, 255, 0, true⟩,
    ⟨8, 8, .ws, 64, [.installer], 0, 255, 0, true⟩,
    ⟨0, 8, .ws, 64, [.installer], 16, 255, 0, true⟩]⟩,
  -- SRV_NOTCHn
  ⟨0x1818, 0x10, 4, 9, [⟨28, 4, .ws, 0, [.installer], 0, 15, 0, true⟩,
    ⟨16, 12, .ws, 0, [.installer], 0, 4095, 0, true⟩,
    ⟨12, 4, .ws, 0, [.installer], 0, 15, 0, true⟩,
    ⟨0, 12, .ws, 0, [.installer], 0, 4095, 0, true⟩]⟩,
  -- SRV_ACTCMDn
  ⟨0x181C, 0x10, 4, 9, [⟨0, 2, .wo, 0, [.installer], 0, 3, 0, false⟩]⟩,
  -- SRV_SSW_CMD
  ⟨0x1860, 0x0, 1, 9, [⟨4, 2, .wo, 0, [.maker, .installer], 0, 3, 0, false⟩,
    ⟨0, 4, .wo, 0, [.maker, .installer], 0, 15, 0, false⟩]⟩,
  -- SRV_SSW_ARG
  ⟨0x1864, 0x0, 1, 9, [⟨24, 6, .rw, 0, [.maker, .installer], 0, 63, 3, false⟩,
    ⟨0, 24, .rw, 0, [.maker, .installer], 0, 16777215, 3, false⟩]⟩,
  -- SRV_SSW_STATUS
  ⟨0x1868, 0x0, 1, 9, [Fld.status 31 1 0,
    Fld.status 28 3 0,
    Fld.status 24 4 0,
    Fld.status 0 24 0]⟩,
  -- SPN_CTL
  ⟨0x1C00, 0x0, 1, 10, [⟨31, 1, .rw, 1, [.installer], 0, 1, 0, true⟩,
    ⟨30, 1, .rw, 1, [.installer], 0, 1, 0, true⟩,
    ⟨0, 13, .rw, 5400, [.installer], 4200, 7200, 0, false⟩]⟩]

/-- Registers of the map, part 4, in rising offset; each field's table is in the chapter R449 names. -/
def regDefs4 : List RegDef := [
  -- SPN_STATUS
  ⟨0x1C04, 0x0, 1, 10, [Fld.clear 15 1 0,
    Fld.clear 14 1 0,
    Fld.clear 13 1 0,
    Fld.clear 12 1 0,
    Fld.status 11 1 0,
    Fld.status 10 1 0,
    Fld.status 0 4 0]⟩,
  -- SPN_PREHEAT
  ⟨0x1C08, 0x0, 1, 10, [⟨24, 8, .rw, 100, [.installer], 10, 200, 4, true⟩,
    ⟨12, 12, .rw, 900, [.installer], 60, 4095, 4, true⟩,
    ⟨0, 12, .rw, 50, [.installer], 0, 4095, 4, true⟩]⟩,
  -- SPN_TEMP
  ⟨0x1C0C, 0x0, 1, 10, [Fld.status 0 16 0x8000]⟩,
  -- SPN_PHASE
  ⟨0x1C10, 0x0, 1, 10, [⟨0, 22, .rw, 262144, [.installer], 0, 4194303, 0, true⟩]⟩,
  -- SPN_PHASE_ERR
  ⟨0x1C14, 0x0, 1, 10, [Fld.status 0 32 0]⟩,
  -- SPN_TOKEN
  ⟨0x1C18, 0x0, 1, 10, [Fld.status 31 1 0,
    Fld.status 30 1 0,
    Fld.status 0 12 0]⟩,
  -- SPN_LEDGER
  ⟨0x1C1C, 0x0, 1, 10, [⟨16, 8, .rw, 60, [.operator], 35, 255, 0, true⟩,
    ⟨8, 8, .rw, 20, [.operator], 5, 255, 0, true⟩,
    ⟨0, 5, .rw, 4, [.operator], 1, 16, 0, true⟩]⟩,
  -- CHn_CTL
  ⟨0x2000, 0x80, 16, 11, [⟨31, 1, .rw, 0, [.installer], 0, 1, 0, false⟩,
    ⟨30, 1, .rw, 1, [.installer], 0, 1, 5, true⟩]⟩,
  -- CHn_STATUS
  ⟨0x2004, 0x80, 16, 11, [Fld.status 31 1 0,
    Fld.status 30 1 0,
    Fld.status 28 2 0,
    Fld.status 16 4 0,
    Fld.status 8 4 0,
    Fld.clear 7 1 0,
    Fld.clear 6 1 0,
    Fld.clear 5 1 0]⟩,
  -- CHn_LDPC
  ⟨0x2008, 0x80, 16, 11, [⟨16, 4, .ws, 12, [.installer], 1, 12, 0, true⟩,
    ⟨8, 6, .ws, 32, [.installer], 1, 32, 0, true⟩,
    ⟨0, 4, .ws, 8, [.installer], 1, 8, 0, true⟩]⟩,
  -- CHn_SYNC
  ⟨0x200C, 0x80, 16, 11, [⟨16, 8, .ws, 64, [.installer], 8, 64, 0, true⟩,
    ⟨8, 4, .ws, 8, [.installer], 2, 15, 0, true⟩,
    ⟨0, 3, .ws, 6, [.installer], 0, 6, 0, true⟩]⟩,
  -- CHn_VERIFY
  ⟨0x2010, 0x80, 16, 11, [⟨16, 4, .ws, 6, [.installer], 1, 15, 0, true⟩,
    ⟨0, 10, .ws, 240, [.installer], 0, 1023, 0, true⟩]⟩,
  -- CHn_BIST
  ⟨0x2014, 0x80, 16, 11, [⟨0, 4, .wo, 0, [.installer], 0, 15, 0, false⟩]⟩,
  -- CHn_BIST_RES
  ⟨0x2018, 0x80, 16, 11, [Fld.status 31 1 0,
    Fld.status 28 3 0,
    Fld.status 24 4 0,
    Fld.status 0 4 0]⟩,
  -- CHn_PSET_NOW
  ⟨0x201C, 0x80, 16, 11, [Fld.status 26 6 0,
    Fld.status 23 3 0,
    Fld.status 16 7 0]⟩,
  -- BUF_CTL
  ⟨0x2800, 0x0, 1, 12, [⟨8, 2, .rw, 1, [.installer], 0, 3, 0, true⟩,
    ⟨0, 8, .rw, 16, [.installer], 2, 255, 0, true⟩]⟩,
  -- BUF_SCRUB
  ⟨0x2804, 0x0, 1, 12, [⟨8, 8, .rw, 12, [.installer], 1, 255, 0, true⟩,
    ⟨0, 1, .rw, 1, [.installer], 0, 1, 0, true⟩]⟩,
  -- BUF_STATUS
  ⟨0x2808, 0x0, 1, 12, [Fld.clear 15 1 0,
    Fld.clear 14 1 0,
    Fld.clear 13 1 0,
    Fld.status 12 1 0,
    Fld.status 0 10 0]⟩,
  -- BUF_SCRUB_POS
  ⟨0x280C, 0x0, 1, 12, [Fld.status 0 28 0]⟩,
  -- BUF_SCRUB_PASS
  ⟨0x2810, 0x0, 1, 12, [Fld.status 0 32 0]⟩,
  -- BUF_CELOG_IDX
  ⟨0x2820, 0x0, 1, 12, [⟨0, 6, .rw, 0, [], 0, 63, 0, false⟩]⟩,
  -- BUF_CELOG_ADDR
  ⟨0x2824, 0x0, 1, 12, [Fld.status 31 1 0,
    Fld.status 0 31 0]⟩,
  -- BUF_CELOG_CNT
  ⟨0x2828, 0x0, 1, 12, [Fld.status 31 1 0,
    Fld.status 16 8 0,
    Fld.status 0 16 0]⟩,
  -- BUF_DIAG
  ⟨0x2830, 0x0, 1, 12, [⟨31, 1, .rw, 0, [.maker, .installer], 0, 1, 0, false⟩,
    ⟨30, 1, .rw, 0, [.maker, .installer], 0, 1, 0, false⟩,
    ⟨0, 8, .rw, 0, [.maker, .installer], 0, 255, 0, false⟩]⟩]

/-- Registers of the map, part 5, in rising offset; each field's table is in the chapter R449 names. -/
def regDefs5 : List RegDef := [
  -- BUF_DIAG_RD
  ⟨0x2834, 0x0, 1, 12, [Fld.status 8 8 0,
    Fld.status 0 8 0]⟩,
  -- DMA_PAUSE
  ⟨0x2C00, 0x0, 1, 13, [⟨0, 32, .rw, 0, [.installer], 0, 4294967295, 0, false⟩]⟩,
  -- DMA_PAUSED
  ⟨0x2C04, 0x0, 1, 13, [Fld.status 0 32 0]⟩,
  -- DMA_ARB
  ⟨0x2C08, 0x0, 1, 13, [⟨0, 8, .rw, 64, [.installer], 8, 255, 0, true⟩]⟩,
  -- DMA_PROTO_EVT
  ⟨0x2C0C, 0x0, 1, 13, [Fld.status 0 32 0]⟩,
  -- DMA_ERR
  ⟨0x2C10, 0x0, 1, 13, [Fld.clear 0 32 0]⟩,
  -- DMA_CHn_ADDR
  ⟨0x2C40, 0x8, 32, 13, [Fld.status 0 28 0]⟩,
  -- DMA_CHn_LEN
  ⟨0x2C44, 0x8, 32, 13, [Fld.status 31 1 0,
    Fld.status 0 17 0]⟩,
  -- MAP_CTL
  ⟨0x3000, 0x0, 1, 14, [⟨8, 8, .rw, 0, [.installer], 0, 255, 0, true⟩,
    ⟨0, 1, .rw, 1, [.installer], 0, 1, 0, true⟩]⟩,
  -- MAP_STATUS
  ⟨0x3004, 0x0, 1, 14, [Fld.status 31 1 0,
    Fld.clear 30 1 0,
    Fld.status 29 1 0,
    Fld.status 0 17 0]⟩,
  -- MAP_MAINT
  ⟨0x3008, 0x0, 1, 14, [⟨0, 4, .wo, 0, [.installer], 0, 15, 0, false⟩]⟩,
  -- MAP_MAINT_ADDR
  ⟨0x300C, 0x0, 1, 14, [⟨0, 24, .rw, 0, [.installer], 0, 12582911, 0, false⟩]⟩,
  -- CMP_CTL
  ⟨0x3400, 0x0, 1, 15, [⟨4, 4, .rw, 0, [.installer], 0, 15, 0, false⟩,
    ⟨0, 2, .rw, 3, [.operator], 0, 3, 0, true⟩]⟩,
  -- CMP_STATUS
  ⟨0x3404, 0x0, 1, 15, [Fld.status 28 4 0,
    Fld.status 24 4 0,
    Fld.clear 1 1 0,
    Fld.clear 0 1 0]⟩,
  -- JRN_STATUS
  ⟨0x3480, 0x0, 1, 15, [Fld.clear 17 1 0,
    Fld.status 16 1 0,
    Fld.status 0 11 0]⟩,
  -- JRN_CSEQ
  ⟨0x3484, 0x0, 1, 15, [Fld.status 0 32 0]⟩,
  -- CRY_CTL
  ⟨0x3800, 0x0, 1, 15, [⟨0, 4, .rw, 0, [.installer], 0, 15, 0, false⟩]⟩,
  -- CRY_STATUS
  ⟨0x3804, 0x0, 1, 15, [Fld.status 28 4 0,
    Fld.status 0 1 0]⟩,
  -- CRY_SEC_STATUS
  ⟨0x3810, 0x0, 1, 16, [Fld.status 30 2 0,
    Fld.status 29 1 0,
    Fld.status 28 1 0,
    Fld.status 27 1 0,
    Fld.status 26 1 0,
    Fld.status 25 1 0,
    Fld.status 16 9 0,
    Fld.status 8 8 0,
    Fld.status 7 1 0,
    Fld.status 0 4 0]⟩,
  -- CRY_SEC_SESS
  ⟨0x3814, 0x0, 1, 16, [Fld.status 1 15 0]⟩,
  -- CRY_KR_SEL
  ⟨0x3818, 0x0, 1, 16, [⟨0, 8, .rw, 0, [], 0, 255, 0, false⟩]⟩,
  -- CRY_KR_INFO
  ⟨0x381C, 0x0, 1, 16, [Fld.status 30 2 0,
    Fld.status 29 1 0,
    Fld.status 28 1 0,
    Fld.status 0 19 0]⟩,
  -- CRY_AUTH
  ⟨0x3820, 0x0, 1, 16, [Fld.status 24 8 0,
    Fld.status 16 8 0,
    Fld.status 8 8 0,
    Fld.status 0 8 0]⟩,
  -- CRY_MBOX_CTL
  ⟨0x3824, 0x0, 1, 16, [⟨31, 1, .wo, 0, [], 0, 1, 0, false⟩,
    ⟨30, 1, .wo, 0, [], 0, 1, 0, false⟩,
    Fld.status 29 1 0,
    Fld.status 28 1 0,
    Fld.status 0 16 0]⟩]

/-- Registers of the map, part 6, in rising offset; each field's table is in the chapter R449 names. -/
def regDefs6 : List RegDef := [
  -- XTP_CTL
  ⟨0x3C00, 0x0, 1, 17, [⟨1, 1, .rw, 0, [.operator], 0, 1, 0, true⟩,
    ⟨0, 1, .rw, 0, [.installer], 0, 1, 0, false⟩]⟩,
  -- XTP_STATUS
  ⟨0x3C04, 0x0, 1, 17, [Fld.status 31 1 0,
    Fld.status 30 1 0,
    Fld.clear 16 4 0,
    Fld.status 0 9 0]⟩,
  -- FLT_STATUS0 to FLT_STATUS3
  ⟨0x4000, 0x4, 4, 18, [Fld.clear 0 32 0]⟩,
  -- FLT_RAW0 to FLT_RAW3
  ⟨0x4010, 0x4, 4, 18, [Fld.status 0 32 0]⟩,
  -- FLT_SRC_SEL
  ⟨0x4020, 0x0, 1, 18, [⟨0, 7, .rw, 0, [], 0, 127, 0, false⟩]⟩,
  -- FLT_SRC_CFG
  ⟨0x4024, 0x0, 1, 18, [Fld.status 16 16 0,
    Fld.status 4 3 0,
    ⟨0, 3, .rw, 0, [.installer], 0, 6, 0, true⟩]⟩,
  -- FLT_PIN_CTL
  ⟨0x4028, 0x0, 1, 18, [Fld.status 2 1 0,
    ⟨0, 2, .rw, 2, [], 0, 2, 0, false⟩]⟩,
  -- FLT_SUMMARY
  ⟨0x402C, 0x0, 1, 18, [Fld.status 31 1 0,
    Fld.status 30 1 0,
    Fld.status 0 6 0]⟩,
  -- FLT_REC_SEL
  ⟨0x4030, 0x0, 1, 18, [⟨0, 5, .rw, 0, [], 0, 31, 0, false⟩]⟩,
  -- FLT_REC_INFO
  ⟨0x4034, 0x0, 1, 18, [Fld.status 31 1 0,
    Fld.status 30 1 0,
    Fld.status 24 6 0,
    Fld.status 16 7 0,
    Fld.status 13 3 0,
    Fld.status 0 8 0]⟩,
  -- FLT_REC_TIME
  ⟨0x4038, 0x0, 1, 18, [Fld.status 8 24 0,
    Fld.status 0 8 0]⟩,
  -- FLT_REC_SEC0 to FLT_REC_SEC3, FLT_REC_CSQ0 to FLT_REC_CSQ3
  ⟨0x4040, 0x4, 4, 18, [Fld.status 0 32 0]⟩,
  -- FLT_REC_SEC0 to FLT_REC_SEC3, FLT_REC_CSQ0 to FLT_REC_CSQ3
  ⟨0x4050, 0x4, 4, 18, [Fld.status 0 32 0]⟩,
  -- EVR_STATUS
  ⟨0x4400, 0x0, 1, 19, [Fld.status 31 1 0,
    Fld.status 30 1 0,
    Fld.status 24 6 0,
    Fld.status 19 5 0,
    Fld.status 0 14 0]⟩,
  -- EVR_LOSS0 to EVR_LOSS4
  ⟨0x4410, 0x4, 5, 19, [Fld.status 16 16 0,
    Fld.status 0 16 0]⟩,
  -- PMC_SNAP
  ⟨0x4800, 0x0, 1, 20, [⟨31, 1, .wo, 0, [], 0, 1, 0, false⟩,
    Fld.status 0 31 0]⟩,
  -- PMC_SNAP_BANK
  ⟨0x4804, 0x0, 1, 20, [⟨0, 1, .rw, 0, [], 0, 1, 0, false⟩]⟩,
  -- PMC_PRESET_SEL
  ⟨0x4808, 0x0, 1, 20, [⟨0, 8, .rw, 0, [.operator], 0, 255, 0, false⟩]⟩,
  -- PMC_PRESET_LO, PMC_PRESET_HI LO
  ⟨0x480C, 0x0, 1, 20, [⟨0, 32, .rw, 0, [.operator], 0, 4294967295, 0, false⟩]⟩,
  -- PMC_PRESET_LO, PMC_PRESET_HI HI
  ⟨0x4810, 0x0, 1, 20, [⟨0, 16, .rw, 0, [.operator], 0, 65535, 0, false⟩]⟩,
  -- PMC_SMP_CTL
  ⟨0x4820, 0x0, 1, 20, [Fld.status 16 16 0,
    ⟨15, 1, .rw, 0, [.operator], 0, 1, 0, false⟩,
    ⟨8, 5, .rw, 10, [.operator], 0, 20, 10, false⟩,
    ⟨0, 4, .rw, 0, [.operator], 0, 15, 10, false⟩]⟩,
  -- PMC_SMP_ENTRY0 to PMC_SMP_ENTRY3
  ⟨0x4830, 0x4, 4, 20, [Fld.status 0 32 0]⟩,
  -- PMC_SMP_REV
  ⟨0x4840, 0x0, 1, 20, [Fld.status 0 32 0]⟩,
  -- PMC_SMP_INFO
  ⟨0x4844, 0x0, 1, 20, [Fld.clear 31 1 0,
    Fld.status 27 4 0,
    Fld.status 0 22 0]⟩]

/-- Registers of the map, part 7, in rising offset; each field's table is in the chapter R449 names. -/
def regDefs7 : List RegDef := [
  -- PMC_SNAPw_LO, PMC_SNAPw_HI LO
  ⟨0x4C00, 0x8, 128, 20, [Fld.status 0 32 0]⟩,
  -- PMC_SNAPw_LO, PMC_SNAPw_HI HI
  ⟨0x4C04, 0x8, 128, 20, [Fld.status 0 16 0,
    Fld.status 31 1 0]⟩,
  -- PWR_CTL
  ⟨0x5000, 0x0, 1, 21, [⟨31, 1, .rw, 0, [.operator], 0, 1, 0, true⟩,
    ⟨30, 1, .rw, 1, [.operator], 0, 1, 0, true⟩,
    ⟨16, 12, .rw, 120, [.operator], 1, 3600, 0, true⟩,
    ⟨0, 16, .rw, 0, [.operator], 0, 65535, 0, true⟩]⟩,
  -- PWR_STATE
  ⟨0x5004, 0x0, 1, 21, [Fld.status 31 1 0,
    ⟨8, 1, .wo, 0, [], 0, 1, 0, false⟩,
    Fld.status 0 2 0]⟩,
  -- PWR_DOMAIN
  ⟨0x5008, 0x0, 1, 21, [Fld.status 17 1 0,
    Fld.status 16 1 0,
    Fld.status 0 14 0]⟩,
  -- PWR_RST
  ⟨0x500C, 0x0, 1, 21, [⟨0, 1, .wo, 0, [.installer, .operator], 0, 1, 0, false⟩]⟩,
  -- SVC_CTL
  ⟨0x5400, 0x0, 1, 21, [⟨24, 8, .rw, 120, [.installer], 30, 255, 0, true⟩,
    ⟨16, 8, .rw, 30, [.operator], 0, 255, 0, true⟩,
    ⟨2, 2, .rw, 2, [.installer], 0, 2, 0, true⟩,
    ⟨0, 2, .rw, 3, [.operator], 0, 3, 0, true⟩]⟩,
  -- SVC_STATUS
  ⟨0x5404, 0x0, 1, 21, [Fld.status 29 3 0,
    Fld.status 28 1 0,
    Fld.status 27 1 0,
    Fld.status 26 1 0,
    Fld.clear 25 1 0,
    Fld.clear 24 1 0,
    Fld.status 0 16 0]⟩,
  -- FAB_ROUTEa LO
  ⟨0x8000, 0x8, 4096, 22, []⟩,
  -- FAB_ROUTEa HI
  ⟨0x8004, 0x8, 4096, 22, [Fld.status 31 1 0,
    Fld.status 28 3 0,
    Fld.status 25 3 0,
    Fld.status 24 1 0,
    Fld.status 23 1 0,
    Fld.status 8 8 0,
    Fld.status 0 8 0]⟩]

/-- Every register of the map (R449). -/
def regDefs : List RegDef :=
  regDefs1 ++ regDefs2 ++ regDefs3 ++ regDefs4 ++ regDefs5 ++ regDefs6 ++ regDefs7

/-- The rows of the register index as ranges of offsets, with the row's number (R449). -/
def indexRows : List (Nat × Nat × Nat) :=
  [(0x0, 0x0, 0), (0xc, 0x14, 0), (0x4, 0x8, 1), (0x400, 0x448, 2), (0x800, 0x87c, 3), (0xc00, 0xc0c, 4), (0x1000, 0x1024, 5), (0x1400, 0x1408, 6), (0x1420, 0x1430, 6), (0x1410, 0x1410, 7), (0x1700, 0x1710, 7), (0x1740, 0x174c, 8), (0x1780, 0x1784, 8), (0x1800, 0x1868, 9), (0x1c00, 0x1c1c, 10), (0x2800, 0x2834, 12), (0x2c00, 0x2d3c, 13), (0x3000, 0x300c, 14), (0x3400, 0x3404, 15), (0x3480, 0x3484, 15), (0x3800, 0x3804, 15), (0x3810, 0x3824, 16), (0x3a00, 0x3bff, 16), (0x3c00, 0x3c04, 17), (0x4000, 0x405c, 18), (0x4400, 0x4420, 19), (0x4800, 0x4844, 20), (0x4c00, 0x4ffc, 20), (0x5000, 0x500c, 21), (0x5400, 0x5404, 21), (0x8000, 0xffff, 22)]

/-- Does the definition cover the offset? -/
def RegDef.has (d : RegDef) (off : Nat) : Bool :=
  if d.stride = 0 then off == d.base
  else decide (d.base ≤ off) && (off - d.base) % d.stride == 0 && decide ((off - d.base) / d.stride < d.count)

/-- Which of the like registers an offset names. -/
def RegDef.index (d : RegDef) (off : Nat) : Nat := if d.stride = 0 then 0 else (off - d.base) / d.stride

/-- The register at an offset (R449); none for an unmapped one. -/
def regAt (off : Nat) : Option RegDef := regDefs.find? (·.has off)

/-- Reset value of a register: its fields' reset values in place. -/
def regReset (off : Nat) : Word :=
  match regAt off with
  | none => 0
  | some d => d.fields.foldl (fun v f => putField v f.lsb f.w f.reset) 0

/-- The mailbox window of R402. -/
def isMailbox (off : Nat) : Bool := decide (0x3A00 ≤ off) && decide (off ≤ 0x3BFC) && off % 4 == 0

/-- Is the offset mapped (R449)? -/
def isMapped (off : Nat) : Bool := (regAt off).isSome || isMailbox off

/-- Blocks whose accepted writes travel to the partner (R369, R454): HQI, ATB, SEQ, SRV, SPN, CH, BUF, DMA, MAP, CMP, CRY, XTP. -/
def mirroredReg (off : Nat) : Bool :=
  (decide (0x0400 ≤ off) && decide (off < 0x0800)) || (decide (0x1000 ≤ off) && decide (off < 0x1700)) ||
    (decide (0x1800 ≤ off) && decide (off < 0x4000))

/-- The row of the register index an offset lies in, or its channel block; none outside the index (R450). -/
def indexRow (off : Nat) : Option Nat :=
  if 0x2000 ≤ off ∧ off < 0x2800 then some (1000 + (off - 0x2000) / 0x80)
  else (indexRows.find? (fun r => decide (r.1 ≤ off) && decide (off ≤ r.2.1))).map (·.2.2)

end Sys2Proof.Machine
end

