-- ==== Sys2Proof/Machine/Tab.lean ====
section
/-! DEFINITION. Reading and writing the tables of the state: a list of key and value pairs, keys strictly rising. -/
namespace Sys2Proof.Machine

open Sys2Proof

/-- What table `t` holds at key `n`; `d` where it lists none. -/
def tget {α : Type} (d : α) : Tab α → Nat → α
  | [], _ => d
  | (k, v) :: t, n => if n < k then d else if n = k then v else tget d t n

/-- Table `t` with `v` at key `n`. -/
def tset {α : Type} : Tab α → Nat → α → Tab α
  | [], n, v => [(n, v)]
  | (k, w) :: t, n, v =>
    if n < k then (n, v) :: (k, w) :: t else if n = k then (n, v) :: t else (k, w) :: tset t n v

/-- Table `t` with `f` applied at key `n`. -/
def tmod {α : Type} (d : α) (t : Tab α) (n : Nat) (f : α → α) : Tab α := tset t n (f (tget d t n))

/-- Keys strictly rise, all of them above `lo`. -/
def tsorted {α : Type} (lo : Nat) : Tab α → Bool
  | [] => true
  | (k, _) :: t => decide (lo ≤ k) && tsorted (k + 1) t

/-- `f` at each of the keys below `n`. -/
def tmodAll {α : Type} (d : α) (t : Tab α) (f : Nat → α → α) : Nat → Tab α
  | 0 => t
  | n + 1 => tmod d (tmodAll d t f n) n (f n)

/-- Fold over the numbers below `n`, from 0 upwards. -/
def upto {σ : Type} (n : Nat) (f : Nat → σ → σ) (s : σ) : σ :=
  match n with
  | 0 => s
  | k + 1 => f k (upto k f s)

end Sys2Proof.Machine
end

