-- ==== Sys2Proof/Machine/Ops.lean ====
section
/-! DEFINITION. The named operations over the state: one accessor and one update per part, register values, counters,
event and audit records, what is sent, free values. -/
namespace Sys2Proof.Machine

open Sys2Proof

/-! ### Parts by number -/

/-- Head `h`. -/
def State.head (s : State) (h : Nat) : HeadSt := tget HeadSt.init s.srv.heads h
/-- Head `h` changed. -/
def State.modHead (s : State) (h : Nat) (f : HeadSt → HeadSt) : State :=
  { s with srv.heads := tmod HeadSt.init s.srv.heads h f }
/-- Actuator `n`. -/
def State.act (s : State) (n : Nat) : ActSt := tget ActSt.init s.srv.acts n
/-- Actuator `n` changed. -/
def State.modAct (s : State) (n : Nat) (f : ActSt → ActSt) : State :=
  { s with srv.acts := tmod ActSt.init s.srv.acts n f }
/-- Channel `n`. -/
def State.ch (s : State) (n : Nat) : ChSt := tget ChSt.init s.chs n
/-- Channel `n` changed. -/
def State.modCh (s : State) (n : Nat) (f : ChSt → ChSt) : State := { s with chs := tmod ChSt.init s.chs n f }
/-- Context `n`. -/
def State.ctx (s : State) (n : Nat) : Ctx := tget Ctx.init s.seq.ctx n
/-- Context `n` changed. -/
def State.modCtx (s : State) (n : Nat) (f : Ctx → Ctx) : State := { s with seq.ctx := tmod Ctx.init s.seq.ctx n f }
/-- Engine CMP`k`. -/
def State.engine (s : State) (k : Nat) : Engine := tget Engine.init s.cmp.eng k
/-- Engine CMP`k` changed. -/
def State.modEngine (s : State) (k : Nat) (f : Engine → Engine) : State :=
  { s with cmp.eng := tmod Engine.init s.cmp.eng k f }
/-- Zone `z`. -/
def State.zone (s : State) (z : Nat) : Zone := tget Zone.init s.zon.zones z
/-- Zone `z` changed. -/
def State.modZone (s : State) (z : Nat) (f : Zone → Zone) : State :=
  { s with zon.zones := tmod Zone.init s.zon.zones z f }
/-- DMA channel `n`. -/
def State.dmaCh (s : State) (n : Nat) : DmaCh := tget DmaCh.init s.dma.ch n
/-- DMA channel `n` changed. -/
def State.modDma (s : State) (n : Nat) (f : DmaCh → DmaCh) : State := { s with dma.ch := tmod DmaCh.init s.dma.ch n f }
/-- Queue pair `q`. -/
def State.qp (s : State) (q : Nat) : Qp := tget Qp.init s.hqi.qps q
/-- Queue pair `q` changed. -/
def State.modQp (s : State) (q : Nat) (f : Qp → Qp) : State := { s with hqi.qps := tmod Qp.init s.hqi.qps q f }
/-- Port `p`. -/
def State.port (s : State) (p : Nat) : Port := tget Port.init s.fab.ports p
/-- Port `p` changed. -/
def State.modPort (s : State) (p : Nat) (f : Port → Port) : State :=
  { s with fab.ports := tmod Port.init s.fab.ports p f }
/-- Routing table entry of address `a` (R338). -/
def State.route (s : State) (a : Nat) : Route := tget Route.init s.fab.routes a
/-- Key range `r` (R386). -/
def State.range (s : State) (r : Nat) : KeyRange := tget KeyRange.init s.nv.ranges r
/-- Key range `r` changed. -/
def State.modRange (s : State) (r : Nat) (f : KeyRange → KeyRange) : State :=
  { s with nv.ranges := tmod KeyRange.init s.nv.ranges r f }
/-- Recovery list of actuator `n` (R170). -/
def State.recList (s : State) (n : Nat) : List RecEnt := tget [] s.rcv.lists n
/-- Recovery list of actuator `n` replaced. -/
def State.setRecList (s : State) (n : Nat) (l : List RecEnt) : State := { s with rcv.lists := tset s.rcv.lists n l }

/-! ### Registers -/

/-- Last written value of an RW or WS register (R5, R32). -/
def State.lastWord (s : State) (off : Nat) : Word := tget (regReset off) s.regs.vals off
/-- Value of a register in force (R33). -/
def State.forceWord (s : State) (off : Nat) : Word := tget (regReset off) s.regs.force off
/-- Field of a register in force. -/
def State.fld (s : State) (off lsb w : Nat) : Nat := bitsOf (s.forceWord off).toNat lsb w
/-- One-bit field of a register in force. -/
def State.flag (s : State) (off b : Nat) : Bool := bitOf (s.forceWord off).toNat b
/-- Field of a register as last written. -/
def State.lastFld (s : State) (off lsb w : Nat) : Nat := bitsOf (s.lastWord off).toNat lsb w
/-- Value hardware gives a field, both as last written and in force (R452). -/
def State.putFld (s : State) (off lsb w x : Nat) : State :=
  { s with
    regs.vals := tset s.regs.vals off (putField (s.lastWord off) lsb w x)
    regs.force := tset s.regs.force off (putField (s.forceWord off) lsb w x) }
/-- W1C bits of a register. -/
def State.w1c (s : State) (off : Nat) : Word := tget 0 s.regs.w1c off
/-- Hardware sets W1C bit `b` of a register. -/
def State.setW1c (s : State) (off b : Nat) : State :=
  { s with regs.w1c := tset s.regs.w1c off (putField (s.w1c off) b 1 1) }

/-! ### Free values, outputs, counters -/

/-- The next free value is drawn. -/
def State.draw (s : State) : State := { s with free := s.free + 1 }
/-- One thing is sent. -/
def State.send (s : State) (o : Out) : State := { s with sent := o :: s.sent }

/-- Counter `n` of the PMC rises by `k`, wrapping at 2^48 with OVF (R425, R426). -/
def State.count (s : State) (n k : Nat) : State :=
  let v := (tget 0 s.pmc.ctr n).toNat + k
  { s with
    pmc.ctr := tset s.pmc.ctr n (BitVec.ofNat 48 v)
    pmc.ovf := if 2 ^ 48 ≤ v then s.pmc.ovf ||| (1#256 <<< n) else s.pmc.ovf }

/-- Value of counter `n`. -/
def State.ctr (s : State) (n : Nat) : Nat := (tget 0 s.pmc.ctr n).toNat

/-! ### Events (R415 to R422) -/

/-- Crystal ticks of 2 µs in one second (R100; log 5). -/
def ticksPerSec : Nat := 500000

/-- Records of one severity dropped (R416, R419). -/
def State.dropped (s : State) (sev : Nat) : State :=
  { s with evr.dropped := tset s.evr.dropped sev (satInc (tget 0 s.evr.dropped sev)) }.count 191 1

/-- Lowest severity at or below `own` among records that `free` lets go. -/
def lowestSev {α : Type} (sev : α → Nat) (free : α → Bool) (l : List α) (own : Nat) : Option Nat :=
  (List.range (own + 1)).find? (fun v => l.any (fun e => free e && sev e == v))

/-- Room for a record of severity `own` by the rule of R416: the oldest record of the lowest severity no higher goes. -/
def evict {α : Type} (sev : α → Nat) (free : α → Bool) (own : Nat) (l : List α) : Option (List α) :=
  (lowestSev sev free l own).map (fun v => l.eraseP (fun e => free e && sev e == v))

/-- A record enters the reserve ring of 32 (R419): an uncopied audit record is never replaced. -/
def State.toRing (s : State) (e : Ev) : State :=
  let e := { e with reserve := true }
  if s.evr.ring.length < 32 then { s with evr.ring := s.evr.ring ++ [(e, false)] }
  else
    match evict (fun x : Ev × Bool => x.1.sev.val) (fun x => !x.1.audit || x.2) e.sev.val s.evr.ring with
    | some l => { s with evr.ring := l ++ [(e, false)] }
    | none => s.dropped e.sev.val

/-- A record enters the event region of 7,168 slots (R416). -/
def State.toLog (s : State) (e : Ev) : State :=
  if s.nv.log.length < 7168 then { s with nv.log := s.nv.log ++ [e] }
  else
    match evict (fun x : Ev => x.sev.val) (fun _ => true) e.sev.val s.nv.log with
    | some l => { s with nv.log := l ++ [e] }
    | none => s.dropped e.sev.val

/-- A record stamped at this moment (R415). -/
def State.stamp (s : State) (code sev : Nat) (src : Nat) (par : List Nat) : Ev :=
  { code := BitVec.ofNat 16 code, sev := ⟨sev % 5, Nat.mod_lt _ (by decide)⟩, src := BitVec.ofNat 8 src, audit := false,
    overflow := false, reserve := false, secs := s.nv2.secs, cycles := s.nv2.cycles,
    sub := BitVec.ofNat 8 ((s.pwr.ticks % ticksPerSec) * 256 / ticksPerSec),
    par := ((par ++ [0, 0, 0, 0, 0]).take 5).map (BitVec.ofNat 32) }

/-- An event that finds the queue full is counted for its severity (R418). -/
def State.lostEvent (s : State) (e : Ev) : State :=
  let k := e.sev.val
  let l := tget Lost.init s.evr.lost k
  let l := if l.count = 0 then { l with code1 := e.code, secs1 := e.secs } else l
  { s with
    evr.lost := tset s.evr.lost k { l with count := l.count + 1, code2 := e.code, secs2 := e.secs }
    evr.overflowed := tset s.evr.overflowed k (satInc (tget 0 s.evr.overflowed k)) }.count 190 1

/-- A record enters the 16-entry input queue (R418). -/
def State.enqueue (s : State) (e : Ev) : State :=
  if s.evr.queue.length < 16 then
    let q := s.evr.queue ++ [e]
    { s with evr.queue := q, evr.qmax := BitVec.ofNat 5 (max s.evr.qmax.toNat q.length) }
  else s.lostEvent e

/-- The part records an event: code, severity, fault source (0xFF none), parameters (R415, R418). -/
def State.eventSrc (s : State) (code sev src : Nat) (par : List Nat) : State := s.enqueue (s.stamp code sev src par)
/-- An event of no fault source. -/
def State.event (s : State) (code sev : Nat) (par : List Nat) : State := s.eventSrc code sev 0xFF par

/-- May a role action write its audit record (R399, R417)? Not while every audit slot is uncopied, nor while the log is
degraded and no actuator is ready to take the media copy. -/
def State.auditBlocked (s : State) : Bool :=
  if s.evr.degraded then bitsOf s.pwr.ready.toNat 12 4 == 0
  else s.nv.audit.length == 1024 && s.nv.audit.all (fun x => !x.2)

/-- An audit record is placed: the counter rises, and the record goes to the audit region, else to the reserve ring
(R398, R399, R417, R419). `par` is words 3 to 6. -/
def State.auditSrc (s : State) (code sev src : Nat) (par : List Nat) : State :=
  let ctr := s.nv.auditCtr + 1
  let s := { s with nv.auditCtr := ctr }
  let e : Ev := { s.stamp code sev src ((par ++ [0, 0, 0, 0]).take 4 ++ [ctr.toNat]) with audit := true }
  if s.evr.degraded then s.toRing e
  else if s.nv.audit.length < 1024 then { s with nv.audit := s.nv.audit ++ [(e, false)] }
  else
    match s.nv.audit with
    | (_, true) :: t => { s with nv.audit := t ++ [(e, false)] }
    | _ => s.toRing e
/-- An audit record of no fault source (R398). -/
def State.audit (s : State) (code sev : Nat) (par : List Nat) : State := s.auditSrc code sev 0xFF par

/-- Code of a role in messages and audit records (R381). -/
def Role.code : Role → Nat
  | .maker => 1 | .installer => 2 | .operator => 3
/-- Sessions end, each with its record (R378, R383, R384, R398): cause 1 END, 2 idle, 3 reset, 4 lifecycle, 5 consent. -/
def State.endSessions (s : State) (p : Session → Bool) (cause : Nat) : State :=
  let s := (s.sec.sessions.filter p).foldl (fun (s : State) x => s.audit 0xA001 1 [x.role.code, x.num.val, cause, 0]) s
  { s with sec.sessions := s.sec.sessions.filter (fun x => !p x) }

/-! ### Links of the drive -/

/-- An MDL frame to the stage: SYNC, TYPE, SEQ, payload [47:8], CRC-8 (R100). -/
def mdlFrame (ty seq payload : Nat) : BitVec 64 :=
  let body := (ty % 16) * 2 ^ 44 + (seq % 16) * 2 ^ 40 + payload % 2 ^ 40
  BitVec.ofNat 64 (0xA7 * 2 ^ 56 + body * 2 ^ 8 + crc8 48 body)

/-- The module of a pair that does not hold OWNER (R333). -/
def State.shadow (s : State) : Bool := s.pair.paired && !s.pair.owner
/-- The part sends an MDL frame; the motor stage is driven only by the owner in a pair (R103). -/
def State.mdlSend (s : State) (ty payload : Nat) : State :=
  if s.shadow then s
  else { s.send (.mdl (mdlFrame ty s.mdl.seq.toNat payload)) with mdl.seq := s.mdl.seq + 1 }

/-- A PARK frame: actuator mask and KIND, 1 park, 2 load (R100). -/
def State.sendPark (s : State) (mask kind : Nat) : State := s.mdlSend 3 (mask * 2 ^ 36 + kind * 2 ^ 32)

/-- SPIN frames of this MODE are sent from now on; the duties are the motor loop's, a free value (R100; log 11). -/
def State.spinMode (s : State) (mode : Nat) : State :=
  ({ s with mdl.mode := BitVec.ofNat 4 mode } : State).draw.mdlSend 2 (mode * 2 ^ 36 + Config.freeNat s.free % 2 ^ 36)

/-! ### Readiness and power -/

/-- GEN_READY bit `b` (R433). -/
def State.ready (s : State) (b : Nat) : Bool := bitOf s.pwr.ready.toNat b
/-- GEN_READY bit `b` set or cleared; its bound counts anew (R433). -/
def State.setReady (s : State) (b : Nat) (v : Bool) : State :=
  if v then { s with pwr.ready := s.pwr.ready ||| (1#22 <<< b), pwr.missed := s.pwr.missed &&& ~~~(1#22 <<< b) }
  else { s with pwr.ready := s.pwr.ready &&& ~~~(1#22 <<< b) }
/-- Power domain bit `b` of R435 is on. -/
def State.domainOn (s : State) (b : Nat) : Bool := bitOf s.pwr.on.toNat b

/-- PD_CORE is on, a route wake apart (R435, R441). -/
def State.domainCore (s : State) : Bool := s.pwr.core && !s.pwr.routeWake
/-- The ATB is LOCKED or COAST: media work runs (R14). -/
def State.spinning (s : State) : Bool := s.atb.st == .locked || s.atb.st == .coast
/-- The shaft angle is at `a` when an event of that angle comes; it never goes back (log 3). -/
def State.toAngle (s : State) (a : Nat) : State :=
  { s with atb.ac := BitVec.ofNat 22 (max s.atb.ac.toNat (min a (revAC - 1))) }

end Sys2Proof.Machine
end

