-- ==== Sys2Proof/Machine/Format.lean ====
section
/-! DEFINITION. The media format (02): positions and angles, track groups, the block's bits, headers, column parity, the
Geometry Table, calibration and parameter records, head sets and the co-track window (03). -/
namespace Sys2Proof.Machine

open Sys2Proof

/-! ### The block on media (R42 to R52) -/

/-- The scrambler's seed (R46). -/
def scrSeed (track pos : Nat) : Nat := (((track * 128) ^^^ pos) ^^^ 0x2AAAAAAA) % 2 ^ 31

/-- `n` key bits from a scrambler state (R46). -/
def scrBits : Nat → Nat → List Bool
  | 0, _ => []
  | n + 1, st => bitOf st 30 :: scrBits n ((st * 2 + b2n (bitOf st 30 != bitOf st 2)) % 2 ^ 31)

/-- Bits of bytes, most significant first (R43, R45). -/
def bitsMsb (l : List Byte) : List Bool := (l.map (fun b => (List.range 8).map (fun i => bitOf b.toNat (7 - i)))).flatten

/-- One byte from eight bits, most significant first. -/
def byteMsb (l : List Bool) : Byte := BitVec.ofNat 8 (l.foldl (fun a b => 2 * a + b2n b) 0)

/-- Bytes from bits, most significant first: `n` of them. -/
def bytesMsb : Nat → List Bool → List Byte
  | 0, _ => []
  | n + 1, l => byteMsb (l.take 8) :: bytesMsb n (l.drop 8)

/-- Scrambled information bits of a block (R45, R46). -/
def scramble (track pos : Nat) (info : List Byte) : List Bool :=
  List.zipWith (· != ·) (bitsMsb info) (scrBits (8 * info.length) (scrSeed track pos))

/-- Segment sum `sv[i]`, row `r` (R48): over the 256 information columns, `x` being codeword positions 0 to 33,535. -/
def ldpcSv (x : Nat → Bool) (i r : Nat) : Bool :=
  (List.range 256).foldl (fun a b => a != x (131 * b + (r + i * b) % 131)) false

/-- Row `r` of `tv` (R48). -/
def ldpcTv (x : Nat → Bool) (r : Nat) : Bool :=
  (List.range 31).foldl (fun a q => a != ldpcSv x (q + 1) ((r + 1) % 131)) (ldpcSv x 0 r)

/-- The 131 rows of `p_0`, from row `r` on (R48). -/
def ldpcP0 (x : Nat → Bool) : Nat → Bool → List Bool
  | 0, _ => []
  | n + 1, p => p :: ldpcP0 x n (p != ldpcTv x (130 - n))

/-- The segments `p_q` from `q` on (R48). -/
def ldpcPs (x : Nat → Bool) (p : List Bool) : List Nat → List (List Bool)
  | [] => []
  | q :: t =>
    let p' := List.zipWith (· != ·) p ((List.range 131).map (ldpcSv x q))
    p' :: ldpcPs x p' t

/-- Parity bits of a codeword: the vector whose first bit is 0 (R48). -/
def ldpcParity (x : Nat → Bool) : List Bool :=
  let p0 := ldpcP0 x 131 false
  p0 ++ (ldpcPs x p0 ((List.range 31).map (· + 1))).flatten

/-- Recorded bits of the coded data: scrambled information, then parity (R47, R48). -/
def codedBits (scr : List Bool) : List Bool :=
  scr ++ ldpcParity (fun n => if n < 512 then false else (scr[n - 512]?).getD false)

/-- The 4,700 written bytes of a media block slot (R42 to R44). -/
def slotBytes (track pos : Nat) (info : List Byte) : List Byte :=
  List.replicate 24 0xCC ++ [0xB5, 0x3E, 0xC1, 0x97, 0x0D, 0x6A] ++ List.replicate 8 0xCC ++
  [0x4A, 0xC1, 0x3E, 0x68, 0xF2, 0x95] ++ bytesMsb 4652 (codedBits (scramble track pos info)) ++ List.replicate 4 0xCC

/-- FLAGS of a block header (R51). -/
def blkFlags (raw parity loc copy conv : Bool) : Nat :=
  b2n raw + 2 * b2n parity + 4 * b2n loc + 8 * b2n copy + 16 * b2n conv

/-- Header bytes 0 to 27 (R50). -/
def hdrBytes (flags key zone sbi tgn wrev chunk link : Nat) : List Byte :=
  [1] ++ leBytes 1 flags ++ leBytes 1 key ++ [0] ++ leBytes 4 zone ++ leBytes 4 sbi ++ leBytes 4 tgn ++ leBytes 4 wrev ++
  leBytes 4 chunk ++ leBytes 4 link

/-- The information of a block: header with its HCRC, then the payload as recorded (R45, R50, R52). -/
def blockInfo (hdr payload : List Byte) : List Byte := hdr ++ leBytes 4 (crc32c (hdr ++ payload)) ++ payload

/-- Does the header of decoded information check: VERSION and HCRC (R52)? -/
def infoOk (info : List Byte) : Bool :=
  info.length == 4128 && leAt info 0 1 == 1 && leAt info 28 4 == crc32c (info.take 28 ++ info.drop 32)

/-! ### Column parity (R62, R183) -/

/-- Multiplication in GF(2^8) with polynomial 0x11D, over the low `n` bits of `b` (R62). -/
def gfMulAt : Nat → Nat → Nat → Nat
  | 0, _, _ => 0
  | n + 1, a, b =>
    let r := gfMulAt n (if 128 ≤ a then (2 * a) ^^^ 0x11D else 2 * a) (b / 2)
    if b % 2 = 1 then a ^^^ r else r
/-- Multiplication in GF(2^8) (R62). -/
def gfMul (a b : Nat) : Nat := gfMulAt 8 a b
/-- Power in GF(2^8). -/
def gfPow (a : Nat) : Nat → Nat
  | 0 => 1
  | n + 1 => gfMul a (gfPow a n)
/-- Inverse in GF(2^8). -/
def gfInv (a : Nat) : Nat := gfPow a 254
/-- X_m = α^(31 − m) (R183). -/
def gfX (m : Nat) : Nat := gfPow 2 (31 - m)

/-- Parity symbols of members 30 and 31 from A0 and A1 (R62, R179). -/
def parity30 (a0 a1 : Nat) : Nat := gfMul (a0 ^^^ a1) 0xF4
/-- Member 31. -/
def parity31 (a0 a1 : Nat) : Nat := a0 ^^^ parity30 a0 a1

/-- S0 or S1 over the known members of one byte column (R183). -/
def gfSum (w : Nat → Nat) (l : List (Nat × Nat)) : Nat := l.foldl (fun a p => a ^^^ gfMul p.2 (w p.1)) 0

/-- Symbol of the target member from S0 and S1: one or two erasures (R183). -/
def gfSolve (erased : List Nat) (target s0 s1 : Nat) : Option Nat :=
  match erased with
  | [_] => some s0
  | [a, b] =>
    let ca := gfMul (s1 ^^^ gfMul (gfX b) s0) (gfInv (gfX a ^^^ gfX b))
    some (if target = a then ca else s0 ^^^ ca)
  | _ => none

/-! ### Positions and angles (R39 to R41, R58, R61, R64) -/

/-- Tracks of a group by heads of its set (R58). -/
def groupTracks (h : Nat) : Nat := if h = 1 then 32 else if h = 2 then 16 else if h = 3 then 11 else 8
/-- TGN (R61). -/
def tgnOf (act hs trk : Nat) : Nat := act * 2 ^ 30 + hs * 2 ^ 24 + trk
/-- Actuator of a TGN. -/
def tgnAct (g : Nat) : Nat := bitsOf g 30 2
/-- Head set of a TGN. -/
def tgnSet (g : Nat) : Nat := bitsOf g 24 6
/-- First track of a TGN. -/
def tgnTrk (g : Nat) : Nat := bitsOf g 0 24

/-- The boot format of the system area (R64). -/
def bootZone : FZone := ⟨0, 20971520, 8192, 512, 0, 0⟩
/-- Head set `n` of the table. -/
def Geom.set (g : Geom) (n : Nat) : HSet := (g.sets[n]?).getD ⟨0, [], 0, 0⟩
/-- Frequency zones of a head's surface (R70). -/
def Geom.surfZones (g : Geom) (head : Nat) : List FZone :=
  match g.heads[head]? with
  | none => []
  | some (su, _, _) => match g.surfs[su]? with
    | none => []
    | some (f, c) => (g.zones.drop f).take c
/-- Frequency zone of a track on a head; the boot format for tracks 0 to 255 (R64, R70). -/
def Geom.fzone (g : Geom) (head track : Nat) : FZone :=
  if track < 256 then bootZone
  else (((g.surfZones head).filter (fun z => decide (z.first ≤ track))).getLast?).getD bootZone
/-- Frequency zone where a table may be absent: only the boot format then. -/
def fzoneOf (g : Option Geom) (head track : Nat) : FZone := match g with | some g => g.fzone head track | none => bootZone
/-- Blocks on a track. -/
def Geom.blocks (g : Geom) (head track : Nat) : Nat := (g.fzone head track).n
/-- Media angle of a position (R40). -/
def mediaAngle (z : FZone) (track pos : Nat) : Nat := (z.ang0 + (track - z.first) * z.skew + pos * z.pitch) % revAC
/-- START to END of R155 in AC: slot byte 4,700. -/
def endSpan (bpr : Nat) : Nat := ceilDiv (37600 * revAC) bpr
/-- ATB_OFSn (R12). -/
def State.ofs (s : State) (a : Nat) : Nat := s.fld (0x1010 + 4 * a) 0 22
/-- Shaft angle of a media angle on actuator `a` (R12). -/
def State.shaftOf (s : State) (a m : Nat) : Nat := angSub m (s.ofs a)
/-- Start angle of a block position (R12, R40). -/
def State.startOf (s : State) (head track pos : Nat) : Nat :=
  s.shaftOf (head / 16) (mediaAngle (fzoneOf s.recs.geom head track) track pos)
/-- A head is present in the table in force (R70). -/
def Geom.present (g : Geom) (head : Nat) : Bool := match g.heads[head]? with | some (_, _, p) => p | none => false

/-- Is a position an active skip (R187, R188)? -/
def State.skipped (s : State) (head track pos : Nat) : Bool :=
  s.rcv.rlt.any (fun e => !e.remap && !e.pending && e.head.val == head && e.track.toNat == track &&
    (e.pos == 0xFFFF || e.pos.toNat == pos))

/-- Heads of a set in set order with PAR_A and PAR_B last (R58). -/
def HSet.order (h : HSet) : List Nat :=
  let a := h.heads[h.parA]?
  let b := h.heads[h.parB]?
  (h.heads.filter (fun x => some x != a && some x != b)) ++ a.toList ++ (if h.parA = h.parB then [] else b.toList)

/-- Data members of a group, members 0 to 29: head and track position (R58). -/
def HSet.members (h : HSet) : List (Nat × Nat) :=
  let t := groupTracks h.heads.length
  let a := h.heads[h.parA]?
  let b := h.heads[h.parB]?
  if h.heads.length = 1 then (List.range 30).map (fun k => (h.heads.headD 0, k))
  else
    (((List.range t).map (fun k => (h.order.filter (fun x => !(k + 1 == t && (some x == a || some x == b)))).map
      (fun x => (x, k)))).flatten).take 30
/-- Head and track position of member `m` (R58). -/
def HSet.member (h : HSet) (m : Nat) : Option (Nat × Nat) :=
  let t := groupTracks h.heads.length
  if m < 30 then h.members[m]?
  else if h.heads.length = 1 then some (h.heads.headD 0, m)
  else ((if m = 30 then h.heads[h.parA]? else h.heads[h.parB]?)).map (fun x => (x, t - 1))

/-- Stream positions of a group in order: by track position, then block position, then the head's place in the set, skips
and parity tracks left out (R21, R53, R58). DESIGN CHOICE (log 22): among positions of one track position the block
position goes first. Each is (member, head, track, block position). -/
def State.groupOrder (s : State) (g : Geom) (tgn : Nat) : List (Nat × Nat × Nat × Nat) :=
  let h := g.set (tgnSet tgn)
  let trk := tgnTrk tgn
  let ms := h.members
  let ord := h.heads.filterMap (fun x => some x)
  ((List.range (groupTracks h.heads.length)).map (fun t =>
    let here := (List.range ms.length).filterMap (fun m => match ms[m]? with
      | some (x, k) => if k = t then some (m, x) else none
      | none => none)
    let here := (ord.map (fun x => here.filter (fun p => p.2 == x))).flatten
    let n := here.foldl (fun a p => max a (g.blocks p.2 (trk + t))) 0
    ((List.range n).map (fun j => here.filterMap (fun p =>
      if j < g.blocks p.2 (trk + t) ∧ !s.skipped p.2 (trk + t) j then some (p.1, p.2, trk + t, j) else none))).flatten)).flatten

/-- Data positions of a group (R178). -/
def State.groupSize (s : State) (tgn : Nat) : Nat :=
  match s.recs.geom with | some g => (s.groupOrder g tgn).length | none => 0

/-- Group of a zone that holds stream block `sbi` (R253). -/
def groupOf (z : Zone) (sbi : Nat) : Option ZGroup := (z.groups.filter (fun g => decide (g.firstSbi ≤ sbi))).getLast?

/-- Where stream block `sbi` of zone `z` lies: TGN, member, head, track, block position (R53, R253). -/
def State.locate (s : State) (z sbi : Nat) : Option (Word × Nat × Nat × Nat × Nat) :=
  match s.recs.geom, groupOf (s.zone z) sbi with
  | some gm, some g =>
    if g.isOpen || decide (sbi < g.firstSbi + g.used) then
      ((s.groupOrder gm g.tgn.toNat)[sbi - g.firstSbi]?).map (fun p => (g.tgn, p))
    else none
  | _, _ => none

/-- Positions of an extent list, every member's, in the order of R68: head, track, block position, TGN. -/
def State.extentOrder (s : State) (g : Geom) (ext : List (Word × Nat)) : List (Nat × Nat × Nat × Nat) :=
  (ext.map (fun e =>
    let h := g.set (tgnSet e.1.toNat)
    let t := groupTracks h.heads.length
    ((List.range e.2).map (fun k =>
      let tgn := e.1.toNat + k * t
      ((List.range 32).map (fun m => match h.member m with
        | none => []
        | some (x, p) =>
          let trk := tgnTrk tgn + p
          (List.range (g.blocks x trk)).filterMap (fun j => if s.skipped x trk j then none else some (x, trk, j, tgn)))).flatten)).flatten)).flatten
/-- Where conventional block `n` lies, a REMAP followed: for reading an active one only, for writing a pending one too
(R68, R190). -/
def State.convAt (s : State) (wr : Bool) (n : Nat) : Option (Nat × Nat × Nat × Nat) :=
  match s.recs.geom with
  | none => none
  | some g =>
    ((s.extentOrder g g.conv)[n]?).map (fun p =>
      match s.rcv.rlt.find? (fun e => e.remap && (wr || !e.pending) && e.head.val == p.1 && e.track.toNat == p.2.1 &&
          e.pos.toNat == p.2.2.1) with
      | some e => (e.thead.toNat, e.ttrack.toNat, e.tpos.toNat, (tget (0, 0) s.rcv.spare (e.thead.toNat / 16)).1.toNat)
      | none => p)
/-- Blocks of the conventional region (R68). -/
def State.convSize (s : State) : Nat := match s.recs.geom with | some g => (s.extentOrder g g.conv).length | none => 0
/-- Staging extents of actuator `a` (R69). -/
def Geom.stageOf (g : Geom) (a : Nat) : List (Word × Nat) := g.stage.filter (fun e => tgnAct e.1.toNat == a)
/-- Staging positions of actuator `a` (R69). -/
def State.stageOrder (s : State) (a : Nat) : List (Nat × Nat × Nat × Nat) :=
  match s.recs.geom with | some g => s.extentOrder g (g.stageOf a) | none => []

/-! ### The co-track window and group choice (R89 to R94) -/

/-- Calibration record in force of actuator `a` (R90). -/
def State.calib (s : State) (a : Nat) : Option Calib := tget none s.recs.cal a
/-- Calibration block of a head; none where it is not calibrated (R90). -/
def State.calHead (s : State) (head : Nat) : Option CalHead :=
  match s.calib (head / 16) with
  | none => none
  | some c => c.heads.find? (fun h => h.head == head && h.cal)

/-- Value of band `b`: WOFS, ROFS or DH. -/
def bandVal (h : CalHead) (f : Int × Int × Int → Int) (b : Nat) : Int :=
  f ((h.bands[b]?).getD (0, 0, 0))
/-- A band value interpolated linearly between band centres (R89); fractions round to nearest (log 23). -/
def interp (h : CalHead) (bw : Nat) (f : Int × Int × Int → Int) (track : Nat) : Int :=
  let bw := max bw 1
  let x : Int := 2 * ((track : Int) - 256) - bw
  if track < 256 ∨ x ≤ 0 then bandVal h f 0
  else
    let b := (x / (2 * (bw : Int))).toNat
    if 255 ≤ b then bandVal h f 255
    else
      let r := x - 2 * (bw : Int) * b
      bandVal h f b + roundDiv ((bandVal h f (b + 1) - bandVal h f b) * r) (2 * (bw : Int))
/-- DH of a head at a track with its live correction (R91, R92). -/
def State.dhl (s : State) (head track : Nat) : Option Int :=
  match s.calHead head, s.calib (head / 16) with
  | some h, some c => some (interp h c.bw (fun b => b.2.2) track + (s.head head).live)
  | _, _ => none
/-- C of R91: the mean of the largest and smallest. -/
def midOf (l : List Int) : Int :=
  match l with
  | [] => 0
  | x :: t => (t.foldl max x + t.foldl min x) / 2
/-- Is the set usable at a track: each head's move within its strokes less the margin, in 1/4,096 pitch (R91)? -/
def State.usable (s : State) (h : HSet) (track : Nat) : Bool :=
  let ds := h.heads.map (fun x => s.dhl x track)
  let c := midOf (ds.filterMap id)
  h.heads != [] && ds.all Option.isSome &&
  h.heads.all (fun x => match s.calHead x, s.dhl x track, s.calib h.act with
    | some k, some d, some r =>
      let m := c - d
      if 0 ≤ m then decide (m ≤ ((k.strokePos : Int) - r.margin) * 16)
      else decide (-m ≤ ((k.strokeNeg : Int) - r.margin) * 16)
    | _, _, _ => false)

/-- First condition of R60 at one track position. -/
def parLong (g : Geom) (h : HSet) (t : Nat) : Bool :=
  h.heads.all (fun x => [h.parA, h.parB].all (fun p => match h.heads[p]? with
    | some y => decide (g.blocks x t ≤ g.blocks y t)
    | none => false))
/-- Both conditions of R60 for a group at `trk`. -/
def groupFits (g : Geom) (h : HSet) (trk : Nat) : Bool :=
  let t := groupTracks h.heads.length
  (List.range t).all (fun k => parLong g h (trk + k)) &&
  [h.member 30, h.member 31].all (fun m => match m with
    | some (x, k) => h.heads.all (fun y => (List.range t).all (fun q => decide (g.blocks y (trk + q) ≤ g.blocks x (trk + k))))
    | none => false)

/-- Heads and tracks a group takes. -/
def groupArea (g : Geom) (tgn : Nat) : List Nat × Nat × Nat :=
  let h := g.set (tgnSet tgn)
  (h.heads, tgnTrk tgn, groupTracks h.heads.length)
/-- Do two groups share a track of a surface (R59)? -/
def overlap (a b : List Nat × Nat × Nat) : Bool :=
  a.1.any (fun h => b.1.contains h) && decide (a.2.1 < b.2.1 + b.2.2) && decide (b.2.1 < a.2.1 + a.2.2)
/-- Groups in use: every zone's, the spare groups, the extents' (R94, R190). -/
def State.takenGroups (s : State) (g : Geom) : List Nat :=
  (s.zon.zones.map (fun z => z.2.groups.map (·.tgn.toNat))).flatten ++ s.rcv.spare.map (fun p => p.2.1.toNat) ++
  ((g.conv ++ g.stage).map (fun e => (List.range e.2).map (fun k =>
    e.1.toNat + k * groupTracks (g.set (tgnSet e.1.toNat)).heads.length))).flatten

/-- May the set take a group at `trk` now (R94)? -/
def State.setFits (s : State) (g : Geom) (n trk : Nat) : Bool :=
  let h := g.set n
  let t := groupTracks h.heads.length
  h.heads.all (fun x => g.present x && (s.calHead x).isSome) &&
  (List.range h.heads.length).all (fun p => !(s.ch (4 * h.act + p)).fenced) &&
  decide (256 ≤ trk) && decide (trk + t ≤ g.tracks) && s.usable h trk && s.usable h (trk + t - 1) &&
  !(s.takenGroups g).any (fun x => overlap (groupArea g x) (h.heads, trk, t)) && groupFits g h trk

/-- The set of the largest HCOUNT, lowest number first, of those that fit at `trk` (R94). -/
def State.bestSet (s : State) (g : Geom) (act trk : Nat) : Option Nat :=
  let fit := (List.range g.sets.length).filter (fun n => (g.set n).act == act && s.setFits g n trk)
  [4, 3, 2, 1].findSome? (fun h => fit.find? (fun n => (g.set n).heads.length == h))

/-- First track from `trk` on, of `n` tracks, at which some set fits. -/
def State.searchGroup (s : State) (g : Geom) (act : Nat) : Nat → Nat → Option (Nat × Nat)
  | 0, _ => none
  | n + 1, trk => match s.bestSet g act trk with
    | some k => some (k, trk)
    | none => s.searchGroup g act n (trk + 1)

/-- The next group of a stream on an actuator: head set and TRK, from the fill cursor, wrapping once (R94). -/
def State.pickGroup (s : State) (act : Nat) : Option (Nat × Nat) :=
  match s.recs.geom with
  | none => none
  | some g =>
    let f := tget 256 s.zon.fill act
    match s.searchGroup g act (g.tracks - f) f with
    | some r => some r
    | none => s.searchGroup g act (f - 256) 256

/-! ### Seek angle (R82) -/

/-- Distance bin of a seek (R82): 0 for no track change, else 1 + floor(log2 d), at most 22. -/
def seekBin (d : Nat) : Nat := if d = 0 then 0 else min 22 (1 + flog2 d)

/-! ### Records (R70, R71, R90, R122, R123, R187) -/

/-- Byte offset of the first failed check; none where all hold. -/
def firstBad (l : List (Nat × Bool)) : Option Nat := (l.find? (fun p => !p.2)).map (·.1)
/-- Are all bytes of a span zero? -/
def zeros (l : List Byte) (ofs n : Nat) : Bool := ((l.drop ofs).take n).all (· == 0)
/-- A number within a range. -/
def within (x lo hi : Nat) : Bool := decide (lo ≤ x) && decide (x ≤ hi)

/-- The Geometry Table a record's bytes spell (R70). -/
def parseGeom (b : List Byte) : Geom :=
  let nh := leAt b 6 1
  let ns := leAt b 7 1
  let nset := leAt b 10 2
  let nz := leAt b 12 2
  let nc := leAt b 14 2
  let ng := leAt b 16 2
  let o1 := 64
  let o2 := o1 + 4 * ns
  let o3 := o2 + 4 * nh
  let o4 := o3 + 24 * nz
  let o5 := o4 + 8 * nset
  let ext := fun (n o : Nat) => (List.range n).map (fun i =>
    ((BitVec.ofNat 32 (leAt b (o + 16 * i) 4) : Word), leAt b (o + 16 * i + 4) 4))
  { acts := leAt b 5 1, rpm := leAt b 8 2, tracks := leAt b 20 4
    surfs := (List.range ns).map (fun i => (leAt b (o1 + 4 * i) 2, leAt b (o1 + 4 * i + 2) 1))
    heads := (List.range nh).map (fun i => (leAt b (o2 + 4 * i) 1, leAt b (o2 + 4 * i + 1) 1, bitOf (leAt b (o2 + 4 * i + 2) 1) 0))
    zones := (List.range nz).map (fun i =>
      let o := o3 + 24 * i
      ⟨leAt b o 4, leAt b (o + 4) 4, leAt b (o + 8) 2, leAt b (o + 10) 2, leAt b (o + 12) 4, leAt b (o + 16) 4⟩)
    sets := (List.range nset).map (fun i =>
      let o := o4 + 8 * i
      ⟨leAt b o 1, (List.range (leAt b (o + 1) 1)).map (fun k => leAt b (o + 2 + k) 1), leAt b (o + 6) 1, leAt b (o + 7) 1⟩)
    conv := ext nc o5, stage := ext ng (o5 + 16 * nc), crc := BitVec.ofNat 32 (leAt b 60 4) }

/-- Length of a Geometry Table by its counts (R70). -/
def geomLen (b : List Byte) : Nat :=
  64 + 4 * leAt b 7 1 + 4 * leAt b 6 1 + 24 * leAt b 12 2 + 8 * leAt b 10 2 + 16 * (leAt b 14 2 + leAt b 16 2)

/-- Zones of one surface rise from track 256 (R71). -/
def risingZones (g : Geom) (f c : Nat) : Bool :=
  match (g.zones.drop f).take c with
  | [] => false
  | z :: t => z.first == 256 && (List.zip (z :: t) t).all (fun p => decide (p.1.first < p.2.first)) &&
    t.all (fun z => decide (z.first < g.tracks)) && decide (t.length + 1 = c)

/-- Every group of an extent list, as areas (R59, R71). -/
def extAreas (g : Geom) (l : List (Word × Nat)) : List (List Nat × Nat × Nat) :=
  (l.map (fun e => (List.range e.2).map (fun k =>
    groupArea g (e.1.toNat + k * groupTracks (g.set (tgnSet e.1.toNat)).heads.length)))).flatten
/-- No two of a list overlap. -/
def disjointAreas : List (List Nat × Nat × Nat) → Bool
  | [] => true
  | a :: t => t.all (fun b => !overlap a b) && disjointAreas t

/-- Blocks of the data region and of the conventional extents (R71). -/
def dataBlocks (g : Geom) : Nat :=
  (List.range g.heads.length).foldl (fun n h => if g.present h
    then n + (List.range (g.tracks - 256)).foldl (fun m t => m + g.blocks h (256 + t)) 0 else n) 0
/-- Blocks of the conventional extents, skips included. -/
def convBlocks (g : Geom) : Nat :=
  (extAreas g g.conv).foldl (fun n a => n + a.1.foldl (fun m h => m +
    (List.range a.2.2).foldl (fun k t => k + g.blocks h (a.2.1 + t)) 0) 0) 0

/-- Checks of R71 on a staged table: offset of the first field that fails. Order and offsets of the conditions that span
fields are a DESIGN CHOICE (log 24). -/
def checkGeom (b : List Byte) : Option Nat :=
  let g := parseGeom b
  let ns := leAt b 7 1
  let nh := leAt b 6 1
  let nz := leAt b 12 2
  let o1 := 64
  let o2 := o1 + 4 * ns
  let o3 := o2 + 4 * nh
  let o4 := o3 + 24 * nz
  let o5 := o4 + 8 * g.sets.length
  firstBad ([(0, leAt b 0 4 == 0x47544E58), (4, leAt b 4 1 == 1), (5, within (leAt b 5 1) 1 4), (6, within nh 1 64),
      (7, within ns 1 32), (8, within (leAt b 8 2) 4200 7200), (10, within (leAt b 10 2) 1 64), (12, within nz 1 2048),
      (14, within (leAt b 14 2) 0 256), (16, within (leAt b 16 2) 0 256), (18, zeros b 18 2),
      (20, within (leAt b 20 4) 257 4194304), (24, zeros b 24 36), (0, b.length == geomLen b && decide (b.length ≤ 65536)),
      (60, leAt b 60 4 == crc32c (b.take 60 ++ b.drop 64))] ++
    ((List.range ns).map (fun i => match g.surfs[i]? with
      | some (f, c) => [(o1 + 4 * i, decide (f + c ≤ nz) && risingZones g f c), (o1 + 4 * i + 2, within c 1 64),
          (o1 + 4 * i + 3, zeros b (o1 + 4 * i + 3) 1)]
      | none => [])).flatten ++
    ((List.range nh).map (fun i => match g.heads[i]? with
      | some (su, a, _) => [(o2 + 4 * i, decide (su < ns)), (o2 + 4 * i + 1, a == i / 16),
          (o2 + 4 * i + 2, decide (leAt b (o2 + 4 * i + 2) 1 < 2)), (o2 + 4 * i + 3, zeros b (o2 + 4 * i + 3) 1)]
      | none => [])).flatten ++
    ((List.range nz).map (fun i => match g.zones[i]? with
      | some z =>
        let o := o3 + 24 * i
        [(o + 4, decide (72000000000 ≤ z.bpr * g.rpm) && decide (z.bpr * g.rpm ≤ 216000000000)),
         (o + 8, decide (ceilDiv (37760 * revAC) z.bpr ≤ z.pitch)), (o + 10, decide (1 ≤ z.n) && decide (z.n * z.pitch ≤ revAC)),
         (o + 12, decide (z.ang0 < revAC)), (o + 16, decide (z.skew < revAC)), (o + 20, zeros b (o + 20) 4)]
      | none => [])).flatten ++
    ((List.range g.sets.length).map (fun i =>
      let h := g.set i
      let o := o4 + 8 * i
      [(o, decide (h.act < g.acts)), (o + 1, within h.heads.length 1 4),
       (o + 2, h.heads.all (fun x => g.present x && x / 16 == h.act) && decide h.heads.Nodup &&
         ((List.range 4).all (fun k => decide (k < h.heads.length) || leAt b (o + 2 + k) 1 == 0xFF))),
       (o + 6, decide (h.parA < h.heads.length) && (List.range (g.tracks - 256)).all (fun t => parLong g h (256 + t))),
       (o + 7, decide (h.parB < h.heads.length) && ((h.parA == h.parB) == (h.heads.length == 1)))])).flatten ++
    ((List.range (g.conv.length + g.stage.length)).map (fun i => match (g.conv ++ g.stage)[i]? with
      | some (t, n) => [(o5 + 16 * i, decide (tgnSet t.toNat < g.sets.length) &&
            tgnAct t.toNat == (g.set (tgnSet t.toNat)).act && decide (256 ≤ tgnTrk t.toNat)),
          (o5 + 16 * i + 4, decide (tgnTrk t.toNat + n * groupTracks (g.set (tgnSet t.toNat)).heads.length ≤ g.tracks)),
          (o5 + 16 * i + 8, zeros b (o5 + 16 * i + 8) 8)]
      | none => [])).flatten ++
    [(o5, disjointAreas (extAreas g (g.conv ++ g.stage))), (14, decide (100 * convBlocks g ≤ dataBlocks g))])

/-- The calibration record a record's bytes spell (R90). -/
def parseCal (b : List Byte) : Calib :=
  { bw := leAt b 8 4, ofs := BitVec.ofNat 22 (leAt b 16 4), margin := leAt b 22 2
    seek := (List.range 23).map (fun i => leAt b (64 + 4 * i) 4)
    heads := (List.range (leAt b 6 2)).map (fun i =>
      let o := 156 + 2064 * i
      { head := leAt b o 1, cal := bitOf (leAt b (o + 1) 1) 0, strokePos := leAt b (o + 2) 2, strokeNeg := leAt b (o + 4) 2
        maGain := leAt b (o + 6) 2, pesGain := leAt b (o + 8) 2, ampNom := leAt b (o + 10) 2
        bands := (List.range 256).map (fun k =>
          (leAtS b (o + 16 + 8 * k) 2, leAtS b (o + 18 + 8 * k) 2, leAtS b (o + 20 + 8 * k) 4)) }) }

/-- Checks of R90 on a staged calibration record. -/
def checkCal (gcrc : Option Word) (act : Nat) (b : List Byte) : Option Nat :=
  let n := leAt b 6 2
  firstBad ([(0, leAt b 0 4 == 0x4C414358), (4, leAt b 4 1 == 1), (5, leAt b 5 1 == act), (6, within n 1 16),
      (12, gcrc == some (BitVec.ofNat 32 (leAt b 12 4))), (16, decide (leAt b 16 4 < revAC)), (24, zeros b 24 40),
      (0, b.length == 156 + 2064 * n)] ++
    ((List.range n).map (fun i =>
      let o := 156 + 2064 * i
      [(o, leAt b o 1 / 16 == act), (o + 1, decide (leAt b (o + 1) 1 < 2)), (o + 12, zeros b (o + 12) 4)])).flatten)

/-- Offsets of the head blocks of a channel parameter record: offset, head, ENTRIES (R122). -/
def paramHeads (b : List Byte) : Nat → Nat → List (Nat × Nat × Nat)
  | 0, _ => []
  | n + 1, o => (o, leAt b o 1, leAt b (o + 1) 1) :: paramHeads b n (o + 16 + 384 * leAt b (o + 1) 1)

/-- A signed tap from −512 to +511 (R121, R122). -/
def tapOk (b : List Byte) (o : Nat) : Bool := decide (-512 ≤ leAtS b o 2) && decide (leAtS b o 2 ≤ 511)
/-- Ranges of the parameter set at offset `o` (R122). -/
def checkPset (b : List Byte) (o : Nat) : List (Nat × Bool) :=
  [(o, within (leAt b o 1) 0 63), (o + 1, within (leAt b (o + 1) 1) 0 24), (o + 2, within (leAt b (o + 2) 1) 0 120),
   (o + 3, within (leAt b (o + 3) 1) 0 120)] ++
  (List.range 24).map (fun k => (o + 4 + 2 * k, tapOk b (o + 4 + 2 * k))) ++
  [(o + 52, decide (-2048 ≤ leAtS b (o + 52) 2) && decide (leAtS b (o + 52) 2 ≤ 2047))] ++
  (List.range 3).map (fun k => (o + 54 + 2 * k, tapOk b (o + 54 + 2 * k))) ++
  [(o + 60, within (leAt b (o + 60) 1) 0 3), (o + 61, within (leAt b (o + 61) 1) 1 255), (o + 62, decide (leAt b (o + 62) 1 < 2)),
   (o + 63, zeros b (o + 63) 1)]

/-- Checks of R123 on a staged channel parameter record. -/
def checkParam (g : Option Geom) (act : Nat) (b : List Byte) : Option Nat :=
  let hs := paramHeads b (leAt b 6 2) 32
  firstBad ([(0, leAt b 0 4 == 0x52434858), (4, leAt b 4 1 == 1), (5, leAt b 5 1 == act), (6, within (leAt b 6 2) 1 16),
      (8, g.map (·.crc) == some (BitVec.ofNat 32 (leAt b 8 4))), (12, zeros b 12 20)] ++
    (hs.map (fun h =>
      let n := match g with | some g => (g.surfZones h.2.1).length + 1 | none => 0
      [(h.1, h.2.1 / 16 == act), (h.1 + 1, h.2.2 == n), (h.1 + 2, zeros b (h.1 + 2) 14)] ++
      ((List.range h.2.2).map (fun e =>
        let o := h.1 + 16 + 384 * e
        [(o, leAt b o 1 == 1), (o + 1, within (leAt b (o + 1) 1) 0 4), (o + 2, within (leAt b (o + 2) 1) 0 127),
         (o + 3, within (leAt b (o + 3) 1) 0 31), (o + 4, within (leAt b (o + 4) 1) 0 15)] ++
        [5, 6, 7].map (fun k => (o + k, within (leAt b (o + k) 1) 0 31)) ++
        [(o + 8, within (leAt b (o + 8) 2) 0 1023), (o + 10, within (leAt b (o + 10) 2) 0 1023), (o + 13, zeros b (o + 13) 1)] ++
        (List.range 8).map (fun k => (o + 14 + 2 * k, tapOk b (o + 14 + 2 * k))) ++
        [(o + 30, within (leAt b (o + 30) 2) 0 4095), (o + 32, zeros b (o + 32) 32)] ++
        ((List.range 5).map (fun k => if k ≤ leAt b (o + 1) 1 then checkPset b (o + 64 + 64 * k)
          else [(o + 64 + 64 * k, zeros b (o + 64 + 64 * k) 64)])).flatten)).flatten)).flatten ++
    [(6, match g with
      | some g => (List.range 16).all (fun k => !g.present (16 * act + k) || hs.any (fun h => h.2.1 == 16 * act + k))
      | none => false)])

/-- Relocation entries of a record's bytes (R187). -/
def parseRlt (b : List Byte) : List RltEnt :=
  (List.range (leAt b 8 4)).map (fun i =>
    let o := 32 + 16 * i
    { head := ⟨leAt b o 1 % 64, Nat.mod_lt _ (by decide)⟩, remap := leAt b (o + 1) 1 % 4 == 2
      pending := bitOf (leAt b (o + 1) 1) 2, cause := leAt b (o + 2) 1, thead := BitVec.ofNat 8 (leAt b (o + 3) 1)
      track := BitVec.ofNat 24 (leAt b (o + 4) 4), ttrack := BitVec.ofNat 24 (leAt b (o + 8) 4)
      pos := BitVec.ofNat 16 (leAt b (o + 12) 2), tpos := BitVec.ofNat 16 (leAt b (o + 14) 2) })

/-- Order of relocation entries: HEAD, TRACK, POS (R187). -/
def rltKey (e : RltEnt) : Nat := e.head.val * 2 ^ 40 + e.track.toNat * 2 ^ 16 + e.pos.toNat
/-- Keys strictly rise. -/
def risingKeys : List RltEnt → Bool
  | a :: b :: t => decide (rltKey a < rltKey b) && risingKeys (b :: t)
  | _ => true

/-- Checks of R187 on a staged relocation record. -/
def checkRlt (gcrc : Option Word) (act : Nat) (b : List Byte) : Option Nat :=
  let n := leAt b 8 4
  firstBad ([(0, leAt b 0 4 == 0x544C5258), (4, leAt b 4 1 == 1), (5, leAt b 5 1 == act), (6, zeros b 6 2),
      (8, decide (n ≤ 65536) && b.length == 32 + 16 * n), (12, gcrc == some (BitVec.ofNat 32 (leAt b 12 4))),
      (16, zeros b 16 16), (32, risingKeys (parseRlt b))] ++
    ((List.range n).map (fun i =>
      let o := 32 + 16 * i
      let f := leAt b (o + 1) 1
      let skip := f % 4 == 1
      [(o, leAt b o 1 / 16 == act), (o + 1, within (f % 4) 1 2 && decide (f < 8)), (o + 2, within (leAt b (o + 2) 1) 1 8),
       (o + 3, !skip || leAt b (o + 3) 1 == 0xFF), (o + 7, zeros b (o + 7) 1), (o + 8, !skip || zeros b (o + 8) 4),
       (o + 14, !skip || zeros b (o + 14) 2)])).flatten)

/-- ALT_COUNT of a channel parameter entry (R122); 0 where no record is in force. -/
def State.altCount (s : State) (head entry : Nat) : Nat :=
  let b := tget [] s.recs.bytes (4 * 7 + head / 16)
  match (paramHeads b (leAt b 6 2) 32).find? (fun h => h.2.1 == head) with
  | some h => leAt b (h.1 + 16 + 384 * entry + 1) 1
  | none => 0

/-- Entry index e of a track on a head (R122, R125): 0 in the system area, else 1 + the zone's place on its surface. -/
def State.entryOf (s : State) (head track : Nat) : Nat :=
  if track < 256 then 0
  else match s.recs.geom with
    | some g => ((g.surfZones head).filter (fun z => decide (z.first ≤ track))).length
    | none => 0

end Sys2Proof.Machine
end

