-- ==== Sys2Proof/Machine/Mem.lean ====
section
/-! DEFINITION. Buffer memory: its bytes (R225, R229, R230), media buffers, accumulators (R177). -/
namespace Sys2Proof.Machine

open Sys2Proof

/-- First data address past the 14 GiB (R225). -/
def memTop : Nat := 15032385536

/-- Byte at data address `a`; an unlisted one reads 0, as R229 writes it. -/
def memGet : List Host.Cell → Nat → Byte
  | [], _ => 0
  | (k, b) :: t, a => if a < k then 0 else if a = k then b else memGet t a

/-- A byte stored at data address `a`; a 0 is not listed. -/
def memPut : List Host.Cell → Nat → Byte → List Host.Cell
  | [], a, b => if b = 0 then [] else [(a, b)]
  | (k, c) :: t, a, b =>
    if a < k then (if b = 0 then (k, c) :: t else (a, b) :: (k, c) :: t)
    else if a = k then (if b = 0 then t else (a, b) :: t)
    else (k, c) :: memPut t a b

/-- Bytes stored from data address `a` on. -/
def memStore (m : List Host.Cell) (a : Nat) : List Byte → List Host.Cell
  | [] => m
  | b :: t => memStore (memPut m a b) (a + 1) t

/-- `n` bytes from data address `a` on. -/
def memLoad (m : List Host.Cell) (a : Nat) : Nat → List Byte
  | 0 => []
  | n + 1 => memGet m a :: memLoad m (a + 1) n

/-- The canonical form above `lo`: addresses strictly rise, and no entry is 0. -/
def memWfFrom (lo : Nat) : List Host.Cell → Bool
  | [] => true
  | (k, b) :: t => decide (lo ≤ k) && b != 0 && memWfFrom (k + 1) t

/-- The canonical form of buffer memory. -/
def Memory.wf (m : List Host.Cell) : Bool := memWfFrom 0 m

/-- Byte of the diagnostic region (R230). -/
def isDiag (a : Nat) : Bool := decide (0x37FFF0000 ≤ a) && decide (a < memTop)
/-- What a read of an ECC word finds, by its syndrome (R226). -/
inductive EccRead where
  | good | corrected | poisoned | uncorrectable
  deriving DecidableEq, Repr

/-- Class of a syndrome (R226). -/
def eccClass (syn : Byte) : EccRead :=
  if syn = 0 then .good
  else if syn = 0x5A then .poisoned
  else if (setBits 8 syn.toNat).length % 2 = 1 && Config.eccColumn syn then .corrected
  else .uncorrectable

/-- A word number goes into a rising list. -/
def insertNat (n : Nat) : List Nat → List Nat
  | [] => [n]
  | x :: t => if n < x then n :: x :: t else if n = x then x :: t else x :: insertNat n t
/-- Does a write over part of a word with a chosen check byte find it uncorrectable or poisoned, and so write it back poisoned
(R228, R236)? -/
def partBad (m : List Host.Cell) (e : Nat × Byte) : Bool :=
  match eccClass (e.2 ^^^ Config.eccCheck (leAt (memLoad m (8 * e.1) 8) 0 8)) with
  | .good | .corrected => false
  | .poisoned | .uncorrectable => true
/-- Bytes placed in buffer memory. A word written whole gets its own check byte, so it is poisoned no longer; one written in part
gets fresh check bits or goes on poisoned (R228). In the diagnostic region BUF_DIAG may choose the byte of a whole word (R236). -/
def State.store (s : State) (a : Nat) (l : List Byte) : State :=
  let whole := fun w => decide (a ≤ 8 * w) && decide (8 * w + 8 ≤ a + l.length)
  let part := fun w => decide (max a (8 * w) < min (a + l.length) (8 * w + 8))
  let bad := s.buf.chk.filter (fun e => part e.1 && !whole e.1 && partBad s.buf.mem e)
  let chk := s.buf.chk.filter (fun e => !part e.1)
  { s with
    buf.mem := memStore s.buf.mem a l
    buf.poison := bad.foldl (fun p e => insertNat e.1 p) (s.buf.poison.filter (fun w => !whole w))
    buf.chk := if s.flag 0x2830 31 && s.flag 0x2830 30 && isDiag a
      then ((List.range (l.length / 8 + 1)).map (· + ceilDiv a 8)).foldl
        (fun c w => if whole w then tset c w (BitVec.ofNat 8 (s.fld 0x2830 0 8)) else c) chk
      else chk }
/-- Bytes of buffer memory. -/
def State.load (s : State) (a n : Nat) : List Byte := memLoad s.buf.mem a n

/-- Data address of media buffer `b` (R230). -/
def mediaBuf (b : Nat) : Nat := 0x30000000 + 4160 * b
/-- Data address of column `j` of accumulator slot `k` (R230). -/
def accAddr (k j : Nat) : Nat := 0x54000000 + 12582912 * k + 8192 * j

/-- Payload bytes added into A0 and A1 of a column: `c` into A0, `c` × α^(31 − m) into A1 (R177). Adding twice removes. -/
def State.accAdd (s : State) (k j m : Nat) (payload : List Byte) : State :=
  let a := accAddr k j
  let p := padTo 4096 payload
  let x := fun (u v : Byte) => u ^^^ v
  let w := gfX m
  let s := s.store a (List.zipWith x (s.load a 4096) p)
  s.store (a + 4096) (List.zipWith x (s.load (a + 4096) 4096) (p.map (fun b => BitVec.ofNat 8 (gfMul b.toNat w))))

/-- A0 and A1 of a column (R177). -/
def State.accOf (s : State) (k j : Nat) : List Byte × List Byte :=
  (s.load (accAddr k j) 4096, s.load (accAddr k j + 4096) 4096)

/-- Both symbols of every column that slot `k` held go to 0 (R177: 0 when the group is handed out). -/
def State.accClear (s : State) (k : Nat) : State :=
  { s with buf.mem := s.buf.mem.filter (fun c => !(decide (accAddr k 0 ≤ c.1) && decide (c.1 < accAddr (k + 1) 0))) }

/-- Lowest free accumulator slot (R177). -/
def State.freeAcc (s : State) : Option (Fin 256) := (List.finRange 256).find? (fun k => !s.xtp.slots.contains k)
/-- A slot is taken, its symbols 0. -/
def State.takeAcc (s : State) (k : Fin 256) : State :=
  ({ s with xtp.slots := s.xtp.slots ++ [k] } : State).accClear k.val
/-- A slot is released (R179). -/
def State.dropAcc (s : State) (k : Option (Fin 256)) : State :=
  match k with
  | none => s
  | some k => { s with xtp.slots := s.xtp.slots.filter (· != k) }

/-! ### The map cache (R245 to R250) -/

/-- Lines cover 64 bytes below 0x3000_0000 (R245). -/
def mapLines : Nat := 0x30000000 / 64
/-- Set of a line (R245). -/
def mapSet (line : Nat) : Nat := line % 8192
/-- Line held by a way of a set. -/
def State.mapWay (s : State) (st w : Nat) : Option MapLine := tget none s.map.lines (8 * st + w)
/-- The way that holds a line. -/
def State.mapFind (s : State) (line : Nat) : Option Nat :=
  (List.range 8).find? (fun w => match s.mapWay (mapSet line) w with | some l => l.tag == line / 8192 | none => false)
/-- A way takes a line, or none. -/
def State.setWay (s : State) (st w : Nat) (l : Option MapLine) : State := { s with map.lines := tset s.map.lines (8 * st + w) l }
/-- Tree bits point away from a way (R247). -/
def treeAway (t w : Nat) : Nat :=
  let put := fun (t b v : Nat) => if v = 1 then t ||| 2 ^ b else t - (if bitOf t b then 2 ^ b else 0)
  let t := put t 0 (if w < 4 then 1 else 0)
  let t := put t (1 + w / 4) (if w / 2 % 2 = 0 then 1 else 0)
  put t (3 + w / 2) (if w % 2 = 0 then 1 else 0)
/-- The way the tree points to (R247). -/
def treeWay (t : Nat) : Nat :=
  let h := b2n (bitOf t 0)
  let q := b2n (bitOf t (1 + h))
  4 * h + 2 * q + b2n (bitOf t (3 + 2 * h + q))
/-- A hit or fill of a way (R247). -/
def State.touchWay (s : State) (st w : Nat) : State :=
  { s with map.tree := tset s.map.tree st (BitVec.ofNat 7 (treeAway (tget 0 s.map.tree st).toNat w)) }
/-- Is a way locked in every set (R247)? -/
def State.wayLocked (s : State) (w : Nat) : Bool := s.flag 0x3000 (8 + w)
/-- The victim of a set (R247). -/
def State.victim (s : State) (st : Nat) : Option Nat :=
  let free := fun w => !s.wayLocked w
  let t := treeWay (tget 0 s.map.tree st).toNat
  match (List.range 8).find? (fun w => free w && (s.mapWay st w).isNone) with
  | some w => some w
  | none =>
    if free t then some t
    else match (List.range 8).find? (fun w => free w && w / 4 == t / 4) with
      | some w => some w
      | none => (List.range 8).find? (fun w => free w && w / 4 != t / 4)
/-- A line goes into a way: what it held is written back when dirty (R245, R247). -/
def State.fillWay (s : State) (line w : Nat) (dirty : Bool) : State :=
  let st := mapSet line
  let s := match s.mapWay st w with
    | some l => if l.dirty then s.count 151 1 else s
    | none => s
  (s.setWay st w (some ⟨line / 8192, dirty⟩)).touchWay st w
/-- A line is allocated (R245, R247). -/
def State.mapAlloc (s : State) (line : Nat) (dirty : Bool) : State :=
  match s.victim (mapSet line) with
  | some w => s.fillWay line w dirty
  | none => s
/-- A line is written back when dirty; it stays, or goes where `inv` (R248). -/
def State.mapClean (s : State) (line : Nat) (inv : Bool) : State :=
  match s.mapFind line with
  | none => s
  | some w => match s.mapWay (mapSet line) w with
    | none => s
    | some l =>
      let s := if l.dirty then s.count 151 1 else s
      s.setWay (mapSet line) w (if inv then none else some { l with dirty := false })
/-- An access to a table at data address `a` (R245, R246): a hit, or a miss whose fill begins. -/
def State.tableAccess (s : State) (a : Nat) (wr : Bool) : State :=
  if !s.flag 0x3000 0 || s.map.fenced || decide (0x30000000 ≤ a) then s
  else
    let line := a / 64
    match s.mapFind line with
    | some w =>
      let s := (s.count 149 1).touchWay (mapSet line) w
      if wr then s.setWay (mapSet line) w (some ⟨line / 8192, true⟩) else s
    | none =>
      if s.map.fills.any (fun f => f.1 == line) then
        { s with map.fills := s.map.fills.map (fun f => if f.1 = line then (line, f.2 || wr) else f) }
      else { s.count 150 1 with map.fills := s.map.fills ++ [(line, wr)] }
/-- An access to the Zone Table entry of a zone (R230, R252). -/
def State.zoneAccess (s : State) (z : Nat) (wr : Bool) : State := s.tableAccess (32 * z) wr
/-- An access to a chunk's entry in its zone's locator index (R230, R254). -/
def State.locAccess (s : State) (z c : Nat) (wr : Bool) : State :=
  match (s.zone z).idx with
  | some i => s.tableAccess (0x10000000 + 0x100000 * i.val + 32 * c) wr
  | none => s

/-! ### Stream positions and the payload stream (R53 to R57) -/

/-- Locators and copies of zone `z`: those on media, and those laid and not yet committed (R54, R57). -/
def State.specials (s : State) (z : Nat) : List (Nat × Option Nat) :=
  let m := tget [] s.nv2.special z
  m ++ (s.cmp.blks.filterMap (fun b =>
    if b.zone = z ∧ (b.loc ∨ b.link.isSome) ∧ !m.any (fun p => p.1 == b.sbi) then some (b.sbi, b.link) else none))
/-- Payload-stream offset at stream block `sbi`: the data blocks before it (R55, R216). -/
def State.ofsAt (s : State) (z sbi : Nat) : Nat :=
  4096 * (sbi - ((s.specials z).filter (fun p => decide (p.1 < sbi))).length)
/-- The `q`-th data block of a zone's stream, searched from `sbi` over `n` positions (R55). -/
def nthData (sp : List Nat) : Nat → Nat → Nat → Nat
  | 0, sbi, _ => sbi
  | n + 1, sbi, q => if sp.contains sbi then nthData sp n (sbi + 1) q else if q = 0 then sbi else nthData sp n (sbi + 1) (q - 1)
/-- The stream block whose payload stands for data block `q`: its newest copy where it has one (R55). -/
def State.dataSbi (s : State) (z q : Nat) : Nat :=
  let sp := s.specials z
  let o := nthData (sp.map (·.1)) (q + sp.length + 1) 0 q
  (((sp.filter (fun p => p.2 == some o)).map (·.1)).foldl (fun a x => some (max x (a.getD 0))) (none : Option Nat)).getD o
/-- The stream block a stream block replaces, for the tweak (R204). -/
def State.origSbi (s : State) (z sbi : Nat) : Nat :=
  match (s.specials z).find? (fun p => p.1 == sbi) with
  | some (_, some o) => o
  | _ => sbi

/-- A stream position's contribution toggles in its group's accumulator (R177). -/
def State.xtpToggle (s : State) (z sbi : Nat) (payload : List Byte) : State :=
  match s.locate z sbi, groupOf (s.zone z) sbi with
  | some (_, m, _, _, j), some g => match g.acc with
    | some k =>
      let key := (g.tgn, m, j)
      let s := s.accAdd k.val j m payload
      { s with xtp.added := if s.xtp.added.contains key then s.xtp.added.filter (· != key) else s.xtp.added ++ [key] }
    | none => s
  | _, _ => s

end Sys2Proof.Machine
end

