-- ==== Sys2Proof/Machine/Slots.lean ====
section
/-! DEFINITION. The slot banks and how a slot ends: the classes of R30, the stream rule of R26, abandoning and
discarding (R16, R29), the tally (R423) and its sampling (R429). -/
namespace Sys2Proof.Machine

open Sys2Proof

/-- Key of bank `b` of channel `ch` in `seq.banks`. -/
def bankKey (ch : Nat) (b : Bool) : Nat := 2 * ch + b2n b
/-- Key of bank `b` of the maintenance context (R163). -/
def maintKey (b : Bool) : Nat := 32 + b2n b
/-- Context whose bank a key names: run context of the channel's actuator, else the maintenance context. -/
def keyCtx (k : Nat) : Nat := if k < 32 then k / 8 else 4
/-- Slots of a bank (R144). -/
def State.bank (s : State) (k : Nat) : List Slot := tget [] s.seq.banks k
/-- Slots of a bank replaced. -/
def State.setBank (s : State) (k : Nat) (l : List Slot) : State := { s with seq.banks := tset s.seq.banks k l }
/-- One slot of a bank. -/
def State.slotAt (s : State) (k i : Nat) : Option Slot := (s.bank k)[i]?
/-- One slot of a bank changed. -/
def State.modSlot (s : State) (k i : Nat) (f : Slot → Slot) : State :=
  match s.slotAt k i with
  | none => s
  | some sl => s.setBank k ((s.bank k).set i (f sl))

/-- A kind that writes media (R145). -/
def isWriteKind (k : Nat) : Bool := k == 2 || k == 5
/-- A kind that reads media (R145). -/
def isReadKind (k : Nat) : Bool := k == 1 || k == 4 || (decide (6 ≤ k) && decide (k ≤ 10))
/-- A reserved kind (R145). -/
def isReservedKind (k : Nat) : Bool := decide (11 ≤ k)

/-- Track identity a slot takes: TRK + TPOS (R144). -/
def slotTrack (e : SlotEntry) : Nat := e.trk.toNat + e.tpos.toNat
/-- Head number of a slot of actuator `a` (R144: HEAD is the head number mod 16; heads 16 × n to 16 × n + 15 are its). -/
def slotHead (e : SlotEntry) (a : Nat) : Nat := 16 * a + e.head.toNat

/-- The four words of an entry (R144). -/
def slotWords (e : SlotEntry) : Word × Word × Word × Word :=
  (BitVec.ofNat 32 (e.kind.toNat * 2 ^ 28 + e.head.toNat * 2 ^ 24 + e.startAc.toNat),
   BitVec.ofNat 32 (e.bufref.toNat * 2 ^ 15 + e.set.toNat * 2 ^ 12 + e.pos.toNat),
   BitVec.ofNat 32 (e.hs.toNat * 2 ^ 26 + e.trk.toNat),
   BitVec.ofNat 32 (e.stream.toNat * 2 ^ 26 + e.ord.toNat * 2 ^ 13 + e.entry.toNat * 2 ^ 6 + e.tpos.toNat * 2 +
     b2n e.sys))

/-- Channel a slot counts on: that of its bank; a maintenance slot, the one at its position of its head's actuator
(R423, R163). -/
def slotCh (k : Nat) (e : SlotEntry) : Nat := if k < 32 then k / 2 else 4 * (e.hs.toNat / 16) + e.head.toNat % 4

/-- Has a slot ended? -/
def Slot.isOver (sl : Slot) : Bool := match sl.st with | .ended _ => true | _ => false

/-- Work item of that number returns to the work list (R16, R27). -/
def State.returnWork (s : State) (w : Nat) : State :=
  { s with rpl.work := s.rpl.work.map (fun x => if x.num = w then { x with placed := false } else x) }
/-- Work item of that number is done with. -/
def State.dropWork (s : State) (w : Nat) : State := { s with rpl.work := s.rpl.work.filter (fun x => x.num != w) }
/-- Work item of a slot. -/
def State.workOf (s : State) (w : Nat) : Option Work := s.rpl.work.find? (fun x => x.num == w)

/-- The captured slot's record is filled in (R429). -/
def State.capture (s : State) (e : SlotEntry) (skid : Nat) : State :=
  { s with
    pmc.words := slotWords e, pmc.smpRev := s.atb.rev, pmc.smpAc := s.atb.ac, pmc.skid := BitVec.ofNat 4 skid
    pmc.trig := none }.setW1c 0x4844 31

/-- Sampling of a retired slot on channel `ch` (R429). The skid is a free value from 0 to 8 (log 18). -/
def State.sample (s : State) (ch : Nat) (e : SlotEntry) : State :=
  if !s.flag 0x4820 15 || s.fld 0x4820 0 4 != ch then s
  else
    let hit := s.ctr (4 * ch) % 2 ^ s.fld 0x4820 8 5 == 0
    match s.pmc.trig with
    | some (k, left) =>
      let s := if hit then { s with pmc.lost := satInc s.pmc.lost } else s
      if left ≤ 1 then s.capture e k else { s with pmc.trig := some (k, left - 1) }
    | none =>
      if !hit then s
      else if bitOf (s.w1c 0x4844).toNat 31 then { s with pmc.lost := satInc s.pmc.lost }
      else
        let k := Config.freeNat s.free % 9
        let s := s.draw
        if k = 0 then s.capture e 0 else { s with pmc.trig := some (k, k) }

/-- Counter of a class on a channel (R423). -/
def EndClass.ctr : EndClass → Nat
  | .retired => 0
  | .wasted => 1
  | .starvedFront => 2
  | .starvedBack => 3

/-- A slot ends in class `c`; `late` counts it in LATE too (R30, R423). A slot that has ended stays as it is. -/
def State.endSlot (s : State) (k i : Nat) (c : EndClass) (late : Bool) : State :=
  match s.slotAt k i with
  | none => s
  | some sl =>
    if sl.isOver then s
    else
      let ch := slotCh k sl.e
      let s := s.modSlot k i (fun x => { x with st := .ended c })
      let s := s.count (4 * ch + c.ctr) 1
      let s := s.count (80 + ch) 1
      let s := if late then s.count (64 + ch) 1 else s
      if c = .retired then
        let s := if sl.e.kind.toNat = 3 then s.count (142 + ch / 4) 1 else s
        s.sample ch sl.e
      else
        let n := keyCtx k
        let s := s.modCtx n (fun x => match x.group with
          | some g => if g.start = sl.e.startAc ∧ g.kind = sl.e.kind ∧ b2n g.bank = k % 2
              then { x with group := some { g with mask := g.mask &&& ~~~(1#4 <<< (ch % 4)) } } else x
          | none => x)
        if sl.e.kind.toNat = 3 then s else s.returnWork sl.work

/-- Slots of a bank end, those that `p` picks and that have not ended. -/
def State.endWhere (s : State) (k : Nat) (p : Slot → Bool) (c : EndClass) : State :=
  (List.range (s.bank k).length).foldl (fun s i => match s.slotAt k i with
    | some sl => if p sl then s.endSlot k i c false else s
    | none => s) s

/-- The slot is on its way but not executing. -/
def Slot.unstarted (sl : Slot) : Bool := sl.st == .planned || sl.st == .armed

/-- Stream rule (R26): every unstarted write slot of the same zone stream in the same revolution with a greater stream
order ends in class `c`, on all four channels of the actuator. Conventional and staging blocks, whose work names 262,144 and
above in place of a zone, are no zone stream. -/
def State.dropStream (s : State) (k : Nat) (e : SlotEntry) (zone : Option Nat) (c : EndClass) : State :=
  if k ≥ 32 || e.kind.toNat != 2 || zone.isNone || zone.any (fun z => decide (262144 ≤ z)) then s
  else
    let a := k / 8
    (List.range 4).foldl (fun s p =>
      s.endWhere (bankKey (4 * a + p) (k % 2 == 1))
        (fun sl => sl.unstarted && sl.e.kind.toNat == 2 && sl.e.stream == e.stream && decide (e.ord.toNat < sl.e.ord.toNat)
          && (((s.workOf sl.work).bind (·.zone)).any (fun z => decide (z < 262144)))) c) s

/-- A slot is dropped: it ends in class `c`, and R26 follows for a write. -/
def State.dropSlot (s : State) (k i : Nat) (c : EndClass) (late : Bool) : State :=
  match s.slotAt k i with
  | none => s
  | some sl =>
    if sl.isOver then s
    else
      let zone := (s.workOf sl.work).bind (·.zone)
      (s.endSlot k i c late).dropStream k sl.e zone c

/-- Active bank key of channel `ch` (R29). -/
def State.activeKey (s : State) (ch : Nat) : Nat := bankKey ch (s.ctx (ch / 4)).bank
/-- Pending bank key of channel `ch`. -/
def State.pendKey (s : State) (ch : Nat) : Nat := bankKey ch (!(s.ctx (ch / 4)).bank)

/-- Index of the write slot executing on a channel, with its bank key (R84). -/
def State.writing (s : State) (ch : Nat) : Option (Nat × Nat) :=
  [s.activeKey ch, s.pendKey ch].findSome? (fun k =>
    ((s.bank k).findIdx? (fun sl => sl.st == .executing && isWriteKind sl.e.kind.toNat)).map (fun i => (k, i)))

/-- The SRV turns the write gate of a channel off: the block counts as cut, the channel's WUS is raised, WUS_SEEN and the
actuator's counter rise (R85, R139). -/
def State.cutGate (s : State) (ch : Nat) : State :=
  if !(s.ch ch).gate then s
  else
    let s := s.modCh ch (fun c => { c with
      gate := false, flags := { c.flags with wus := true }
      vfy := c.vfy.map (fun v => match s.writing ch with
        | some (k, i) => if b2n v.1 = k % 2 ∧ v.2.1 = i then (v.1, v.2.1, true) else v
        | none => v) })
    let s := match s.writing ch with
      | some (k, i) => s.modSlot k i (fun sl => { sl with cut := true })
      | none => s
    (s.setW1c 0x180C (16 + ch / 4)).count (128 + ch / 4) 1

/-- Every write gate of the channels below `n` from `m` on goes off. -/
def State.cutGates (s : State) (m n : Nat) : State :=
  (List.range (n - m)).foldl (fun s i => s.cutGate (m + i)) s

/-- A bank's slots that have not ended are WASTED (R16). -/
def State.wasteBank (s : State) (k : Nat) : State := s.endWhere k (fun _ => true) .wasted

/-- A channel's slots are abandoned: the active bank's, and the pending bank's, committed or not, which empties it
(R16, R142). -/
def State.abandonCh (s : State) (ch : Nat) : State :=
  let s := s.cutGate ch
  let s := s.wasteBank (s.activeKey ch)
  let s := s.wasteBank (s.pendKey ch)
  let s := s.setBank (s.pendKey ch) []
  { s with seq.committed := tset s.seq.committed ch false }

/-- A context lets its group and routine go; a stopped, halted or fenced one keeps its state (R16). -/
def State.idleCtx (s : State) (n : Nat) : State :=
  s.modCtx n (fun c => { c with
    group := none, running := false, wait := .none, stack := [], hold := 0, harvest := none, frame := none
    st := match c.st with
      | .stopped => .stopped
      | .halted => .halted
      | .fenced => .fenced
      | _ => .idle })

/-- Every slot of actuator `n` is abandoned as under R16. -/
def State.abandonAct (s : State) (n : Nat) : State :=
  ((List.range 4).foldl (fun s p => s.abandonCh (4 * n + p)) s).idleCtx n

/-- The maintenance banks are abandoned (R405). -/
def State.abandonMaint (s : State) : State :=
  let s := (s.wasteBank 32).wasteBank 33
  (s.setBank (maintKey (!(s.ctx 4).bank)) []).idleCtx 4

/-- Every slot of the part is abandoned, and every pending bank discarded (R16). -/
def State.abandonAll (s : State) : State :=
  ((List.range 4).foldl (fun s n => s.abandonAct n) s).abandonMaint

/-- The planner withdraws the slots `p` picks of a bank (R142, R160, R210, R474): each is WASTED, and a group already
dispatched, or starting within SEQ_LEAD, sees ABORT_SLOT. -/
def State.withdraw (s : State) (k : Nat) (p : Slot → Bool) : State :=
  let q := fun sl : Slot => sl.unstarted && p sl
  let hit := (s.bank k).any q
  let n := keyCtx k
  let near := (s.bank k).any (fun sl => q sl && (sl.disp ||
    (decide (s.atb.ac.toNat ≤ sl.e.startAc.toNat) &&
      decide (sl.e.startAc.toNat ≤ s.atb.ac.toNat + s.fld 0x1410 0 17) && k % 2 == b2n (s.ctx n).bank)))
  let s := s.endWhere k q .wasted
  if hit && near then s.modCtx n (fun c => { c with traps := c.traps ||| 4, abortSlot := true }) else s

end Sys2Proof.Machine
end

