-- ==== Sys2Proof/Machine/FabOps.lean ====
section
/-! DEFINITION. The fabric's shared operations: sending on a port (R323 to R328), forwarding (R330, R338, R341), end to
end (R342 to R344), broadcasts, adverts (R335), a port down with local repair (R339, R340). -/
namespace Sys2Proof.Machine

open Sys2Proof

/-- Virtual channel of a packet type (R331). -/
def vcOf (t : Nat) : Nat :=
  if t == 0x20 || t == 0x21 || t == 0x22 || t == 0x23 then 1
  else if t == 0x24 || t == 0x28 then 2
  else if decide (0x40 ≤ t) && decide (t ≤ 0x44) then 3
  else 0

/-- A type that R331 lists for a packet with a fabric header. -/
def knownType (t : Nat) : Bool :=
  (decide (0x10 ≤ t) && decide (t ≤ 0x17)) || (decide (0x20 ≤ t) && decide (t ≤ 0x24)) || t == 0x28 ||
  (decide (0x30 ≤ t) && decide (t ≤ 0x32)) || (decide (0x40 ≤ t) && decide (t ≤ 0x44))

/-- Buffer units of 64 bytes a packet takes, fabric header and payload (R328). -/
def pktUnits (p : Pkt) : Nat := ceilDiv (16 + p.payload.length) 64
/-- Bytes a packet takes in the replay buffer: link header, packet and LCRC (R323, R324). -/
def replayBytes (p : Pkt) : Nat := 27 + p.payload.length

/-- Units of each VC at UP (R328). -/
def vcUnits (v : Nat) : Nat := if v = 0 then 128 else if v = 1 then 256 else 512

/-- E2E flag of a packet (R329). -/
def isE2e (p : Pkt) : Bool := bitOf p.flags.toNat 0

/-- May the port send the packet now: UP, credit, replay room (R324, R328)? -/
def Port.canSend (q : Port) (p : Pkt) : Bool :=
  q.st == .up && decide (pktUnits p ≤ tget 0 q.credit (vcOf p.ptype.toNat)) && decide (q.replay.length < 2047) &&
  decide ((q.replay.map (fun r => replayBytes r.2)).foldl (· + ·) 0 + replayBytes p ≤ 65536)

/-- A packet goes out on port `n`: credit taken, kept for replay under its LSEQ, counted (R324, R328, R425). -/
def State.emit (s : State) (n : Fin 5) (p : Pkt) : State :=
  let q := s.port n.val
  let v := vcOf p.ptype.toNat
  let s := s.modPort n.val (fun q => { q with
    credit := tset q.credit v (tget 0 q.credit v - pktUnits p), replay := q.replay ++ [(q.txSeq, p)]
    txSeq := q.txSeq + 1 })
  (s.count (171 + n.val) 1).send (.pkt n q.txSeq p)

/-- First packet of VC `v` in the port's output queue. -/
def Port.head (q : Port) (v : Nat) : Option Pkt := q.queue.find? (fun p => vcOf p.ptype.toNat == v)

/-- Send what VC `v` of port `n` may send within a deficit; none bounds VC0 (R327). -/
def State.drainVc (s : State) (n : Fin 5) (v : Nat) : Nat → State
  | 0 => s
  | fuel + 1 =>
    match (s.port n.val).head v with
    | none => s
    | some p =>
      let d := tget 0 (s.port n.val).deficit v
      if (s.port n.val).canSend p && (v == 0 || decide (16 + p.payload.length ≤ d)) then
        let s := s.modPort n.val (fun q => { q with
          queue := q.queue.eraseP (fun x => vcOf x.ptype.toNat == v)
          deficit := if v = 0 then q.deficit else tset q.deficit v (d - (16 + p.payload.length)) })
        (s.emit n p).drainVc n v fuel
      else s

/-- Quantum of a VC in bytes (R327). -/
def quantum (v : Nat) : Nat := if v = 2 then 8192 else 4096

/-- One round of the arbiter: VC0 first, then VC1 to VC3 by deficit round robin (R327). -/
def State.drainRound (s : State) (n : Fin 5) : State :=
  let len := (s.port n.val).queue.length
  [1, 2, 3].foldl (fun s v =>
    let s := s.drainVc n 0 len
    match (s.port n.val).head v with
    | none => s.modPort n.val (fun q => { q with deficit := tset q.deficit v 0 })
    | some _ =>
      let s := s.modPort n.val (fun q => { q with deficit := tset q.deficit v (tget 0 q.deficit v + quantum v) })
      s.drainVc n v len) s

/-- The output queue of port `n` is served while anything in it may go. -/
def State.drainPort (s : State) (n : Fin 5) : State :=
  upto ((s.port n.val).queue.length + 1) (fun _ s =>
    if (s.port n.val).queue.any (fun p => (s.port n.val).canSend p) then s.drainRound n else s) s

/-- A packet joins the output queue of port `n`, which is served. -/
def State.sendOn (s : State) (n : Fin 5) (p : Pkt) : State :=
  (s.modPort n.val (fun q => { q with queue := q.queue ++ [p] })).drainPort n

/-- A packet is discarded and counted (R330, R331). -/
def State.discard (s : State) : State := { s with fab.discards := s.fab.discards + 1 }

/-- The other address of a pair: 2k for 2k + 1 and back (R333). -/
def pairOther (a : BitVec 12) : BitVec 12 := a ^^^ 1

/-- Is the packet's destination this module (R332, R348)? -/
def State.isMine (s : State) (d : BitVec 12) : Bool :=
  !s.fab.noaddr && (d == s.fab.addr || (s.fab.takeover && d == pairOther s.fab.addr))

/-- The port a routing entry uses now (R338, R340). -/
def Route.port (r : Route) : Nat := if r.usingAlt then r.alt.val else r.pri.val

/-- A unicast packet that is not for this module goes out by its entry; `inp` is the port it came in on (R330, R340,
R341). -/
def State.forward (s : State) (inp : Option (Fin 5)) (p : Pkt) : State :=
  let r := s.route p.dst.toNat
  if s.pair.paired && p.dst == pairOther s.fab.addr && (s.port 4).st != .up && r.valid && Route.port r == 4 then
    { s with fab.partnerWait := s.fab.partnerWait ++ [p] }
  else if !r.valid then s.discard
  else
    match (List.finRange 5).find? (fun n => n.val == Route.port r) with
    | none => s.discard
    | some n =>
      if inp == some n && bitOf p.flags.toNat 3 then s.discard
      else if (s.port n.val).st != .up then s.discard
      else s.sendOn n (if r.usingAlt then { p with flags := p.flags ||| 8 } else p)

/-- A broadcast packet goes out on every UP port but the one it came in on (R330); before UP_HOLD only an LSA does (R337). -/
def State.flood (s : State) (inp : Option (Fin 5)) (p : Pkt) : State :=
  (List.finRange 5).foldl (fun s n =>
    if (s.port n.val).st == .up && inp != some n && ((s.port n.val).ready || p.ptype == 0x10) then s.sendOn n p else s) s

/-- This module broadcasts a payload (R329, R330). -/
def State.broadcast (s : State) (ty : Nat) (payload : List Byte) : State :=
  let p : Pkt := ⟨BitVec.ofNat 8 ty, 2, 0xFFF, if s.fab.noaddr then 0 else s.fab.addr, 255, 0, s.fab.bseq, s.fab.inst,
    payload⟩
  { s with fab.bseq := s.fab.bseq + 1 }.flood none p

/-- End-to-end state towards `d`. -/
def State.tx (s : State) (d : Nat) : E2eTx := tget E2eTx.init s.fab.tx d
/-- End-to-end state towards `d` changed. -/
def State.modTx (s : State) (d : Nat) (f : E2eTx → E2eTx) : State := { s with fab.tx := tmod E2eTx.init s.fab.tx d f }

/-- Packets that wait for room among the 64 unacknowledged of a destination go out (R342). -/
def State.pumpTx (s : State) (d : Nat) : Nat → State
  | 0 => s
  | fuel + 1 =>
    match (s.tx d).queue with
    | [] => s
    | p :: t =>
      if (s.tx d).unacked.length < 64 then
        let x := s.tx d
        let p := { p with seq := x.seq, flags := if x.resync then p.flags ||| 16 else p.flags }
        let s := s.modTx d (fun x => { x with
          queue := t, unacked := x.unacked ++ [p], seq := x.seq + 1, resync := false })
        (s.forward none p).pumpTx d fuel
      else s

/-- This module sends a payload end to end (R329, R342, R343). -/
def State.e2eSendSess (s : State) (dst : BitVec 12) (ty : Nat) (sess : Byte) (payload : List Byte) : State :=
  let p : Pkt := ⟨BitVec.ofNat 8 ty, 1, dst, s.fab.addr, 255, sess, 0, s.fab.inst, payload⟩
  let s := s.modTx dst.toNat (fun x => { x with queue := x.queue ++ [p] })
  s.pumpTx dst.toNat ((s.tx dst.toNat).queue.length)
/-- The same outside a management session. -/
def State.e2eSend (s : State) (dst : BitVec 12) (ty : Nat) (payload : List Byte) : State := s.e2eSendSess dst ty 0 payload

/-! ### Adverts -/

/-- Bytes of an LSA (R335). -/
def lsaBytes (l : Lsa) : List Byte :=
  leBytes 2 l.origin.toNat ++ leBytes 2 l.flags.toNat ++ leBytes 8 l.nodeId.toNat ++ leBytes 4 l.aseq.toNat ++
  leBytes 4 l.claimAge.toNat ++ leBytes 2 l.partner.toNat ++ leBytes 1 l.nbrs.length ++ [0] ++
  (l.nbrs.map (fun n => leBytes 2 n.addr.toNat ++ [n.ownPort, n.nbrPort] ++ leBytes 2 n.cost.toNat ++ [0, 0])).flatten

/-- Neighbour entries of the UP ports (R335, R336: every link has cost 1). -/
def State.lsaNbrs (s : State) : List LsaNbr :=
  ((List.range 5).filter (fun n => (s.port n).st == .up)).map (fun n =>
    ⟨(s.port n).nbr, BitVec.ofNat 8 n, (s.port n).nport, 1⟩)

/-- Flags of this module's LSA (R335). -/
def State.lsaFlags (s : State) : Nat :=
  b2n (s.flag 0x0400 1) + 2 * b2n s.ledger.office + 4 * b2n s.pair.paired + 8 * b2n s.pair.owner +
  16 * b2n s.fab.takeover + 32 * b2n s.fab.leaving + 64 * b2n (s.pwr.st == .dark) + 128 * b2n s.fab.noaddr

/-- This module's LSA with the next ASEQ (R335). -/
def State.ownLsa (s : State) : Lsa :=
  ⟨if s.fab.noaddr then 0 else s.fab.addr, BitVec.ofNat 16 s.lsaFlags, s.nv.nodeId, s.fab.aseq + 1, s.fab.age,
   if s.pair.paired && !s.fab.noaddr then pairOther s.fab.addr else 0, s.lsaNbrs⟩

/-- The module floods its LSA (R335). Once it has no UP port, nothing is sent but ASEQ rises. -/
def State.floodLsa (s : State) : State :=
  let l := s.ownLsa
  { s with fab.aseq := l.aseq }.broadcast 0x10 (lsaBytes l)

/-! ### A port down -/

/-- Code of a cause in event 0x8001 (R358); a lane off has none of its own and takes 5, as R351 floods LEAVING. -/
def downCode (c : DownCause) : Nat :=
  match c with
  | .symbols => 1
  | .heartbeats => 2
  | .replays => 3
  | .fence => 4
  | .leaving => 5
  | .laneOff => 5

/-- Local repair of the routing table when port `n` is down (R340). -/
def repair (n : Nat) (t : Tab Route) : Tab Route :=
  t.map (fun e =>
    let r := e.2
    let r := if r.pri.val = n ∧ r.altValid ∧ !r.usingAlt then { r with usingAlt := true } else r
    (e.1, if r.alt.val = n then { r with altValid := false } else r))

/-- Port enabled by FAB_CTL.PORT_EN and its lane on; the partner link is enabled in a pair (R320, R339). -/
def State.portEnabled (s : State) (n : Nat) : Bool :=
  if n = 4 then s.pair.paired && (s.domainOn 12 || s.domainOn 13) else s.flag 0x0800 n && s.domainOn (8 + n)

/-- State a port that is down or released restarts in: step 1 of R321, unless fenced or off (R339, R356). -/
def State.restartSt (s : State) (n : Nat) : PortSt :=
  if bitOf s.flt.fenced.toNat (48 + n) || s.flag (0x810 + 0x10 * n) 0 then .fenced
  else if s.portEnabled n then .training else .disabled

/-- A port goes down: event 0x8001, its fault source through `r`, its state and credits as before bring-up, local repair,
packets looked up again, and the LSA flooded (R335, R339, R340). Nothing where the port was not UP. -/
def State.portDown (s : State) (r : Nat → State → State) (n : Fin 5) (c : DownCause) : State :=
  let q := s.port n.val
  let s := if q.st == .up then s.event 0x8001 2 [n.val, downCode c, q.nbr.toNat] else s
  let pk := q.replay.map (·.2) ++ q.queue
  let st := s.restartSt n.val
  let s := s.modPort n.val (fun _ => { Port.init with st := st })
  if q.st == .up then
    let s := { s with fab.routes := repair n.val s.fab.routes }
    let s := pk.foldl (fun s p => if bitOf p.flags.toNat 1 then s else s.forward none p) s
    r (88 + n.val) s.floodLsa
  else s

end Sys2Proof.Machine
end

