-- ==== Sys2Proof/Machine/Host.lean ====
section
/-! DEFINITION. Fetched commands and their ends: status codes (R294), the Completion Poster's list (R283), units withdrawn
(R286, R287), queue pairs disabled (R261). -/
namespace Sys2Proof.Machine

open Sys2Proof

/-! ### Status codes of R294 -/

/-- SUCCESS. -/
def stSuccess : Nat := 0x0000
/-- SUCCESS_RECOVERED. -/
def stRecovered : Nat := 0x0001
/-- SUCCESS_RECONSTRUCTED. -/
def stReconstructed : Nat := 0x0002
/-- ABORTED. -/
def stAborted : Nat := 0x0010
/-- ABORT_TARGET_DONE. -/
def stAbortDone : Nat := 0x0011
/-- ABORT_TARGET_UNKNOWN. -/
def stAbortUnknown : Nat := 0x0012
/-- INVALID_OPCODE. -/
def stInvalidOpcode : Nat := 0x0020
/-- INVALID_FIELD. -/
def stInvalidField : Nat := 0x0021
/-- RIGHTS_DENIED. -/
def stRightsDenied : Nat := 0x0022
/-- ROLE_REQUIRED. -/
def stRoleRequired : Nat := 0x0023
/-- ZONE_STATE. -/
def stZoneState : Nat := 0x0030
/-- ZONE_FULL. -/
def stZoneFull : Nat := 0x0031
/-- WRITE_POINTER_MISMATCH. -/
def stWpMismatch : Nat := 0x0032
/-- TOO_MANY_OPEN. -/
def stTooManyOpen : Nat := 0x0033
/-- MEDIA_UNCORRECTABLE. -/
def stUncorrectable : Nat := 0x0040
/-- DATA_INTEGRITY. -/
def stDataIntegrity : Nat := 0x0041
/-- DECOMPRESS_LIMIT. -/
def stDecompressLimit : Nat := 0x0042
/-- NOT_READY. -/
def stNotReady : Nat := 0x0050
/-- DOMAIN_POWERED_DOWN. -/
def stDomainDown : Nat := 0x0051
/-- FENCED. -/
def stFenced : Nat := 0x0052
/-- FABRIC_UNREACHABLE. -/
def stUnreachable : Nat := 0x0060
/-- PEER_REFUSED. -/
def stPeerRefused : Nat := 0x0061
/-- SECURITY_ERROR. -/
def stSecurityError : Nat := 0x0070
/-- LOCKED. -/
def stLocked : Nat := 0x0071
/-- INTERNAL. -/
def stInternal : Nat := 0x00FF

/-- Status of the highest row any block reached: 0 clean, 1 recovered, 2 reconstructed, 3 uncorrectable, 4 decompression
limit, 5 data integrity (R192, R213). -/
def rankStatus (r : Nat) : Nat :=
  match r with
  | 0 => stSuccess
  | 1 => stRecovered
  | 2 => stReconstructed
  | 3 => stUncorrectable
  | 4 => stDecompressLimit
  | _ => stDataIntegrity

/-! ### Fetched commands -/

/-- The fetched command of QP `q` that holds TAG `t`. -/
def State.cmd? (s : State) (q : Nat) (t : BitVec 16) : Option Cmd :=
  s.hqi.cmds.find? (fun c => c.qp.val == q && c.tag == t)

/-- That command changed. -/
def State.modCmd (s : State) (q : Nat) (t : BitVec 16) (f : Cmd → Cmd) : State :=
  { s with hqi.cmds := s.hqi.cmds.map (fun c => if c.qp.val = q ∧ c.tag = t then f c else c) }

/-- An append of a peer move: it goes by a TAG of QP0, where no host command has its opcode (R312, R352; log 41). -/
def Cmd.peer (c : Cmd) : Bool := c.qp.val == 0 && c.opc == 0x22
/-- Bytes of a PM_DONE: session, blocks, status, first logical block address (R352; log 42). -/
def pmDoneBytes (num : Word) (blocks status lba : Nat) : List Byte :=
  leBytes 4 num.toNat ++ leBytes 4 blocks ++ leBytes 2 status ++ leBytes 8 lba
/-- The append of a peer move ends: PM_DONE with its status, and the session is over (R352). -/
def State.pmEnd (s : State) (t : BitVec 16) (status result : Nat) : State :=
  match s.fab.pm.find? (fun x => !x.isSrc && x.cmd == some (0, t)) with
  | none => s
  | some x =>
    ({ s with fab.pm := s.fab.pm.filter (fun y => y != x) } : State).e2eSend x.peer 0x43
      (pmDoneBytes x.num (x.data.length / 4096) status result)

/-- A completion is committed to the poster for the fetched command of `q` and `t`, which is outstanding no longer; none
where no such command is outstanding (R283, R285: no command receives two). A peer's append answers its peer. -/
def State.finish (s : State) (q : Fin 128) (t : BitVec 16) (status result : Nat) : State :=
  match s.cmd? q.val t with
  | none => s
  | some c =>
    let s : State := { s with hqi.cmds := s.hqi.cmds.filter (fun c => !(c.qp.val == q.val && c.tag == t)) }
    if c.peer then s.pmEnd t status result
    else { s with hqi.posts := s.hqi.posts ++ [⟨q, t, BitVec.ofNat 16 status, BitVec.ofNat 64 result, none, false⟩] }

/-- INVALID_FIELD with the byte offset of the field (R280, R294). -/
def State.badField (s : State) (q : Fin 128) (t : BitVec 16) (ofs : Nat) : State := s.finish q t stInvalidField ofs

/-- Command parameter CPn of an entry (R267). -/
def Cmd.p (c : Cmd) (n : Nat) : Nat := ((c.cp[n]?).getD 0).toNat
/-- Bits [lsb + w − 1 : lsb] of CPn. -/
def Cmd.pf (c : Cmd) (n lsb w : Nat) : Nat := bitsOf (c.p n) lsb w
/-- FLAGS.FUA (R267). -/
def Cmd.fua (c : Cmd) : Bool := bitOf c.flags.toNat 0
/-- FLAGS.NO_COMPRESS (R267). -/
def Cmd.noCompress (c : Cmd) : Bool := bitOf c.flags.toNat 1
/-- FLAGS.EFFORT (R267). -/
def Cmd.effort (c : Cmd) : Nat := bitsOf c.flags.toNat 2 2
/-- FLAGS.SGL (R267). -/
def Cmd.sgl (c : Cmd) : Bool := bitOf c.flags.toNat 4
/-- FLAGS.LIMITED_RETRY (R267). -/
def Cmd.limitedRetry (c : Cmd) : Bool := bitOf c.flags.toNat 5
/-- Zone index of ADDR (R291). -/
def Cmd.zone (c : Cmd) : Nat := bitsOf c.addr.toNat 19 18
/-- Block offset of ADDR (R291). -/
def Cmd.blk (c : Cmd) : Nat := bitsOf c.addr.toNat 0 19
/-- An opcode that moves user data: READ, ZONE WRITE, ZONE APPEND, VERIFY, PEER MOVE, CONV READ, CONV WRITE (R293). -/
def isDataOpc (o : Nat) : Bool :=
  o == 0x20 || o == 0x21 || o == 0x22 || o == 0x26 || o == 0x27 || o == 0x28 || o == 0x29
/-- An opcode that writes a zone or the conventional region. -/
def isWriteOpc (o : Nat) : Bool := o == 0x21 || o == 0x22 || o == 0x29

/-! ### Units and their ends -/

/-- Blocks of the admitted units of zone `z` that are still to commit (R300, R315). -/
def State.pendingBlocks (s : State) (z : Nat) : Nat :=
  (s.cmp.units.filter (fun u => !u.conv && u.zone == z && !u.committed && u.dead.isNone)).foldl (fun n u => n + u.count) 0

/-- Numbers of the work items that write the blocks of unit `cs`. -/
def State.unitWork (s : State) (cs : Word) : List Nat :=
  let bs := s.cmp.blks.filter (fun b => b.csec == cs)
  (s.rpl.work.filter (fun w => isWriteKind w.kind.toNat && bs.any (fun b => w.zone == some b.zone && w.sbi == b.sbi))).map
    (·.num)

/-- The slots of every bank that serve the work items `ws` are withdrawn (R160, R286). -/
def State.withdrawWork (s : State) (ws : List Nat) : State :=
  (List.range 32).foldl (fun s k => s.withdraw k (fun sl => sl.e.kind.toNat != 3 && ws.contains sl.work)) s

/-- A block has been sent to the writer at least once: its verify ended (R63, R177). -/
def Blk.written (b : Blk) : Bool := b.ok || b.replaced || decide (0 < b.fails)

/-- The blocks of an uncommitted zone unit leave the stream: what the accumulators hold of unwritten ones is removed (R177);
where no later unit has blocks, the stream goes back to the unit's first position, else its positions stay unreferenced. -/
def State.unlay (s : State) (u : CUnit) : State :=
  let bs := s.cmp.blks.filter (fun b => b.csec == u.csec)
  let s := bs.foldl (fun s b => if b.final && !b.written then s.xtpToggle b.zone b.sbi b.data else s) s
  let low := bs.foldl (fun a b => min a b.sbi) (s.zone u.zone).nextPos
  let later := s.cmp.blks.any (fun b => b.zone == u.zone && b.csec != u.csec && decide (low < b.sbi))
  let s := if later then { s with nv2.special := tmod [] s.nv2.special u.zone (fun l => l ++ (bs.filterMap (fun b =>
        if b.loc ∨ b.link.isSome then some (b.sbi, b.link) else none))) } else s
  let s : State := { s with cmp.blks := s.cmp.blks.filter (fun b => b.csec != u.csec) }
  if later then s
  else
    let g := match (s.zone u.zone).groups.getLast? with | some g => g.firstSbi | none => 0
    let p := max low g
    s.modZone u.zone (fun z => { z with nextPos := p, cursor := s.ofsAt u.zone p })

/-- An uncommitted unit is withdrawn from planning: its chunks, blocks and work go, and the zone's AWP is WP plus the
blocks of the zone's other admitted units (R286, R315). A committed one stays. -/
def State.withdrawUnit (s : State) (cs : Word) : State :=
  match s.cmp.units.find? (fun u => u.csec == cs && !u.committed) with
  | none => s
  | some u =>
    let ws := s.unitWork cs
    let s := s.withdrawWork ws
    let s : State := { s with
      rpl.work := s.rpl.work.filter (fun w => !ws.contains w.num)
      cmp.jobs := s.cmp.jobs.filter (fun j => j.csec != cs)
      cmp.units := s.cmp.units.filter (fun v => v.csec != cs)
      cmp.eng := s.cmp.eng.map (fun e => match e.2.job with
        | .compress _ _ c => if c = cs then (e.1, { e.2 with job := .none }) else e
        | _ => e) }
    if u.conv then { s with cmp.blks := s.cmp.blks.filter (fun b => b.csec != cs) }
    else
      let s := s.unlay u
      let n := s.pendingBlocks u.zone
      let last := !s.cmp.units.any (fun v => v.zone == u.zone && !v.conv && v.formed && !v.committed)
      s.modZone u.zone (fun z => { z with awp := z.wp + n, tail := if u.formed && last then none else z.tail })

/-- A write whose command ends early loses its uncommitted unit (R286). -/
def State.dropCmdUnit (s : State) (c : Cmd) : State :=
  match c.csec with
  | none => s
  | some cs => if isWriteOpc c.opc.toNat then s.withdrawUnit cs else s

/-- An outstanding command ends early with a status: its uncommitted unit is withdrawn and its completion committed
(R285, R286, R406). ZONE APPEND, once admitted, answers its first logical block whatever the status (R308); its ADDR holds it
from its admission on. -/
def State.endCmd (s : State) (c : Cmd) (status result : Nat) : State :=
  (s.dropCmdUnit c).finish c.qp c.tag status (if c.opc = 0x22 ∧ c.csec.isSome then c.addr.toNat else result)

/-- Every outstanding command that `p` picks ends with a status. -/
def State.endCmds (s : State) (p : Cmd → Bool) (status : Nat) : State :=
  (s.hqi.cmds.filter p).foldl (fun s c => s.endCmd c status 0) s

/-- Every outstanding command of the host ends without a completion, as if aborted (R261, R287). -/
def State.endSilently (s : State) : State :=
  let s := (s.hqi.cmds.filter (fun c => !c.peer)).foldl (fun s c => s.dropCmdUnit c) s
  { s with hqi.cmds := s.hqi.cmds.filter Cmd.peer, hqi.posts := [], hqi.posting := [] }

/-- Every QP returns to DISABLED (R261, R263). -/
def State.disableQps (s : State) : State := 
  { s.endSilently with hqi.qps := [], hqi.dbRead := false, hqi.dbAgain := false, fab.rtags := [] }

end Sys2Proof.Machine
end

