-- ==== Sys2Proof/Machine/Gateway.lean ====
section
/-! DEFINITION. The path to host memory: directly, or through the gateway (R274, R277, R345, R347). -/
namespace Sys2Proof.Machine

open Sys2Proof

/-! ### The gateway -/

/-- Fabric address of the gateway, HQI_GW.GW_ADDR (R274). -/
def State.gw (s : State) : BitVec 12 := BitVec.ofNat 12 (s.fld 0x0410 0 12)
/-- The module is its own gateway (R274). -/
def State.selfGw (s : State) : Bool := s.gw == 0 || s.gw == s.fab.addr
/-- A packet for the gateway; held while the gateway is unreachable (R347). -/
def State.toGw (s : State) (ty : Nat) (payload : List Byte) : State :=
  if s.fab.gwDown then
    { s with fab.gwHeld := s.fab.gwHeld ++ [⟨BitVec.ofNat 8 ty, 1, s.gw, s.fab.addr, 255, 0, 0, s.fab.inst, payload⟩] }
  else s.e2eSend s.gw ty payload
/-- A transfer split into pieces of at most `most` bytes, none across a 4 KiB page (R345). -/
def pieces (most : Nat) : Nat → Nat → Nat → List (Nat × Nat)
  | 0, _, _ => []
  | fuel + 1, a, n =>
    if n = 0 then []
    else
      let k := min n (min most (4096 - a % 4096))
      (a, k) :: pieces most fuel (a + k) (n - k)
/-- Bytes go into host memory (R277, R283). -/
def State.hostWrite (s : State) (a : Nat) (l : List Byte) : State :=
  if l = [] then s
  else if s.selfGw then s.send (.hostWrite (BitVec.ofNat 64 a) l)
  else ((pieces 4080 (l.length + 1) a l.length).foldl (fun (p : State × List Byte) e =>
      (p.1.toGw 0x22 (leBytes 8 e.1 ++ leBytes 8 0 ++ p.2.take e.2), p.2.drop e.2)) (s, l)).1
/-- A read of host memory begins, for `p`; through the gateway it goes in requests of at most 65,536 bytes, each with an RTAG
of its own (R345). -/
def State.hostRead (s : State) (p : RPurpose) (a n : Nat) : State :=
  if s.selfGw then s.send (.hostRead (BitVec.ofNat 64 a) n)
  else (List.range (ceilDiv n 65536)).foldl (fun s i =>
    let t := s.fab.nextRtag
    let k := min 65536 (n - 65536 * i)
    ({ s with fab.nextRtag := t + 1, fab.rtags := s.fab.rtags ++ [(t, p, [], false)] } : State).e2eSend s.gw 0x21
      (leBytes 8 (a + 65536 * i) ++ leBytes 4 k ++ leBytes 2 t.toNat ++ leBytes 2 0)) s
/-- An interrupt request for a vector (R284). -/
def State.interrupt (s : State) (v : Byte) : State := if s.selfGw then s.send (.msix v) else s.toGw 0x23 [v]

/-- The doorbell page is read; during a read, once more after it (R277). -/
def State.readPage (s : State) : State :=
  if s.hqi.fenced || s.hqi.noFetch || s.shadow || !s.flag 0x0400 0 || !s.ready 4 then s
  else if s.hqi.dbRead then { s with hqi.dbAgain := true }
  else ({ s with hqi.dbRead := true } : State).hostRead .page ((s.forceWord 0x0408).toNat / 4096 * 4096 +
    2 ^ 32 * (s.forceWord 0x040C).toNat) 1024

end Sys2Proof.Machine
end

