-- ==== Sys2Proof/Machine/Units.lean ====
section
/-! DEFINITION. What a fence, a park, a loss of angle or STOP does to each unit: the shared operations the fault
collector and the families call. `r` raises a fault source. -/
namespace Sys2Proof.Machine

open Sys2Proof

/-- How a unit's operation raises a fault source. -/
abbrev Raise := Nat → State → State

/-! ### Pair frames (R366) -/

/-- The owner mirrors its state to the partner (R365, R369). -/
def State.mirroring (s : State) : Bool :=
  s.pair.paired && s.pair.owner && !s.pair.lost && !s.pfr.fenced && (s.pair.mirrorOk || s.pfr.snap.isSome)

/-- A pair frame is sent and kept until acknowledged; ACK frames are not kept (R366). While the PAIR is fenced only ACK is
sent (R405). -/
def State.pairSend (s : State) (kind : Nat) (payload : List Byte) : State :=
  if !s.pair.paired || (s.pfr.fenced && kind != 0) then s
  else if kind = 0 then (s.count 184 1).send (.pair s.pfr.pseq 0 [])
  else
    let q := s.pfr.pseq
    ({ s with pfr.pseq := q + 1, pfr.unacked := s.pfr.unacked ++ [(q, BitVec.ofNat 8 kind, payload)] }.count 184 1).send
      (.pair q (BitVec.ofNat 8 kind) payload)

/-- One mirrored change, where the part mirrors (R369). -/
def State.mirror (s : State) (kind : Nat) (payload : List Byte) : State := if s.mirroring then s.pairSend kind payload else s

/-- The partner is lost: PARTNER_LOST, mirroring ends, every wait on it ends, source 100 and event 0x9001 with its cause, 1 canary, 2 frames
(R365). -/
def State.partnerLost (s : State) (r : Raise) (cause : Nat) : State :=
  if s.pair.lost then s
  else
    let s : State := { s with
      pair.lost := true, pair.mirrorOk := false, pfr.unacked := [], pfr.reps := 0, pfr.snap := none
      hqi.posts := s.hqi.posts.map (fun p => { p with need := none }) }
    r 100 ((s.setW1c 0x0C04 24).event 0x9001 2 [cause])

/-- This module pulls HANDOVER_N low (R363). -/
def State.pullHandover (s : State) : State := { s with pair.pulling := true, pair.handoverLow := true }

/-! ### Actuators -/

/-- GEN_READY bit 12 + n holds only in FOLLOWING, SEEKING and SETTLING (R433). -/
def State.actReadyOff (s : State) (n : Nat) : State := s.setReady (12 + n) false

/-- A park that begins at once (R96): slots abandoned, the park command sent, UNLOADING, the ready bit cleared. A parked,
unloading or fenced actuator stays. A servo-writing operation on it fails. -/
def State.parkNow (s : State) (n : Nat) : State :=
  let a := s.act n
  let s := (s.abandonAct n).actReadyOff n
  if a.st = .parked ∨ a.st = .unloading ∨ a.st = .fenced then s.modAct n (fun a => { a with parkPend := false })
  else
    let s := if a.st = .ssw ∧ s.srv.sswBusy ∧ s.srv.sswAct.val = n
      then { s with srv.sswBusy := false, srv.sswResult := 2 } else s
    (s.modAct n (fun a => { a with
      st := .unloading, heads := [], seek := none, parkPend := false, lastSet := none })).sendPark (2 ^ n) 1

/-- Every actuator parks at once. -/
def State.parkAll (s : State) : State := (List.range 4).foldl (fun s n => s.parkNow n) s

/-- The spindle holds speed lock (R105, R107). -/
def State.speedLocked (s : State) : Bool := s.spn.st == .locked

/-- Actuator `n` starts to unpark when PD_ACTn is on, it is not fenced and the spindle holds speed lock (R97): LOADING, and
the load profile is sent. -/
def State.unpark (s : State) (n : Nat) : State :=
  let a := s.act n
  if a.st = .parked ∧ s.domainOn n ∧ !bitOf s.flt.fenced.toNat n ∧ s.speedLocked then
    (s.modAct n (fun a => { a with st := .loading, retryWait := false, lastSet := none, heads := [] })).sendPark (2 ^ n) 2
  else s

/-- An unpark that a requested park holds back (R97). -/
def State.unparkFree (s : State) (n : Nat) : State :=
  if (s.act n).reqPark || s.flt.stop then s else s.modAct n (fun a => { a with tries := 0 }) |>.unpark n

/-! ### Angle time base -/

/-- The ATB leaves LOCKED or COAST for another state, or changes between STOPPED and ACQUIRE (R14, R16): on a loss,
ATB_STATUS.LOSS, every write gate off, every slot of every bank abandoned or discarded, source 11; into STOPPED, every
actuator parks (R96). -/
def State.atbTo (s : State) (r : Raise) (dest : AtbSt) : State :=
  let lost := s.spinning && dest != .locked && dest != .coast
  let s := if lost then ((s.setW1c 0x1004 6).cutGates 0 16).abandonAll else s
  let s : State := { s with atb.st := dest, atb.lastK := none, atb.bad := false, atb.phaseErr := 0 }
  let s := if dest = .stopped then s.parkAll else s
  if lost then r 11 s else s

/-! ### DARK (R440, R441) -/

/-- The part leaves DARK for SPUN_DOWN: memory and PD_PCIE are active again, the functions whose domain was off are ready as
before, which is a DESIGN CHOICE (log 40) for all but the HQI, and the doorbell page is read once (R440). -/
def State.leaveDark (s : State) : State :=
  if s.pwr.st ≠ .dark then s
  else
    let s : State := { s with
      pwr.st := .spunDown, pwr.core := true, pwr.routeWake := false, pwr.on := s.pwr.on ||| 0x20, pwr.bufActive := true
      pwr.ready := s.pwr.ready ||| s.pwr.darkReady, pwr.darkReady := 0, buf.selfRefresh := false, hqi.noFetch := false }
    let s := (s.setReady 4 true).setReady 5 !s.hqi.perst
    (s.event 0x1000 1 [3, 2, 3]).readPage

/-! ### Fences by unit -/

/-- A fault fences channel `n` (R142): its slots are abandoned or withdrawn, later write slots of the streams dropped, the
context sees the FENCE trap. -/
def State.fenceCh (s : State) (n : Nat) (cause : Nat) : State :=
  let drop := fun (s : State) (k : Nat) => (List.range (s.bank k).length).foldl
    (fun s i => s.dropSlot k i .wasted false) s
  let s := (s.cutGate n)
  let s := drop (drop s (s.activeKey n)) (s.pendKey n)
  let s := s.setBank (s.pendKey n) []
  let s : State := { s with seq.committed := tset s.seq.committed n false }
  let s := s.modCh n (fun c => { c with fenced := true, cause := BitVec.ofNat 2 cause, noPlan := true })
  s.modCtx (n / 4) (fun c => { c with traps := c.traps ||| 2 })

/-- Lines of the map cache that are dirty. -/
def State.dirtyLines (s : State) : Nat :=
  (s.map.lines.filter (fun e => match e.2 with | some l => l.dirty | none => false)).length

/-- Every dirty line is written back (R248, R250). -/
def State.cleanMap (s : State) : State :=
  let n := s.dirtyLines
  ({ s with map.lines := s.map.lines.map (fun e => (e.1, e.2.map (fun l => { l with dirty := false }))) } : State).count 151 n

/-- All four engines are fenced, or PD_CMP is off (R202, R436). -/
def State.cmpOut (s : State) : Bool :=
  (s.engine 0).fenced && (s.engine 1).fenced && (s.engine 2).fenced && (s.engine 3).fenced

/-- The moment all four engines become fenced: event 0x6000 once (R202); reads of compressed chunks end FENCED. -/
def State.cmpAllFenced (s : State) : State :=
  if s.cmpOut && !s.cmp.rawEvent then
    let s : State := { s with cmp.rawEvent := true }.event 0x6000 2 [0xF]
    let cs := s.cmp.inflates
    cs.foldl (fun s j => match s.cmd? j.2.2.1.val j.2.2.2 with
      | some c => s.endCmd c stFenced 0
      | none => s) { s with cmp.inflates := [] }
  else if !s.cmpOut then { s with cmp.rawEvent := false } else s

/-- Engine `k` is fenced; a fault takes effect at once, and its chunk starts again elsewhere (R202). -/
def State.fenceCmp (s : State) (k : Nat) : State :=
  let s : State := match (s.engine k).job with
    | .none => s
    | .compress z c u => { s with cmp.jobs := s.cmp.jobs.map (fun j =>
        if j.zone = z ∧ j.chunk = c ∧ j.csec = u then { j with slen := none } else j) }
    | .inflate z c q t => { s with cmp.inflates := (z, c, q, t) :: s.cmp.inflates }
  (s.modEngine k (fun _ => { fenced := true, job := .none, stalled := false })).cmpAllFenced

/-- Crypto lane `k` is fenced; its data unit waits again. With all four fenced every command that moves user data ends
FENCED (R205). -/
def State.fenceLane (s : State) (k : Nat) : State :=
  let back := match s.cry.lane.find? (fun e => e.1 == k) with | some e => [e.2] | none => []
  let s : State := { s with
    cry.fenced := s.cry.fenced ||| (1#4 <<< k)
    cry.lane := s.cry.lane.filter (fun e => e.1 != k), cry.queue := back ++ s.cry.queue }
  if s.cry.fenced = 0xF then s.endCmds (fun c => isDataOpc c.opc.toNat) stFenced else s

/-- Groups whose parity a fault of the XTP loses: open, or closed with an accumulator (R181, R195). -/
def State.fenceXtp (s : State) : State :=
  { s with
    xtp.fenced := true, xtp.slots := [], xtp.added := [], zon.closes := []
    zon.zones := s.zon.zones.map (fun e => (e.1, { e.2 with groups := e.2.groups.map (fun g =>
      if g.acc.isSome then { g with isOpen := false, noPar := true, acc := none, closing := false } else g) })) }

/-- The HQI is fenced (R405): fetching, polling and posting stop, every QP is DISABLED, commands end without completion,
event 0x7005 with cause 4. -/
def State.fenceHqi (s : State) : State :=
  let n := s.hqi.cmds.length
  let s := s.disableQps
  { s with hqi.fenced := true, hqi.gw := .off, hqi.words := [], hqi.active := false }.event 0x7005 1 [4, n]

/-- Run context `n` is fenced (R405). -/
def State.fenceCtx (s : State) (n : Nat) : State :=
  let s := if n < 4 then s.abandonAct n else
    let s := s.abandonMaint
    if s.srv.sswBusy then { s with srv.sswBusy := false, srv.sswResult := 2 } else s
  s.modCtx n (fun c => if c.st = .halted then c else { c with st := .fenced })

/-- STOP (R406): every slot abandoned, every actuator parked, outstanding commands that move user data end FENCED. -/
def State.doStop (s : State) : State :=
  let s := s.abandonAll.parkAll
  { s with flt.stop := true }.endCmds (fun c => isDataOpc c.opc.toNat) stFenced

/-- The fence of a unit takes effect (R404, R405). -/
def State.fenceUnit (s : State) (r : Raise) (u : Nat) : State :=
  if u = 63 then s
  else if u = 32 ∨ u = 33 ∨ u = 29 ∨ u = 30 ∨ u = 58 ∨ u = 62 then s.doStop
  else
    let s : State := { s with flt.fenced := s.flt.fenced ||| (1#64 <<< u) }
    if u < 4 then
      let s := (s.parkNow u).modAct u (fun a => { a with st := .fenced })
      s.modCtx u (fun c => { c with traps := c.traps ||| 2 })
    else if u = 4 then
      let s : State := { s with spn.fenced := true, spn.st := .fault, spn.wanted := false }.setReady 11 false
      ((s.spinMode 0).atbTo r .stopped)
    else if u = 5 then { s with atb.fenced := true }.atbTo r .stopped
    else if 8 ≤ u ∧ u < 24 then s.fenceCh (u - 8) 2
    else if 24 ≤ u ∧ u < 29 then s.fenceCtx (u - 24)
    else if u = 34 then { s.cleanMap with map.fenced := true }
    else if 36 ≤ u ∧ u < 40 then s.fenceCmp (u - 36)
    else if u = 40 ∧ s.sec.error then (List.range 4).foldl (fun s k => s.fenceLane k) s
    else if 40 ≤ u ∧ u < 44 then s.fenceLane (u - 40)
    else if u = 44 then s.fenceXtp
    else if 48 ≤ u ∧ u < 53 then
      match (List.finRange 5).find? (fun n => n.val == u - 48) with
      | some n => s.portDown r n .fence
      | none => s
    else if u = 53 then
      (List.finRange 5).foldl (fun s n => s.portDown r n .fence)
        { s with fab.ports := s.fab.ports.map (fun e => (e.1, { e.2 with queue := [], replay := [] })) }
    else if u = 54 then
      { s with pfr.fenced := true, pair.aligned := false, pair.mirrorOk := false, pfr.snap := none, pfr.unacked := [] }
    else if u = 56 then s.fenceHqi
    else if u = 61 then { s with zon.jstop := true }
    else s

end Sys2Proof.Machine
end

