-- ==== Sys2Proof/Machine/SpinOps.lean ====
section
/-! DEFINITION. Spin-up, its tokens and its ends: the shared operations of R104 to R113. -/
namespace Sys2Proof.Machine

open Sys2Proof

/-- Slot of the shelf, LOC[3:0] of the address in use (R110, R332). -/
def State.slotNo (s : State) : Fin 16 := ⟨s.fab.addr.toNat % 16, Nat.mod_lt _ (by decide)⟩
/-- Payload of the shelf messages: shelf, slot, tokens held (R331). -/
def State.tokenBytes (s : State) : List Byte :=
  [BitVec.ofNat 8 (s.fab.addr.toNat / 16), BitVec.ofNat 8 (s.fab.addr.toNat % 16), BitVec.ofNat 8 (b2n s.spn.token)]

/-- The SPN waits for a token: WAIT_TOKEN, or CHANGING before the ramp (R110). -/
def State.waitsToken (s : State) : Bool := s.spn.st == .waitToken || (s.spn.st == .changing && !s.spn.ramping)

/-- A token is granted to this module (R104, R107, R110): ALIGN, or the ramp of CHANGING; RAMP without ALIGN where the
spindle still turns at half its target or more after a power failure (R116), which the back-EMF shows and no stated
formula gives: a free value (log 19). -/
def State.tokenGot (s : State) (solo : Bool) : State :=
  let s : State := { s with spn.token := true, spn.solo := solo }
  if s.spn.st = .changing then { s with spn.ramping := true }
  else if s.spn.before.isSome ∧ Config.freeNat s.free % 2 = 1 then
    ({ s.draw with spn.st := .ramp, spn.before := none } : State).spinMode 1
  else ({ s.draw with spn.st := .align, spn.before := none } : State).spinMode 2

/-- The ledger grants while it may: office held, the hold over, fewer than BUDGET tokens held, requests in order (R110,
R112). -/
def State.ledgerGrant (s : State) : Nat → State
  | 0 => s
  | fuel + 1 =>
    if !s.ledger.office || s.ledger.holdoff || decide (s.fld 0x1C1C 0 5 ≤ s.ledger.held.length) then s
    else
      match s.ledger.queue with
      | [] => s
      | k :: t =>
        let s : State := { s with ledger.queue := t }
        if k = s.slotNo then
          if s.waitsToken then
            ({ s with ledger.held := s.ledger.held ++ [k] }.tokenGot false).ledgerGrant fuel
          else s.ledgerGrant fuel
        else
          let dst : BitVec 12 := BitVec.ofNat 12 (s.fab.addr.toNat / 16 * 16 + k.val)
          ({ s with ledger.held := s.ledger.held ++ [k] }.e2eSend dst 0x14 s.tokenBytes).ledgerGrant fuel
/-- Grants what the ledger now allows. -/
def State.grantAll (s : State) : State := s.ledgerGrant (s.ledger.queue.length)

/-- A request of slot `k` reaches the ledger; a queued one keeps its first place (R110, R349). -/
def State.ledgerReq (s : State) (k : Fin 16) : State :=
  if !s.ledger.office || s.ledger.queue.contains k || s.ledger.held.contains k then s
  else { s with ledger.queue := s.ledger.queue ++ [k] }.grantAll

/-- A token comes back to the ledger (R111). -/
def State.ledgerReturn (s : State) (k : Fin 16) : State :=
  { s with ledger.held := s.ledger.held.filter (· != k) }.grantAll

/-- The module asks its shift boss for a token; a shadow does not (R110, R349). -/
def State.askToken (s : State) : State :=
  if (s.pair.paired && !s.pair.owner) || s.fab.noaddr then s
  else
    let s : State := { s with spn.boss := s.fab.boss }
    if s.fab.boss = 0 then s
    else if s.fab.boss = s.fab.addr then s.ledgerReq s.slotNo
    else s.e2eSend s.fab.boss 0x13 s.tokenBytes

/-- The module returns its token (R111); a token of its own grant names no ledger. -/
def State.giveToken (s : State) : State :=
  if !s.spn.token then s
  else
    let own := s.spn.solo
    let s : State := { s with spn.token := false, spn.solo := false }
    if own || s.fab.boss = 0 then s
    else if s.fab.boss = s.fab.addr then s.ledgerReturn s.slotNo
    else s.e2eSend s.fab.boss 0x15 s.tokenBytes

/-- Signed temperature in 0.1 °C. -/
def State.tempC (s : State) : Int := ofTwos 16 s.spn.temp.toNat
/-- Signed pre-heat threshold (R108). -/
def State.thresh (s : State) : Int := ofTwos 12 (s.fld 0x1C08 0 12)

/-- WAIT_TOKEN is entered and a token asked for (R104, R110). -/
def State.toWaitToken (s : State) : State := ({ s with spn.st := .waitToken } : State).spinMode 0 |>.askToken

/-- Spin-up is requested (R105): PREHEAT below THRESH or with the thermistor faulty (R108, R109), else WAIT_TOKEN. It waits
for OFF, for an attempt's 10 s and for the fence. -/
def State.requestSpin (s : State) : State :=
  let s : State := { s with spn.wanted := true, spn.reqTick := if s.spn.wanted then s.spn.reqTick else s.pwr.ticks }
  if s.spn.st != .off || s.spn.retryWait || s.spn.fenced || s.flt.stop then s
  else if s.spn.tempBad || decide (s.tempC < s.thresh) then
    ({ s with spn.st := .preheat, spn.preheatS := 0, spn.path := 0 } : State).spinMode 2
  else s.toWaitToken

/-- GEN_READY bits 11 to 19 clear (R107). -/
def State.clearSpinReady (s : State) : State :=
  (List.range 9).foldl (fun s i => s.setReady (11 + i) false) s

/-- Speed lock ends: GEN_READY bit 11 clears and the ATB goes to STOPPED (R14, R106). -/
def State.lockEnds (s : State) (r : Raise) : State :=
  (({ s with spn.phaseLocked := false, spn.phaseGood := 0, spn.reg := false, spn.offCnt := 0 } : State).setReady
    11 false).atbTo r .stopped

/-- Does an actuator count as parked for the brake (R104)? -/
def State.parkedNow (s : State) (n : Nat) : Bool :=
  (s.act n).st == .parked || ((s.act n).st == .fenced && bitOf s.mdl.parked.toNat n)
/-- Every actuator is parked. -/
def State.allParked (s : State) : Bool := (List.range 4).all s.parkedNow

/-- In STOPPING the brake goes on once every actuator is parked (R104). -/
def State.brakeIfParked (s : State) : State :=
  if s.spn.st = .stopping ∧ s.allParked ∧ s.mdl.mode ≠ 3 then s.spinMode 3 else s

/-- The spindle stops through STOPPING (R104): the token goes back, the actuators park, then the brake. -/
def State.spinStop (s : State) (r : Raise) : State :=
  if s.spn.st = .off ∨ s.spn.st = .stopping ∨ s.spn.st = .pfail ∨ s.spn.st = .fault then { s with spn.wanted := false }
  else if s.spn.st = .preheat ∨ s.spn.st = .waitToken then
    ({ s with spn.wanted := false, spn.st := .off
              ledger.queue := s.ledger.queue.filter (· != s.slotNo) } : State).spinMode 0
  else
    let s : State := { s with spn.wanted := false, spn.newRpm := none, spn.ramping := false }
    let s := (s.giveToken.parkAll).lockEnds r
    ({ s with spn.st := .stopping } : State).brakeIfParked

/-- A spin-up fails: brake, token back, one more failed attempt, 10 s to wait (R105). -/
def State.spinFail (s : State) (r : Raise) (cause : Nat) : State :=
  let s := s.spinStop r
  { s with spn.wanted := true, spn.attempts := s.spn.attempts + 1, spn.retryWait := true, spn.failCause := cause }

/-- The part acts as on PFAIL_N (R115): gates off, slots abandoned, PARK for every actuator, SPIN MODE 0, PFAIL. -/
def State.actPfail (s : State) (r : Raise) : State :=
  let s := (s.cutGates 0 16).abandonAll
  let s := if s.spn.st = .pfail then s else { s with spn.before := some s.spn.st }
  let s := s.parkAll
  let s := (s.sendPark 15 1).giveToken
  let s : State := { s with
    spn.st := .pfail, spn.wanted := false, spn.newRpm := none, spn.ramping := false
    ledger.queue := s.ledger.queue.filter (· != s.slotNo) }
  ((s.setW1c 0x1C04 15).spinMode 0).lockEnds r

end Sys2Proof.Machine
end

