-- ==== Sys2Proof/Machine/Fault.lean ====
section
/-! DEFINITION. The fault collector: sources (R408), classes (R403, R407), records and merging (R409), masking (R411),
FAULT_N (R412), clearing and the release of fences (R405, R413), the causes present now (R414). -/
namespace Sys2Proof.Machine

open Sys2Proof

/-! ### Sources -/

/-- Unit of a source (R408, R410). -/
def srcUnit (n : Nat) : Nat :=
  if n ≤ 3 then n
  else if n ≤ 7 then n - 4
  else if n = 11 then 5
  else if n = 13 then 63
  else if n ≤ 14 then 4
  else if 16 ≤ n ∧ n ≤ 47 then 8 + (n - 16) / 2
  else if 48 ≤ n ∧ n ≤ 52 then n - 24
  else if n = 53 then 29
  else if n = 54 then 30
  else if n = 56 ∨ n = 57 ∨ n = 58 ∨ n = 59 then 32
  else if 60 ≤ n ∧ n ≤ 62 then 33
  else if 64 ≤ n ∧ n ≤ 68 then 34
  else if 72 ≤ n ∧ n ≤ 79 then 36 + (n - 72) / 2
  else if 80 ≤ n ∧ n ≤ 83 then n - 40
  else if 84 ≤ n ∧ n ≤ 87 then 44
  else if 88 ≤ n ∧ n ≤ 92 then n - 40
  else if 93 ≤ n ∧ n ≤ 99 then 53
  else if 100 ≤ n ∧ n ≤ 103 then 54
  else if 104 ≤ n ∧ n ≤ 109 then 56
  else if 112 ≤ n ∧ n ≤ 118 then 58
  else if n = 120 ∨ n = 122 then 60
  else if n = 121 then 61
  else if n = 123 then 62
  else if n = 124 then 40
  else 63

/-- A reserved source, never raised (R408). -/
def srcReserved (n : Nat) : Bool :=
  n == 15 || n == 63 || (decide (69 ≤ n) && decide (n ≤ 71)) || n == 110 || n == 111 || n == 119 || n == 127

/-- Default class of R408 for a single module. -/
def srcDefault (n : Nat) : Nat :=
  if srcReserved n then 0
  else if n = 65 ∨ n = 93 ∨ n = 95 ∨ n = 99 ∨ n = 107 then 1
  else if n ≤ 3 ∨ (16 ≤ n ∧ n ≤ 47) ∨ n = 52 ∨ (72 ≤ n ∧ n ≤ 83) ∨ n = 85 then 3
  else if n = 8 ∨ n = 9 ∨ n = 12 ∨ (48 ≤ n ∧ n ≤ 51) ∨ n = 64 ∨ n = 97 ∨ n = 101 ∨ n = 108 ∨ n = 109 ∨ n = 116 ∨ n = 121 ∨
    n = 123 ∨ n = 124 ∨ n = 126 then 4
  else if n = 53 ∨ n = 54 ∨ n = 57 ∨ n = 59 ∨ n = 61 ∨ n = 62 ∨ n = 113 ∨ n = 114 ∨ n = 118 then 6
  else 2

/-- Floor of R408 for a single module. -/
def srcFloor1 (n : Nat) : Nat :=
  if srcReserved n then 0
  else if n ≤ 3 ∨ n = 8 ∨ (16 ≤ n ∧ n ≤ 52) ∨ (72 ≤ n ∧ n ≤ 83) ∨ n = 85 ∨ n = 97 ∨ n = 108 ∨ n = 109 ∨ n = 123 then 3
  else if n = 54 ∨ n = 61 ∨ n = 62 ∨ n = 126 then 4
  else if n = 53 ∨ n = 57 ∨ n = 59 ∨ n = 113 ∨ n = 114 ∨ n = 118 then 6
  else if n = 10 ∨ n = 11 ∨ n = 13 ∨ n = 14 ∨ n = 55 ∨ n = 65 ∨ (88 ≤ n ∧ n ≤ 93) ∨ n = 95 ∨ n = 99 ∨ n = 107 ∨ n = 115 ∨
    n = 125 then 1
  else 2

/-- Floor of a source; STOP is FAILOVER in a pair (R407). -/
def srcFloor (paired : Bool) (n : Nat) : Nat := if paired && srcFloor1 n == 6 then 5 else srcFloor1 n
/-- Default class of a source; STOP is FAILOVER in a pair (R407). -/
def srcClass0 (paired : Bool) (n : Nat) : Nat := if paired && srcDefault n == 6 then 5 else srcDefault n
/-- Class of a source now: FLT_SRC_CFG.CLASS (R403). -/
def State.srcClass (s : State) (n : Nat) : Nat := (tget (BitVec.ofNat 3 (srcClass0 s.pair.paired n)) s.regs.cls n).toNat

/-- Units whose fence acts as STOP (R404). -/
def stopUnit (u : Nat) : Bool := u == 29 || u == 30 || u == 32 || u == 33 || u == 58 || u == 62

/-- Sources masked while unit `u` is being reset (R411). -/
def maskedBy (u : Nat) : List Nat :=
  if 8 ≤ u ∧ u < 24 then [(u - 8) / 4, 48 + (u - 8) / 4, 61]
  else if 36 ≤ u ∧ u < 44 then [61]
  else if u = 44 then [61, 86]
  else if 48 ≤ u ∧ u < 53 then [95, 98]
  else if 24 ≤ u ∧ u < 28 then [55]
  else if u = 34 then [67, 68]
  else if u = 56 then [107, 109]
  else []

/-! ### Records -/

/-- Sources of a record: its primary and its secondaries (R413). -/
def FRec.sources (r : FRec) : BitVec 128 := r.sec ||| (1#128 <<< r.primary.toNat)
/-- Record slot `i`. -/
def State.rec? (s : State) (i : Nat) : Option FRec := tget none s.flt.recs i
/-- Slot of the open record of unit `u`. -/
def State.recSlot (s : State) (u : Nat) : Option Nat :=
  (List.range 32).find? (fun i => match s.rec? i with | some r => r.unit.toNat == u | none => false)
/-- Lowest free record slot. -/
def State.freeRec (s : State) : Option Nat := (List.range 32).find? (fun i => (s.rec? i).isNone)
/-- Open records, 0 to 32 (R414). -/
def State.openRecs (s : State) : Nat := ((List.range 32).filter (fun i => (s.rec? i).isSome)).length
/-- An open record holds FENCE_PIN or higher (R412). -/
def State.pinRec (s : State) : Bool :=
  (List.range 32).any (fun i => match s.rec? i with | some r => decide (4 ≤ r.cls.toNat) | none => false)

/-- FAULT_N as MODE has it, outside a pulse (R412). -/
def State.setPin (s : State) : State :=
  if s.flt.pulsing then s
  else
    let m := s.fld 0x4028 0 2
    { s with flt.pin := if m = 1 then true else if m = 2 then s.pinRec else false }

/-- Severity of a class in events 0xB000 and 0xB001 (R421). -/
def classSev (c : Nat) : Nat := if c = 6 then 4 else if 3 ≤ c then 3 else 2

/-- The unit a source fences begins its reset, whose masked sources R411 lists. -/
def State.maskUnit (s : State) (u : Nat) : State :=
  if maskedBy u = [] then s else { s with flt.masking := s.flt.masking ||| (1#64 <<< u) }

/-- Does FAILOVER hand over here: an owner whose partner is ALIGNED (R407)? -/
def State.failsOver (s : State) : Bool := s.pair.paired && s.pair.owner && s.pair.peerAligned

/-- The effects of class `c` on unit `u` beyond status, count and record (R403, R404, R407). -/
def State.applyClass (s : State) (r : Raise) (u c : Nat) : State :=
  if c < 3 then s
  else
    let s := (s.fenceUnit r u).maskUnit u
    let s : State := if 4 ≤ c then { s with flt.pulsing := true, flt.pin := true } else s
    if c = 5 then (if s.failsOver then s.pullHandover else s.doStop) else if c = 6 then s.doStop else s

/-- A fault joins record slot `i` (R409). -/
def State.mergeRec (s : State) (r : Raise) (i n c : Nat) (rc : FRec) : State :=
  let u := srcUnit n
  let m : FRec := { rc with merged := true, sec := rc.sec ||| (1#128 <<< n), mcount := satInc rc.mcount }
  if rc.cls.toNat < c then
    let s : State := { s with flt.recs := tset s.flt.recs i (some { m with cls := BitVec.ofNat 3 c }) }
    (s.eventSrc 0xB001 (classSev c) n [n, c, u, m.mcount.toNat]).applyClass r u c
  else { s with flt.recs := tset s.flt.recs i (some m) }

/-- A record opens in slot `i` (R409). -/
def State.openRec (s : State) (r : Raise) (i n c : Nat) : State :=
  let u := srcUnit n
  let rc : FRec := ⟨BitVec.ofNat 6 u, BitVec.ofNat 7 n, BitVec.ofNat 3 c, false, 0, 0, 0, 0,
    BitVec.ofNat 24 s.nv2.secs.toNat⟩
  let s : State := { s with flt.recs := tset s.flt.recs i (some rc) }
  (s.eventSrc 0xB000 (classSev c) n [n, c, u, i]).applyClass r u c

/-- Status bit and count of a source (R403, R414). -/
def State.markFault (s : State) (n : Nat) : State :=
  { s with
    flt.status := s.flt.status ||| (1#128 <<< n)
    flt.count := tset s.flt.count n (satInc (tget 0 s.flt.count n)) }

/-- The unit whose reset masks source `n` now (R411). -/
def State.maskingUnit (s : State) (n : Nat) : Option Nat :=
  (setBits 64 s.flt.masking.toNat).find? (fun u => (maskedBy u).contains n)

/-- Source `n` raises a fault while PD_CORE is on (R403, R409, R411); its effects raise others through `r`. -/
def State.raiseOn (s : State) (r : Raise) (n : Nat) : State :=
  if srcReserved n then s
  else
    let s : State := { s with flt.raw := s.flt.raw ||| (1#128 <<< n) }
    match s.maskingUnit n with
    | some u =>
      match s.recSlot u with
      | some i =>
        { s with flt.recs := tset s.flt.recs i ((s.rec? i).map (fun rc =>
            { rc with csq := rc.csq ||| (1#128 <<< n), ccount := satInc rc.ccount })) }
      | none => s
    | none =>
      let c := s.srcClass n
      if c = 0 then s
      else
        let s := s.markFault n
        match s.recSlot (srcUnit n) with
        | some i => match s.rec? i with
          | some rc => (s.mergeRec r i n c rc).setPin
          | none => s
        | none =>
          if c = 1 then s
          else
            match s.freeRec with
            | some i => (s.openRec r i n c).setPin
            | none => match s.rec? 31 with
              | some rc => (s.mergeRec r 31 n c { rc with unit := 63 }).setPin
              | none => s

/-- Faults latched in PD_AON are applied once PD_CORE is on (R441). -/
def State.applyLatched (s : State) (r : Raise) : State :=
  let l := setBits 128 s.flt.dark.toNat
  l.foldl (fun s n => r n s) { s with flt.dark := 0 }
/-- Sources that can be raised in DARK (R441). -/
def darkSource (n : Nat) : Bool :=
  (decide (88 ≤ n) && decide (n ≤ 99)) || (decide (112 ≤ n) && decide (n ≤ 118)) || n == 126

/-- Source `n` raises a fault. In DARK with PD_CORE off it is latched, a class of FENCE_PIN or higher pulls FAULT_N, and STOP or
FAILOVER makes the part leave DARK (R441). -/
def State.raise1 (r : Raise) (n : Nat) (s : State) : State :=
  if s.pwr.st ≠ .dark ∨ s.pwr.core then s.raiseOn r n
  else if !darkSource n then s
  else
    let c := s.srcClass n
    let s : State := { s with flt.dark := s.flt.dark ||| (1#128 <<< n) }
    let s : State := if 4 ≤ c then { s with flt.pulsing := true, flt.pin := true } else s
    if 5 ≤ c then s.leaveDark.applyLatched r else s

/-- Raising with so many levels of consequence. -/
def raiseN : Nat → Raise
  | 0 => fun _ s => s
  | k + 1 => State.raise1 (raiseN k)

/-- A source raises a fault. Its fence may raise others (a lost ATB, ports down); four levels hold every chain of R404 and
R405. -/
def raise : Raise := raiseN 4

/-! ### Causes present now -/

/-- The cause of source `n` is present in the state (R414); a cause the state does not hold is a moment, kept in `flt.raw`
from the fault until FLT_STATUS is written for it (log 20). -/
def State.causeNow (s : State) (n : Nat) : Bool :=
  if n = 8 then s.spn.mdlLost
  else if n = 9 then decide (3 ≤ s.spn.attempts)
  else if n = 12 then s.mdl.faults != 0
  else if n = 13 then s.srv.shock
  else if n = 14 then s.spn.tempBad
  else if 48 ≤ n ∧ n ≤ 51 then (s.ctx (n - 48)).st == .halted
  else if n = 52 then (s.ctx 4).st == .halted
  else if 88 ≤ n ∧ n ≤ 91 then s.flag 0x0800 (n - 88) && s.domainOn (n - 80) && (s.port (n - 88)).st != .up
  else if n = 92 then s.pair.paired && (s.port 4).st != .up
  else if n = 93 then s.pair.paired && (s.port 4).st == .up && (s.port 4).lanes != 3
  else if n = 94 then s.fab.noaddr
  else if n = 98 then s.fab.gwDown
  else if n = 100 then s.pair.lost
  else if n = 115 then s.spn.pfailLow
  else if n = 120 then s.evr.degraded
  else if n = 124 then s.sec.error
  else false

/-- FLT_RAW of source `n` (R414). -/
def State.rawNow (s : State) (n : Nat) : Bool := bitOf s.flt.raw.toNat n || s.causeNow n

/-! ### Release -/

/-- Every port that is down restarts at step 1 of R321. -/
def State.restartPort (s : State) (n : Nat) : State :=
  if (s.port n).st = .fenced ∨ (s.port n).st = .disabled ∨ (s.port n).st = .loopback then
    s.modPort n (fun _ => { Port.init with st := s.restartSt n })
  else s

/-- The full state of R369 is sent as a snapshot: the marks, with the mirrored registers and queue pairs between (R365,
R366). The layout of QSTATE payloads is stated nowhere: free bytes (log 21). -/
def State.startSnapshot (s : State) : State :=
  if !s.pair.paired || !s.pair.owner || s.pfr.fenced then s
  else
    let s := s.pairSend 7 [1]
    let s := s.regs.vals.foldl (fun s e => if mirroredReg e.1 then s.pairSend 6 (leBytes 4 e.1 ++ leBytes 4 e.2.toNat) else s) s
    let s := s.hqi.qps.foldl (fun s _ => (s.pairSend 5 (Config.freeBytes s.free 64)).draw) s
    let last := s.pfr.pseq
    ({ s with pfr.snap := some last } : State).pairSend 7 [2]

/-- The fence of unit `u` is released, its record closed (R405, R413); a fence request still set keeps it. -/
def State.releaseUnit (s : State) (u : Nat) : State :=
  if !bitOf s.flt.fenced.toNat u then s
  else
    let s : State := { s with flt.fenced := s.flt.fenced &&& ~~~(1#64 <<< u) }
    if u < 4 then
      let s := s.modAct u (fun a => if a.st = .fenced then { a with st := .parked } else a)
      s.unparkFree u
    else if u = 4 then
      let s : State := { s with spn.fenced := false, spn.st := if s.spn.st = .fault then .off else s.spn.st }
      if s.spn.st = .off ∧ s.flag 0x1C00 31 then s.requestSpin else s
    else if u = 5 then { s with atb.fenced := false }
    else if 24 ≤ u ∧ u < 29 then
      s.modCtx (u - 24) (fun c => if c.st = .halted then c else { c with initPend := true })
    else if u = 34 then
      { s with map.fenced := false, map.lines := s.map.lines.map (fun e => (e.1, none)), map.fills := [] }
    else if 36 ≤ u ∧ u < 40 then
      if s.flag 0x3400 (u - 32) || !s.domainOn 4 then s
      else (s.modEngine (u - 36) (fun e => { e with fenced := false })).cmpAllFenced
    else if 40 ≤ u ∧ u < 44 then
      if s.flag 0x3800 (u - 40) || s.sec.error then s
      else { s with cry.fenced := s.cry.fenced &&& ~~~(1#4 <<< (u - 40)) }
    else if u = 44 then if s.flag 0x3C00 0 then s else { s with xtp.fenced := false }
    else if 48 ≤ u ∧ u < 53 then s.restartPort (u - 48)
    else if u = 53 then (List.range 5).foldl (fun s n => s.restartPort n) s
    else if u = 54 then { s with pfr.fenced := false }.startSnapshot
    else if u = 61 then { s with zon.jstop := s.spn.pfailLow }
    else s

/-- STOP holds while a source whose class, or whose unit's fence, acts as STOP has its status bit set (R404, R406,
R407). -/
def State.stopHeld (s : State) : Bool :=
  (setBits 128 s.flt.status.toNat).any (fun n =>
    decide (5 ≤ s.srcClass n) || (decide (3 ≤ s.srcClass n) && stopUnit (srcUnit n)))

/-- STOP ends: every actuator not otherwise fenced unparks (R97, R406). -/
def State.endStop (s : State) : State :=
  if s.flt.stop && !s.stopHeld then
    (List.range 4).foldl (fun s n => s.unparkFree n) { s with flt.stop := false }
  else s

/-- Record slot `i` closes when none of its sources has its status bit: event 0xB002, the slot is freed (R413). -/
def State.closeRec (s : State) (i : Nat) : State :=
  match s.rec? i with
  | none => s
  | some r =>
    if r.sources &&& s.flt.status != 0 then s
    else
      ({ s with flt.recs := tset s.flt.recs i none } : State).event 0xB002 1
        [r.unit.toNat, r.primary.toNat, r.mcount.toNat, r.ccount.toNat,
         (s.nv2.secs.toNat + 2 ^ 24 - r.secs.toNat) % 2 ^ 24]

/-- A write of ones clears status bits (R413): records close, causes that persist raise new faults, units without an open
record are released, STOP ends where nothing holds it. -/
def State.clearStatus (s : State) (v : BitVec 128) : State :=
  let hit := setBits 128 (s.flt.status &&& v).toNat
  let mask := v &&& s.flt.status
  let s : State := { s with flt.status := s.flt.status &&& ~~~mask, flt.raw := s.flt.raw &&& ~~~v }
  let s := (List.range 32).foldl (fun s i => s.closeRec i) s
  let s := hit.foldl (fun s n => if s.causeNow n then raise n s else s) s
  let s := (setBits 64 s.flt.fenced.toNat).foldl (fun s u =>
    let held := (List.range 32).any (fun i => match s.rec? i with
      | some r => (setBits 128 r.sources.toNat).any (fun n => srcUnit n == u)
      | none => false)
    if held then s else s.releaseUnit u) s
  s.endStop.setPin

end Sys2Proof.Machine
end

