-- ==== Sys2Proof/Machine/HostIo.lean ====
section
/-! DEFINITION. Reaching host memory: the gateway (R274, R277, R345), data pointers (R268), replies and write data
(R282, R283), doorbell page and descriptor reads (R277 to R280). -/
namespace Sys2Proof.Machine

open Sys2Proof

/-! ### Transfers of a command (R268, R292, R293) -/

/-- Transfer length of a command in bytes (R292, R293). -/
def Cmd.len (c : Cmd) : Nat :=
  let o := c.opc.toNat
  if o = 0x01 then 4096
  else if o = 0x04 ∨ o = 0x09 ∨ o = 0x0A ∨ o = 0x0D ∨ o = 0x0F ∨ o = 0x24 then c.count.toNat
  else if o = 0x05 then 8 * c.count.toNat
  else if o = 0x20 ∨ o = 0x21 ∨ o = 0x22 ∨ o = 0x28 ∨ o = 0x29 then 4096 * c.count.toNat
  else 0
/-- The command's list in host memory, address and length: a page list or an SGL; none where it needs none (R268). -/
def Cmd.list (c : Cmd) : Option (Nat × Nat) :=
  if c.len = 0 then none
  else if c.sgl then some (c.dptr0.toNat, 16 * (c.dptr1.toNat % 65536))
  else if 4096 < c.len then some (c.dptr1.toNat, 8 * (ceilDiv c.len 4096 - 1))
  else none
/-- Byte offset of a data pointer that breaks R268. -/
def Cmd.badPtr (c : Cmd) : Option Nat :=
  let p := c.dptr0.toNat
  if c.len = 0 then none
  else if c.sgl then
    if p % 16 ≠ 0 then some 8
    else if 1 ≤ c.dptr1.toNat ∧ c.dptr1.toNat ≤ 1024 then none else some 16
  else if c.len < 4096 then (if p % 4 ≠ 0 ∨ 4096 < p % 4096 + c.len then some 8 else none)
  else if p % 4096 ≠ 0 then some 8
  else if 4096 < c.len ∧ c.dptr1.toNat % 8 ≠ 0 then some 16
  else none
/-- Host segments of a command whose list reads `l`; the offset of the pointer where the list breaks R268. -/
def Cmd.segsOf (c : Cmd) (l : List Byte) : Except Nat (List (BitVec 64 × Nat)) :=
  if c.len = 0 then .ok []
  else if c.sgl then
    let es := (List.range (c.dptr1.toNat % 65536)).map (fun i => (leAt l (16 * i) 8, leAt l (16 * i + 8) 4, leAt l (16 * i + 12) 4))
    if es.all (fun e => e.1 % 4 == 0 && e.2.1 % 4 == 0 && decide (4 ≤ e.2.1) && e.2.2 == 0) &&
       (es.foldl (fun a e => a + e.2.1) 0) == c.len
    then .ok (es.map (fun e => (BitVec.ofNat 64 e.1, e.2.1))) else .error 8
  else if c.len ≤ 4096 then .ok [(c.dptr0, c.len)]
  else
    let ps := c.dptr0.toNat :: (List.range (ceilDiv c.len 4096 - 1)).map (fun i => leAt l (8 * i) 8)
    if ps.all (fun p => p % 4096 == 0)
    then .ok ((List.range ps.length).map (fun i => (BitVec.ofNat 64 ((ps[i]?).getD 0), min 4096 (c.len - 4096 * i))))
    else .error 16

/-- Read data written to the host segments in order. -/
def State.writeSegs (s : State) : List (BitVec 64 × Nat) → List Byte → State
  | [], _ => s
  | (a, n) :: t, l => if l = [] then s else (s.hostWrite a.toNat (l.take n)).writeSegs t (l.drop n)

/-- A command answers with data for the host: the data goes out, then the completion is committed (R283). Where its list has
not arrived, both wait for it. -/
def State.reply (s : State) (c : Cmd) (status result : Nat) (data : List Byte) : State :=
  match s.cmd? c.qp.val c.tag with
  | none => s
  | some c =>
    if c.need = 1 then s.modCmd c.qp.val c.tag (fun x => { x with fin := some (status, result), data := data })
    else (s.writeSegs c.segs data).finish c.qp c.tag status result

/-- Chunk buffers that writes may take: all but the 1,024 only reads may take (R230, R231). -/
def writePool : Nat := 158687 - 1024
/-- Chunk buffers of a unit. -/
def CUnit.bufs (u : CUnit) : Nat := (u.count + 30) / 16
/-- Chunk buffers that units hold: those whose data is in, and those whose data is being read (R231). -/
def State.poolUsed (s : State) : Nat :=
  (s.cmp.units.filter (fun u => u.data != [] ||
    s.hqi.cmds.any (fun c => c.csec == some u.csec && c.need == 2))).foldl (fun n u => n + u.bufs) 0

/-- An admitted write reads its data once its list is in and chunk buffers are free (R231, R283). A peer's append has its data from
its session (R352). -/
def State.startData (s : State) (q : Fin 128) (t : BitVec 16) : State :=
  match s.cmd? q.val t with
  | none => s
  | some c =>
    match s.cmp.units.find? (fun u => some u.csec == c.csec) with
    | none => s
    | some u =>
      if c.peer then
        let l := match s.fab.pm.find? (fun x => !x.isSrc && x.cmd == some (q, t)) with | some x => x.data | none => []
        { s with cmp.units := s.cmp.units.map (fun v => if v.csec = u.csec then { v with data := l, dataIn := true } else v) }
      else if c.need ≠ 0 ∨ u.dataIn ∨ writePool < s.poolUsed + u.bufs then s
      else
        let s := s.modCmd q.val t (fun x => { x with need := 2, data := [] })
        c.segs.foldl (fun s g => s.hostRead (.data q t) g.1.toNat g.2) s

/-- Writes that wait for chunk buffers read their data where some are free (R231). -/
def State.wakeData (s : State) : State :=
  s.hqi.cmds.foldl (fun s c => if isWriteOpc c.opc.toNat && c.csec.isSome && c.need == 0 then s.startData c.qp c.tag else s) s

/-- A read of write data, a page list or an SGL failed: INTERNAL with RESULT 1 (R282). -/
def State.hostFail (s : State) (c : Cmd) : State :=
  let a := match c.list with
    | some (a, _) => if c.need = 1 then a else c.dptr0.toNat
    | none => c.dptr0.toNat
  let s := (s.setW1c 0x0404 6).eventSrc 0x7004 2 107 [c.qp.val, c.tag.toNat, c.opc.toNat, a % 2 ^ 32, a / 2 ^ 32]
  raise 107 (s.endCmd c stInternal 1).wakeData

/-! ### Rings (R271, R277 to R281) -/

/-- Depth of a ring. -/
def Qp.depth (q : Qp) : Nat := 2 ^ q.log2.toNat

/-- A queue pair goes to ERROR: DB_ERR, HQI_QP_ERR, event 0x7002 (R281). -/
def State.qpError (s : State) (q : Nat) (cause v : Nat) : State :=
  let s := s.modQp q (fun x => { x with st := .error, reading := none })
  let s : State := { s with hqi.qpErr := BitVec.ofNat 32 (q * 65536 + cause) }
  (s.setW1c 0x0404 5).event 0x7002 3 [q, cause, v]

/-- Entries one read takes: at most 8, not past the ring's end or SQ_TAIL (R278). -/
def Qp.take (q : Qp) : Nat :=
  let d := q.depth
  min 8 (min (d - q.fetch) ((q.tail + d - q.fetch) % d))

/-- A descriptor read of queue pair `q` begins, where it has new entries and the module holds fewer than 4,096 (R278). -/
def State.fetchQp (s : State) (q : Fin 128) : State :=
  let x := s.qp q.val
  let n := min x.take (4096 - (s.hqi.cmds.filter (fun c => !c.peer)).length)
  if x.st = .active ∧ x.reading = none ∧ 0 < n ∧ !s.hqi.fenced ∧ !s.hqi.noFetch ∧ !s.shadow ∧ s.ready 4 then
    let s := s.modQp q.val (fun x => { x with reading := some n })
    let s := s.hostRead (.desc q) (x.sq.toNat + 64 * x.fetch) (64 * n)
    if q.val = 0 then s else { s with hqi.rr := q.val }
  else s

/-- One round of fetching: QP0, then QP1 to QP127 in turn after the last served (R279). -/
def State.fetchAll (s : State) : State :=
  let r := s.hqi.rr
  let ord := 0 :: (List.range 127).map (fun i => (r + i) % 127 + 1)
  ord.foldl (fun s q => match (List.finRange 128).find? (fun n => n.val == q) with
    | some n => s.fetchQp n
    | none => s) s

/-- Posted completions of queue pair `q` find room in its CQ (R271). -/
def State.cqRoom (s : State) (q : Nat) : Bool :=
  let x := s.qp q
  (x.cqTail + 1) % x.depth != x.cqHead
/-- A completion that may go now: the oldest of each queue pair with room, its acknowledgement in (R271, R283, R369). -/
def State.nextPost (s : State) : Option Post :=
  if s.shadow || s.pfr.takeStep == 1 then none
  else s.hqi.posts.find? (fun p => s.cqRoom p.qp.val && p.need.isNone &&
    ((s.qp p.qp.val).st == .active || (s.qp p.qp.val).st == .error || (s.qp p.qp.val).st == .deleting))

end Sys2Proof.Machine
end

