-- ==== Sys2Proof/Machine/Journal.lean ====
section
/-! DEFINITION. The commit journal (R216 to R218), checkpoints (R217, R255), the Relocation Table (R187 to R191). -/
namespace Sys2Proof.Machine

open Sys2Proof

/-! ### The journal -/

/-- The 64 bytes of a record (R216). -/
def recBytes (r : JRec) : List Byte :=
  let b := [r.jtype, r.flags] ++ leBytes 2 0 ++ leBytes 4 r.csec.toNat ++ leBytes 4 r.zone.toNat ++ leBytes 4 r.firstSbi.toNat ++
    leBytes 4 r.locSbi.toNat ++ leBytes 4 r.nextSbi.toNat ++ leBytes 4 r.wp.toNat ++ leBytes 2 r.firstChunk.toNat ++
    [r.nchunk] ++ [0] ++ leBytes 8 r.streamEnd.toNat ++ leBytes 4 r.tgn.toNat ++ leBytes 4 r.wrev.toNat ++
    leBytes 4 r.jseq.toNat ++ leBytes 8 0
  b ++ leBytes 4 (crc32c b)
/-- A record's bytes read back (R216). -/
def parseRec (b : List Byte) : JRec :=
  ⟨BitVec.ofNat 8 (leAt b 0 1), BitVec.ofNat 8 (leAt b 1 1), BitVec.ofNat 32 (leAt b 4 4), BitVec.ofNat 32 (leAt b 8 4),
   BitVec.ofNat 32 (leAt b 12 4), BitVec.ofNat 32 (leAt b 16 4), BitVec.ofNat 32 (leAt b 20 4), BitVec.ofNat 32 (leAt b 24 4),
   BitVec.ofNat 16 (leAt b 28 2), BitVec.ofNat 8 (leAt b 30 1), BitVec.ofNat 64 (leAt b 32 8), BitVec.ofNat 32 (leAt b 40 4),
   BitVec.ofNat 32 (leAt b 44 4), BitVec.ofNat 32 (leAt b 48 4)⟩
/-- Does a record's RCRC check (R216, R221)? -/
def recOk (b : List Byte) : Bool := b.length == 64 && leAt b 60 4 == crc32c (b.take 60)

/-- Is a JSEQ covered by the newest checkpoint (R217)? -/
def State.covered (s : State) (j : Word) : Bool :=
  match s.nv.ckpt with | some c => decide (j.toNat ≤ c.jseq.toNat) | none => false
/-- Records the journal holds. -/
def State.jrecs (s : State) : List JRec := s.nv.journal.filterMap (·.2)
/-- May the slot the next record takes be used (R217)? -/
def State.slotFree (s : State) : Bool :=
  match tget none s.nv.journal s.nv.jslot with
  | none => true
  | some r => s.covered r.jseq &&
    (r.jtype != 2 || (!s.zon.staged.contains r.csec &&
      s.jrecs.all (fun t => !(t.jtype == 3 && t.firstSbi == r.jseq) || s.covered t.jseq)))
/-- A commit has to wait for a slot: WAITED and event 0x6202, once for each wait (R217). -/
def State.jwait (s : State) : State :=
  if bitOf (s.w1c 0x3480).toNat 17 then s else ((s.setW1c 0x3480 17).count 170 1).event 0x6202 2 [s.zon.unchk]

/-- A checkpoint starts where none is being written and some actuator is ready; it takes the tables as they stand (R217,
R252, R255). -/
def State.startCkpt (s : State) : State :=
  if s.zon.ckptBusy.isSome || bitsOf s.pwr.ready.toNat 12 4 == 0 then s
  else { s with zon.ckptBusy := some ⟨s.nv.jseq - 1, s.cmp.nextCsec, s.zon.zones, s.zon.fill, s.zon.stage⟩ }

/-- A record is in the next slot: it takes the next JSEQ; 768 records beyond the newest checkpoint start one (R216, R217).
In a pair it goes to the partner's journal too (R215, R369). -/
def State.putRec (s : State) (r : JRec) : State :=
  let fl := if s.mirroring then r.flags ||| 4 else r.flags
  let r := { r with jseq := s.nv.jseq, wrev := s.atb.rev, flags := fl }
  let s : State := { s with
    nv.journal := tset s.nv.journal s.nv.jslot (some r), nv.jslot := (s.nv.jslot + 1) % 1024, nv.jseq := s.nv.jseq + 1
    zon.unchk := s.zon.unchk + 1, zon.csec := r.csec }
  let s := (s.count 169 1).mirror 4 (recBytes r)
  if 768 ≤ s.zon.unchk then s.startCkpt else s

/-- A record of a type with the fields all zero that R216 does not name. -/
def JRec.of (ty : Nat) (act : Nat) : JRec :=
  ⟨BitVec.ofNat 8 ty, BitVec.ofNat 8 (act * 16), 0, 0, 0, 0, 0, 0, 0, 0, 0, 0, 0, 0⟩

/-- Writing a record that verifies at its first or second try, or fails both (R218): source 121, event 0x6201, and no
further record. -/
def State.tryRec (s : State) (r : JRec) (ok1 ok2 : Bool) : State × Bool :=
  if ok1 then (s.putRec r, true)
  else
    let k := s.nv.jslot
    let s : State := { s with nv.jslot := (k + 1) % 1024 }
    if ok2 then (s.putRec r, true)
    else (raise 121 (({ s with zon.jstop := true } : State).event 0x6201 3 [s.nv.jslot, r.csec.toNat]), false)

/-! ### The Relocation Table -/

/-- Room in the table (R191). -/
def State.rltRoom (s : State) : Bool := decide (s.rcv.rlt.length < 65536)
/-- An entry in its place by HEAD, TRACK, POS (R187). -/
def rltInsert (e : RltEnt) : List RltEnt → List RltEnt
  | [] => [e]
  | x :: t => if rltKey e < rltKey x then e :: x :: t else if rltKey e = rltKey x then e :: t else x :: rltInsert e t
/-- FULL is set and event 0x4101 recorded (R191). -/
def State.rltFull (s : State) : State := (s.setW1c 0x1780 31).event 0x4101 3 [s.rcv.rlt.length, s.rcv.refused]

/-- An entry is made (R188, R189, R191): a second one for a position replaces the first only when it is active or the first
is pending; a full table refuses it, counted. Answers whether it stands. -/
def State.rltAdd (s : State) (e : RltEnt) : State × Bool :=
  let old := s.rcv.rlt.find? (fun x => rltKey x == rltKey e)
  match old with
  | some x =>
    if !e.pending || x.pending then
      ({ s with rcv.rlt := rltInsert e s.rcv.rlt, rcv.clean := tset s.rcv.clean (e.head.val / 16) false }, true)
    else (s, true)
  | none =>
    if !s.rltRoom then
      let s : State := { s with rcv.refused := s.rcv.refused + 1 }
      (if e.cause = 3 ∨ e.cause = 7 then s.rltFull else s, false)
    else
      let s : State := { s with
        rcv.rlt := rltInsert e s.rcv.rlt, rcv.clean := tset s.rcv.clean (e.head.val / 16) false }
      let n := s.rcv.rlt.length
      let s := if n = 58982 then (s.setW1c 0x1780 30).event 0x4100 2 [n] else s
      (if n = 65536 then s.rltFull else s, true)

/-- A SKIP entry of one position (R187). -/
def skipEnt (head : Fin 64) (track pos : Nat) (cause : Nat) (pending : Bool) : RltEnt :=
  ⟨head, false, pending, cause, 0xFF, BitVec.ofNat 24 track, 0, BitVec.ofNat 16 pos, 0⟩

/-- Pending entries of a group become active when it is freed (R189). -/
def State.rltFree (s : State) (tgn : Nat) : State :=
  match s.recs.geom with
  | none => s
  | some g =>
    let h := g.set (tgnSet tgn)
    let t := groupTracks h.heads.length
    let inG := fun (e : RltEnt) => h.heads.contains e.head.val && decide (tgnTrk tgn ≤ e.track.toNat) &&
      decide (e.track.toNat < tgnTrk tgn + t)
    if s.rcv.rlt.any (fun e => inG e && e.pending) then
      { s with
        rcv.rlt := s.rcv.rlt.map (fun e => if inG e then { e with pending := false } else e)
        rcv.clean := tset s.rcv.clean (tgnAct tgn) false }
    else s

/-- The actuator's relocation record goes to media (R189). -/
def State.rltWrite (s : State) (act : Nat) : State := 
  { s with rcv.clean := tset s.rcv.clean act true, recs.gen := s.recs.gen + 1 }

end Sys2Proof.Machine
end

