-- ==== Sys2Proof/Machine/Stream.lean ====
section
/-! DEFINITION. The write side of the chunk path: chunks and engines (R196 to R202), lanes (R205), packing (R206 to R208),
final buffers (R209), track groups (R94, R177, R178, R181), the work the planner may place (R19). -/
namespace Sys2Proof.Machine

open Sys2Proof

/-- A head number. -/
def fin64 (n : Nat) : Fin 64 := ⟨n % 64, Nat.mod_lt _ (by decide)⟩
/-- An actuator number. -/
def fin4 (n : Nat) : Fin 4 := ⟨n % 4, Nat.mod_lt _ (by decide)⟩
/-- A channel number. -/
def fin16 (n : Nat) : Fin 16 := ⟨n % 16, Nat.mod_lt _ (by decide)⟩
/-- Conventional blocks in place of a zone, with the conventional block number in place of an SBI. -/
def convZone : Nat := 262144
/-- The staging band of actuator `a` in place of a zone, with the staging position in place of an SBI. -/
def stageZone (a : Nat) : Nat := 262145 + a
/-- The system area of actuator `a` in place of a zone, with the system block number in place of an SBI. -/
def sysZone (a : Nat) : Nat := 262149 + a

/-! ### Work -/

/-- In ACTIVE_IDLE, work given to the planner returns the part to ACTIVE (R439). -/
def State.wakeIdle (s : State) : State :=
  if s.pwr.st = .activeIdle then
    ({ s with pwr.st := .active, pwr.on := s.pwr.on ||| 0x10#14 } : State).event 0x1000 1 [1, 0, 3] |>.setReady 8 true |>.floodLsa
  else s

/-- An item of work becomes eligible (R19, R22). -/
def State.addWork (s : State) (w : Work) : State :=
  { s with rpl.work := s.rpl.work ++ [{ w with num := s.rpl.next }], rpl.next := s.rpl.next + 1 }.wakeIdle

/-- Where a block of a zone, the conventional region or a staging band lies, for reading or for writing: TGN, head, track,
position (R53, R68, R69, R190). -/
def State.placeFor (s : State) (wr : Bool) (z sbi : Nat) : Option (Word × Nat × Nat × Nat) :=
  if z < convZone then (s.locate z sbi).map (fun p => (p.1, p.2.2))
  else if z = convZone then (s.convAt wr sbi).map (fun p => (BitVec.ofNat 32 p.2.2.2, p.1, p.2.1, p.2.2.1))
  else if z < sysZone 0 then ((s.stageOrder (z - stageZone 0))[sbi]?).map (fun p => (BitVec.ofNat 32 p.2.2.2, p.1, p.2.1, p.2.2.1))
  else none

/-- Where a block is read. -/
def State.place (s : State) (z sbi : Nat) : Option (Word × Nat × Nat × Nat) := s.placeFor false z sbi

/-- A piece of work on one block, not yet numbered. -/
def mkWork (cls : WorkClass) (kind : Nat) (zone : Option Nat) (sbi : Nat) (p : Word × Nat × Nat × Nat) (final : Bool) : Work :=
  { num := 0, cls := cls, act := fin4 (p.2.1 / 16), head := fin64 p.2.1, track := BitVec.ofNat 24 p.2.2.1
    pos := BitVec.ofNat 12 p.2.2.2, kind := BitVec.ofNat 4 kind, zone := zone, sbi := sbi, tgn := p.1, placed := false
    final := final, mem := none }

/-- Is there work on this block that writes, or that reads? -/
def State.hasWork (s : State) (z sbi : Nat) (wr : Bool) : Bool :=
  s.rpl.work.any (fun w => w.zone == some z && w.sbi == sbi && w.mem.isNone && isWriteKind w.kind.toNat == wr)

/-- Every laid block that has a position and must still be written gets its work (R19, R21). -/
def State.makeWorks (s : State) : State :=
  s.cmp.blks.foldl (fun s b =>
    if b.ok || b.replaced || s.hasWork b.zone b.sbi true then s
    else match s.placeFor true b.zone b.sbi with
      | some p => s.addWork (mkWork .host 2 (some b.zone) b.sbi p b.final)
      | none => s) s

/-- The planned slot that serves a work item: channel, bank, index. -/
def State.slotOfWork (s : State) (w : Nat) : Option (Nat × Bool × Nat) :=
  (List.range 32).findSome? (fun k =>
    ((s.bank k).findIdx? (fun sl => sl.work == w && sl.unstarted && sl.e.kind.toNat != 3)).map
      (fun i => (k / 2, k % 2 == 1, i)))

/-! ### Lanes and engines -/

/-- Data units go to free lanes, oldest first (R205). -/
def State.startLanes (s : State) : State :=
  (List.range 4).foldl (fun s k =>
    if bitOf s.cry.fenced.toNat k || s.cry.lane.any (fun e => e.1 == k) then s
    else match s.cry.queue with
      | [] => s
      | u :: t => { s with cry.lane := tset s.cry.lane k u, cry.queue := t }) s
/-- A data unit waits for a lane. -/
def State.queueUnit (s : State) (z sbi : Nat) (dec : Bool) : State :=
  { s with cry.queue := s.cry.queue ++ [(z, sbi, dec)] }.startLanes

/-- No engine can take a chunk: all fenced, or PD_CMP off (R202, R436). -/
def State.noEngine (s : State) : Bool := s.cmpOut || !s.domainOn 4

/-- Is a chunk of a unit in some engine? -/
def State.inEngine (s : State) (z c : Nat) (cs : Word) : Bool :=
  s.cmp.eng.any (fun e => e.2.job == .compress z c cs)

/-- Free engines take work: a decompression first, then compressions in order of admission and of chunk (R200). -/
def State.startEngines (s : State) : State :=
  (List.range 4).foldl (fun s k =>
    let e := s.engine k
    if e.fenced || e.job != .none || !s.domainOn 4 then s
    else match s.cmp.inflates with
      | (z, c, q, t) :: r => { s with cmp.inflates := r }.modEngine k (fun e => { e with job := .inflate z c q t })
      | [] =>
        match s.cmp.jobs.find? (fun j => j.slen.isNone && !s.inEngine j.zone j.chunk j.csec) with
        | some j => s.modEngine k (fun e => { e with job := .compress j.zone j.chunk j.csec })
        | none => s) s

/-- A chunk is stored raw: NBLK × 4,096 bytes (R199). -/
def rawJob (j : ChunkJob) : ChunkJob := { j with slen := some (4096 * j.nblk), raw := true, effort := 0 }
/-- With no engine every new chunk is stored raw, and RAW_FORCED is set (R202, R436). -/
def State.forceRaw (s : State) : State :=
  if s.noEngine then
    let n := (s.cmp.jobs.filter (fun j => j.slen.isNone)).length
    if n = 0 then s
    else ({ s with cmp.jobs := s.cmp.jobs.map (fun j => if j.slen.isNone then rawJob j else j) } : State).setW1c 0x3404 0
      |>.count 160 n
  else s

/-- Unit `cs`. -/
def State.unit? (s : State) (cs : Word) : Option CUnit := s.cmp.units.find? (fun u => u.csec == cs)
/-- Unit `cs` changed. -/
def State.modUnit (s : State) (cs : Word) (f : CUnit → CUnit) : State :=
  { s with cmp.units := s.cmp.units.map (fun u => if u.csec = cs then f u else u) }
/-- The outstanding command of unit `cs`. -/
def State.unitCmd (s : State) (cs : Word) : Option Cmd :=
  s.hqi.cmds.find? (fun c => isWriteOpc c.opc.toNat && c.csec == some cs)
/-- A write's command completes SUCCESS; ZONE APPEND answers its first block (R215, R308). -/
def State.unitDone (s : State) (cs : Word) : State :=
  match s.unitCmd cs with
  | some c => s.finish c.qp c.tag stSuccess (if c.opc = 0x22 then c.addr.toNat else 0)
  | none => s

/-! ### Forming chunks (R196 to R198, R203) -/

/-- Host block at which a unit begins. -/
def CUnit.first (u : CUnit) : Nat := u.wp - u.count
/-- Blocks of the unit's first chunk that stand before it. -/
def CUnit.lead (u : CUnit) : Nat := u.first % 16
/-- Bytes cut into chunks of 16 blocks. -/
def chunksOf : Nat → List Byte → List (List Byte)
  | 0, _ => []
  | n + 1, l => if l = [] then [] else l.take 65536 :: chunksOf n (l.drop 65536)

/-- The bytes a unit merges before its own: its zone's tail, where it begins partway through a chunk (R197); none while they
are not held. -/
def State.leadBytes (s : State) (u : CUnit) : Option (List Byte) :=
  if u.lead = 0 then some []
  else match (s.zone u.zone).tail with
    | some (c, l) => if c = u.first / 16 ∧ l.length = 4096 * u.lead then some l else none
    | none => none

/-- A zone unit's chunks go to the engines; a write without FUA is then done, its data being in buffer memory (R197, R200,
R215). -/
def State.formZone (s : State) (u : CUnit) : State :=
  match s.leadBytes u with
  | none => s
  | some t =>
    let cs := chunksOf 66 (t ++ u.data)
    let c0 := u.first / 16
    let eff := min u.effort (s.fld 0x3400 0 2)
    let js := (List.range cs.length).map (fun i =>
      let d := (cs[i]?).getD []
      let j : ChunkJob := ⟨u.zone, c0 + i, u.csec, d.length / 4096, BitVec.ofNat 2 eff, none, false,
        BitVec.ofNat 32 (crc32c d), d⟩
      if eff = 0 then rawJob j else j)
    let last := (cs.getLast?).getD []
    let s : State := { s with cmp.jobs := s.cmp.jobs ++ js }
    let s := s.modUnit u.csec (fun u => { u with formed := true, firstChunk := c0, nchunk := cs.length })
    let s := s.modZone u.zone (fun z => { z with
      tail := if last.length < 65536 then some (c0 + cs.length - 1, last) else none })
    let s := s.count 168 u.count
    let s := (s.forceRaw).startEngines
    if u.fua then s else s.unitDone u.csec

/-- Staging positions of actuator `a` that uncopied units hold (R220). -/
def State.stageHeld (s : State) (a : Nat) : List Nat :=
  let r := (s.stageOrder a).length
  ((s.cmp.units.filter (fun u => u.conv && u.zone == a && u.formed)).map (fun u =>
    (List.range (u.count + 1)).map (fun i => (u.firstSbi + i) % max r 1))).flatten

/-- Payload of a staging descriptor (R69). -/
def descBytes (first n : Nat) : List Byte :=
  ((List.range 1024).map (fun e => leBytes 4 (if e < n then first + e else 0xFFFFFFFF))).flatten

/-- The ring of actuator `a` enters the groups that begin among `n` positions from `c` on: their pending entries become active
(R189). -/
def State.enterStage (s : State) (a c n : Nat) : State :=
  let o := s.stageOrder a
  let tgn := fun (p : Nat) => (o[p]?).map (fun x => x.2.2.2)
  (List.range n).foldl (fun s i =>
    let p := (c + i) % max o.length 1
    match tgn p with
    | some t => if p = 0 ∨ tgn (p - 1) ≠ some t then
        (let s' := s.rltFree t
         if tget true s'.rcv.clean a then s' else s'.rltWrite a) else s
    | none => s) s

/-- A conventional unit takes its staging positions, data then descriptor, in ring order; a ring that would wrap onto
uncopied positions holds it, and it then completes only at its commit (R69, R219, R220). -/
def State.formConv (s : State) (u : CUnit) : State :=
  let a := u.zone
  let r := (s.stageOrder a).length
  let c := tget 0 s.zon.stage a
  let held := s.stageHeld a
  if r < u.count + 1 ∨ ((List.range (u.count + 1)).any (fun i => held.contains ((c + i) % max r 1))) then
    s.modUnit u.csec (fun u => { u with fua := true })
  else
    let s := s.enterStage a c (u.count + 1)
    let r := max (s.stageOrder a).length 1
    let c := c % r
    let bs := (List.range (u.count + 1)).map (fun i =>
      ({ sbi := (c + i) % r, zone := stageZone a, csec := u.csec, loc := decide (i = u.count), link := none, enc := false
         final := false, ok := false, replaced := false, fails := 0, raw := true, chunk := 0
         data := if i = u.count then descBytes u.cblk u.count else (u.data.drop (4096 * i)).take 4096 } : Blk))
    let s : State := { s with
      cmp.blks := s.cmp.blks ++ bs, zon.stage := tset s.zon.stage a ((c + u.count + 1) % r)
      nv2.descs := tset s.nv2.descs u.csec.toNat u.cblk }
    let s := s.modUnit u.csec (fun u => { u with
      formed := true, laid := true, firstSbi := c, locSbi := (c + u.count) % r, nextSbi := (c + u.count) % r + 1 })
    let s := s.count 168 u.count
    let s := bs.foldl (fun s b => s.queueUnit b.zone b.sbi false) s
    if u.fua then s else s.unitDone u.csec

/-- Units whose data is in go to the engines, of one zone or staging band in order of admission (R200, R214). -/
def State.formUnits (s : State) : State :=
  s.cmp.units.foldl (fun s u =>
    let early := s.cmp.units.any (fun v => v.zone == u.zone && v.conv == u.conv && !v.formed && v.dead.isNone &&
      decide (v.csec.toNat < u.csec.toNat))
    if u.formed || !u.dataIn || u.dead.isSome || early then s
    else if u.conv then s.formConv u else s.formZone u) s

/-! ### Packing (R206 to R208) -/

/-- A block takes the next stream position of its unit's zone. -/
def State.newBlk (s : State) (u : CUnit) (loc : Bool) (link : Option Nat) (raw : Bool) (chunk : Nat) (data : List Byte) :
    State :=
  let b : Blk := { sbi := (s.zone u.zone).nextPos, zone := u.zone, csec := u.csec, loc := loc, link := link, enc := false
                   final := false, ok := false, replaced := false, fails := 0, raw := raw, chunk := chunk, data := data }
  { s with cmp.blks := s.cmp.blks ++ [b] }.modZone u.zone (fun z => { z with nextPos := z.nextPos + 1 })

/-- The unit's data block that still has room. -/
def openData (cs : Word) (b : Blk) : Bool := b.csec == cs && !b.loc && b.link.isNone && decide (b.data.length < 4096)

/-- Bytes join the unit's open data block, which goes for encryption once full. -/
def State.fillData (s : State) (u : CUnit) (l : List Byte) : State :=
  let hit := s.cmp.blks.find? (openData u.csec)
  let s : State := { s with cmp.blks := s.cmp.blks.map (fun b => if openData u.csec b then { b with data := b.data ++ l } else b) }
  match hit with
  | some b => if b.data.length + l.length = 4096 then s.queueUnit u.zone b.sbi false else s
  | none => s

/-- Stored bytes go into the payload stream at the cursor (R206). -/
def State.putBytes (s : State) (u : CUnit) (chunk : Nat) (raw : Bool) : Nat → List Byte → State
  | 0, _ => s
  | fuel + 1, l =>
    if l = [] then s
    else
      let cur := (s.zone u.zone).cursor % 4096
      let n := min (4096 - cur) l.length
      let s := if cur = 0 then
          (s.newBlk u false none raw chunk []).fillData u (l.take n)
        else s.fillData u (l.take n)
      (s.modZone u.zone (fun z => { z with cursor := z.cursor + n })).putBytes u chunk raw fuel (l.drop n)

/-- One locator entry (R56). -/
def locBytes (l : Locator) : List Byte :=
  leBytes 8 l.streamOfs ++ leBytes 4 l.clen ++ leBytes 4 l.chunk ++ leBytes 1 (128 + 2 * l.effort.toNat + b2n l.raw) ++
  leBytes 1 l.nblk ++ leBytes 2 0 ++ leBytes 4 l.lcrc.toNat ++ leBytes 4 l.prevLb.toNat ++ leBytes 4 l.csec.toNat ++
  leBytes 32 0

/-- SBI of the zone's previous locator block, laid or committed; 0xFFFF_FFFF for the first (R56). -/
def State.prevLoc (s : State) (z : Nat) : Nat :=
  let l := (s.cmp.blks.filter (fun b => b.zone == z && b.loc && b.link.isNone)).map (·.sbi)
  (l.foldl (fun a x => some (max x (a.getD 0))) (none : Option Nat)).getD ((s.zone z).locHead.getD 0xFFFFFFFF)

/-- A locator block of the unit lists the chunks placed since its previous one (R207). -/
def State.putLocator (s : State) (u : CUnit) : State :=
  let p := s.prevLoc u.zone
  let sbi := (s.zone u.zone).nextPos
  let fresh := u.locs.drop (u.locs.length - u.sinceLoc)
  let new := fresh.map (fun l => { l with prevLb := BitVec.ofNat 32 p, sbi := sbi })
  let s := s.newBlk u true none false ((fresh.head?.map (·.chunk)).getD 0) (padTo 4096 ((new.map locBytes).flatten))
  let s := s.modUnit u.csec (fun u => { u with
    sinceLoc := 0, locSbi := sbi, locs := u.locs.take (u.locs.length - u.sinceLoc) ++ new })
  s.queueUnit u.zone sbi false

/-- The layout of a unit ends: its last data block is filled with zeros, its last locator block placed (R207). -/
def State.endLayout (s : State) (u : CUnit) : State :=
  let cur := (s.zone u.zone).cursor % 4096
  let s := if cur = 0 then s else
    (s.fillData u (List.replicate (4096 - cur) 0)).modZone u.zone (fun z => { z with cursor := z.cursor + (4096 - cur) })
  let s := match s.unit? u.csec with
    | some u => if u.sinceLoc = 0 then s else s.putLocator u
    | none => s
  let z := s.zone u.zone
  s.modUnit u.csec (fun u => { u with laid := true, reserved := 0, nextSbi := z.nextPos, streamEnd := z.cursor })

/-- The packer places the chunks of the unit at the front of its zone, in chunk order, while each has its stored length
(R206, R207). -/
def State.packUnit (s : State) (cs : Word) : Nat → State
  | 0 => s
  | fuel + 1 =>
    match s.unit? cs with
    | none => s
    | some u =>
      if u.laid || !u.formed then s
      else if u.placed = u.nchunk then s.endLayout u
      else match s.cmp.jobs.find? (fun j => j.csec == cs && j.chunk == u.firstChunk + u.placed) with
        | none => s
        | some j => match j.slen with
          | none => s
          | some n =>
            let z := s.zone u.zone
            let u := if u.placed = 0 then { u with firstSbi := z.nextPos } else u
            let l : Locator := ⟨j.chunk, z.cursor, n, j.raw, j.effort, j.nblk, j.lcrc, 0, cs, 0⟩
            let s := s.modUnit cs (fun v => { v with
              firstSbi := u.firstSbi, placed := v.placed + 1, sinceLoc := v.sinceLoc + 1, locs := v.locs ++ [l] })
            let bytes := if j.raw then j.data else padTo n (Config.deflate j.effort.toNat j.data)
            let s := s.putBytes u j.chunk j.raw (n + 1) bytes
            let s : State := { s with cmp.jobs := s.cmp.jobs.filter (fun k => !(k.csec == cs && k.chunk == j.chunk)) }
            let s := match s.unit? cs with
              | some v => if v.sinceLoc = 64 ∧ v.placed < v.nchunk then s.putLocator v else s
              | none => s
            s.packUnit cs fuel

/-- Every zone's front unit is packed as far as it goes. -/
def State.packAll (s : State) : State :=
  s.cmp.units.foldl (fun s u =>
    let early := s.cmp.units.any (fun v => v.zone == u.zone && !v.conv && !v.laid && v.dead.isNone &&
      decide (v.csec.toNat < u.csec.toNat))
    if u.conv || u.laid || u.dead.isSome || early then s else s.packUnit u.csec (u.nchunk + 2)) s

/-! ### Track groups -/

/-- The zone's last group. -/
def Zone.lastGroup (z : Zone) : Option ZGroup := z.groups.getLast?
/-- The zone's group of that TGN changed. -/
def State.modGroup (s : State) (z : Nat) (tgn : Word) (f : ZGroup → ZGroup) : State :=
  s.modZone z (fun x => { x with groups := x.groups.map (fun g => if g.tgn = tgn then f g else g) })
/-- The zone that holds a group. -/
def State.zoneOf (s : State) (tgn : Word) : Option Nat :=
  (s.zon.zones.find? (fun e => e.2.groups.any (fun g => g.tgn == tgn))).map (·.1)
/-- Zone writes go without parity: the XTP is fenced and ALLOW_NOPAR is 1 (R181). -/
def State.allowNopar (s : State) : Bool := s.flag 0x3C00 1

/-- The open group of zone `z` closes (R178): USED is final; contributions of positions never written are removed (R177); its
parity close is queued (R179), where it has parity. -/
def State.closeGroup (s : State) (z : Nat) : State :=
  match (s.zone z).lastGroup with
  | none => s
  | some g =>
    if !g.isOpen then s
    else
      let size := s.groupSize g.tgn.toNat
      let bs := s.cmp.blks.filter (fun b => b.zone == z && decide (g.firstSbi ≤ b.sbi))
      let top := (bs.filter (fun b => b.written)).foldl (fun a b => max a (b.sbi + 1)) (max (s.zone z).nextSbi g.firstSbi)
      let top := if g.firstSbi + size ≤ (s.zone z).nextPos then g.firstSbi + size else top
      let used := min size (top - g.firstSbi)
      let s := bs.foldl (fun s b =>
        if b.final && !b.written && decide (g.firstSbi + used ≤ b.sbi) then s.xtpToggle z b.sbi b.data else s) s
      let par := g.acc.isSome && !g.noPar
      let s := s.modGroup z g.tgn (fun g => { g with isOpen := false, used := used, closing := par })
      if par then { s with zon.closes := s.zon.closes ++ [g.tgn] } else s

/-- A group is handed to zone `z`, its first stream position being `first` (R94, R177, R181, R216): none where no set fits,
no accumulator is free, or the record has no slot. -/
def State.takeGroup (s : State) (z first : Nat) : Option State :=
  let a := (s.zone z).act.val
  let nopar := s.xtp.fenced
  match s.pickGroup a with
  | none => none
  | some (hs, trk) =>
    if (nopar && !s.allowNopar) || s.zon.jstop || !s.slotFree then none
    else
      let acc := if nopar then none else s.freeAcc
      if !nopar && acc.isNone then none
      else
        let tgn : Word := BitVec.ofNat 32 (tgnOf a hs trk)
        let t := match s.recs.geom with | some g => groupTracks (g.set hs).heads.length | none => 0
        let s := match acc with | some k => s.takeAcc k | none => s
        let s := s.modZone z (fun x => { x with groups := x.groups ++ [⟨tgn, first, 0, true, nopar, false, acc, false⟩] })
        let s : State := { s with zon.fill := tset s.zon.fill a (trk + t) }
        let s := s.putRec { JRec.of 5 a with
          zone := BitVec.ofNat 32 z, firstSbi := BitVec.ofNat 32 first, tgn := tgn }
        some (if nopar then (s.setW1c 0x3C04 (16 + a)).event 0x6103 2 [tgn.toNat, z] else s)

/-- The lowest block of zone `z` that has no position yet. -/
def State.unplaced (s : State) (z : Nat) : Option Nat :=
  ((s.cmp.blks.filter (fun b => b.zone == z && (s.locate z b.sbi).isNone)).map (·.sbi)).foldl
    (fun a x => some (min x (a.getD x))) none

/-- The stream of zone `z` takes groups until its blocks have positions (R94, R178, R181). -/
def State.layStream (s : State) (z : Nat) : Nat → State
  | 0 => s
  | fuel + 1 =>
    if (s.zone z).stopped then s
    else match s.unplaced z with
      | none => s
      | some m =>
        let s := match (s.zone z).lastGroup with
          | some g =>
            if g.isOpen && (decide (g.firstSbi + s.groupSize g.tgn.toNat ≤ m) || (s.xtp.fenced && s.allowNopar && !g.noPar))
            then s.closeGroup z else s
          | none => s
        if ((s.zone z).lastGroup.map (·.isOpen)).getD false then s
        else match s.takeGroup z m with
          | none => s
          | some s => s.layStream z fuel

/-- May a group take a member now: a group with parity only while the XTP runs and it is not being rebuilt (R180, R181)? -/
def State.takesMember (s : State) (z sbi : Nat) : Bool :=
  match groupOf (s.zone z) sbi with
  | some g => g.noPar || (!s.xtp.fenced && !g.rebuild && g.acc.isSome)
  | none => false

/-- Encrypted blocks become final: the XTP takes zone blocks into the accumulator (R177, R209). The pulse of a slot already
planned for the block comes at the end of the DMA transfer that starts here on channel `ch` (R146, R240). -/
def State.finalise (s : State) (ch : Option Nat) : State :=
  s.cmp.blks.foldl (fun s b =>
    if !b.enc || b.final then s
    else if b.zone < convZone && ((s.locate b.zone b.sbi).isNone || !s.takesMember b.zone b.sbi) then s
    else
      let s := if b.zone < convZone then s.xtpToggle b.zone b.sbi b.data else s
      let s : State := { s with
        cmp.blks := s.cmp.blks.map (fun x => if x.zone = b.zone ∧ x.sbi = b.sbi then { x with final := true } else x)
        rpl.work := s.rpl.work.map (fun w => if w.zone = some b.zone ∧ w.sbi = b.sbi ∧ isWriteKind w.kind.toNat
          then { w with final := true } else w) }
      match s.rpl.work.find? (fun w => w.zone == some b.zone && w.sbi == b.sbi && isWriteKind w.kind.toNat) with
      | none => s
      | some w => match s.slotOfWork w.num, ch with
        | some (c, bk, i), some n => s.modDma n (fun _ => ⟨mediaBuf ((s.slotAt (bankKey c bk) i).map (·.e.bufref.toNat) |>.getD 0),
            4128, true, true, .slot c bk i, 0, false⟩)
        | _, _ => s) s

/-- The write side moves on: chunks, packing, groups, final buffers, work. -/
def State.pumpWrites (s : State) (ch : Option Nat) : State :=
  let s := s.formUnits.packAll
  let zs := (s.cmp.blks.map (·.zone)).eraseDups.filter (fun z => decide (z < convZone))
  let s := zs.foldl (fun s z => s.layStream z 64) s
  ((s.finalise ch).makeWorks).startEngines

/-! ### Parity closes (R179) -/

/-- Positions of members 30 and 31 of a group, active skips left out: member, head, track, position. -/
def State.parityPos (s : State) (tgn : Nat) : List (Nat × Nat × Nat × Nat) :=
  match s.recs.geom with
  | none => []
  | some g =>
    let h := g.set (tgnSet tgn)
    ([30, 31].map (fun m => match h.member m with
      | none => []
      | some (x, t) =>
        let trk := tgnTrk tgn + t
        (List.range (g.blocks x trk)).filterMap (fun j => if s.skipped x trk j then none else some (m, x, trk, j)))).flatten

/-- Queued parity closes whose members are all in the accumulator get their work; closes with nothing left to write end, the
accumulator released (R179). -/
def State.pumpParity (s : State) : State :=
  if s.xtp.fenced then s
  else
    let s := s.zon.closes.foldl (fun s tgn =>
      let z := (s.zoneOf tgn).getD 0
      if s.cmp.blks.any (fun b => b.zone == z && !b.final && (s.locate z b.sbi).any (fun p => p.1 == tgn)) then s
      else
        let s : State := { s with zon.closes := s.zon.closes.filter (· != tgn) }
        (s.parityPos tgn.toNat).foldl (fun s p => s.addWork (mkWork .parity 2 none p.2.2.2 (tgn, p.2) true)) s) s
    s.zon.zones.foldl (fun s e => e.2.groups.foldl (fun s g =>
      if g.closing && !s.zon.closes.contains g.tgn &&
         !s.rpl.work.any (fun w => w.tgn == g.tgn && w.cls == .parity && isWriteKind w.kind.toNat && w.zone.isNone) then
        (s.modGroup e.1 g.tgn (fun g => { g with closing := false, acc := none })).dropAcc g.acc
      else s) s) s

end Sys2Proof.Machine
end

