-- ==== Sys2Proof/Machine/Commit.lean ====
section
/-! DEFINITION. Units committed (R214 to R220), zone states (R302 to R305, R310), space (R301), locator index slots (R254),
FLUSH (R299), READ_ONLY (R186, R303), and the commands that wait for these. -/
namespace Sys2Proof.Machine

open Sys2Proof

/-! ### Space (R301) -/

/-- Data positions of the groups R94 could hand out on an actuator, laid out in turn, until there are `lim`. -/
def State.freeLoop (s : State) (a lim : Nat) : Nat → Nat → Nat
  | 0, n => n
  | fuel + 1, n =>
    if lim ≤ n then n
    else match s.pickGroup a with
    | none => n
    | some (hs, trk) =>
      let tgn := tgnOf a hs trk
      let t := match s.recs.geom with | some g => groupTracks (g.set hs).heads.length | none => 0
      let s' : State := { s with zon.fill := tset s.zon.fill a (trk + t) }
      let s' := s'.modZone (convZone + 8) (fun x => { x with groups := x.groups ++ [⟨BitVec.ofNat 32 tgn, 0, 0, false, true,
        false, none, false⟩] })
      s'.freeLoop a lim fuel (n + s.groupSize tgn)
/-- Positions admitted units of an actuator have reserved (R301). -/
def State.reservedOn (s : State) (a : Nat) : Nat :=
  (s.cmp.units.filter (fun u => !u.conv && !u.laid && (s.zone u.zone).act.val == a)).foldl (fun n u => n + u.reserved) 0
/-- Free space of an actuator in data positions (R301). -/
def State.freeSpace (s : State) (a : Nat) : Nat :=
  match s.recs.geom with
  | some g => s.freeLoop a (2 ^ 64) g.tracks 0 - s.reservedOn a
  | none => 0
/-- Does the free space of an actuator hold `need` positions (R301)? -/
def State.spaceFor (s : State) (a need : Nat) : Bool :=
  need == 0 || match s.recs.geom with
    | some g => decide (need + s.reservedOn a ≤ s.freeLoop a (need + s.reservedOn a) g.tracks 0)
    | none => false
/-- The bound of R210: positions a unit fills with every chunk raw, its locator blocks among them. -/
def boundOf (first count : Nat) : Nat :=
  let n := first % 16 + count
  n + ceilDiv (ceilDiv n 16) 64
/-- Room left in the zone's open group (R301). -/
def State.roomIn (s : State) (z : Nat) : Nat :=
  match (s.zone z).lastGroup with
  | none => 0
  | some g =>
    if !g.isOpen then 0
    else
      let taken := (s.zone z).nextPos - g.firstSbi
      let owed := (s.cmp.units.filter (fun u => !u.conv && !u.laid && u.zone == z)).foldl
        (fun n u => n + (boundOf u.first u.count - u.reserved)) 0
      s.groupSize g.tgn.toNat - (taken + owed)

/-! ### Locator index slots (R254) -/

/-- The zone is the last used of those that hold an index slot. -/
def State.touchIdx (s : State) (z : Nat) : State :=
  { s with zon.used := s.zon.used.filter (· != z) ++ [z] }
/-- Zone `z` takes an index slot: a free one, else that of the zone longest unused among those not open. -/
def State.takeIdx (s : State) (z : Nat) : State :=
  if (s.zone z).idx.isSome then s.touchIdx z
  else
    let free := (List.finRange 512).find? (fun i => !s.zon.zones.any (fun e => e.2.idx == some i))
    match free with
    | some i => (s.modZone z (fun x => { x with idx := some i, locs := [] })).touchIdx z
    | none =>
      match s.zon.used.find? (fun v => (s.zone v).st != .opened) with
      | none => s
      | some v =>
        let i := (s.zone v).idx
        let s := s.modZone v (fun x => { x with idx := none, locs := [] })
        let s : State := { s with zon.used := s.zon.used.filter (· != v) }
        (s.modZone z (fun x => { x with idx := i, locs := [] })).touchIdx z
/-- The zone's index is whole: it was built, or the zone has held its slot since it was EMPTY. -/
def State.idxReady (s : State) (z : Nat) : Bool := (s.zone z).idx.isSome && !s.zon.builds.contains z
/-- Zone `z` needs its index: it takes a slot and, where it has committed locators, starts to build (R254). -/
def State.needIdx (s : State) (z : Nat) : State :=
  if (s.zone z).idx.isSome then s.touchIdx z
  else
    let s := s.takeIdx z
    if (s.zone z).idx.isSome && (s.zone z).locHead.isSome then { s with zon.builds := s.zon.builds ++ [z] } else s

/-! ### Zone states (R302, R304, R305) -/

/-- Open zones of an actuator. -/
def State.openCount (s : State) (a : Nat) : Nat :=
  (s.zon.zones.filter (fun e => e.2.st == .opened && e.2.act.val == a)).length
/-- GEN_OPEN_MAX of an actuator (R304). -/
def State.openMax (s : State) (a : Nat) : Nat := s.fld 0x000C (8 * a) 8
/-- Lowest free open-zone slot of an actuator. -/
def State.freeOslot (s : State) (a : Nat) : Option (Fin 64) :=
  (List.finRange 64).find? (fun i => !s.zon.zones.any (fun e => e.2.act.val == a && e.2.oslot == some i))

/-- A zone opens on its actuator and key range (R302, R304, R305). -/
def State.openZone (s : State) (z : Nat) (a : Fin 4) (key : Byte) : State :=
  let o := s.freeOslot a.val
  ((s.modZone z (fun x => { x with st := .opened, act := a, key := key, oslot := o })).zoneAccess z true).needIdx z

/-- The zone no longer holds an open-zone slot: its group closes (R178, R304). -/
def State.leaveOpen (s : State) (z : Nat) (dest : ZState) : State :=
  let s := s.closeGroup z
  ((s.modZone z (fun x => { x with st := dest, oslot := none })).zoneAccess z true).pumpParity

/-! ### READ_ONLY (R186, R243, R303) -/

/-- A unit ends uncommitted with a status: its command completes with it, else a later FLUSH will (R298, R299). -/
def State.killUnit (s : State) (cs : Word) (status : Nat) : State :=
  match s.unit? cs with
  | none => s
  | some u =>
    let c := s.unitCmd cs
    let s := s.withdrawUnit cs
    match c with
    | some c => s.finish c.qp c.tag status (if c.opc = 0x22 then c.addr.toNat else 0)
    | none => { s with cmp.units := s.cmp.units ++ [{ u with dead := some (BitVec.ofNat 16 status), data := [] }] }

/-- Zone `z` becomes READ_ONLY: its group closes, AWP falls to WP, its uncommitted units end, unit `cs` with `status` and the
others ZONE_STATE (R186, R303). -/
def State.toReadOnly (s : State) (z : Nat) (cs : Word) (status : Nat) : State :=
  let s := s.modZone z (fun x => { x with stopped := true })
  let us := (s.cmp.units.filter (fun u => !u.conv && u.zone == z && !u.committed && u.dead.isNone)).map (·.csec)
  let s := us.foldl (fun s u => s.killUnit u (if u = cs then status else stZoneState)) s
  let s := s.leaveOpen z .readOnly
  s.modZone z (fun x => { x with awp := x.wp, tail := none })

/-! ### Commits (R215, R216, R219) -/

/-- Every block of a unit is on media and verified (R215). -/
def State.unitVerified (s : State) (u : CUnit) : Bool :=
  u.laid && (s.cmp.blks.filter (fun b => b.csec == u.csec && b.zone != convZone)).all (fun b => b.ok || b.replaced)
/-- Every earlier unit of its stream or staging band is committed (R215). -/
def State.firstOfStream (s : State) (u : CUnit) : Bool :=
  s.cmp.units.all (fun v => !(v.zone == u.zone && v.conv == u.conv && !v.committed && v.dead.isNone &&
    decide (v.csec.toNat < u.csec.toNat)))
/-- May the unit's record be written (R215, R218)? -/
def State.mayCommit (s : State) (u : CUnit) : Bool :=
  !u.committed && u.dead.isNone && s.unitVerified u && s.firstOfStream u

/-- The record of a unit (R216). -/
def State.unitRec (s : State) (u : CUnit) : JRec :=
  let tgn := match s.place (if u.conv then stageZone u.zone else u.zone) u.locSbi with
    | some p => p.1
    | none => 0
  let nx := (s.cmp.blks.filter (fun b => b.csec == u.csec)).foldl (fun a b => max a (b.sbi + 1)) u.nextSbi
  if u.conv then
    { JRec.of 2 u.zone with
      flags := BitVec.ofNat 8 (b2n u.fua + 2 + 16 * u.zone), csec := u.csec, firstSbi := BitVec.ofNat 32 u.firstSbi
      locSbi := BitVec.ofNat 32 u.locSbi, nextSbi := BitVec.ofNat 32 u.nextSbi, wp := BitVec.ofNat 32 u.count, tgn := tgn }
  else
    { JRec.of 1 (s.zone u.zone).act.val with
      flags := BitVec.ofNat 8 (b2n u.fua + 2 + 16 * (s.zone u.zone).act.val), csec := u.csec, zone := BitVec.ofNat 32 u.zone
      firstSbi := BitVec.ofNat 32 u.firstSbi, locSbi := BitVec.ofNat 32 u.locSbi, nextSbi := BitVec.ofNat 32 nx
      wp := BitVec.ofNat 32 u.wp, firstChunk := BitVec.ofNat 16 u.firstChunk, nchunk := BitVec.ofNat 8 u.nchunk
      streamEnd := BitVec.ofNat 64 (s.ofsAt u.zone nx), tgn := tgn }

/-- Locator entries replace those of their chunks (R254). -/
def mergeLocs (old new : List Locator) : List Locator :=
  old.filter (fun l => !new.any (fun n => n.chunk == l.chunk)) ++ new

/-- What a committed zone unit changes: WP, locator head, cursor, payload-stream end, USED, the index; a zone written to its
end is FULL (R216, R222, R254, R302). -/
def State.applyZone (s : State) (u : CUnit) (r : JRec) : State :=
  let sp := (s.cmp.blks.filter (fun b => b.csec == u.csec && (b.loc || b.link.isSome))).map (fun b => (b.sbi, b.link))
  let s : State := { s with
    nv2.special := tmod [] s.nv2.special u.zone (fun l => l ++ sp), nv2.hkeys := tset s.nv2.hkeys u.zone (s.zone u.zone).key
    cmp.blks := s.cmp.blks.filter (fun b => b.csec != u.csec) }
  let s := s.modZone u.zone (fun z =>
    let nx := max z.nextSbi r.nextSbi.toNat
    { z with
      wp := max z.wp u.wp, locHead := some u.locSbi, nextSbi := nx, streamEnd := max z.streamEnd r.streamEnd.toNat
      locs := if z.idx.isSome then mergeLocs z.locs u.locs else []
      groups := z.groups.map (fun g => if g.isOpen ∧ g.firstSbi ≤ nx then { g with used := max g.used (nx - g.firstSbi) } else g) })
  let s : State := { s with cmp.units := s.cmp.units.filter (fun v => v.csec != u.csec) }
  let s := u.locs.foldl (fun s l => s.locAccess u.zone l.chunk true) (s.zoneAccess u.zone true)
  if (s.zone u.zone).wp = 524288 ∧ (s.zone u.zone).st = .opened then
    (s.leaveOpen u.zone .full).modZone u.zone (fun z => { z with tail := none })
  else s

/-- What a committed conventional unit starts: copies of its staged payloads to their targets; an older unit's copy of the
same target is not needed (R219, R220). -/
def State.applyConv (s : State) (u : CUnit) : State :=
  let src := (List.range u.count).filterMap (fun i =>
    (s.cmp.blks.find? (fun b => b.csec == u.csec && b.zone == stageZone u.zone && b.sbi ==
      (u.firstSbi + i) % max (s.stageOrder u.zone).length 1 && !b.loc)).map (fun b => (u.cblk + i, b.data)))
  let older := s.cmp.blks.filter (fun b => b.zone == convZone && decide (u.cblk ≤ b.sbi) && decide (b.sbi < u.cblk + u.count))
  let ws := (s.rpl.work.filter (fun w => w.zone == some convZone && older.any (fun b => b.sbi == w.sbi))).map (·.num)
  let s := s.withdrawWork ws
  let new := src.map (fun p => ({ sbi := p.1, zone := convZone, csec := u.csec, loc := false, link := none, enc := true
                                  final := true, ok := false, replaced := false, fails := 0, raw := true, chunk := 0
                                  data := p.2 } : Blk))
  let s : State := { s with
    rpl.work := s.rpl.work.filter (fun w => !ws.contains w.num)
    cmp.blks := s.cmp.blks.filter (fun b => !(b.csec == u.csec) && !older.contains b) ++ new
    cmp.plain := s.cmp.plain.filter (fun p => !(p.1 == convZone && decide (u.cblk ≤ p.2.1) && decide (p.2.1 < u.cblk + u.count)))
    zon.staged := s.zon.staged ++ [u.csec] }
  (s.modUnit u.csec (fun v => { v with committed := true })).makeWorks

/-! ### FLUSH (R299) -/

/-- Does a FLUSH cover a unit? -/
def Cmd.flushes (c : Cmd) (u : CUnit) : Bool :=
  decide (u.ord < c.ord) && (c.pf 0 0 1 == 1 || (!u.conv && u.zone == c.zone))
/-- A FLUSH that waits completes when every covered write has committed, or with the status of a unit that no longer can. -/
def State.flushTry (s : State) (c : Cmd) : State :=
  match s.cmp.units.find? (fun u => c.flushes u && u.dead.isSome) with
  | some u => s.finish c.qp c.tag ((u.dead.map (·.toNat)).getD 0) u.csec.toNat
  | none =>
    let early := s.hqi.cmds.any (fun w => isWriteOpc w.opc.toNat && w.csec.isNone && decide (w.ord < c.ord) &&
      (c.pf 0 0 1 == 1 || (w.opc != 0x29 && w.zone == c.zone)))
    if early || s.cmp.units.any (fun u => c.flushes u && !u.committed) then
      s.modCmd c.qp.val c.tag (fun x => { x with st := .waiting })
    else s.finish c.qp c.tag stSuccess 0

/-! ### ZONE MANAGE (R310) -/

/-- May the action run from a zone's state? -/
def manageOk (act : Nat) (st : ZState) : Bool :=
  match act with
  | 1 => st == .empty || st == .closed || st == .opened
  | 2 => st == .opened
  | 3 => st == .opened || st == .closed
  | 4 => st != .offline
  | 5 => st == .full || st == .readOnly
  | _ => false
/-- Admitted writes of the zone are still to commit or fail. -/
def State.zoneBusy (s : State) (z : Nat) : Bool :=
  s.cmp.units.any (fun u => !u.conv && u.zone == z && !u.committed && u.dead.isNone)
/-- The zone is emptied (R310 RESET): its accumulator released without a parity close, tail and index slot gone, its groups
free and their pending entries active; dead units and its bindings are forgotten. -/
def State.emptyZone (s : State) (z : Nat) (dest : ZState) : State :=
  let gs := (s.zone z).groups
  let s := gs.foldl (fun s g => s.dropAcc g.acc) s
  let ts := gs.map (·.tgn)
  let s : State := { s with
    zon.closes := s.zon.closes.filter (fun t => !ts.contains t)
    rpl.work := s.rpl.work.filter (fun w => !(w.zone == some z || (w.zone.isNone && ts.contains w.tgn && w.cls == .parity)))
    cmp.units := s.cmp.units.filter (fun u => u.conv || u.zone != z)
    cmp.plain := s.cmp.plain.filter (fun p => p.1 != z)
    nv2.special := tset s.nv2.special z [], zon.used := s.zon.used.filter (· != z)
    zon.builds := s.zon.builds.filter (· != z) }
  let s := (s.modZone z (fun _ => { Zone.init with st := dest })).zoneAccess z true
  let s := gs.foldl (fun s g => s.rltFree g.tgn.toNat) s
  gs.foldl (fun s g => s.rltWrite (tgnAct g.tgn.toNat)) s

/-- One zone under an action whose waits are over. -/
def State.manageOne (s : State) (act z : Nat) : State :=
  match act with
  | 2 => if (s.zone z).awp = 0 then (s.leaveOpen z .empty).emptyZone z .empty else s.leaveOpen z .closed
  | 3 => (s.leaveOpen z .full).modZone z (fun x => { x with wp := 524288, awp := 524288, tail := none })
  | 4 => s.emptyZone z .empty
  | 5 => s.emptyZone z .offline
  | _ => s

/-- Zones a ZONE MANAGE names: its own, or with ALL every zone its action allows; an EMPTY zone is unchanged by RESET. -/
def State.manageZones (s : State) (c : Cmd) : List Nat :=
  let act := c.pf 2 0 4
  if c.pf 2 8 1 = 1 then (s.zon.zones.filter (fun e => manageOk act e.2.st && e.2.st != .empty)).map (·.1) else [c.zone]

/-- CLOSE, FINISH, RESET and OFFLINE complete once the writes of their zones have committed or failed (R310). -/
def State.manageTry (s : State) (c : Cmd) : State :=
  let act := c.pf 2 0 4
  let zs := s.manageZones c
  if zs.any s.zoneBusy then s.modCmd c.qp.val c.tag (fun x => { x with st := .waiting })
  else
    let ch := zs.filter (fun z => manageOk act (s.zone z).st)
    let n := (ch.filter (fun z => !(act == 4 && (s.zone z).st == .empty))).length
    let s := ch.foldl (fun s z => s.manageOne act z) s
    if c.pf 2 8 1 = 0 ∧ ch = [] then s.finish c.qp c.tag stZoneState 0 else s.finish c.qp c.tag stSuccess n

/-! ### What a commit wakes -/

/-- Commands that wait for commits are looked at again, oldest first (R299, R310). -/
def State.wakeWaiters (s : State) : State :=
  s.hqi.cmds.foldl (fun s c =>
    if c.st != .waiting then s
    else if c.opc = 0x25 then s.flushTry c
    else if c.opc = 0x23 then s.manageTry c
    else s) s

/-- A unit is committed: its effects, the completion of a write with FUA, and what waited for it (R215). -/
def State.commitUnit (s : State) (u : CUnit) : State :=
  let r := s.unitRec u
  let s := if u.conv then s.applyConv u else s.applyZone u r
  let s := if u.fua then s.unitDone u.csec else s
  ((s.pumpWrites none).pumpParity).wakeWaiters.wakeData

/-- Writes whose record can no longer be written complete INTERNAL where they would have committed (R218). -/
def State.failCommit (s : State) (u : CUnit) : State :=
  (s.killUnit u.csec stInternal).wakeWaiters

end Sys2Proof.Machine
end

