-- ==== Sys2Proof/Machine/Read.lean ====
section
/-! DEFINITION. What a read returns (R296, R297, R306, R307) and the chunk path backwards (R184, R192, R211 to R213), with
the tail a write reads back (R197). -/
namespace Sys2Proof.Machine

open Sys2Proof

/-- Where the data of one block comes from. -/
inductive BSrc where
  /-- Zeros (R306). -/
  | zero
  /-- Bytes in buffer memory. -/
  | bytes (l : List Byte)
  /-- Data on its way, or an index being built. -/
  | wait
  /-- A chunk to read from media; for a conventional block, the block itself. -/
  | media
  deriving DecidableEq, Repr

/-- Block `i` of 4,096 bytes. -/
def blkOf (l : List Byte) (i : Nat) : List Byte := padTo 4096 ((l.drop (4096 * i)).take 4096)

/-- Newest committed locator of a chunk (R211, R254). -/
def State.locator (s : State) (z c : Nat) : Option Locator := (s.zone z).locs.find? (fun l => l.chunk == c)

/-- Block `b` of zone `z` for a reader fetched at `ord`, with the chunks it has decoded so far (R296, R306). -/
def State.zoneSrc (s : State) (z ord top : Nat) (parts : List (Nat × List Byte)) (b : Nat) : BSrc :=
  let x := s.zone z
  if x.st = .empty ∨ top ≤ b ∨ x.awp ≤ b then .zero
  else match s.cmp.units.find? (fun u => !u.conv && u.zone == z && !u.committed && u.dead.isNone && decide (u.ord < ord) &&
      decide (u.first ≤ b) && decide (b < u.wp)) with
    | some u => if u.data = [] then .wait else .bytes (blkOf u.data (b - u.first))
    | none =>
      if x.locHead.isNone then .zero
      else if !s.idxReady z then .wait
      else match s.locator z (b / 16) with
        | none => .zero
        | some l =>
          if l.nblk ≤ b % 16 then .zero
          else match parts.find? (fun p => p.1 == b / 16) with
            | some (_, d) => if 4096 * (b % 16) < d.length then .bytes (blkOf d (b % 16)) else .media
            | none => .media

/-- The newest staged unit that names conventional block `n`, fetched before `ord` (R220, R297). -/
def State.stagedUnit (s : State) (ord n : Nat) : Option CUnit :=
  (s.cmp.units.filter (fun u => u.conv && u.dead.isNone && decide (u.ord < ord) && decide (u.cblk ≤ n) &&
    decide (n < u.cblk + u.count))).foldl (fun a u => match a with
      | some v => if v.ord < u.ord then some u else a
      | none => some u) none
/-- Zone and SBI at which a conventional block is read: its staged block where the unit's data is no longer held, else its
target (R190, R220). -/
def State.convKey (s : State) (ord n : Nat) : Nat × Nat :=
  match s.stagedUnit ord n with
  | some u => (stageZone u.zone, (u.firstSbi + (n - u.cblk)) % max (s.stageOrder u.zone).length 1)
  | none => (convZone, n)
/-- Conventional block `n` for a reader fetched at `ord` (R220, R297, R307). -/
def State.convSrc (s : State) (ord n : Nat) : BSrc :=
  let key := s.convKey ord n
  let held := match s.cmp.plain.find? (fun p => p.1 == key.1 && p.2.1 == key.2) with
    | some p => BSrc.bytes (padTo 4096 p.2.2)
    | none => .media
  match s.stagedUnit ord n with
  | some u => if u.data != [] then .bytes (blkOf u.data (n - u.cblk)) else if u.committed then held else .wait
  | none => held

/-- Does the command read blocks: READ, VERIFY, PEER MOVE, CONV READ? -/
def isReadOpc (o : Nat) : Bool := o == 0x20 || o == 0x26 || o == 0x27 || o == 0x28
/-- The unit of a write that must first read its zone's partial chunk back (R197): the first of its zone to form. -/
def State.tailUnit (s : State) (c : Cmd) : Option CUnit :=
  match s.cmp.units.find? (fun u => some u.csec == c.csec && !u.conv && u.dead.isNone) with
  | none => none
  | some u =>
    let early := s.cmp.units.any (fun v => !v.conv && v.zone == u.zone && !v.formed && v.dead.isNone &&
      decide (v.csec.toNat < u.csec.toNat))
    if isWriteOpc c.opc.toNat && !u.formed && u.dataIn && !early && (s.leadBytes u).isNone then some u else none

/-- Blocks a command reads: READ and its like their own; a write the blocks of its zone's tail. Chunks that failed are left
out. Answers zone (or `convZone`), block. -/
def State.readBlocks (s : State) (c : Cmd) : List (Nat × Nat) :=
  if c.st != .running then []
  else if c.opc = 0x28 then
    ((List.range c.count.toNat).map (fun i => (convZone, c.addr.toNat + i))).filter (fun p => !c.bad.contains p.2)
  else if isReadOpc c.opc.toNat then
    ((List.range c.count.toNat).map (fun i => (c.zone, c.blk + i))).filter (fun p => !c.bad.contains (p.2 / 16))
  else match s.tailUnit c with
    | some u => if c.bad != [] then [] else (List.range u.lead).map (fun i => (u.zone, u.first - u.lead + i))
    | none => []
/-- Source of one of them. -/
def State.srcOf (s : State) (c : Cmd) (p : Nat × Nat) : BSrc :=
  if p.1 = convZone then s.convSrc c.ord p.2
  else s.zoneSrc p.1 c.ord (if isReadOpc c.opc.toNat then c.top else 524288) c.parts p.2

/-- Chunks, or conventional blocks, a command still reads from media: zone and number. -/
def State.mediaChunks (s : State) (c : Cmd) : List (Nat × Nat) :=
  (((s.readBlocks c).filter (fun p => s.srcOf c p == .media)).map
    (fun p => if p.1 = convZone then p else (p.1, p.2 / 16))).eraseDups

/-- Stream blocks that hold a chunk's stored bytes, copies standing for what they replace (R211). -/
def State.chunkSbis (s : State) (z : Nat) (l : Locator) : List Nat :=
  let q0 := l.streamOfs / 4096
  (List.range ((l.streamOfs + l.clen - 1) / 4096 - q0 + 1)).map (fun i => s.dataSbi z (q0 + i))
/-- A locator that names bytes beyond the committed stream, or blocks the zone does not hold (R211). -/
def State.locatorBad (s : State) (z : Nat) (l : Locator) : Bool :=
  decide ((s.zone z).streamEnd < l.streamOfs + l.clen) || l.clen == 0 ||
  (s.chunkSbis z l).any (fun b => decide ((s.zone z).nextSbi ≤ b) || (s.locate z b).isNone)
/-- Blocks a media chunk needs: zone and SBI. -/
def State.chunkNeeds (s : State) (c : Cmd) (k : Nat × Nat) : List (Nat × Nat) :=
  if k.1 = convZone then [s.convKey c.ord k.2]
  else match s.locator k.1 k.2 with
    | some l => (s.chunkSbis k.1 l).map (fun b => (k.1, b))
    | none => []
/-- Every block a command needs from media, held decrypted or not. -/
def State.wants (s : State) (c : Cmd) : List (Nat × Nat) := ((s.mediaChunks c).map (s.chunkNeeds c)).flatten
/-- Commands that need a block. -/
def State.needers (s : State) (z sbi : Nat) : List Cmd := s.hqi.cmds.filter (fun c => (s.wants c).contains (z, sbi))
/-- Is the decrypted payload of a block held? -/
def State.hasPlain (s : State) (p : Nat × Nat) : Bool := s.cmp.plain.any (fun x => x.1 == p.1 && x.2.1 == p.2)
/-- Payload of a block, decrypted. -/
def State.plainOf (s : State) (p : Nat × Nat) : List Byte :=
  match s.cmp.plain.find? (fun x => x.1 == p.1 && x.2.1 == p.2) with | some x => padTo 4096 x.2.2 | none => []
/-- A block is on the recovery list (R175). -/
def State.inLadder (s : State) (z sbi : Nat) : Bool :=
  s.rcv.lists.any (fun l => l.2.any (fun e => e.zone == some z && e.sbi == sbi))
/-- A block is already on its way: planned, being decrypted, on the recovery list. -/
def State.onItsWay (s : State) (p : Nat × Nat) : Bool :=
  s.hasWork p.1 p.2 false || s.cry.queue.contains (p.1, p.2, true) || s.cry.lane.any (fun e => e.2 == (p.1, p.2, true)) ||
  s.inLadder p.1 p.2

/-- Logical block address of block `b` of zone `z`; a conventional block is its own number (R291). -/
def lbaOf (z b : Nat) : Nat := if z = convZone then b else z * 524288 + b
/-- A chunk fails for a command: the worst row and the lowest address of its blocks there (R192, R213). -/
def State.failChunk (s : State) (c : Cmd) (k : Nat × Nat) (rank : Nat) : State :=
  let bs := (s.readBlocks c).filter (fun p => p.1 == k.1 && (p.1 == convZone && p.2 == k.2 || p.1 != convZone && p.2 / 16 == k.2))
  let low := bs.foldl (fun a p => some (min (lbaOf p.1 p.2) (a.getD (lbaOf p.1 p.2)))) c.fail
  s.modCmd c.qp.val c.tag (fun x => { x with bad := x.bad ++ [k.2], rank := max x.rank rank, fail := low })

/-- Record of a rebuilt block of a chunk (R184). -/
def State.rebuiltIn (s : State) (ps : List (Nat × Nat)) : Option (Nat × Nat × Nat × Nat × Nat × Nat) :=
  s.cmp.rebuilt.find? (fun r => ps.contains (r.1, r.2.1))
/-- Members of a mask that are set, with the head and track of each (R58). -/
def State.maskTracks (s : State) (tgn mask : Nat) : List (Nat × Nat) :=
  match s.recs.geom with
  | none => []
  | some g =>
    let h := g.set (tgnSet tgn)
    (setBits 32 mask).filterMap (fun m => (h.member m).map (fun p => (p.1, tgnTrk tgn + p.2)))

/-- A chunk passed its LCRC: a rebuilt block of it that no command needs any more is reported, with pending skips for the
erased members (R184, R188). -/
def State.rebuiltPass (s : State) (ps : List (Nat × Nat)) : State :=
  s.cmp.rebuilt.foldl (fun s r =>
    if ps.contains (r.1, r.2.1) && (s.needers r.1 r.2.1).isEmpty then
      let s : State := { s with cmp.rebuilt := s.cmp.rebuilt.filter (· != r) }
      let s := s.event 0x6100 2 [r.2.2.1, r.2.2.2.1, r.2.2.2.2.1, r.2.2.2.2.2, r.1]
      (s.maskTracks r.2.2.1 r.2.2.2.2.1).foldl (fun s p => (s.rltAdd (skipEnt (fin64 p.1) p.2 r.2.2.2.1 6 true)).1) s
    else s) s

/-- What became of a chunk's stored bytes: the logical data, or the rank and cause of its failure (R212, R213). -/
inductive ChunkEnd where
  | good (data : List Byte)
  | limit
  | bad (cause : Nat)
  deriving DecidableEq, Repr

/-- A chunk of zone `k.1` ends for a command (R184, R212, R213). -/
def State.endChunk (s : State) (c : Cmd) (k : Nat × Nat) (e : ChunkEnd) : State :=
  let ps := s.chunkNeeds c k
  let l := (s.locator k.1 k.2).getD ⟨0, 0, 0, false, 0, 0, 0, 0, 0, 0⟩
  match e with
  | .good d =>
    (s.modCmd c.qp.val c.tag (fun x => { x with parts := x.parts.filter (fun p => p.1 != k.2) ++ [(k.2, d)] })).rebuiltPass ps
  | e =>
    match s.rebuiltIn ps with
    | some r =>
      let s := (s.failChunk c k 5).event 0x6101 3 [r.2.2.1, r.2.2.2.1, r.2.2.2.2.1, (setBits 32 r.2.2.2.2.1).length, r.1]
      { s with cmp.rebuilt := s.cmp.rebuilt.filter (· != r) }
    | none =>
      match e with
      | .limit => ((s.setW1c 0x3404 1).failChunk c k 4).event 0x6001 3 [k.1, k.2, l.csec.toNat, l.nblk]
      | .bad n => (s.failChunk c k 5).event 0x6002 3 [k.1, k.2, l.csec.toNat, n]
      | .good _ => s

/-- A chunk's stored bytes, every block of it being held (R211). -/
def State.storedBytes (s : State) (z : Nat) (l : Locator) : List Byte :=
  (((((s.chunkSbis z l).map (fun b => s.plainOf (z, b))).flatten).drop (l.streamOfs % 4096)).take l.clen)

/-- One media chunk of a command moves on: its blocks are read; held, a raw chunk is checked and a compressed one goes to an
engine (R200, R202, R211, R212). -/
def State.pumpChunk (s : State) (c : Cmd) (k : Nat × Nat) : State :=
  if k.1 = convZone then
    let p := s.convKey c.ord k.2
    if s.onItsWay p then s
    else match s.place p.1 p.2 with
      | some w => s.addWork (mkWork .host 1 (some p.1) p.2 w true)
      | none => s
  else match s.locator k.1 k.2 with
    | none => s
    | some l =>
      if s.locatorBad k.1 l then s.endChunk c k (.bad 4)
      else
        let ps := s.chunkNeeds c k
        if ps.all s.hasPlain then
          if l.raw then
            let d := s.storedBytes k.1 l
            if crc32c d = l.lcrc.toNat then s.endChunk c k (.good d) else s.endChunk c k (.bad 3)
          else if s.cmpOut then s.endCmd c stFenced 0
          else if !s.domainOn 4 then s.endCmd c stDomainDown 0
          else if s.cmp.inflates.any (fun j => j.1 == k.1 && j.2.1 == k.2 && j.2.2.1 == c.qp && j.2.2.2 == c.tag) ||
            s.cmp.eng.any (fun e => e.2.job == .inflate k.1 k.2 c.qp c.tag) then s
          else { s with cmp.inflates := s.cmp.inflates ++ [(k.1, k.2, c.qp, c.tag)] }.startEngines
        else ps.foldl (fun s p => if s.hasPlain p || s.onItsWay p then s
          else match s.place p.1 p.2 with
            | some w => s.addWork (mkWork .host 1 (some p.1) p.2 w true)
            | none => s) s

/-- Decrypted payloads no command needs are let go. -/
def State.tidyPlain (s : State) : State :=
  let w := (s.hqi.cmds.map s.wants).flatten
  let conv := (s.hqi.cmds.map (fun c => (s.readBlocks c).filterMap (fun p =>
    if p.1 = convZone then some (s.convKey c.ord p.2) else none))).flatten
  { s with cmp.plain := s.cmp.plain.filter (fun p => w.contains (p.1, p.2.1) || conv.contains (p.1, p.2.1)) }

/-- Data of a command's blocks in order; a failed one's is undefined (R192). -/
def State.readData (s : State) (c : Cmd) : List Byte :=
  (((if c.opc = 0x28 then (List.range c.count.toNat).map (fun i => (convZone, c.addr.toNat + i))
     else (List.range c.count.toNat).map (fun i => (c.zone, c.blk + i)))).map (fun p =>
      if c.bad.contains (if p.1 = convZone then p.2 else p.2 / 16) then padTo 4096 (Config.freeBytes (s.free + p.2) 4096)
      else match s.srcOf c p with
        | .bytes l => l
        | _ => List.replicate 4096 0)).flatten

/-- NODE_ID that a module's stored LSA carries (R335, R389). -/
def State.nodeOf (s : State) (a : BitVec 12) : Option (BitVec 64) :=
  (s.fab.lsas.find? (fun l => l.origin == a)).map (·.nodeId)
/-- Message a peer-move signature covers: digest of the ECDH public key, the session number and both NODE_IDs, the source's
first (R389). -/
def pmMsg (pub : List Byte) (num : Word) (src dst : BitVec 64) : List Byte :=
  Config.sha384 (pub ++ leBytes 4 num.toNat ++ leBytes 8 src.toNat ++ leBytes 8 dst.toNat)
/-- Bytes of a PM_OPEN: session, CP1, CP2 and FLAGS of the command, public key, certificate, signature (R312, R352; log 42). -/
def State.pmOpenBytes (s : State) (x : PmSess) : List Byte :=
  leBytes 4 x.num.toNat ++ leBytes 4 x.cp1.toNat ++ leBytes 4 x.cp2.toNat ++ [x.flags] ++ x.pub ++ s.nv.cert ++
    Config.deviceSign s.nv.nodeId.toNat (pmMsg x.pub x.num s.nv.nodeId ((s.nodeOf x.peer).getD 0))

/-- Every block of a command has its data or has failed: its end (R192, R197, R283, R306, R312). -/
def State.endRead (s : State) (c : Cmd) : State :=
  let status := rankStatus c.rank
  let res := if 3 ≤ c.rank then (c.fail.getD 0) else 0
  if c.opc = 0x20 ∨ c.opc = 0x28 then
    let d := s.readData c
    (((s.count 167 c.count.toNat).reply c status res d).draw).tidyPlain
  else if c.opc = 0x26 then ((s.count 167 c.count.toNat).finish c.qp c.tag status res).tidyPlain
  else if c.opc = 0x27 then
    if 3 ≤ c.rank then (s.finish c.qp c.tag status res).tidyPlain
    else
      let d := s.readData c
      let peer : BitVec 12 := BitVec.ofNat 12 (c.pf 0 0 12)
      let s := (s.count 167 c.count.toNat).tidyPlain
      if s.nv.cert = [] ∨ s.nv.anchor = [] then s.finish c.qp c.tag stPeerRefused (65536 + stPeerRefused)
      else
        let pub := Config.ephPub s.free
        let num : Word := BitVec.ofNat 32 s.free
        let x : PmSess := ⟨num, peer, true, 1, some (c.qp, c.tag), d, s.free, pub, BitVec.ofNat 32 (c.p 1), BitVec.ofNat 32 (c.p 2),
          c.flags, 0⟩
        let s := s.draw.modCmd c.qp.val c.tag (fun x => { x with st := .waiting, parts := [] })
        ({ s with fab.pm := s.fab.pm ++ [x] } : State).e2eSend peer 0x40 (s.pmOpenBytes x)
  else match s.tailUnit c with
    | none => s
    | some u =>
      if c.bad != [] then ((s.withdrawUnit u.csec).finish c.qp c.tag status res).wakeWaiters
      else
        let l := (List.range u.lead).map (fun i => match s.srcOf c (u.zone, u.first - u.lead + i) with
          | .bytes l => l
          | _ => List.replicate 4096 0)
        ((s.modZone u.zone (fun z => { z with tail := some (u.first / 16, l.flatten) })).pumpWrites none).tidyPlain

/-- The tail of a write has no valid locator entry: INTERNAL, event 0x6002 with cause 4 (R197). -/
def State.tailLost (s : State) (c : Cmd) : Bool :=
  match s.tailUnit c with
  | some u => (s.zone u.zone).locHead.isNone || (s.idxReady u.zone && match s.locator u.zone (u.first / 16) with
      | some l => decide (l.nblk < u.lead)
      | none => true)
  | none => false

/-- One command that reads moves on as far as it can. -/
def State.pumpRead (s : State) (q : Fin 128) (t : BitVec 16) : State :=
  match s.cmd? q.val t with
  | none => s
  | some c =>
    if c.st != .running || c.fin.isSome then s
    else if !isReadOpc c.opc.toNat && (s.tailUnit c).isNone then s
    else if s.tailLost c then
      match s.tailUnit c with
      | some u => (((s.withdrawUnit u.csec).finish q t stInternal 0).event 0x6002 3 [u.zone, u.first / 16, u.csec.toNat, 4]).wakeWaiters
      | none => s
    else
      let s := (s.mediaChunks c).foldl (fun s k => match s.cmd? q.val t with
        | some c => s.pumpChunk c k
        | none => s) s
      match s.cmd? q.val t with
      | none => s
      | some c =>
        if (s.readBlocks c).all (fun p => match s.srcOf c p with | .zero => true | .bytes _ => true | _ => false)
        then s.endRead c else s

/-- Every command that reads moves on. -/
def State.pumpReads (s : State) : State := s.hqi.cmds.foldl (fun s c => s.pumpRead c.qp c.tag) s

end Sys2Proof.Machine
end

