-- ==== Sys2Proof/Machine/Recovery.lean ====
section
/-! DEFINITION. The recovery ladder (R170 to R176), reconstruction (R182 to R184), accumulator rebuilds (R180), verify
failures and copies (R54, R179, R185, R186, R190). -/
namespace Sys2Proof.Machine

open Sys2Proof

/-! ### Recovery lists (R170) -/

/-- Entry of a block on its actuator's list, by head, track and position. -/
def State.recFind (s : State) (h t p : Nat) : Option RecEnt :=
  (s.recList (h / 16)).find? (fun e => e.head.val == h && e.track.toNat == t && e.pos.toNat == p)
/-- Entry of that number on actuator `a`. -/
def State.recNum (s : State) (a n : Nat) : Option RecEnt := (s.recList a).find? (fun e => e.num == n)
/-- Entry `n` of actuator `a` changed. -/
def State.modRec (s : State) (a n : Nat) (f : RecEnt → RecEnt) : State :=
  s.setRecList a ((s.recList a).map (fun e => if e.num = n then f e else e))
/-- Actuator of an entry. -/
def RecEnt.act (e : RecEnt) : Nat := e.head.val / 16
/-- Group of an entry's zone that holds the block. -/
def State.recGroup (s : State) (e : RecEnt) : Option ZGroup :=
  match e.zone with
  | some z => if z < convZone then (s.zone z).groups.find? (fun g => g.tgn == e.tgn) else none
  | none => none
/-- Zone a header or an event names: 0 for the conventional region and its staging, all ones for the system area (R50). -/
def zoneWord (z : Option Nat) : Nat :=
  match z with
  | some z => if z < convZone then z else if z < sysZone 0 then 0 else 0xFFFFFFFF
  | none => 0
/-- Alternate sets of a block's entry (R122, R170). -/
def State.recAlts (s : State) (e : RecEnt) : Nat := s.altCount e.head.val (s.entryOf e.head.val e.track.toNat)
/-- Is a level available for a block (R170, R180)? -/
def State.levelOpen (s : State) (e : RecEnt) (l : Nat) : Bool :=
  if l = 4 then s.recAlts e != 0
  else if l = 6 then match s.recGroup e with
    | some g => !g.noPar && !g.rebuild && (!g.isOpen || g.acc.isSome)
    | none => false
  else true
/-- Next level after `l` that is available and not above MAX_LEVEL; 7 when none is (R170, R175). -/
def State.nextLevel (s : State) (e : RecEnt) (l : Nat) : Nat :=
  (((List.range 5).map (fun i => i + 2)).find? (fun k =>
    decide (l < k) && decide (k ≤ s.fld 0x1740 4 4) && s.levelOpen e k)).getD 7
/-- Budget of a level in revolutions (R171, R194). -/
def State.levelBudget (s : State) (l : Nat) : Nat :=
  if l = 6 then s.fld 0x1740 8 8 else s.fld 0x1744 (8 * (l - 2)) 8
/-- Reads of a level (R170). -/
def State.levelReads (s : State) (e : RecEnt) : Nat :=
  match e.level with
  | 2 => 2
  | 3 => 4
  | 4 => s.recAlts e
  | 5 => s.fld 0x1740 24 4
  | _ => 0
/-- KIND and SET of the next read of a level (R170, R173). -/
def ladderSlot (e : RecEnt) : Nat × Nat :=
  match e.level with
  | 3 => (7 + e.reads, 0)
  | 4 => (1, e.reads + 1)
  | 5 => (6, match e.best with | some (_, k) => k.toNat | none => 0)
  | _ => (6, 0)

/-- Does anything wait for a block: a command, the scan of a self-test, the copy in place of a replayed staged block? -/
def State.copyWants (s : State) (z sbi : Nat) : Option (CUnit × Nat) :=
  if z < stageZone 0 ∨ sysZone 0 ≤ z then none
  else
    let r := max (s.stageOrder (z - stageZone 0)).length 1
    s.cmp.units.findSome? (fun u =>
      if u.conv && u.committed && u.data == [] && stageZone u.zone == z then
        ((List.range u.count).find? (fun i => (u.firstSbi + i) % r == sbi)).bind (fun i =>
          let t := u.cblk + i
          let newer := s.cmp.units.any (fun v => v.conv && v.committed && decide (u.csec.toNat < v.csec.toNat) &&
            decide (v.cblk ≤ t) && decide (t < v.cblk + v.count))
          if newer || s.cmp.blks.any (fun b => b.zone == convZone && b.sbi == t && b.csec == u.csec) then none else some (u, t))
      else none)
/-- Does anything wait for an entry's block? -/
def State.recWanted (s : State) (e : RecEnt) : Bool :=
  e.scan || (match e.zone with
    | some z => !(s.needers z e.sbi).isEmpty || (s.copyWants z e.sbi).isSome
    | none => false)
/-- Retained entries of a block are let go (R135, R172). -/
def State.release (s : State) (h t p : Nat) : State :=
  (List.range 4).foldl (fun s i => s.modCh (4 * (h / 16) + i) (fun c => { c with
    store := c.store.map (fun r => if r.head.val = h ∧ r.track.toNat = t ∧ r.pos.toNat = p then { r with held := false, reads := 0 }
      else r) })) s
/-- Work items of an entry: its own reads and its members' (R175). -/
def recWorks (e : RecEnt) (w : Work) : Bool :=
  w.cls == .recovery && (match w.mem with
    | some (n, _, _) => n == e.num
    | none => w.head == e.head && w.track == e.track && w.pos == e.pos)
/-- The entry and its work go; slots committed for it are withdrawn (R160, R175). -/
def State.recDrop (s : State) (e : RecEnt) : State :=
  let ws := (s.rpl.work.filter (recWorks e)).map (·.num)
  let s := s.withdrawWork ws
  let s : State := { s with rpl.work := s.rpl.work.filter (fun w => !ws.contains w.num) }
  (s.setRecList e.act ((s.recList e.act).filter (fun x => x.num != e.num))).release e.head.val e.track.toNat e.pos.toNat

/-- A ladder ends at a level: counter and tally (R175, R316, R425). -/
def State.ladderEnd (s : State) (e : RecEnt) (l : Nat) : State :=
  let s := s.count (130 + l) 1
  if l ≤ 2 then s
  else
    let k := (if l = 6 then 1 else if l = 7 then 2 else 0) * 4 + e.act
    { s with
      rcv.tallies := tset s.rcv.tallies k (tget 0 s.rcv.tallies k + 1)
      gen.testRes := if e.scan then
          (if l = 7 then s.gen.testRes ||| (1#64 <<< 25) else s.gen.testRes + (1#64 <<< 32)) else s.gen.testRes }
/-- Commands that need an entry's block take the rank of its end (R192). -/
def State.rankBlock (s : State) (e : RecEnt) (rank : Nat) : State :=
  match e.zone with
  | none => s
  | some z => (s.needers z e.sbi).foldl (fun s c => s.modCmd c.qp.val c.tag (fun x => { x with rank := max x.rank rank })) s
/-- A block that a command needs is uncorrectable for it: every chunk with bytes in it fails (R192). -/
def State.loseBlock (s : State) (z sbi : Nat) (p : Cmd → Bool) : State :=
  ((s.needers z sbi).filter p).foldl (fun s c =>
    ((s.mediaChunks c).filter (fun k => (s.chunkNeeds c k).contains (z, sbi))).foldl (fun s k =>
      match s.cmd? c.qp.val c.tag with
      | some c => s.failChunk c k 3
      | none => s) s) s

/-! ### Remaps (R190) -/

/-- Next position of an actuator's spare group, in member order; the group is taken from the free ones when first needed. -/
def State.spareNext (s : State) (a : Nat) : Option (State × (Nat × Nat × Nat × Nat)) :=
  match s.recs.geom with
  | none => none
  | some g =>
    let s? : Option State := match tget none (s.rcv.spare.map (fun e => (e.1, some e.2))) a with
      | some _ => some s
      | none => (s.pickGroup a).map (fun (p : Nat × Nat) =>
          ({ s with rcv.spare := tset s.rcv.spare a (BitVec.ofNat 32 (tgnOf a p.1 p.2), 0) } : State))
    s?.bind (fun s =>
      let (t, n) := tget (0, 0) s.rcv.spare a
      ((s.extentOrder g [(t, 1)])[n]?).map (fun p => ({ s with rcv.spare := tset s.rcv.spare a (t, n + 1) }, p)))
/-- A REMAP is made for a conventional block recovered at L3 or above, or failed at L7; it is active when its target is
written (R188, R190). A payload that was recovered is written there. -/
def State.remap (s : State) (e : RecEnt) (payload : Option (List Byte)) : State :=
  match s.spareNext e.act with
  | none => s
  | some (s', p) =>
    let (s2, ok) := s'.rltAdd ⟨e.head, true, true, 8, BitVec.ofNat 8 p.1, e.track, BitVec.ofNat 24 p.2.1,
      BitVec.ofNat 16 e.pos.toNat, BitVec.ofNat 16 p.2.2.1⟩
    if !ok then { s2 with rcv.spare := s.rcv.spare }
    else match payload with
      | none => s2
      | some l => ({ s2 with cmp.blks := s2.cmp.blks.filter (fun b => !(b.zone == convZone && b.sbi == e.sbi && b.csec == 0)) ++
          [{ sbi := e.sbi, zone := convZone, csec := 0, loc := false, link := none, enc := true, final := true, ok := false
             replaced := false, fails := 0, raw := true, chunk := 0, data := l }] } : State).makeWorks

/-! ### Blocks that arrive (R133, R192, R204) -/

/-- Payload of decoded information (R43, R50). -/
def payloadOf (info : List Byte) : List Byte := padTo 4096 (info.drop 32)
/-- A payload as on media arrives for what waits: it goes to a lane for the commands that need it, and to the copy in place of
a replayed staged block (R204, R211, R219, R221). -/
def State.arrive (s : State) (z sbi : Nat) (payload : List Byte) : State :=
  let s := match s.copyWants z sbi with
    | none => s
    | some (u, t) => ({ s with cmp.blks := s.cmp.blks ++
        [{ sbi := t, zone := convZone, csec := u.csec, loc := false, link := none, enc := true, final := true, ok := false
           replaced := false, fails := 0, raw := true, chunk := 0, data := payload }] } : State).makeWorks
  if (s.needers z sbi).isEmpty || s.hasPlain (z, sbi) then s
  else ({ s with cmp.got := s.cmp.got.filter (fun p => !(p.1 == z && p.2.1 == sbi)) ++ [(z, sbi, payload)] } : State).queueUnit
    z sbi true

/-! ### Accumulator rebuilds (R180) -/

/-- A group whose rebuild has read every written data member: with each one added it goes on, or closes with parity where a
later group of its zone has begun; else it closes without parity, USED set to the last position whose member read back. -/
def State.rebuildEnd (s : State) (z : Nat) (g : ZGroup) : State :=
  if !g.rebuild || s.rpl.work.any (fun w => w.cls == .parity && w.mem.isSome && w.tgn == g.tgn) then s
  else
    let later := ((s.zone z).groups.filter (fun x => decide (g.firstSbi < x.firstSbi))).map (·.firstSbi)
    let top := later.foldl min (s.zone z).nextSbi
    let ps := (List.range (top - g.firstSbi)).map (fun i => (i, s.locate z (g.firstSbi + i)))
    let has := fun (p : Nat × Option (Word × Nat × Nat × Nat × Nat)) => match p.2 with
      | some (t, m, _, _, j) => s.xtp.added.contains (t, m, j)
      | none => true
    if ps.all has then
      let s := (s.modGroup z g.tgn (fun g => { g with rebuild := false })).event 0x6104 1 [g.tgn.toNat, z, 1, ps.length]
      if later = [] && (s.zone z).st == .opened then s
      else ({ s with zon.closes := s.zon.closes ++ [g.tgn] } : State).modGroup z g.tgn (fun g => { g with
        isOpen := false, used := top - g.firstSbi, closing := true })
    else
      let used := (ps.filter has).foldl (fun a p => max a (p.1 + 1)) 0
      let s := (s.modGroup z g.tgn (fun g => { g with
        rebuild := false, isOpen := false, noPar := true, used := used, acc := none })).dropAcc g.acc
      ({ s with xtp.added := s.xtp.added.filter (fun a => a.1 != g.tgn) } : State).event 0x6104 1 [g.tgn.toNat, z, 2, used]
/-- Every rebuild that is over ends. -/
def State.rebuildAll (s : State) : State :=
  (s.zon.zones.foldl (fun s e => e.2.groups.foldl (fun s g => s.rebuildEnd e.1 g) s) s).pumpParity

/-! ### The ladder -/

/-- Read of the current level is planned (R170). -/
def State.addRecRead (s : State) (e : RecEnt) : State :=
  s.addWork { num := 0, cls := .recovery, act := fin4 e.act, head := e.head, track := e.track, pos := e.pos
              kind := BitVec.ofNat 4 (ladderSlot e).1, zone := e.zone, sbi := e.sbi, tgn := e.tgn, placed := false, final := true
              mem := none }

/-- What L6 does with member `m` of the group in column `j`: true in the first place where it is erased without a read;
otherwise the block to read, if any (R182). -/
def State.memberRead (s : State) (e : RecEnt) (g : ZGroup) (z j m : Nat) : Bool × Option (Option Nat × Nat × (Word × Nat × Nat × Nat)) :=
  match s.recs.geom with
  | none => (false, none)
  | some gm =>
    let held := e.acc.isSome
    match (gm.set (tgnSet g.tgn.toNat)).member m with
    | none => (false, none)
    | some (x, t) =>
      let trk := tgnTrk g.tgn.toNat + t
      if 30 ≤ m then
        if held then (false, none)
        else if s.skipped x trk j then (true, none)
        else (false, some (none, j, g.tgn, x, trk, j))
      else
        match (s.groupOrder gm g.tgn.toNat).findIdx? (fun p => p.1 == m && p.2.2.2 == j) with
        | none => (false, none)
        | some i =>
          if !g.isOpen ∧ g.used ≤ i then (false, none)
          else if held && !s.xtp.added.contains (g.tgn, m, j) then (false, none)
          else
            let o := g.firstSbi + i
            let c := ((s.specials z).filter (fun p => p.2 == some o)).foldl (fun a p => max a p.1) o
            match s.place z c with
            | some p => (false, some (some z, c, p))
            | none => (true, none)

/-- L6 begins: A0 and A1 of the column are copied where the accumulator is held, the members to read become work (R182). -/
def State.startL6 (s : State) (e : RecEnt) : State :=
  match e.zone, s.recGroup e with
  | some z, some g =>
    match s.locate z e.sbi with
    | none => s
    | some (_, m0, _, _, j) =>
      let e := { e with acc := g.acc.map (fun k => s.accOf k.val j), erased := BitVec.ofNat 32 (2 ^ m0), known := [] }
      let ms := (List.range 32).filter (· != m0)
      let rs := ms.map (fun m => (m, s.memberRead e g z j m))
      let er := rs.foldl (fun a r => if r.2.1 then a ||| BitVec.ofNat 32 (2 ^ r.1) else a) e.erased
      let todo := rs.filterMap (fun r => r.2.2.map (fun q => (r.1, q)))
      let s := s.modRec e.act e.num (fun x => { x with acc := e.acc, erased := er, known := [], members := todo.map (·.1) })
      todo.foldl (fun s q => s.addWork { mkWork .recovery 1 q.2.1 q.2.2.1 q.2.2.2 true with mem := some (e.num, q.1, 0) }) s
  | _, _ => s

/-- The ladder of an entry ends at L7: uncorrectable (R192), a REMAP for a conventional block (R190). `top` is the highest
level tried. -/
def State.ladderLost (s : State) (e : RecEnt) (top : Nat) : State :=
  let s := (s.ladderEnd e 7).event 0x3101 3 [e.head.val, e.track.toNat, e.pos.toNat, top, zoneWord e.zone]
  let s := match e.zone with
    | some z => s.loseBlock z e.sbi (fun _ => true)
    | none => s
  let s := if e.zone = some convZone then s.remap e none else s
  s.recDrop e

/-- An entry goes to level `l` (R170, R175). -/
def State.toLevel (s : State) (e : RecEnt) (l top : Nat) : State :=
  if 7 ≤ l then s.ladderLost e top
  else
    let e := { e with level := l, reads := 0, revs := 0, inRev := false }
    let s := (s.release e.head.val e.track.toNat e.pos.toNat).modRec e.act e.num (fun _ => e)
    if l = 6 then s.startL6 e else s.addRecRead e

/-- A level of an entry fails (R171, R175): LIMITED_RETRY commands are answered when L2 fails, and the ladder ends there when
no other waits. -/
def State.levelFail (s : State) (e : RecEnt) : State :=
  let ws := (s.rpl.work.filter (recWorks e)).map (·.num)
  let s := s.withdrawWork ws
  let s : State := { s with rpl.work := s.rpl.work.filter (fun w => !ws.contains w.num) }
  if e.level = 2 then
    match e.zone with
    | some z =>
      let cs := s.needers z e.sbi
      if (cs.all (·.limitedRetry) && !(s.copyWants z e.sbi).isSome) then s.ladderLost e 2
      else (s.loseBlock z e.sbi (·.limitedRetry)).toLevel e (s.nextLevel e 2) 2
    | none => if e.scan then s.ladderLost e 2 else s.toLevel e (s.nextLevel e 2) 2
  else s.toLevel e (s.nextLevel e e.level) e.level

/-- L6 of an entry fails: more than two members in E, or its budget spent (R182, R193). -/
def State.l6Fail (s : State) (e : RecEnt) : State :=
  let col := match e.zone with | some z => ((s.locate z e.sbi).map (fun p => p.2.2.2.2)).getD 0 | none => 0
  (s.event 0x6101 3 [e.tgn.toNat, col, e.erased.toNat, (setBits 32 e.erased.toNat).length, zoneWord e.zone]).levelFail e

/-- A block enters its actuator's recovery list at L2, or is planned again where the list is full (R170, R176). -/
def State.enterList (s : State) (w : Work) : State :=
  let a := w.act.val
  if 256 ≤ (s.recList a).length then
    ({ s with rcv.fullCount := s.rcv.fullCount + 1 } : State).setW1c 0x1748 a |>.returnWork w.num
  else
    let e : RecEnt := ⟨s.rpl.next, w.cls == .selftest, w.head, w.track, w.pos, 2, 0, 0, false, none, w.tgn, w.zone, w.sbi, 0, [],
      [], none⟩
    let s : State := { s.dropWork w.num with rpl.next := s.rpl.next + 1 }
    let s := s.setRecList a (s.recList a ++ [e])
    if s.recWanted e then s.addRecRead e else s.recDrop e

/-- A member of L6, or of a rebuild, failed L0 and L1; two more reads make its L2 (R180, R182). -/
def State.memberFail (s : State) (w : Work) (n m f : Nat) : State :=
  if f < 2 then
    { s with rpl.work := s.rpl.work.map (fun x => if x.num = w.num then
        { x with mem := some (n, m, f + 1), kind := 6, placed := false } else x) }
  else
    let s := (s.dropWork w.num).release w.head.val w.track.toNat w.pos.toNat
    if w.cls = .parity then s.rebuildAll
    else match (List.range 4).findSome? (fun a => s.recNum a n) with
      | none => s
      | some e =>
        let e := { e with erased := e.erased ||| BitVec.ofNat 32 (2 ^ m), members := e.members.filter (· != m) }
        let s := s.modRec e.act n (fun _ => e)
        if 2 < (setBits 32 e.erased.toNat).length then s.l6Fail e else s

/-- A read of a block ended, with L1, without success (R134, R170, R171). -/
def State.blockLost (s : State) (w : Work) : State :=
  match w.mem with
  | some (n, m, f) => s.memberFail w n m f
  | none =>
    match s.recFind w.head.val w.track.toNat w.pos.toNat with
    | some e =>
      if w.cls != .recovery then s.dropWork w.num
      else
        let s := s.dropWork w.num
        let e := { e with reads := e.reads + 1 }
        let s := s.modRec e.act e.num (fun _ => e)
        if s.levelReads e ≤ e.reads ∨ s.levelBudget e.level ≤ e.revs then s.levelFail e else s.addRecRead e
    | none => s.enterList w

/-- Reads of a level whose budget is spent and that no slot serves any more have failed (R171). -/
def State.budgetEnd (s : State) (e : RecEnt) : State :=
  if e.revs < s.levelBudget e.level || s.rpl.work.any (fun w => recWorks e w && w.placed) then s
  else if e.level = 6 then (if e.members = [] then s else s.l6Fail e) else s.levelFail e

/-- A ladder succeeds at a level (R188, R190, R192, R193). -/
def State.ladderWon (s : State) (e : RecEnt) (payload : List Byte) : State :=
  let l := e.level
  let s := s.ladderEnd e l
  let s := if 3 ≤ l then (s.event 0x3100 1 [e.head.val, e.track.toNat, e.pos.toNat, l, zoneWord e.zone]).rankBlock e 1 else s
  let s := if 4 ≤ l ∧ e.zone ≠ some convZone ∧ e.zone.any (fun z => decide (z < sysZone 0))
    then (s.rltAdd (skipEnt e.head e.track.toNat e.pos.toNat 5 true)).1 else s
  let s := if 3 ≤ l ∧ e.zone = some convZone then s.remap e (some payload) else s
  let s := s.recDrop e
  match e.zone with
  | some z => s.arrive z e.sbi payload
  | none => s

/-- A read of a block succeeded at L0 or L1 (R133, R171). -/
def State.blockRead (s : State) (w : Work) (info : List Byte) : State :=
  let p := payloadOf info
  match w.mem with
  | some (n, m, _) =>
    let s := (s.dropWork w.num).release w.head.val w.track.toNat w.pos.toNat
    if w.cls = .parity then
      match w.zone with
      | some z => (s.xtpToggle z w.sbi p).rebuildAll
      | none => s
    else match (List.range 4).findSome? (fun a => s.recNum a n) with
      | none => s
      | some e => s.modRec e.act n (fun e => { e with members := e.members.filter (· != m), known := e.known ++ [(m, p)] })
  | none =>
    let s := s.dropWork w.num
    match s.recFind w.head.val w.track.toNat w.pos.toNat with
    | some e => if w.cls = .recovery then s.ladderWon e p else s
    | none => match w.zone with
      | some z => s.arrive z w.sbi p
      | none => s

/-- The payload of the target member at L6 (R183). -/
def rebuilt (e : RecEnt) (m0 : Nat) : List Byte :=
  let er := setBits 32 e.erased.toNat
  let a0 := match e.acc with | some p => p.1 | none => []
  let a1 := match e.acc with | some p => p.2 | none => []
  (List.range 4096).map (fun i =>
    let ks := e.known.map (fun k => (k.1, ((k.2[i]?).getD 0).toNat))
    let s0 := gfSum (fun _ => 1) ks ^^^ ((a0[i]?).getD 0).toNat
    let s1 := gfSum gfX ks ^^^ ((a1[i]?).getD 0).toNat
    BitVec.ofNat 8 ((gfSolve er m0 s0 s1).getD 0))

/-- An entry whose members have all been read, at L6. -/
def State.readyL6 (s : State) (a : Nat) : Option RecEnt :=
  (s.recList a).find? (fun e => e.level == 6 && e.members == [] && decide ((setBits 32 e.erased.toNat).length ≤ 2))

/-- The XTP delivers the rebuilt block of an entry: the commands that need it take rank 2, and its chunks' LCRCs confirm it
(R183, R184). -/
def State.reconstruct (s : State) (e : RecEnt) : State :=
  match e.zone with
  | none => s
  | some z =>
    match s.locate z e.sbi with
    | none => s
    | some (_, m0, _, _, j) =>
      let p := rebuilt e m0
      let s := (s.ladderEnd e 6).rankBlock e 2
      let s : State := { s with cmp.rebuilt := s.cmp.rebuilt ++ [(z, e.sbi, e.tgn.toNat, j, e.erased.toNat, m0)] }
      (s.recDrop e).arrive z e.sbi p

/-- Recovery and host reads that nothing waits for any more are withdrawn (R175, R286). -/
def State.pruneReads (s : State) : State :=
  let es := (List.range 4).flatMap (fun a => s.recList a)
  let s := es.foldl (fun s e => if s.recWanted e then s else s.recDrop e) s
  let ws := (s.rpl.work.filter (fun w => w.cls == .host && !isWriteKind w.kind.toNat && w.mem.isNone && (match w.zone with
    | some z => (s.needers z w.sbi).isEmpty && (s.copyWants z w.sbi).isNone
    | none => false))).map (·.num)
  if ws = [] then s
  else { s.withdrawWork ws with rpl.work := s.rpl.work.filter (fun w => !ws.contains w.num) }

/-- Commands, reads and recovery settle after something changed. -/
def State.settle (s : State) : State := ((s.pumpReads).pruneReads).wakeData

/-! ### Verify results (R54, R179, R185, R186, R215) -/

/-- A block's verify was VERIFY_OK (R137, R190, R215). -/
def State.verifyOk (s : State) (w : Work) : State :=
  let s := s.dropWork w.num
  match w.zone with
  | none => s.pumpParity
  | some z =>
    let s : State := { s with cmp.blks := s.cmp.blks.map (fun b =>
      if b.zone = z ∧ b.sbi = w.sbi then { b with ok := true } else b) }
    if z = convZone then
      { s with
        rcv.rlt := s.rcv.rlt.map (fun e => if e.remap ∧ e.thead.toNat = w.head.val ∧ e.ttrack = w.track ∧ e.tpos.toNat = w.pos.toNat
          then { e with pending := false } else e)
        cmp.blks := s.cmp.blks.filter (fun b => !(b.zone == convZone && b.csec == 0 && b.ok)) }
    else s

/-- A copy of a block takes the next stream position (R54, R185). -/
def State.addCopy (s : State) (b : Blk) : State :=
  let p := (s.zone b.zone).nextPos
  let c : Blk := { b with sbi := p, link := some (b.link.getD b.sbi), ok := false, replaced := false, final := false, enc := true }
  let s : State := { s with cmp.blks := s.cmp.blks.map (fun x =>
    if x.zone = b.zone ∧ x.sbi = b.sbi then { x with replaced := true, fails := b.fails } else x) ++ [c] }
  (s.modZone b.zone (fun z => { z with nextPos := z.nextPos + 1 })).pumpWrites none

/-- A block's verify was VERIFY_FAIL; `wus` where the SRV cut its gate (R54, R179, R186). -/
def State.verifyFail (s : State) (w : Work) (wus : Bool) : State :=
  match w.zone with
  | none =>
    let key := fun (x : Word × Nat × Nat × Nat) => x.1 == w.tgn && x.2.1 == w.pos.toNat && x.2.2.1 == w.head.val
    let n := match s.xtp.parFails.find? key with | some x => x.2.2.2 + 1 | none => 1
    let s : State := { s with xtp.parFails := s.xtp.parFails.filter (fun x => !key x) ++
      (if 3 ≤ n then [] else [(w.tgn, w.pos.toNat, w.head.val, n)]) }
    if 3 ≤ n then (((s.rltAdd (skipEnt w.head w.track.toNat w.pos.toNat 7 false)).1).dropWork w.num).pumpParity
    else s.returnWork w.num
  | some z =>
    match s.cmp.blks.find? (fun b => b.zone == z && b.sbi == w.sbi) with
    | none => s.dropWork w.num
    | some b =>
      if convZone ≤ z then s.returnWork w.num
      else
        let b := { b with fails := if wus then b.fails else b.fails + 1 }
        let s := s.dropWork w.num
        if 8 ≤ b.fails then
          let s := (raise 87 s).event 0x3102 4 [w.head.val, z, b.link.getD b.sbi, 8, 0]
          (s.toReadOnly z b.csec stUncorrectable).wakeWaiters
        else s.addCopy b

/-- Units that a fence took or gave back go on with what waits for them: lanes, engines, the packer, parity closes, reads. -/
def State.wakeUnits (s : State) : State := (((s.startLanes.startEngines).forceRaw.pumpWrites none).pumpParity).settle

end Sys2Proof.Machine
end

