-- ==== Sys2Proof/Machine/Channels.lean ====
section
/-! DEFINITION. Read and write channels (05): decode and verify outcomes, L1, fences, self-tests; the SELF-TEST command's
course (R318). -/
namespace Sys2Proof.Machine

open Sys2Proof

/-- Register of channel `n` at offset `o` of its block (R140). -/
def chReg (n o : Nat) : Nat := 0x2000 + 0x80 * n + o

/-! ### Retained samples (R135, R172) -/

/-- Retained entry of a block on a channel. -/
def ChSt.kept (c : ChSt) (h t p : Nat) : Option Retained :=
  c.store.find? (fun r => r.head.val == h && r.track.toNat == t && r.pos.toNat == p)
/-- A read block starts: it takes the oldest entry that is not held; an accumulating read keeps the held entry of its own
block (R135, R145). None free: the block is not retained. -/
def State.retain (s : State) (n h t p : Nat) (acc : Bool) : State :=
  s.modCh n (fun c =>
    let e : Retained := ⟨fin64 h, BitVec.ofNat 24 t, BitVec.ofNat 12 p, 1, false⟩
    match c.kept h t p with
    | some r => if acc && r.held then
        { c with store := c.store.map (fun x => if x = r then { x with reads := x.reads + 1 } else x) }
      else if r.held then c else { c with store := c.store.erase r ++ [e] }
    | none =>
      if c.store.length < 4 then { c with store := c.store ++ [e] }
      else match c.store.find? (fun r => !r.held) with
        | some r => { c with store := c.store.erase r ++ [e] }
        | none => c)
/-- The block's entry is held, or let go (R135). -/
def State.holdKept (s : State) (n h t p : Nat) (v : Bool) : State :=
  s.modCh n (fun c => { c with store := c.store.map (fun r =>
    if r.head.val = h ∧ r.track.toNat = t ∧ r.pos.toNat = p then { r with held := v } else r) })
/-- Does the block's level keep its samples until the level ends: L2 and L5, and the L2 of a member (R172)? -/
def State.keepsSamples (s : State) (w : Work) : Bool :=
  match w.mem with
  | some (_, _, f) => decide (1 ≤ f)
  | none => match s.recFind w.head.val w.track.toNat w.pos.toNat with
    | some e => w.cls == .recovery && (e.level == 2 || e.level == 5)
    | none => false

/-! ### Results (R150) -/

/-- What the planner does on a report about a block read or verified: nothing where its work is done or planned anew. -/
def State.report (s : State) (r : Res) (rpt : Nat) : State :=
  match s.workOf r.work with
  | none => s
  | some w =>
    if !w.placed then s
    else if rpt = 1 then
      (s.blockRead w (s.load (mediaBuf r.buf) 4128)).settle
    else if rpt = 2 then
      if (tget [] s.rcv.l1 w.act.val).any (fun q => q.2.1 == r.work) then s else (s.blockLost w).settle
    else if rpt = 3 then s.verifyOk w
    else if rpt = 4 then s.verifyFail w r.wus
    else s

/-- A result goes into its channel's queue; at a full one the planner takes it at once as an unknown outcome, a failure, and
the context's fault source is raised (R150). -/
def State.pushRes (s : State) (r : Res) : State :=
  let n := r.ch.val / 4
  if (s.ch r.ch.val).rq.length < 16 then
    let s := s.modCh r.ch.val (fun c => { c with rq := c.rq ++ [{ r with arr := s.seq.arr }] })
    let s : State := { s with seq.arr := s.seq.arr + 1 }
    let l := (s.ch r.ch.val).rq.length
    s.modCtx n (fun c => { c with rqMax := BitVec.ofNat 5 (max c.rqMax.toNat l) })
  else raise (48 + n) ((s.setW1c 0x1404 n).report r (if r.vfy then 4 else 2))

/-! ### Decode outcomes (R127 to R133) -/

/-- Is a mark accepted at a position within a half-width of its place (R127)? -/
def inWin (p : Option Nat) (mid win : Nat) : Option Nat :=
  match p with
  | some x => if mid ≤ x + win ∧ x ≤ mid + win then some x else none
  | none => none
/-- TGN in a block's header (R50). -/
def infoTgn (info : List Byte) : Nat := leAt info 12 4

/-- READ_BLOCK_END (R133, R128, R120, R135): the decode of a started read slot ends. -/
def execReadBlockEnd (ch : Fin 16) (bank : Bool) (idx : Fin 1536) (r : ReadRes) (s : State) : Result :=
  let n := ch.val
  let k := bankKey n bank
  match s.slotAt k idx.val with
  | none => .next s
  | some sl =>
    if !isReadKind sl.e.kind.toNat || sl.res || !(sl.st == .executing || sl.st == .ended .retired) then .next s
    else
      let win := s.fld (chReg n 0xC) 16 8
      let m1 := inWin r.sm1 192 win
      let m2 := match m1 with
        | some p => inWin r.sm2 (p + 112) (s.fld (chReg n 0xC) 8 4)
        | none => inWin r.sm2 304 win
      let h := slotHead sl.e (n / 4)
      let t := slotTrack sl.e
      let p := sl.e.pos.toNat
      let w := s.workOf sl.work
      let sys := sl.e.kind.toNat == 4 || sl.e.sys
      let tgn := if sys then 0xFFFFFFFF else tgnOf (n / 4) sl.e.hs.toNat sl.e.trk.toNat
      let good := r.converged && decide (r.iter ≤ s.fld (chReg n 8) 16 4) && r.info.length == 4128 && infoOk r.info
      let ok := good && infoTgn r.info == tgn
      let kept := (s.ch n).kept h t p
      let s := s.modSlot k idx.val (fun x => { x with res := true })
      let s := s.modCh n (fun c => { c with
        lastIter := BitVec.ofNat 4 r.iter
        flags := { c.flags with sync1 := m1.isSome, sync2 := m2.isSome, decOk := ok, decFail := !ok } })
      let s := s.count (192 + n) r.iter
      let s := if m1.isNone && m2.isNone then (s.setW1c (chReg n 4) 6).count (208 + n) 1 else s
      let s := if r.clip then (s.setW1c (chReg n 4) 7).count (240 + n) 1 else s
      let s := if good && !ok then s.setW1c (chReg n 4) 5 else s
      let s := if ok then (if sl.dma = 1 then s.store (mediaBuf sl.e.bufref.toNat) r.info else s)
        else (s.count (96 + n) 1).holdKept n h t p true
      let s := if ok then s
        else match w with
          | none => s
          | some w => match s.recFind h t p with
            | some e => if w.cls = .recovery ∧ w.mem.isNone ∧ e.level ≤ 4 ∧ (e.best.isNone ∨ e.best.any (fun b => decide (r.unsat < b.1)))
                then s.modRec e.act e.num (fun e => { e with best := some (r.unsat, sl.e.set) }) else s
            | none => s
      .next (s.pushRes ⟨bank, idx.val, false, ok, false, kept.isSome && !ok, ch, 0, sl.work, sl.e.bufref.toNat⟩)

/-- VERIFY_RESULT (R137, R138): the verify of a written block ends, or ends at once where its gate was cut. -/
def execVerifyResult (ch : Fin 16) (bank : Bool) (idx : Fin 1536) (r : VerifyRes) (s : State) : Result :=
  let n := ch.val
  match (s.ch n).vfy.find? (fun v => v.1 == bank && v.2.1 == idx.val) with
  | none => .next s
  | some v =>
    match s.slotAt (bankKey n bank) idx.val with
    | none => .next (s.modCh n (fun c => { c with vfy := c.vfy.erase v }))
    | some sl =>
      let ok := !v.2.2 && r.marks && r.converged && decide (r.iter ≤ s.fld (chReg n 0x10) 16 4) && r.equal &&
        decide (r.corrected ≤ s.fld (chReg n 0x10) 0 10)
      let s := s.modSlot (bankKey n bank) idx.val (fun x => { x with res := true })
      let s := s.modCh n (fun c => { c with
        vfy := c.vfy.erase v, flags := { c.flags with vfyOk := ok, vfyFail := !ok } })
      let s := if ok then s else s.count (112 + n) 1
      let group := match s.workOf sl.work with
        | some w => (match w.zone with | some z => z != convZone && decide (z < sysZone 0) | none => w.cls == .parity)
        | none => false
      let s := if !ok && !v.2.2 && !(r.marks && r.converged) && group
        then (s.rltAdd (skipEnt (fin64 (slotHead sl.e (n / 4))) (slotTrack sl.e) sl.e.pos.toNat 4 true)).1 else s
      .next (s.pushRes ⟨bank, idx.val, true, ok, v.2.2, false, ch, 0, sl.work, sl.e.bufref.toNat⟩)

/-! ### L1 (R129, R134) -/

/-- RECOP 1: L1 is requested for the harvest head's block; one that was not retained has failed L1 at once (R134, R153). -/
def State.requestL1 (s : State) (r : Res) : State :=
  match s.workOf r.work with
  | none => s
  | some w =>
    if r.vfy || r.ok || !w.placed then s
    else
      let s := s.count (224 + r.ch.val) 1
      if r.retained then
        { s with rcv.l1 := tset s.rcv.l1 w.act.val (tget [] s.rcv.l1 w.act.val ++ [(r.ch, r.work, true)]) }
      else (s.blockLost w).settle

/-- L1_DONE (R129, R134): the recovery engine of an actuator ends its oldest request. -/
def execL1Done (act : Fin 4) (ok : Bool) (info : List Byte) (s : State) : Result :=
  match tget [] s.rcv.l1 act.val with
  | [] => .next s
  | (_, n, _) :: t =>
    let s : State := { s with rcv.l1 := tset s.rcv.l1 act.val t }
    match s.workOf n with
    | none => .next s
    | some w =>
      let s := if s.keepsSamples w then s else s.release w.head.val w.track.toNat w.pos.toNat
      if ok && info.length == 4128 && infoOk info && infoTgn info == w.tgn.toNat then .next (s.blockRead w info).settle
      else .next (s.blockLost w).settle

/-! ### The SELF-TEST command (R318) -/

/-- Blocks of the scan: of each head in each radial band the written blocks of its lowest written track (R89, R318). -/
def State.scanWorks (s : State) : List Work :=
  let all := (s.zon.zones.map (fun e => (List.range e.2.nextSbi).filterMap (fun b =>
    (s.place e.1 b).map (fun p => (e.1, b, p))))).flatten
  let band := fun (h t : Nat) => match s.calib (h / 16) with | some c => min 255 (t / max c.bw 1) | none => 0
  (all.filter (fun x =>
    !all.any (fun y => y.2.2.2.1 == x.2.2.2.1 && band y.2.2.2.1 y.2.2.2.2.1 == band x.2.2.2.1 x.2.2.2.2.1 &&
      decide (y.2.2.2.2.1 < x.2.2.2.2.1)))).map (fun x => mkWork .selftest 1 (some x.1) x.2.1 x.2.2 true)

/-- The self-test ends: SUCCESS with its results, whatever it found. -/
def State.testEnd (s : State) : State :=
  match s.gen.selfTest with
  | none => s
  | some (t, _) => ({ s with gen.selfTest := none } : State).finish 0 t stSuccess s.gen.testRes.toNat

/-- The known-answer tests of engines, lanes and XTP run: what each unfenced one answers is no rule's, a free value (log 25).
A lane that fails stays fenced (R392). -/
def State.testUnits (s : State) : State :=
  let f := Config.freeNat s.free
  let s := s.draw
  (List.range 9).foldl (fun s i =>
    let skip := if i < 4 then (s.engine i).fenced else if i < 8 then bitOf s.cry.fenced.toNat (i - 4) else s.xtp.fenced
    if skip || !bitOf f i then s
    else
      let s : State := { s with gen.testRes := s.gen.testRes ||| (1#64 <<< (16 + i)) }
      if 4 ≤ i ∧ i < 8 then raise (76 + i) s else s) s

/-- The self-test goes on: the next unfenced channel is asked for a fence; after the last come the units, and the scan of an
extended test. -/
def State.testNext (s : State) : State :=
  match s.gen.selfTest with
  | none => s
  | some (_, ext) =>
    if 16 ≤ s.gen.testAt then
      if s.rpl.work.any (fun w => w.cls == .selftest) || (List.range 4).any (fun a => (s.recList a).any (·.scan)) then s
      else s.testEnd
    else
      match (List.range 16).find? (fun n => decide (s.gen.testAt ≤ n) && !(s.ch n).fenced) with
      | some n => ({ s with gen.testAt := n } : State).modCh n (fun c => { c with testReq := true })
      | none =>
        let s := ({ s with gen.testAt := 16 } : State).testUnits
        let ws := if ext then s.scanWorks else []
        if ws = [] then s.testEnd else ws.foldl (fun s w => s.addWork w) s

/-! ### Fences and self-tests of a channel (R142, R143) -/

/-- A requested fence of channel `n` takes effect (R142); one asked for by SELF-TEST starts test 15. -/
def State.chFenceNow (s : State) (n : Nat) : State :=
  let test := (s.ch n).testReq
  s.modCh n (fun c => { c with
    fenced := true, cause := if test then 3 else 1, noPlan := true
    bist := c.bist || test, bistTest := if test then 15 else c.bistTest })
/-- Something still fences channel `n`: a request, a fault, SELF-TEST, a running test (R142). -/
def State.chHeld (s : State) (n : Nat) : Bool :=
  s.flag (chReg n 0) 31 || (s.ch n).testReq || (s.ch n).bist || bitOf s.flt.fenced.toNat (8 + n) ||
  !s.domainOn (n / 4) || ((s.ch n).cause == 3 && (s.ch n).bistFailed != 0)
/-- Fences of channel `n` at an index: one that is asked for is taken once the new active bank holds no slot of the channel; a
released one ends (R142). -/
def State.chIndex (s : State) (n : Nat) : State :=
  let c := s.ch n
  if c.fenced then
    if s.chHeld n then s else s.modCh n (fun c => { c with fenced := false, cause := 0 })
  else if (s.flag (chReg n 0) 31 || c.testReq) && (s.bank (s.activeKey n)).isEmpty then s.chFenceNow n
  else s

/-- A self-test starts on a fenced channel (R143). -/
def State.startBist (s : State) (n t : Nat) : State :=
  s.modCh n (fun c => { c with bist := true, bistTest := BitVec.ofNat 4 t })
/-- TEST 14: the running test ends as aborted (R143). -/
def State.abortBist (s : State) (n : Nat) : State :=
  if (s.ch n).bist then s.modCh n (fun c => { c with bist := false, bistRes := 3 }) else s

/-- CH_BIST_DONE (R143, R318): a running test ends, and SELF-TEST goes on where it ran it. -/
def execChBistDone (ch : Fin 16) (failed : BitVec 4) (s : State) : Result :=
  let n := ch.val
  let c := s.ch n
  if !c.bist then .next s
  else
    let f : BitVec 4 := if c.bistTest = 15 then failed else failed &&& (1#4 <<< (c.bistTest.toNat - 1))
    let bad := f != 0
    let s := s.modCh n (fun c => { c with
      bist := false, bistFailed := f, bistRes := if bad then 2 else 1, cause := if bad then 3 else c.cause })
    let s := if bad then s.event 0x3001 3 [n, f.toNat, 3] else s
    if c.testReq ∧ s.gen.selfTest.isSome ∧ s.gen.testAt = n then
      let s := s.modCh n (fun c => { c with testReq := false })
      let s : State := { s with
        gen.testRes := if bad then s.gen.testRes ||| (1#64 <<< n) else s.gen.testRes, gen.testAt := n + 1 }
      .next s.testNext
    else .next s

end Sys2Proof.Machine
end

