-- ==== Sys2Proof/Machine/Sequencer.lean ====
section
/-! DEFINITION. Slot sequencer (06): groups, dispatch, harvest, traps, the sixteen micro-ops, nano-words, images. -/
namespace Sys2Proof.Machine

open Sys2Proof

/-! ### Positions and groups (R148, R155) -/

/-- Position: ATB_REV × 4,194,304 + shaft angle (R155). -/
def State.posn (s : State) : Nat := s.atb.rev.toNat * revAC + s.atb.ac.toNat
/-- Bank keys of a context's banks of one side: its channels', or the maintenance bank. -/
def ctxKeys (n : Nat) (b : Bool) : List Nat := if n < 4 then (List.range 4).map (fun p => bankKey (4 * n + p) b) else [maintKey b]
/-- Channel position of a slot in its context. -/
def slotPos (k : Nat) (e : SlotEntry) : Nat := if k < 32 then k / 2 % 4 else e.head.toNat % 4
/-- Actuator a maintenance slot's head names; 0 for a run slot (R163). -/
def slotActOf (k : Nat) (e : SlotEntry) : Nat := if k < 32 then 0 else e.hs.toNat / 16
/-- Entries of a group: bank key and index (R148). -/
def State.groupSlots (s : State) (n : Nat) (g : Group) : List (Nat × Nat) :=
  ((ctxKeys n g.bank).map (fun k => (List.range (s.bank k).length).filterMap (fun i => match s.slotAt k i with
    | some sl => if sl.e.startAc = g.start ∧ sl.e.kind = g.kind ∧ bitOf g.mask.toNat (slotPos k sl.e) ∧
        slotActOf k sl.e = g.act then some (k, i) else none
    | none => none))).flatten
/-- Order of a slot among the groups: start angle, actuator, kind (R148, R163). -/
def slotRank (k : Nat) (e : SlotEntry) : Nat := (e.startAc.toNat * 4 + slotActOf k e) * 16 + e.kind.toNat
/-- The next group of a context: entries not dispatched and not ended, of least rank; with whether its deadline has passed
(R148, R149). -/
def State.nextGroup (s : State) (n : Nat) : Option (Group × Bool) :=
  let b := (s.ctx n).bank
  let es := ((ctxKeys n b).map (fun k => (s.bank k).filterMap (fun sl =>
    if sl.isOver || sl.disp || sl.st != .planned then none else some (k, sl)))).flatten
  let low := es.foldl (fun a x => some (min (slotRank x.1 x.2.e) (a.getD (slotRank x.1 x.2.e)))) none
  match low with
  | none => none
  | some r =>
    let gs := es.filter (fun x => slotRank x.1 x.2.e == r)
    match gs with
    | [] => none
    | (k, sl) :: _ =>
      let m := gs.foldl (fun a x => a ||| (1#4 <<< slotPos x.1 x.2.e)) 0
      some (⟨sl.e.startAc, sl.e.kind, m, b, s.atb.rev, slotActOf k sl.e⟩, gs.all (fun x => x.2.due))
/-- Position of a group's start. -/
def Group.startPos (g : Group) : Nat := g.rev.toNat * revAC + g.start.toNat

/-! ### Flags (R156) -/

/-- Oldest result of a context's four queues (R150). -/
def State.harvestHead (s : State) (n : Nat) : Option Res :=
  ((List.range 4).filterMap (fun p => (s.ch (4 * n + p)).rq.head?)).foldl (fun a r => match a with
    | some x => if r.arr < x.arr then some r else some x
    | none => some r) none
/-- Flag `f` of context `n` (R156). -/
def State.flagVal (s : State) (n f : Nat) : Bool :=
  let c := s.ctx n
  let hv := fun (p : Res → Bool) => c.harvest.isSome && (match s.harvestHead n with | some r => p r | none => false)
  let ready := match c.group with
    | some g => (s.groupSlots n g).all (fun k => match s.slotAt k.1 k.2 with | some sl => sl.ready | none => false)
    | none => false
  if f = 0 then ready
  else if f = 1 then c.late
  else if f = 2 then n < 4 && (List.range 4).any (fun p => decide (12 ≤ (s.ch (4 * n + p)).rq.length))
  else if f = 3 then c.traps != 0
  else if f = 4 then c.abortSlot
  else if f = 5 then !s.pair.paired || s.pair.owner
  else if f = 6 then c.timeout
  else if f = 7 then (match c.group with | some g => g.bank != c.bank | none => false)
  else if f < 12 then (match c.group with | some g => bitOf g.mask.toNat (f - 8) | none => false)
  else if f = 12 then hv (fun r => !r.vfy && r.ok)
  else if f = 13 then hv (fun r => !r.vfy && !r.ok)
  else if f = 14 then hv (fun r => r.vfy && r.ok)
  else if f = 15 then hv (fun r => r.vfy && !r.ok)
  else if f = 16 then hv (·.wus)
  else if f = 17 then hv (fun r => r.bank != c.bank)
  else if f < 32 then bitOf c.u.toNat (f - 18)
  else if 4 ≤ n then false
  else
    let x := s.ch (4 * n + (f - 32) / 8)
    match f % 8 with
    | 0 => x.flags.sync1
    | 1 => x.flags.sync2
    | 2 => x.flags.decOk
    | 3 => x.flags.decFail
    | 4 => x.flags.vfyOk
    | 5 => x.flags.vfyFail
    | 6 => x.flags.wus
    | _ => !x.rq.isEmpty
/-- Flags 0 to 31 of a context, as a trap saves them (R161). -/
def State.flagWord (s : State) (n : Nat) : BitVec 32 :=
  BitVec.ofNat 32 ((List.range 32).foldl (fun a f => a + b2n (s.flagVal n f) * 2 ^ f) 0)
/-- A writable flag is set or cleared; any other is left (R154, R156). -/
def Ctx.putFlag (c : Ctx) (f : Nat) (v : Bool) : Ctx :=
  if f = 6 then { c with timeout := v }
  else if 18 ≤ f ∧ f < 32 then
    { c with u := if v then c.u ||| (1#14 <<< (f - 18)) else c.u &&& ~~~(1#14 <<< (f - 18)) }
  else c

/-! ### Running and stopping -/

/-- Fault source of a context (R169). -/
def ctxSrc (n : Nat) : Nat := if n < 4 then 48 + n else 52
/-- A context halts: SEQ_ERR.HALT and its source (R154, R169). -/
def State.haltCtx (s : State) (n : Nat) : State :=
  let s := s.modCtx n (fun c => { c with
    st := .halted, running := false, wait := .none, harvest := none, frame := none, stack := [], hold := 0, group := none })
  raise (ctxSrc n) (s.setW1c 0x1404 (4 + n))
/-- A context runs INIT (R158, R166). -/
def State.runInit (s : State) (n : Nat) : State :=
  if bitOf (s.fld 0x1400 0 5) n ∧ (s.ctx n).st ≠ .fenced then
    s.modCtx n (fun c => { Ctx.init with
      st := .run, running := true, bank := c.bank, rqMax := c.rqMax, lastTrap := c.lastTrap, upc := 0 })
  else s
/-- A routine starts at a vector (R157, R158). -/
def State.runVector (s : State) (n v : Nat) (f : Ctx → Ctx) : State :=
  s.modCtx n (fun c => f { c with
    st := .run, running := true, upc := BitVec.ofNat 13 v, stack := [], wait := .none })
/-- A routine ends (R149, R157). -/
def State.endRoutine (s : State) (n : Nat) : State :=
  s.modCtx n (fun c => { c with st := .idle, running := false, stack := [], wait := .none, group := none, late := false })
/-- A HARVEST run ends: the waiting routine goes on where it was (R149). -/
def State.endHarvest (s : State) (n : Nat) : State :=
  s.modCtx n (fun c => match c.harvest with
    | some (u, w, r) => { c with
        harvest := none, upc := u, wait := w, running := r, hcount := 0
        st := if c.frame.isSome then .trap else if r then (if w = .none then .run else .wait) else .idle }
    | none => c)
/-- A context that may act: not stopped, halted or fenced. -/
def Ctx.alive (c : Ctx) : Bool := c.st != .stopped && c.st != .halted && c.st != .fenced
/-- The slots of a group are dropped as late, R26 following (R28, R155). -/
def State.dropLate (s : State) (n : Nat) (g : Group) : State :=
  (s.groupSlots n g).foldl (fun s k => match s.slotAt k.1 k.2 with
    | some sl => if sl.unstarted then s.dropSlot k.1 k.2 .wasted true else s
    | none => s) s

/-! ### Dispatch (R149) -/

/-- A trap cause waits and no trap is in progress. -/
def Ctx.trapDue (c : Ctx) : Bool := c.alive && c.traps != 0 && c.frame.isNone && c.harvest.isNone

/-- GROUP_DISPATCH (R148, R149): with no routine running, the next group whose deadline has passed runs its vector. -/
def execGroupDispatch (ctx : Fin 5) (s : State) : Result :=
  let n := ctx.val
  let c := s.ctx n
  if !c.alive || c.running || c.trapDue || c.harvest.isSome then .next s
  else match s.nextGroup n with
    | none => .next s
    | some (g, due) =>
      if !due then .next s
      else
        let s := (s.groupSlots n g).foldl (fun s k => s.modSlot k.1 k.2 (fun sl => { sl with disp := true })) s
        .next (s.runVector n ((if n < 4 then 0x10 else 0x20) + g.kind.toNat) (fun c => { c with
          group := some g, timeout := false, late := false, abortSlot := false }))

/-- HARVEST (R149, R150): the vector runs once for the oldest result. -/
def execHarvest (ctx : Fin 5) (s : State) : Result :=
  let n := ctx.val
  let c := s.ctx n
  let guard := s.fld 0x1400 8 10
  let room := if c.running then (match c.wait with | .angle t => decide (s.posn + guard < t) | _ => false)
    else match s.nextGroup n with
      | some (g, due) => !due || decide (s.posn + guard < g.startPos)
      | none => true
  if 4 ≤ n || !c.alive || c.trapDue || c.frame.isSome || c.harvest.isSome || (s.harvestHead n).isNone || !room then .next s
  else .next (s.modCtx n (fun c => { c with
    harvest := some (c.upc, c.wait, c.running), upc := 5, wait := .none, running := true, st := .run, hcount := 0 }))

/-- TRAP (R160, R161): the pending cause of highest priority is taken, the frame saved, its vector run. -/
def execTrap (ctx : Fin 5) (s : State) : Result :=
  let n := ctx.val
  let c := s.ctx n
  if !c.trapDue then .next s
  else
    let k := ((List.range 4).find? (fun b => bitOf c.traps.toNat b)).getD 0
    let v := match k with | 0 => 2 | 1 => 3 | 2 => 1 | _ => 4
    let f : Frame := ⟨c.upc, c.lc0, c.lc1, s.flagWord n, c.stack, c.hold, c.wait, c.running⟩
    .next (s.modCtx n (fun c => { c with
      frame := some f, traps := c.traps &&& ~~~(1#4 <<< k)
      lastTrap := BitVec.ofNat 3 (match k with | 0 => 2 | 1 => 3 | 2 => 1 | _ => 4)
      upc := BitVec.ofNat 13 v, stack := [], hold := 0, wait := .none, running := true, st := .trap }))

/-! ### Nano-words (R152, R153) -/

/-- Field [lsb + w − 1 : lsb] of a nano-word. -/
def nanoFld (w : BitVec 160) (lsb n : Nat) : Nat := bitsOf w.toNat lsb n
/-- Fields with a reserved code (R152). -/
def nanoReserved (n : Nat) (w : BitVec 160) : Nat :=
  let hi := [(152, 4, 3), (148, 4, 2), (144, 4, 1), (140, 4, 3), (136, 4, 2), (132, 4, 1), (124, 8, 7), (116, 7, 5)]
  (hi.filter (fun x => decide (x.2.2 < nanoFld w x.1 x.2.1))).length +
    (if n = 4 ∧ 4 < nanoFld w 96 8 then 1 else 0)
/-- One entry a nano-word selects takes its commands. -/
def State.nanoSlot (s : State) (n : Nat) (w : BitVec 160) (k : Nat × Nat) : State :=
  let rd := nanoFld w 152 4
  let wr := nanoFld w 148 4
  let dma := nanoFld w 140 4
  let srv := nanoFld w 116 7
  let ssw := nanoFld w 96 8
  match s.slotAt k.1 k.2 with
  | none => s
  | some sl =>
    let arm := sl.st == .planned && (((rd == 1 || rd == 2) && isReadKind sl.e.kind.toNat && n != 4) ||
      (wr == 1 && isWriteKind sl.e.kind.toNat && n != 4) || (srv == 1 && sl.e.kind.toNat == (if n = 4 then 5 else 3)) ||
      (n == 4 && 1 ≤ ssw && decide (ssw ≤ 4) && sl.e.kind.toNat == ssw))
    let back := rd == 3 && isReadKind sl.e.kind.toNat && n != 4
    let s := s.modSlot k.1 k.2 (fun x => { x with
      st := if arm then .armed else if back ∧ x.st = .armed then .planned else x.st
      res := if back ∧ x.st = .executing then true else x.res
      vfyArm := x.vfyArm || nanoFld w 144 4 == 1
      dma := if 1 ≤ dma ∧ dma ≤ 3 then dma else x.dma
      ofs := if 2 ≤ srv ∧ srv ≤ 5 then srv else x.ofs })
    let s := if back ∧ sl.st = .executing then s.returnWork sl.work else s
    if wr = 2 ∧ k.1 < 32 then s.modCh (k.1 / 2) (fun c => { c with gate := false }) else s
/-- A nano-word reaches its units: entries by CHSEL, then RECOP, RPT and RESOP for the harvest head (R152, R153). -/
def State.nano (s : State) (n : Nat) (w : BitVec 160) : State :=
  let c := s.ctx n
  let s := s.count 189 (nanoReserved n w)
  let sel := nanoFld w 156 4
  let ks := match c.group with
    | some g =>
      if sel = 0 then s.groupSlots n g
      else (s.groupSlots n { g with mask := 0xF }).filter (fun k => match s.slotAt k.1 k.2 with
        | some sl => bitOf sel (slotPos k.1 sl.e) && !sl.isOver
        | none => false)
    | none => []
  let s := ks.foldl (fun s k => s.nanoSlot n w k) s
  let rpt := nanoFld w 124 8
  match if c.harvest.isSome then s.harvestHead n else none with
  | some r =>
    let s := if nanoFld w 136 4 = 1 then s.requestL1 r
      else if nanoFld w 136 4 = 2 then match s.workOf r.work with
        | some x => s.holdKept r.ch.val x.head.val x.track.toNat x.pos.toNat false
        | none => s
      else s
    let s := if bitOf w.toNat 123 then s.report r rpt else s
    if nanoFld w 132 4 = 1 then s.modCh r.ch.val (fun c => { c with rq := c.rq.drop 1 }) else s
  | none =>
    if bitOf w.toNat 123 || 4 ≤ n then s
    else ks.foldl (fun s k => match s.slotAt k.1 k.2 with
      | some sl => s.report ⟨k.1 % 2 == 1, k.2, isWriteKind sl.e.kind.toNat, rpt % 2 == 1, sl.cut, false, fin16 (k.1 / 2), 0,
          sl.work, sl.e.bufref.toNat⟩ rpt
      | none => s) s

/-! ### Micro-ops (R154) -/

/-- Microword at the context's micro-PC (R151). -/
def State.uword (s : State) (n : Nat) : Word := tget 0xF0000000 s.seq.micro (s.ctx n).upc.toNat
/-- Class, field A and field B of a microword (R151). -/
def uClass (w : Word) : Nat := bitsOf w.toNat 28 4
/-- Field A. -/
def uA (w : Word) : Nat := bitsOf w.toNat 16 12
/-- Field B. -/
def uB (w : Word) : Nat := bitsOf w.toNat 0 16
/-- The context runs a routine and its next micro-op is of that class (R157). -/
def State.atOp (s : State) (n cls : Nat) : Bool :=
  let c := s.ctx n
  c.alive && c.running && c.wait == .none && uClass (s.uword n) == cls
/-- A micro-op a HARVEST run may use (R159). -/
def harvestOp (cls : Nat) : Bool := cls == 0 || cls == 1 || cls == 5 || cls == 6 || cls == 8 || cls == 13
/-- Run micro-op `cls` of context `n`: a misused or 33rd one of a HARVEST run halts (R159). `f` is its effect. -/
def State.microOp (s : State) (n cls : Nat) (f : State → State) : State :=
  if !s.atOp n cls then s
  else if (s.ctx n).harvest.isSome then
    if !harvestOp cls || decide (32 ≤ (s.ctx n).hcount) then s.haltCtx n
    else f (s.modCtx n (fun c => { c with hcount := c.hcount + 1 }))
  else f s
/-- The micro-PC moves on by one (R157). -/
def State.next (s : State) (n : Nat) : State := s.modCtx n (fun c => { c with upc := c.upc + 1 })
/-- The micro-PC takes field B (R157). -/
def State.jump (s : State) (n : Nat) : State :=
  let t := BitVec.ofNat 13 (uB (s.uword n))
  s.modCtx n (fun c => { c with upc := t })
/-- A wait of the context begins. -/
def State.await (s : State) (n : Nat) (w : Wait) : State :=
  s.modCtx n (fun c => { c with wait := w, st := if c.frame.isSome then .trap else .wait })
/-- A wait ends and the routine continues behind it. -/
def State.resume (s : State) (n : Nat) : State :=
  s.modCtx n (fun c => { c with wait := .none, upc := c.upc + 1, st := if c.frame.isSome then .trap else .run })

/-- NOP (R154). -/
def execNop (ctx : Fin 5) (s : State) : Result := .next (s.microOp ctx.val 0 (fun s => s.next ctx.val))

/-- A nano-word is sent and its HOLD begins; a run context that names SSWOP halts (R152, R153). -/
def State.issueOp (s : State) (n : Nat) (after : State → State) : State :=
  if (s.ctx n).hold != 0 then s
  else
    let w := tget 0 s.seq.nano (uA (s.uword n) % 2048)
    if n < 4 ∧ nanoFld w 96 8 ≠ 0 then s.haltCtx n
    else after ((s.nano n w).modCtx n (fun c => { c with hold := BitVec.ofNat 8 (nanoFld w 104 8) }))

/-- ISSUE (R154). -/
def execIssue (ctx : Fin 5) (s : State) : Result :=
  .next (s.microOp ctx.val 1 (fun s => s.issueOp ctx.val (fun s => s.next ctx.val)))
/-- ISSUEW (R154): as ISSUE, then it waits for every target. -/
def execIssuew (ctx : Fin 5) (s : State) : Result :=
  .next (s.microOp ctx.val 2 (fun s => s.issueOp ctx.val (fun s => s.await ctx.val .ack)))
/-- ISSUEW_ACK (R154): every target has acknowledged. -/
def execIssuewAck (ctx : Fin 5) (s : State) : Result :=
  .next (if (s.ctx ctx.val).wait = .ack then s.resume ctx.val else s)
/-- ISSUEW_TIMEOUT (R154): where field B gives a timeout, TIMEOUT is set and the routine continues. -/
def execIssuewTimeout (ctx : Fin 5) (s : State) : Result :=
  let n := ctx.val
  .next (if (s.ctx n).wait = .ack ∧ uB (s.uword n) ≠ 0 then
    (s.resume n).modCtx n (fun c => { c with timeout := true }) else s)
/-- HOLD_EXPIRY (R152): the next nano-word may be issued. -/
def execHoldExpiry (ctx : Fin 5) (s : State) : Result := .next (s.modCtx ctx.val (fun c => { c with hold := 0 }))

/-- BPR of a group's lowest entry, for END (R155). -/
def State.groupBpr (s : State) (n : Nat) (g : Group) : Nat :=
  match (s.groupSlots n g).head? with
  | some k => match s.slotAt k.1 k.2 with
    | some sl =>
      let h := if n < 4 then slotHead sl.e n else sl.e.hs.toNat
      (if sl.e.sys || sl.e.kind.toNat == 4 || sl.e.kind.toNat == 5 then bootZone else fzoneOf s.recs.geom h (slotTrack sl.e)).bpr
    | none => bootZone.bpr
  | none => bootZone.bpr
/-- Target position of a WAITA (R155): base 0 START, 1 DEADLINE, 2 END, plus field B. -/
def State.waitTarget (s : State) (n : Nat) (g : Group) (base b : Nat) : Int :=
  let rev : Int := g.rev.toNat * revAC
  let st : Int := g.start.toNat
  let at_ : Int := match base with
    | 1 => max 0 (st - s.fld 0x1410 0 17)
    | 2 => st + endSpan (s.groupBpr n g)
    | _ => st
  rev + at_ + ofTwos 16 b
/-- A group that missed its WAITA is dropped late and the LATE vector runs, the IN_GRP flags as they were (R155). -/
def State.missed (s : State) (n : Nat) (g : Group) : State :=
  (s.dropLate n g).runVector n 6 (fun c => { c with group := some g, late := true, frame := none })
/-- WAITA (R155). -/
def execWaita (ctx : Fin 5) (s : State) : Result :=
  let n := ctx.val
  .next (s.microOp n 3 (fun s =>
    match (s.ctx n).group with
    | none => (s.next n).modCtx n (fun c => { c with timeout := true })
    | some g =>
      let t := s.waitTarget n g (bitsOf (uA (s.uword n)) 10 2) (uB (s.uword n))
      if t < (s.posn : Int) then s.missed n g else s.await n (.angle t.toNat)))
/-- WAITA_REACHED (R155): the position has reached the target, in this revolution or before (log 3). -/
def execWaitaReached (ctx : Fin 5) (s : State) : Result :=
  match (s.ctx ctx.val).wait with
  | .angle t =>
    .next (if t ≤ s.posn then s.resume ctx.val
      else if s.spinning && t / revAC == s.atb.rev.toNat then (s.toAngle (t % revAC)).resume ctx.val else s)
  | _ => .next s
/-- WAITC (R154): it waits for a flag to be set or clear. -/
def execWaitc (ctx : Fin 5) (s : State) : Result :=
  let n := ctx.val
  .next (s.microOp n 4 (fun s =>
    let a := uA (s.uword n)
    if s.flagVal n (a % 64) = bitOf a 11 then s.next n else s.await n (.flag (BitVec.ofNat 6 a) (bitOf a 11))))
/-- WAITC_MET (R154): the flag has its value. -/
def execWaitcMet (ctx : Fin 5) (s : State) : Result :=
  match (s.ctx ctx.val).wait with
  | .flag f v => .next (if s.flagVal ctx.val f.toNat = v then s.resume ctx.val else s)
  | _ => .next s
/-- WAITC_TIMEOUT (R154): where field B gives a timeout, TIMEOUT is set and the routine continues. -/
def execWaitcTimeout (ctx : Fin 5) (s : State) : Result :=
  let n := ctx.val
  match (s.ctx n).wait with
  | .flag _ _ => .next (if uB (s.uword n) ≠ 0 then (s.resume n).modCtx n (fun c => { c with timeout := true }) else s)
  | _ => .next s
/-- BR (R154). -/
def execBr (ctx : Fin 5) (s : State) : Result :=
  let n := ctx.val
  .next (s.microOp n 5 (fun s =>
    if s.flagVal n (uA (s.uword n) % 64) = bitOf (uA (s.uword n)) 11 then s.jump n else s.next n))
/-- JMP (R154). -/
def execJmp (ctx : Fin 5) (s : State) : Result := .next (s.microOp ctx.val 6 (fun s => s.jump ctx.val))
/-- CALL (R154): a fifth push halts the context with SEQ_ERR.STACK. -/
def execCallOp (ctx : Fin 5) (s : State) : Result :=
  let n := ctx.val
  .next (s.microOp n 7 (fun s =>
    if 4 ≤ (s.ctx n).stack.length then (s.setW1c 0x1404 (9 + n)).haltCtx n
    else (s.modCtx n (fun c => { c with stack := (c.upc + 1) :: c.stack })).jump n))
/-- RET (R154, R162): pops; with an empty stack it ends the routine, a HARVEST run, or a handler together with the routine it
interrupted, whose group's slots are abandoned. -/
def execRet (ctx : Fin 5) (s : State) : Result :=
  let n := ctx.val
  .next (s.microOp n 8 (fun s =>
    let c := s.ctx n
    if c.harvest.isSome then s.endHarvest n
    else match c.stack with
      | a :: t => s.modCtx n (fun c => { c with upc := a, stack := t })
      | [] =>
        if c.frame.isSome then
          let s := match c.group with
            | some g => (s.groupSlots n g).foldl (fun (s : State) (k : Nat × Nat) => s.dropSlot k.1 k.2 .wasted false) s
            | none => s
          (s.modCtx n (fun c => { c with frame := none })).endRoutine n
        else s.endRoutine n))
/-- LOOP (R154): the counter falls by one, and the branch is taken while it is not 0. -/
def execLoopOp (ctx : Fin 5) (s : State) : Result :=
  let n := ctx.val
  .next (s.microOp n 9 (fun s =>
    let one := bitOf (uA (s.uword n)) 0
    let v := (if one then (s.ctx n).lc1 else (s.ctx n).lc0) - 1
    let s := s.modCtx n (fun c => if one then { c with lc1 := v } else { c with lc0 := v })
    if v ≠ 0 then s.jump n else s.next n))
/-- LDC (R154): a counter takes field B, or the number of bits in the group's mask. -/
def execLdc (ctx : Fin 5) (s : State) : Result :=
  let n := ctx.val
  .next (s.microOp n 10 (fun s =>
    let a := uA (s.uword n)
    let m := match (s.ctx n).group with | some g => (setBits 4 g.mask.toNat).length | none => 0
    let v : BitVec 16 := BitVec.ofNat 16 (if bitsOf a 8 2 = 0 then uB (s.uword n) else m)
    (s.modCtx n (fun c => if bitOf a 0 then { c with lc1 := v } else { c with lc0 := v })).next n))
/-- SETF (R154). -/
def execSetf (ctx : Fin 5) (s : State) : Result :=
  let n := ctx.val
  .next (s.microOp n 11 (fun s =>
    let f := uA (s.uword n) % 64
    (s.modCtx n (fun c => c.putFlag f true)).next n))
/-- CLRF (R154). -/
def execClrf (ctx : Fin 5) (s : State) : Result :=
  let n := ctx.val
  .next (s.microOp n 12 (fun s =>
    let f := uA (s.uword n) % 64
    (s.modCtx n (fun c => c.putFlag f false)).next n))
/-- EVT (R154, R158): an event record with the context, the micro-PC and the entry of the group's lowest channel. -/
def execEvt (ctx : Fin 5) (s : State) : Result :=
  let n := ctx.val
  .next (s.microOp n 13 (fun s =>
    let ws := match (s.ctx n).group with
      | some g => match (s.groupSlots n g).head? with
        | some k => match s.slotAt k.1 k.2 with
          | some sl => let w := slotWords sl.e; [w.1.toNat, w.2.1.toNat, w.2.2.1.toNat, w.2.2.2.toNat]
          | none => [0, 0, 0, 0]
        | none => [0, 0, 0, 0]
      | none => [0, 0, 0, 0]
    (s.event (0x4800 + uA (s.uword n) % 2048) (min 4 (uB (s.uword n) % 8)) ((n * 2 ^ 29 + (s.ctx n).upc.toNat) :: ws)).next n))
/-- TRAPRET (R154, R162): outside a trap it acts as NOP. -/
def execTrapret (ctx : Fin 5) (s : State) : Result :=
  let n := ctx.val
  .next (s.microOp n 14 (fun s =>
    match (s.ctx n).frame with
    | none => s.next n
    | some f => s.modCtx n (fun c => { c with
        frame := none, upc := f.upc, lc0 := f.lc0, lc1 := f.lc1, stack := f.stack, hold := f.hold, wait := .none
        timeout := bitOf f.flags.toNat 6, u := BitVec.ofNat 14 (bitsOf f.flags.toNat 18 14), running := f.running
        st := if f.running then .run else .idle })))
/-- HALT (R154). -/
def execHalt (ctx : Fin 5) (s : State) : Result := .next (s.microOp ctx.val 15 (fun s => s.haltCtx ctx.val))

/-! ### Images (R164 to R167) -/

/-- Microwords and nano-words an image holds (R164). -/
def imgWords (b : List Byte) : Nat × Nat := (leAt b 12 2, leAt b 14 2)
/-- Why an image is refused, as MICROCODE LOAD's RESULT codes it; 0 when it is accepted (R165, R319). -/
def State.imageCause (s : State) (b : List Byte) : Nat :=
  let m := (imgWords b).1
  let n := (imgWords b).2
  let slot := leAt b 24 1
  if !(leAt b 0 4 == 0x4B534245 && leAt b 4 1 == 1 && decide (1 ≤ leAt b 5 1) && zeros b 6 2 && within m 64 8192 &&
      within n 1 2048 && within slot 0 3 && zeros b 25 39 && b.length == 160 + 4 * m + 20 * n) then 1
  else if 2 < leAt b 5 1 then 2
  else if leAt b 8 4 < s.nv.isvnMin.toNat then 3
  else if !(List.range 64).all (fun i => leAt b (64 + 4 * i) 4 / 2 ^ 28 == 6 || leAt b (64 + 4 * i) 4 / 2 ^ 28 == 15) then 4
  else if bitOf s.nv.revoked.toNat slot || !Config.sigOk (Config.makerKey slot) (b.take (b.length - 96)) (b.drop (b.length - 96))
    then 5
  else 0
/-- An accepted image is loaded into both stores and every enabled context runs INIT (R165 to R167). -/
def State.installImage (s : State) (b : List Byte) : State :=
  let m := (imgWords b).1
  let n := (imgWords b).2
  let s : State := { s with
    seq.micro := (List.range m).map (fun i => (i, BitVec.ofNat 32 (leAt b (64 + 4 * i) 4)))
    seq.nano := (List.range n).map (fun i => (i, BitVec.ofNat 160 (leAt b (64 + 4 * m + 20 * i) 20)))
    seq.isvn := BitVec.ofNat 32 (leAt b 8 4), seq.keySlot := BitVec.ofNat 8 (leAt b 24 1), seq.pendImg := none }
  (List.range 5).foldl (fun s n => s.runInit n) s
/-- The version of an image, as R398 and R390 use it. -/
def imgSvn (b : List Byte) : Nat := leAt b 8 4

/-- MICROCODE_BOOT (R166): the primary image, else the alternate; with neither, no context runs and event 0x4000. The power-up
table of R432 brings the HQI ready at the same step, whatever the image. -/
def execMicrocodeBoot (primary alternate : List Byte) (s : State) : Result :=
  if s.ready 3 || !s.domainCore then .next s
  else
    let s := s.setReady 4 true
    let a := s.imageCause primary
    let b := s.imageCause alternate
    if a = 0 then .next ((s.installImage primary).setReady 3 true)
    else if b = 0 then .next ((s.installImage alternate).setReady 3 true)
    else .next (s.event 0x4000 4 [a, b])

/-- No bank holds a slot that has not ended, no result waits, no routine or trap runs (R167). -/
def State.seqQuiet (s : State) : Bool :=
  s.seq.banks.all (fun e => e.2.all (·.isOver)) && s.chs.all (fun c => c.2.rq.isEmpty && c.2.vfy.isEmpty) &&
  s.seq.ctx.all (fun c => !c.2.running && c.2.frame.isNone && c.2.harvest.isNone)

/-- MICROCODE_INSTALL (R167): at an index with all of it quiet, the accepted image is loaded and its command completes. -/
def execMicrocodeInstall (s : State) : Result :=
  match s.seq.pendImg with
  | none => .next s
  | some (b, tag) =>
    if !s.seqQuiet || !s.spinning || s.atb.ac != 0 then .next s
    else .next ((s.installImage b).finish 0 tag stSuccess 0)

end Sys2Proof.Machine
end

