-- ==== Sys2Proof/Machine/Pal.lean ====
section
/-! DEFINITION. The preamplifier links (R465, R466): frames sent, acknowledged, repeated; STATUS. -/
namespace Sys2Proof.Machine

open Sys2Proof

/-- A PAL frame: SYNC, CMD, POS, SEQ, DATA, CRC-8 over bits [39:8] (R465). -/
def palFrame (cmd pos seq data : Nat) : BitVec 48 :=
  let body := (cmd % 16) * 2 ^ 28 + (pos % 4) * 2 ^ 26 + (seq % 4) * 2 ^ 24 + data % 2 ^ 24
  BitVec.ofNat 48 (0x5C * 2 ^ 40 + body * 2 ^ 8 + crc8 32 body)
/-- Is a received frame good: SYNC and CRC (R465)? -/
def palOk (f : BitVec 48) : Bool := bitsOf f.toNat 40 8 == 0x5C && bitsOf f.toNat 0 8 == crc8 32 (bitsOf f.toNat 8 32)
/-- CMD of a frame. -/
def palCmd (f : BitVec 48) : Nat := bitsOf f.toNat 36 4
/-- POS of a frame. -/
def palPos (f : BitVec 48) : Nat := bitsOf f.toNat 34 2
/-- SEQ of a frame. -/
def palSeqOf (f : BitVec 48) : Nat := bitsOf f.toNat 32 2
/-- DATA of a frame. -/
def palData (f : BitVec 48) : Nat := bitsOf f.toNat 8 24

/-- A frame goes to position `p` of actuator `a`, and waits for its ACK (R465, R466). -/
def State.palSend (s : State) (a : Fin 4) (p cmd data : Nat) : State :=
  let f := palFrame cmd p (tget 0 (s.act a.val).palSeq p) data
  (s.modAct a.val (fun x => { x with
    palSeq := tset x.palSeq p ((tget 0 x.palSeq p + 1) % 4), palWait := x.palWait ++ [(p, f, 1)] })).send (.pal a f)

/-- PAL_ACK (R465, R466): the acknowledged frame no longer waits. -/
def execPalAck (act : Fin 4) (frame : BitVec 48) (s : State) : Result :=
  if !palOk frame || palCmd frame != 9 then .next s
  else .next (s.modAct act.val (fun x => { x with
    palWait := x.palWait.eraseP (fun w => w.1 == palPos frame && palSeqOf w.2.1 == palSeqOf frame &&
      palCmd w.2.1 == bitsOf (palData frame) 20 4) }))

/-- PAL_STATUS (R465): the preamplifier's faults are taken in. -/
def execPalStatus (act : Fin 4) (frame : BitVec 48) (s : State) : Result :=
  if !palOk frame || palCmd frame != 8 then .next s
  else .next (s.modAct act.val (fun x => { x with palStatus := BitVec.ofNat 24 (palData frame) }))

/-- PAL_ACK_TIMEOUT (R141, R466): the oldest frame that waits at a position is sent once more; a second miss raises the
channel's source. -/
def execPalAckTimeout (act : Fin 4) (pos : Fin 4) (s : State) : Result :=
  match (s.act act.val).palWait.find? (fun w => w.1 == pos.val) with
  | none => .next s
  | some w =>
    let drop := s.modAct act.val (fun x => { x with palWait := x.palWait.eraseP (fun v => v.1 == pos.val) })
    if w.2.2 < 2 then
      .next ((s.modAct act.val (fun x => { x with palWait := x.palWait.map (fun v => if v = w then (w.1, w.2.1, 2) else v) })).send
        (.pal act w.2.1))
    else .next (raise (16 + 2 * (4 * act.val + pos.val)) drop)

/-! ### What a head's parameters give (R122, R124, R126) -/

/-- Offset of entry `e` of a head in the channel parameter record in force; none before one is accepted. -/
def State.entryOfs (s : State) (head e : Nat) : Option (List Byte × Nat) :=
  let b := tget [] s.recs.bytes (4 * 7 + head / 16)
  ((paramHeads b (leAt b 6 2) 32).find? (fun h => h.2.1 == head)).map (fun h => (b, h.1 + 16 + 384 * e))
/-- Heater code for a revolution and BIAS of a head (R126); a boot set's are no rule's, free values (R124, log 25). -/
def State.heaterBias (s : State) (head e : Nat) (wr : Bool) : Nat × Nat :=
  match s.entryOfs head e with
  | some (b, o) => (leAt b (o + if wr then 8 else 10) 2, leAt b (o + 12) 1)
  | none => (Config.freeNat s.free % 1024, Config.freeNat (s.free + 1) % 256)

end Sys2Proof.Machine
end

