-- ==== Sys2Proof/Machine/Planner.lean ====
section
/-! DEFINITION. Revolution planning (01): the cut-off, commits and their conditions, deadlines, buffer grants, slots that
start and end; the test of head sets at the cut-off (R95). -/
namespace Sys2Proof.Machine

open Sys2Proof

/-! ### Media buffers (R230, R231, R234) -/

/-- Does a slot still need its buffer: it has not ended, or its outcome has not been taken? -/
def State.slotHolds (s : State) (k i : Nat) (sl : Slot) : Bool :=
  !sl.isOver || (sl.st == .ended .retired && isReadKind sl.e.kind.toNat && !sl.res) ||
  (s.ch (k / 2)).rq.any (fun r => r.idx == i && b2n r.bank == k % 2 && !r.vfy)
/-- A media buffer is free for the slot (`k`, `i`): no other slot holds it, and no retired page lies in it. -/
def State.bufFree (s : State) (b k i : Nat) : Bool :=
  b != 0 && s.seq.banks.all (fun e => (List.range e.2.length).all (fun j => match e.2[j]? with
    | some sl => sl.e.bufref.toNat != b || (e.1 == k && j == i) || !s.slotHolds e.1 j sl
    | none => true)) &&
  !s.buf.noPool.any (fun p => decide (mediaBuf b < 4096 * p + 4096) && decide (4096 * p < mediaBuf b + 4160))

/-! ### What a write slot carries (R50, R63, R68, R69, R208) -/

/-- Information of a write slot but for WREV and HCRC, which the writer completes: header and payload. -/
def State.writeInfo (s : State) (w : Work) : List Byte :=
  let conv := ((s.nv.convRange).map (·.toNat)).getD 0
  match w.zone with
  | none =>
    match (s.parityPos w.tgn.toNat).find? (fun p => p.2.1 == w.head.val && p.2.2.1 == w.track.toNat && p.2.2.2 == w.pos.toNat) with
    | none => List.replicate 4128 0
    | some (m, _, _, j) =>
      let z := (s.zoneOf w.tgn).getD 0
      let g := (s.zone z).groups.find? (fun g => g.tgn == w.tgn)
      let a := match g.bind (·.acc) with | some k => s.accOf k.val j | none => ([], [])
      let f := fun (x y : Byte) => BitVec.ofNat 8 (if m = 30 then parity30 x.toNat y.toNat else parity31 x.toNat y.toNat)
      hdrBytes (blkFlags false true false false false) 0 z j w.tgn.toNat 0 0xFFFFFFFF 0 ++ leBytes 4 0 ++
        padTo 4096 (List.zipWith f a.1 a.2)
  | some z =>
    match s.cmp.blks.find? (fun b => b.zone == z && b.sbi == w.sbi) with
    | none => List.replicate 4128 0
    | some b =>
      let h := if z < convZone then
          let link := match b.link with
            | some o => o
            | none => if b.loc then match (s.unit? b.csec).bind (fun u => u.locs.find? (fun l => l.sbi == b.sbi)) with
                | some l => l.prevLb.toNat
                | none => 0xFFFFFFFF
              else 0
          hdrBytes (blkFlags b.raw false b.loc b.link.isSome false) (s.zone z).key.toNat z b.sbi w.tgn.toNat 0 b.chunk link
        else if z = convZone then hdrBytes (blkFlags true false false false true) conv 0 b.sbi w.tgn.toNat 0 0xFFFFFFFF 0
        else hdrBytes (blkFlags true false b.loc false true) conv 0 b.sbi w.tgn.toNat 0 0xFFFFFFFF b.csec.toNat
      h ++ leBytes 4 0 ++ padTo 4096 b.data
/-- Information as it goes to the writer in this revolution: WREV and HCRC completed (R52, R208). -/
def State.sealInfo (s : State) (info : List Byte) : List Byte :=
  blockInfo (info.take 16 ++ leBytes 4 s.atb.rev.toNat ++ (info.drop 20).take 8) (info.drop 32)
/-- The media buffer of a write slot takes its content. -/
def State.fillBuffer (s : State) (b : Nat) (w : Work) : State := s.store (mediaBuf b) (s.writeInfo w)

/-! ### Cut-off (R19, R22, R95) -/

/-- Heads of an open group's set that R95 takes away: on a fenced channel, or beyond their strokes at the group's current
track position. -/
def State.lostHeads (s : State) (gm : Geom) (z : Nat) (g : ZGroup) : List Nat :=
  let h := gm.set (tgnSet g.tgn.toNat)
  let cur := match s.locate z (s.zone z).nextPos with
    | some (_, _, _, t, _) => t
    | none => tgnTrk g.tgn.toNat
  let c := midOf (h.heads.filterMap (fun x => s.dhl x cur))
  (List.range h.heads.length).filterMap (fun p => match h.heads[p]? with
    | none => none
    | some x =>
      let far := match s.calHead x, s.dhl x cur, s.calib h.act with
        | some k, some d, some r => if 0 ≤ c - d then decide (((k.strokePos : Int) - r.margin) * 16 < c - d)
            else decide (((k.strokeNeg : Int) - r.margin) * 16 < d - c)
        | _, _, _ => true
      if (s.ch (4 * h.act + p)).fenced || far then some x else none)
/-- Blocks of an open group that are not yet written, the lowest first index. -/
def State.firstUnwritten (s : State) (z : Nat) (g : ZGroup) : Nat :=
  let bs := (s.cmp.blks.filter (fun b => b.zone == z && decide (g.firstSbi ≤ b.sbi) && !b.written)).map (·.sbi)
  bs.foldl min (max (s.zone z).nextPos g.firstSbi)
/-- An open group loses heads (R95, R474): skips of cause 3 for their unwritten positions, the contributions of moved final
blocks moved, their slots withdrawn, the blocks given their new positions. Where the table has no room, or no position is
left, the group closes (R178, R191). -/
def State.loseHeads (s : State) (gm : Geom) (z : Nat) (g : ZGroup) : State :=
  let heads := s.lostHeads gm z g
  let lo := s.firstUnwritten z g
  let gone := ((s.groupOrder gm g.tgn.toNat).drop (lo - g.firstSbi)).filter (fun p => heads.contains p.2.1)
  if gone = [] then s
  else
    let moved := s.cmp.blks.filter (fun b => b.zone == z && decide (lo ≤ b.sbi) && !b.written)
    let ws := (s.rpl.work.filter (fun w => isWriteKind w.kind.toNat && w.zone == some z &&
      moved.any (fun b => b.sbi == w.sbi))).map (·.num)
    let s := s.withdrawWork ws
    let s : State := { s with rpl.work := s.rpl.work.filter (fun w => !ws.contains w.num) }
    let s := moved.foldl (fun s b => if b.final then s.xtpToggle z b.sbi b.data else s) s
    let (s, ok) := gone.foldl (fun (p : State × Bool) q =>
      let r := p.1.rltAdd (skipEnt (fin64 q.2.1) q.2.2.1 q.2.2.2 3 false)
      (r.1, p.2 && r.2)) (s, true)
    let s : State := { s with cmp.blks := s.cmp.blks.map (fun b =>
      if b.zone = z ∧ lo ≤ b.sbi ∧ !b.written then { b with final := false } else b) }
    let left := decide (lo < g.firstSbi + s.groupSize g.tgn.toNat)
    let s := if ok && left then s else s.closeGroup z
    s.pumpWrites none
/-- Every open group is tested (R95). -/
def State.testSets (s : State) : State :=
  match s.recs.geom with
  | none => s
  | some gm => s.zon.zones.foldl (fun s e => match (s.zone e.1).lastGroup with
      | some g => if g.isOpen then s.loseHeads gm e.1 g else s
      | none => s) s

/-- The planner plans nothing: an image waits, a handover is under way, or it was told to (R167, R373, R439). -/
def State.planHalted (s : State) : Bool := s.rpl.halt || s.seq.pendImg.isSome || s.pair.yielding || s.flt.stop
/-- Channels the planner leaves out from this cut-off on (R142). -/
def State.noPlans (s : State) : State :=
  (List.range 16).foldl (fun s n => s.modCh n (fun c => { c with noPlan := c.fenced || s.flag (chReg n 0) 31 || c.testReq })) s
/-- Classes that RPL_AGE puts at rank 0 for the revolution to be planned, their count starting again (R22). -/
def State.ageClasses (s : State) : State :=
  let age := s.fld 0x1704 0 16
  let l := (s.rpl.unserved.filter (fun e => age != 0 && decide (age ≤ e.2))).map (·.1)
  { s with rpl.aged := l, rpl.unserved := s.rpl.unserved.map (fun e => if l.contains e.1 then (e.1, 0) else e) }

/-- CUTOFF (R19, R22, R95, R142): the work list is frozen for the next revolution. -/
def execCutoff (s : State) : Result :=
  if !s.spinning || s.rpl.planning == some (s.atb.rev + 1) || decide (revAC - s.fld 0x1708 0 21 < s.atb.ac.toNat) then .next s
  else
    let s := ((((s.toAngle (revAC - s.fld 0x1708 0 21)).noPlans).testSets).settle).pumpParity.ageClasses
    .next { s with
      rpl.planning := some (s.atb.rev + 1), rpl.frozen := (s.rpl.work.filter (fun w => !w.placed)).map (·.num) }

/-! ### Commits (R20 to R22) -/

/-- Bits per revolution of a slot's block (R39, R64). -/
def State.slotBpr (s : State) (a : Nat) (e : SlotEntry) : Nat :=
  (if e.sys || e.kind.toNat == 4 || e.kind.toNat == 5 then bootZone else fzoneOf s.recs.geom (slotHead e a) (slotTrack e)).bpr
/-- Angle a slot takes on its channel: 4,720 bytes, a SEEK nothing (R42, R147). -/
def State.slotLen (s : State) (a : Nat) (e : SlotEntry) : Nat :=
  if e.kind.toNat = 3 then 0 else ceilDiv (37760 * revAC) (s.slotBpr a e)
/-- Calibrated seek and settle angle of a move (R82). -/
def State.seekAc (s : State) (a fr dest : Nat) : Nat :=
  match s.calib a with
  | some c => (c.seek[seekBin (if fr ≤ dest then dest - fr else fr - dest)]?).getD 0
  | none => 0
/-- Where an actuator stands when the next revolution begins: head set, track, and the angle from which its slots may start. -/
def State.standing (s : State) (a : Nat) : Option (BitVec 6) × Nat × Nat :=
  let sk := (List.range 4).flatMap (fun p => (s.bank (s.activeKey (4 * a + p))).filter (fun sl => sl.unstarted && sl.e.kind.toNat == 3))
  match sk.foldl (fun (m : Option Slot) sl => match m with
      | some x => if x.e.startAc.toNat ≤ sl.e.startAc.toNat then some sl else m
      | none => some sl) none with
  | some sl => (some sl.e.hs, slotTrack sl.e, sl.e.startAc.toNat + s.seekAc a (s.act a).track.toNat (slotTrack sl.e) - revAC)
  | none => match (s.act a).seek with
    | some (h, t, p) => (some h, t.toNat + p.toNat, 0)
    | none => ((s.act a).lastSet, (s.act a).track.toNat, 0)
/-- Seeks and tracks of a plan, in order of start angle (R21): each slot on the track of the last seek before it and no earlier
than that seek's angle allows. -/
def State.seeksOk (s : State) (a : Nat) : Option (BitVec 6) → Nat → Nat → List PlanSlot → Bool
  | _, _, _, [] => true
  | hs, trk, rdy, p :: t =>
    if p.entry.kind.toNat = 3 then
      decide (rdy ≤ p.entry.startAc.toNat) && s.seeksOk a (some p.entry.hs) (slotTrack p.entry)
        (p.entry.startAc.toNat + s.seekAc a trk (slotTrack p.entry)) t
    else (isReservedKind p.entry.kind.toNat ||
        (hs == some p.entry.hs && slotTrack p.entry == trk && decide (rdy ≤ p.entry.startAc.toNat))) && s.seeksOk a hs trk rdy t
/-- Angles of one channel's slots: rising, no two overlapping; `lo` is where the one before ends (R21). -/
def State.spansOk (s : State) (a : Nat) : Nat → List PlanSlot → Bool
  | _, [] => true
  | lo, p :: t =>
    if p.entry.kind.toNat = 3 then s.spansOk a lo t
    else decide (lo ≤ p.entry.startAc.toNat) && s.spansOk a (p.entry.startAc.toNat + s.slotLen a p.entry) t
/-- Angle up to which slots of the revolution before run into the next one on a channel (R21). -/
def State.tailOf (s : State) (ch : Nat) : Nat :=
  (s.bank (s.activeKey ch)).foldl (fun n sl => if sl.isOver then n else max n (sl.e.startAc.toNat + s.slotLen (ch / 4) sl.e - revAC)) 0
/-- Start angles never fall along a list. -/
def risingStarts : List PlanSlot → Bool
  | p :: q :: t => decide (p.entry.startAc.toNat ≤ q.entry.startAc.toNat) && risingStarts (q :: t)
  | _ => true
/-- Writes of one zone stream along a plan: stream block index and ORD rise together (R21, R144). -/
def streamRising : List (Nat × SlotEntry) → Bool
  | p :: q :: t => decide (p.1 < q.1) && p.2.stream == q.2.stream && decide (p.2.ord.toNat < q.2.ord.toNat) && streamRising (q :: t)
  | _ => true
/-- May one slot stand in a plan of actuator `a` (R21, R93, R142, R145, R147)? -/
def State.planSlotOk (s : State) (a : Nat) (p : PlanSlot) : Bool :=
  let e := p.entry
  let free := (List.range 4).find? (fun q => !(s.ch (4 * a + q)).fenced)
  p.ch.val / 4 == a && !(s.ch p.ch.val).fenced && !(s.ch p.ch.val).noPlan && e.kind != 0 &&
  (if isReservedKind e.kind.toNat then true
   else if e.kind.toNat = 3 then e.bufref == 0 && free == some (p.ch.val % 4)
   else match s.workOf p.work with
    | none => false
    | some w => s.rpl.frozen.contains w.num && !w.placed && w.act.val == a && w.kind == e.kind && w.cls == p.cls &&
        w.head.val == slotHead e a && w.track.toNat == slotTrack e && w.pos == e.pos &&
        e.startAc.toNat == s.startOf w.head.val w.track.toNat w.pos.toNat && e.bufref != 0 &&
        (match s.recs.geom with
         | some g => e.sys || e.kind.toNat == 4 || e.kind.toNat == 5 || (g.set e.hs.toNat).heads[p.ch.val % 4]? == some w.head.val
         | none => true))
/-- Does a plan keep the constraints of R21? The planner's choice among plans that do is its own (R22; log 7). -/
def State.planOk (s : State) (a : Nat) (plan : List PlanSlot) : Bool :=
  let st := s.standing a
  let wk := fun (p : PlanSlot) => p.entry.kind.toNat != 3 && !isReservedKind p.entry.kind.toNat
  let ws := (plan.filter wk).map (·.work)
  let zs := (plan.filter (fun p => p.entry.kind.toNat == 2)).filterMap (fun p =>
    (s.workOf p.work).bind (fun w => w.zone.bind (fun z => if z < convZone then some (z, w.sbi, p.entry) else none)))
  plan.all (fun p => s.planSlotOk a p) && risingStarts plan && decide ws.Nodup &&
  decide ((plan.filter wk).map (fun p => p.entry.bufref.toNat)).Nodup &&
  s.seeksOk a st.1 st.2.1 st.2.2 plan &&
  (List.range 4).all (fun q =>
    let l := plan.filter (fun p => p.ch.val == 4 * a + q)
    decide (l.length ≤ 1536) && s.spansOk a (s.tailOf (4 * a + q)) l &&
    (s.bank (s.pendKey (4 * a + q))).all (·.isOver) && (s.ch (4 * a + q)).vfy.all (fun v => v.1 == (s.ctx a).bank)) &&
  zs.all (fun x => streamRising ((zs.filter (fun y => y.1 == x.1)).map (·.2))) &&
  (plan.isEmpty || (!s.planHalted && !(s.act a).parkPend && !(s.act a).reqPark &&
    ((s.act a).st == .following || (s.act a).st == .seeking || (s.act a).st == .settling)))
/-- A planned slot as it stands in its bank: READY for a SEEK, for a read whose buffer is granted at once, for a write whose
content is final (R24, R146). -/
def State.newSlot (s : State) (k i : Nat) (p : PlanSlot) : Slot × Bool :=
  let e := p.entry
  let rd := isReadKind e.kind.toNat
  let ok := if e.kind.toNat = 3 then true
    else if rd then s.bufFree e.bufref.toNat k i
    else isWriteKind e.kind.toNat && ((s.workOf p.work).map (·.final)).getD false
  (⟨e, ok, .planned, false, p.cls, p.work, false, false, false, 0, 0, false⟩, rd && !ok)
/-- The slots of one channel are written to its pending bank. -/
def State.putBank (s : State) (ch : Nat) (l : List PlanSlot) : State :=
  let k := s.pendKey ch
  let b := k % 2 == 1
  let new := (List.range l.length).filterMap (fun i => (l[i]?).map (fun p => (i, s.newSlot k i p)))
  let s := (s.setBank k (new.map (fun x => x.2.1)))
  let s := l.foldl (fun s p => if isWriteKind p.entry.kind.toNat then match s.workOf p.work with
      | some w => if w.final then s.fillBuffer p.entry.bufref.toNat w else s
      | none => s
    else s) s
  { s with
    seq.committed := tset s.seq.committed ch true
    rpl.waiting := s.rpl.waiting.filter (fun w => !(w.1 == ch && w.2.1 == b)) ++
      (new.filter (fun x => x.2.2)).map (fun x => (ch, b, x.1)) }
/-- A level's revolution counts for each entry a plan serves (R171). -/
def State.countRevs (s : State) (plan : List PlanSlot) : State :=
  plan.foldl (fun s p => match s.workOf p.work with
    | some w =>
      if w.cls != .recovery then s
      else
        let e := match w.mem with
          | some (n, _, _) => (List.range 4).findSome? (fun a => s.recNum a n)
          | none => s.recFind w.head.val w.track.toNat w.pos.toNat
        match e with
        | some e => if e.inRev then s else s.modRec e.act e.num (fun e => { e with inRev := true, revs := e.revs + 1 })
        | none => s
    | none => s) s

/-- RPL_COMMIT (R20): the four pending banks of an actuator are committed in one action; a commit for a revolution that has
begun is discarded. -/
def execRplCommit (act : Fin 4) (plan : List PlanSlot) (s : State) : Result :=
  let a := act.val
  if !s.spinning then .next s
  else if s.rpl.planning == some s.atb.rev then .next ((s.setW1c 0x170C a).count (138 + a) 1)
  else if s.rpl.planning != some (s.atb.rev + 1) || (List.range 4).any (fun q => tget false s.seq.committed (4 * a + q)) ||
      !s.planOk a plan then .next s
  else
    let s := (List.range 4).foldl (fun s q => s.putBank (4 * a + q) (plan.filter (fun p => p.ch.val == 4 * a + q))) s
    let ws := (plan.filter (fun p => p.entry.kind.toNat != 3)).map (·.work)
    let s := s.countRevs plan
    .next { s with
      rpl.lastCommit := s.atb.ac
      rpl.work := s.rpl.work.map (fun w => if ws.contains w.num then { w with placed := true } else w) }

/-! ### Deadlines (R24 to R26, R125, R126, R146) -/

/-- The channel loads the parameter set a slot names, and the head takes BIAS and heater code at its first slot of the
revolution (R125, R126). -/
def State.loadSet (s : State) (k : Nat) (e : SlotEntry) : State :=
  let ch := k / 2
  let a := fin4 (ch / 4)
  let h := fin64 (slotHead e a.val)
  let s := s.modCh ch (fun c => { c with pset := (h, e.set, e.entry) })
  if (s.act a.val).biased.contains h then s
  else
    let wr := (List.range 4).any (fun p => (s.bank (s.activeKey (4 * a.val + p))).any (fun sl =>
      isWriteKind sl.e.kind.toNat && slotHead sl.e a.val == h.val))
    let x := s.heaterBias h.val e.entry.toNat wr
    let s := if (s.entryOfs h.val e.entry.toNat).isNone then s.draw.draw else s
    let s := s.modAct a.val (fun y => { y with biased := y.biased ++ [h] })
    (s.palSend a (ch % 4) 4 (x.2 * 2 ^ 16)).palSend a (ch % 4) 2 (x.1 * 2 ^ 14)
/-- The slots of actuator `a` in its active banks with that start angle whose deadline has not been tested. -/
def State.dueSlots (s : State) (a : Nat) (start : BitVec 22) : List (Nat × Nat) :=
  ((List.range 4).map (fun p => s.activeKey (4 * a + p))).flatMap (fun k =>
    (List.range (s.bank k).length).filterMap (fun i => match s.slotAt k i with
      | some sl => if sl.e.startAc = start ∧ !sl.due ∧ sl.unstarted then some (k, i) else none
      | none => none))

/-- SLOT_DEADLINE (R24 to R26, R146): READY of every slot of an actuator with that start angle is sampled together. -/
def execSlotDeadline (act : Fin 4) (start : BitVec 22) (s : State) : Result :=
  let ks := s.dueSlots act.val start
  if !s.spinning || ks == [] then .next s
  else
    let s := s.toAngle (start.toNat - s.fld 0x1410 0 17)
    let s := ks.foldl (fun s k => s.modSlot k.1 k.2 (fun sl => { sl with due := true })) s
    let s := ks.foldl (fun s k => match s.slotAt k.1 k.2 with
      | some sl => if sl.e.kind.toNat = 3 ∨ isReservedKind sl.e.kind.toNat then s else s.loadSet k.1 sl.e
      | none => s) s
    .next (ks.foldl (fun s k => match s.slotAt k.1 k.2 with
      | none => s
      | some sl =>
        if isReservedKind sl.e.kind.toNat then raise 55 (s.endSlot k.1 k.2 .wasted false)
        else if sl.ready then s
        else s.dropSlot k.1 k.2 (if isWriteKind sl.e.kind.toNat then .starvedFront else .starvedBack) false) s)

/-- BUFFER_GRANT (R24, R146): a waiting read slot gets its freed media buffer, with a pulse to its READY bit. -/
def execBufferGrant (ch : Fin 16) (bank : Bool) (idx : Fin 1536) (s : State) : Result :=
  let k := bankKey ch.val bank
  match s.slotAt k idx.val with
  | none => .next s
  | some sl =>
    if !s.rpl.waiting.contains (ch.val, bank, idx.val) || !s.bufFree sl.e.bufref.toNat k idx.val then .next s
    else
      let s : State := { s with rpl.waiting := s.rpl.waiting.filter (· != (ch.val, bank, idx.val)) }
      .next (if sl.due || sl.isOver then s else s.modSlot k idx.val (fun x => { x with ready := true }))

/-- COMPLETION_PULSE (R24, R146, R240, R243): a transfer that has moved its last byte sends its one pulse; a poisoned media
buffer gets no READY and is built again. -/
def execCompletionPulse (n : Fin 32) (s : State) : Result :=
  let d := s.dmaCh n.val
  if !d.busy || d.remain != 0 then .next s
  else
    let t := s.modDma n.val (fun _ => DmaCh.init)
    match d.dst with
    | .none => .next t
    | .cmd _ _ => .next t
    | .slot ch bk i =>
      match s.slotAt (bankKey ch bk) i with
      | none => .next t
      | some sl =>
        if d.poison then .next (s.modDma n.val (fun _ => ⟨mediaBuf sl.e.bufref.toNat, 4128, true, true, d.dst, 0, false⟩))
        else
          let t := match s.workOf sl.work with
            | some w => if isWriteKind w.kind.toNat && sl.unstarted then t.fillBuffer sl.e.bufref.toNat w else t
            | none => t
          .next (if sl.due || sl.isOver then t else t.modSlot (bankKey ch bk) i (fun x => { x with ready := true }))

/-! ### Slots that start and end (R28, R81 to R86, R153, R423) -/

/-- A slot dropped for want of settling counts against the seek before it; more than 16 of the last 256 in one bin are
reported (R83). -/
def State.notSettled (s : State) (a : Nat) : State :=
  let b := (s.act a).bin
  match tget [] (s.act a).settles b with
  | false :: t =>
    let l := true :: t
    let n := (l.filter id).length
    let s := s.modAct a (fun x => { x with settles := tset x.settles b l })
    if n = 17 then s.event 0x2006 2 [a, b, n] else s
  | _ => s
/-- A seek starts (R79 to R82): SEEKING, with the heads of the set active and unsettled. -/
def State.startSeek (s : State) (a : Nat) (hs : BitVec 6) (trk : BitVec 24) (tpos : BitVec 5) : State :=
  let dest := trk.toNat + tpos.toNat
  let fr := (s.act a).track.toNat
  let b := seekBin (if fr ≤ dest then dest - fr else fr - dest)
  let hd := match s.recs.geom with | some g => (g.set hs.toNat).heads.map fin64 | none => [fin64 (16 * a)]
  let s := s.modAct a (fun x => { x with
    st := .seeking, seek := some (hs, trk, tpos), lastSet := some hs, heads := hd, bin := b
    settles := tset x.settles b ((false :: tget [] x.settles b).take 256) })
  hd.foldl (fun s h => s.modHead h.val (fun x => { x with
    rdSettled := false, wrSettled := false, rdCnt := 0, wrCnt := 0, offTrack := false, coast := 0 })) s
/-- The conditions of R84 on a head's write gate, the write window apart. -/
def State.mayWrite (s : State) (h : Nat) : Bool :=
  let x := s.head h
  s.spinning && x.valid && decide (x.pes.natAbs ≤ s.fld 0x1800 0 12) && !x.saturated && !s.srv.shock && x.rearm == 0 &&
  (!s.pair.paired || s.pair.owner)
/-- The head of a slot is on its track and settled for its kind (R81). -/
def State.settledFor (s : State) (a : Nat) (e : SlotEntry) : Bool :=
  let x := s.head (slotHead e a)
  (s.act a).seek.isNone && (s.act a).track.toNat == slotTrack e && (s.act a).lastSet == some e.hs && !x.offTrack &&
  (if isWriteKind e.kind.toNat then x.wrSettled else x.rdSettled)

/-- SLOT_START (R28, R81, R84 to R86, R135, R147, R153): an armed slot opens at its start angle; one that was not armed is late, one
whose head has not settled is dropped. -/
def execSlotStart (ch : Fin 16) (idx : Fin 1536) (s : State) : Result :=
  let n := ch.val
  let a := n / 4
  let k := s.activeKey n
  match s.slotAt k idx.val with
  | none => .next s
  | some sl =>
    if !s.spinning || !sl.unstarted then .next s
    else
      let e := sl.e
      let s := s.toAngle e.startAc.toNat
      if sl.st ≠ .armed then .next (s.dropSlot k idx.val .wasted true)
      else if e.kind.toNat = 3 then
        if (s.act a).st = .following ∨ (s.act a).st = .seeking ∨ (s.act a).st = .settling then
          .next ((s.startSeek a e.hs e.trk e.tpos).endSlot k idx.val .retired false)
        else .next (s.dropSlot k idx.val .wasted false)
      else if !s.settledFor a e then .next ((s.dropSlot k idx.val .wasted false).notSettled a)
      else
        let s := s.modSlot k idx.val (fun x => { x with st := .executing })
        if isReadKind e.kind.toNat then
          .next ((s.modCh n (fun c => { c with flags := { c.flags with
            sync1 := false, sync2 := false, decOk := false, decFail := false } })).retain n (slotHead e a) (slotTrack e)
              e.pos.toNat (e.kind.toNat == 6))
        else
          let ok := s.mayWrite (slotHead e a)
          let s := s.modSlot k idx.val (fun x => { x with cut := !ok })
          let s := s.modCh n (fun c => { c with
            gate := ok, flags := { c.flags with vfyOk := false, vfyFail := false, wus := !ok }
            vfy := if sl.vfyArm then c.vfy ++ [(k % 2 == 1, idx.val, !ok)] else c.vfy })
          .next (if ok then s.send (.write (fin64 (slotHead e a)) (BitVec.ofNat 24 (slotTrack e)) e.pos
            (slotBytes (slotTrack e) e.pos.toNat (s.sealInfo (s.load (mediaBuf e.bufref.toNat) 4128)))) else s)

/-- Staged values that are due and that `p` picks take effect together (R31 to R33). -/
def State.applyStaged (s : State) (p : Staged → Bool) : State :=
  let due := s.regs.staged.filter (fun g => decide (revDiff g.rev s.atb.rev ≤ 0) && p g)
  { s with
    regs.staged := s.regs.staged.filter (fun g => !due.contains g)
    regs.force := due.foldl (fun t g => match (regAt g.off).bind (fun d => d.fields.find? (fun f => f.lsb == g.lsb)) with
      | some f => tset t g.off (putField (tget (regReset g.off) t g.off) f.lsb f.w (bitsOf (s.lastWord g.off).toNat f.lsb f.w))
      | none => t) s.regs.force }
/-- Is a staged value one of channel `n`'s? -/
def Staged.ofCh (g : Staged) (n : Nat) : Bool := decide (chReg n 0 ≤ g.off) && decide (g.off < chReg (n + 1) 0)
/-- WS values of a channel that waited for a slot to end take effect (R33). -/
def State.lateStaged (s : State) (n : Nat) : State := s.applyStaged (fun g => g.ofCh n)

/-- SLOT_END (R33, R44, R423): an executing slot reaches its END angle, in its own revolution or past the index. -/
def execSlotEnd (ch : Fin 16) (idx : Fin 1536) (s : State) : Result :=
  let n := ch.val
  let run := fun (k : Nat) => match s.slotAt k idx.val with | some sl => if sl.st == .executing then some sl else none | none => none
  let fin := fun (k : Nat) (sl : Slot) (ofs : Nat) =>
    let e := sl.e.startAc.toNat + endSpan (s.slotBpr (n / 4) sl.e)
    let s := s.toAngle (e - ofs)
    let s := if isWriteKind sl.e.kind.toNat then s.modCh n (fun c => { c with gate := false }) else s
    (s.endSlot k idx.val .retired false).lateStaged n
  match run (s.pendKey n), run (s.activeKey n) with
  | some sl, _ => .next (fin (s.pendKey n) sl revAC)
  | none, some sl =>
    if sl.e.startAc.toNat + endSpan (s.slotBpr (n / 4) sl.e) < revAC then .next (fin (s.activeKey n) sl 0) else .next s
  | none, none => .next s

end Sys2Proof.Machine
end

