-- ==== Sys2Proof/Machine/RegRead.lean ====
section
/-! DEFINITION. Reading a register: what each read-only field shows, and what a read itself changes (R5, R17, R168, R422,
R451). -/
namespace Sys2Proof.Machine

open Sys2Proof

/-- Code of an ATB state in ATB_STATUS. -/
def AtbSt.code : AtbSt → Nat
  | .stopped => 0
  | .acquire => 1
  | .locked => 2
  | .coast => 3
/-- Code of an actuator state (R79). -/
def ActState.code : ActState → Nat
  | .parked => 0
  | .loading => 1
  | .acquiring => 2
  | .following => 3
  | .seeking => 4
  | .settling => 5
  | .unloading => 6
  | .ssw => 7
  | .fenced => 8
/-- Code of an SPN state (R104). -/
def SpnState.code : SpnState → Nat
  | .off => 0
  | .preheat => 1
  | .waitToken => 2
  | .align => 3
  | .ramp => 4
  | .locked => 5
  | .changing => 6
  | .stopping => 7
  | .pfail => 8
  | .fault => 9
/-- Code of a context state (R168). -/
def CtxSt.code : CtxSt → Nat
  | .stopped => 0
  | .idle => 1
  | .wait => 2
  | .run => 3
  | .trap => 4
  | .halted => 5
  | .fenced => 6
/-- Code of a queue pair state (R262). -/
def QpSt.code : QpSt → Nat
  | .disabled => 0
  | .active => 1
  | .error => 2
  | .deleting => 3
/-- Code of a port state (R356). -/
def PortSt.code : PortSt → Nat
  | .disabled => 0
  | .training => 1
  | .hello => 2
  | .up => 3
  | .down => 4
  | .fenced => 5
  | .loopback => 6
/-- Code of a power state (R438). -/
def PwrSt.code : PwrSt → Nat
  | .active => 0
  | .activeIdle => 1
  | .spunDown => 2
  | .dark => 3
/-- Code of a removal state (R447). -/
def Removal.code : Removal → Nat
  | .normal => 0
  | .preparing => 1
  | .safe => 2
  | .surprise => 3
/-- Code of a lifecycle state (R376). -/
def Life.code : Life → Nat
  | .blank => 0
  | .integration => 1
  | .fielded => 2
  | .decommissioned => 3

/-- Bits of a list of flags, the first at bit 0. -/
def ofBits (l : List Bool) : Nat := l.foldr (fun b n => 2 * n + b2n b) 0
/-- `f` of each number below `n`, as bits. -/
def bitsUpto (n : Nat) (f : Nat → Bool) : Nat := ofBits ((List.range n).map f)
/-- Field of a status word. -/
def at_ (lsb x : Nat) : Nat := x * 2 ^ lsb

/-- The reference actuator (R13): the lowest one of SRC_MASK that is not fenced and is track-following. -/
def State.refAct (s : State) : Option Nat :=
  (List.range 4).find? (fun n => s.flag 0x1000 (12 + n) && ((s.act n).st == .following || (s.act n).st == .seeking ||
    (s.act n).st == .settling || (s.act n).st == .ssw))

/-- Open groups of every zone (XTP_STATUS.OPEN). -/
def State.openGroups (s : State) : Nat :=
  s.zon.zones.foldl (fun n e => n + (e.2.groups.filter (·.isOpen)).length) 0
/-- Entry at an index of the corrected-read log (R232). -/
def State.ceAt (s : State) (i : Nat) : Option CeEnt := (s.buf.ce.find? (fun e => e.1 == i)).map (·.2)
/-- Zones bound to a key range: those not EMPTY that carry it (R387). -/
def State.zonesOf (s : State) (r : Nat) : Nat :=
  (s.zon.zones.filter (fun e => e.2.st != .empty && e.2.key.toNat == r)).length
/-- Mean of a port's last eight delays in ns (R326). -/
def Port.delay (p : Port) : Nat := if p.delays = [] then 0 else (p.delays.foldl (· + ·) 0) / p.delays.length
/-- Commands of a queue pair fetched and not yet completed. -/
def State.outstanding (s : State) (q : Nat) : Nat :=
  (s.hqi.cmds.filter (fun c => c.qp.val == q && !c.peer)).length + (s.hqi.posts.filter (fun p => p.qp.val == q)).length

/-- The record slot FLT_REC_SEL names. -/
def State.selRec (s : State) : Option FRec := s.rec? (s.fld 0x4030 0 5)
/-- FLT_RAW, all 128 bits (R414). -/
def State.rawAll (s : State) : Nat := bitsUpto 128 s.rawNow

/-- The read-only bits of a register, in their places. One clause to a register or row of registers; the tables of the
chapters give each field. Registers without a read-only field show 0 here. -/
def State.roWord (s : State) (off : Nat) : Nat :=
  -- set-up (18), power (17)
  if off = 0x0000 then 0x41600201
  else if off = 0x0004 then s.pwr.ready.toNat
  else if off = 0x0008 then at_ 31 (b2n s.evr.degraded) + at_ 28 s.pwr.cause.toNat
  else if off = 0x0010 then at_ 16 (s.nv.imageGen % 256) + at_ 2 (b2n s.gen.saving.isSome) + s.gen.result.toNat
  else if off = 0x0014 then s.regs.lastIgnored.toNat
  -- host interface (10)
  else if off = 0x0404 then at_ 24 s.hqi.link.1.toNat + at_ 20 s.hqi.link.2.toNat + at_ 4 (b2n s.hqi.active) +
    (s.qp 0).st.code
  else if off = 0x0444 then
    let q := s.fld 0x0440 0 7
    let x := s.qp q
    at_ 30 x.st.code + at_ 16 (s.outstanding q % 8192) + at_ 12 x.log2.toNat + x.fetch % 4096
  else if off = 0x0448 then s.hqi.qpErr.toNat
  -- fabric (12)
  else if off = 0x0804 then at_ 31 (b2n s.fab.noaddr) + at_ 29 (b2n s.ledger.office) + at_ 28 (b2n s.fab.takeover) +
    at_ 12 s.fab.boss.toNat + s.fab.addr.toNat
  else if 0x0814 ≤ off ∧ off ≤ 0x0854 ∧ off % 16 = 4 then
    let p := s.port ((off - 0x0814) / 16)
    at_ 29 p.st.code + at_ 16 p.nbr.toNat + min p.delay 65535
  else if 0x0818 ≤ off ∧ off ≤ 0x0858 ∧ off % 16 = 8 then
    let p := s.port ((off - 0x0818) / 16)
    at_ 16 p.uncorr.toNat + p.replays.toNat
  else if off = 0x0864 then s.fab.aseq.toNat
  -- pair (13)
  else if off = 0x0C04 then at_ 31 (b2n s.pair.paired) + at_ 30 (b2n s.pair.sideB) + at_ 29 (b2n s.pair.owner) +
    at_ 28 (b2n s.pair.peerLow) + at_ 27 (b2n s.pair.aligned) + at_ 26 (b2n s.pair.canaryOk) +
    at_ 25 (b2n s.pair.mirrorOk) + s.pair.lastCause.toNat
  else if off = 0x0C08 then at_ 16 s.pair.handovers.toNat + s.pair.missed.toNat
  else if off = 0x0C0C then s.pair.takeTime.toNat
  -- angle time base and planner (01)
  else if off = 0x1004 then at_ 8 (s.refAct.getD 0) + s.atb.st.code
  else if off = 0x1008 then s.atb.ac.toNat
  else if off = 0x100C then s.atb.nowRev.toNat
  else if off = 0x1020 then b2n (s.regs.staged != [])
  else if off = 0x1024 then match s.regs.staged.getLast? with | some p => p.rev.toNat | none => 0
  else if off = 0x1408 then s.seq.isvn.toNat
  else if 0x1420 ≤ off ∧ off ≤ 0x1430 then
    let c := s.ctx ((off - 0x1420) / 4)
    at_ 29 c.st.code + at_ 26 c.lastTrap.toNat + at_ 25 (b2n c.bank) + at_ 20 c.rqMax.toNat + c.upc.toNat
  else if off = 0x1710 then s.rpl.lastCommit.toNat
  -- recovery and relocation (07)
  else if off = 0x174C then
    (List.range 4).foldl (fun n a => n + at_ (8 * a) (min 255 (s.recList a).length)) 0
  else if off = 0x1780 then s.rcv.rlt.length
  else if off = 0x1784 then (s.rcv.rlt.filter (·.pending)).length
  -- servo (03) and spindle (04)
  else if off = 0x180C then (List.range 4).foldl (fun n a => n + at_ (4 * a) (s.act a).st.code) 0
  else if off = 0x1868 then at_ 31 (b2n s.srv.sswBusy) + at_ 28 s.srv.sswResult.toNat + at_ 24 s.srv.sswOp.toNat +
    s.srv.sswTrack.toNat
  else if off = 0x1C04 then at_ 11 (b2n s.spn.phaseLocked) + at_ 10 (b2n s.spn.reg) + s.spn.st.code
  else if off = 0x1C0C then s.spn.temp.toNat
  else if off = 0x1C14 then toTwos 32 s.spn.phaseErr
  else if off = 0x1C18 then at_ 31 (b2n s.spn.token) + at_ 30 (b2n s.spn.solo) + s.spn.boss.toNat
  -- channels (05)
  else if 0x2000 ≤ off ∧ off < 0x2800 then
    let c := s.ch ((off - 0x2000) / 0x80)
    let r := (off - 0x2000) % 0x80
    if r = 4 then at_ 31 (b2n c.fenced) + at_ 30 (b2n c.bist) + at_ 28 c.cause.toNat +
      at_ 16 (c.store.filter (·.held)).length + at_ 8 c.lastIter.toNat
    else if r = 0x18 then at_ 31 (b2n c.bist) + at_ 28 c.bistRes.toNat + at_ 24 c.bistTest.toNat + c.bistFailed.toNat
    else if r = 0x1C then at_ 26 c.pset.1.val + at_ 23 c.pset.2.1.toNat + at_ 16 c.pset.2.2.toNat
    else 0
  -- buffer, DMA, map cache (09)
  else if off = 0x2808 then at_ 12 (b2n (s.flag 0x2830 31)) + s.buf.spared.length
  else if off = 0x280C then s.buf.pos
  else if off = 0x2810 then s.buf.passes.toNat
  else if off = 0x2824 then match s.ceAt (s.fld 0x2820 0 6) with | some e => at_ 31 1 + e.word | none => 0
  else if off = 0x2828 then match s.ceAt (s.fld 0x2820 0 6) with
    | some e => at_ 31 (b2n e.rewritten) + at_ 16 e.syn.toNat + e.count
    | none => 0
  else if off = 0x2834 then s.buf.diagRd.toNat
  else if off = 0x2C04 then s.dma.paused.toNat
  else if off = 0x2C0C then s.dma.proto.toNat
  else if 0x2C40 ≤ off ∧ off < 0x2D40 then
    let c := s.dmaCh ((off - 0x2C40) / 8)
    if off % 8 = 0 then c.addr / 64 else at_ 31 (b2n c.busy) + c.remain
  else if off = 0x3004 then at_ 31 (b2n (s.map.maint.isSome || s.map.disabling)) + at_ 29 (b2n s.map.fenced) +
    s.dirtyLines
  -- chunk path and journal (08)
  else if off = 0x3404 then at_ 28 (bitsUpto 4 (fun k => (s.engine k).fenced)) +
    at_ 24 (bitsUpto 4 (fun k => (s.engine k).job != .none))
  else if off = 0x3480 then at_ 16 (b2n s.zon.ckptBusy.isSome) + s.zon.unchk
  else if off = 0x3484 then s.zon.csec.toNat
  else if off = 0x3804 then at_ 28 s.cry.fenced.toNat + b2n (s.cry.fenced == 0xF || s.sec.error)
  -- security (14)
  else if off = 0x3810 then at_ 30 s.nv.life.code + at_ 29 (b2n s.sec.error) + at_ 28 (b2n s.nv2.sanitize.isSome) +
    at_ 27 (b2n s.sec.consent) + at_ 26 (b2n s.auditBlocked) + at_ 25 (b2n (s.ready 1 && !s.sec.error)) +
    at_ 16 (s.nv.ranges.filter (fun e => e.2.st == 2)).length + at_ 8 (s.nv.convRange.getD 0).toNat +
    at_ 7 (b2n s.nv.convRange.isSome) + s.sec.sanAction.toNat
  else if off = 0x3814 then s.sec.sessions.foldl (fun n x => n + 2 ^ x.num.val) 0
  else if off = 0x381C then
    let r := s.fld 0x3818 0 8
    let k := s.range r
    at_ 30 k.st.toNat + at_ 29 (b2n k.auto) + at_ 28 (b2n (s.nv.convRange == some (BitVec.ofNat 8 r))) + s.zonesOf r
  else if off = 0x3820 then at_ 24 s.regs.denied.toNat + at_ 16 (tget 0 s.sec.fails 2) + at_ 8 (tget 0 s.sec.fails 1) +
    tget 0 s.sec.fails 0
  else if off = 0x3824 then at_ 29 (b2n s.sec.mbox.busy) + at_ 28 (b2n s.sec.mbox.claim.isSome) +
    s.sec.mbox.status.toNat
  else if isMailbox off then ofLe ((List.range 4).map (fun i => tget 0 s.sec.mbox.bytes (off - 0x3A00 + i)))
  else if off = 0x3C04 then at_ 31 (b2n s.xtp.fenced) +
    at_ 30 (b2n (s.zon.zones.any (fun e => e.2.groups.any (·.rebuild)))) + s.openGroups
  -- faults and events (15)
  else if 0x4010 ≤ off ∧ off ≤ 0x401C then bitsOf s.rawAll (8 * (off - 0x4010)) 32
  else if off = 0x4024 then
    let n := s.fld 0x4020 0 7
    at_ 16 (tget 0 s.flt.count n).toNat + at_ 4 (srcFloor s.pair.paired n)
  else if off = 0x4028 then at_ 2 (b2n s.flt.pulsing)
  else if off = 0x402C then at_ 31 (b2n s.flt.stop) + at_ 30 (b2n s.flt.pin) + s.openRecs
  else if off = 0x4034 then match s.selRec with
    | some r => at_ 31 1 + at_ 30 (b2n r.merged) + at_ 24 r.unit.toNat + at_ 16 r.primary.toNat + at_ 13 r.cls.toNat +
      r.mcount.toNat
    | none => 0
  else if off = 0x4038 then match s.selRec with | some r => at_ 8 r.secs.toNat + r.ccount.toNat | none => 0
  else if 0x4040 ≤ off ∧ off ≤ 0x405C then match s.selRec with
    | some r => bitsOf (if off < 0x4050 then r.sec else r.csq).toNat (8 * (off % 16)) 32
    | none => 0
  else if off = 0x4400 then at_ 31 (b2n s.evr.degraded) + at_ 30 (b2n s.evr.mediaCopy) +
    at_ 24 (s.evr.ring.filter (fun e => !e.2)).length + at_ 19 s.evr.qmax.toNat + s.nv.log.length
  else if 0x4410 ≤ off ∧ off ≤ 0x4420 then
    let n := (off - 0x4410) / 4
    at_ 16 (tget 0 s.evr.overflowed n).toNat + (tget 0 s.evr.dropped n).toNat
  -- counters (16)
  else if off = 0x4800 then s.pmc.seq.toNat
  else if off = 0x4820 then at_ 16 s.pmc.lost.toNat
  else if off = 0x4830 then s.pmc.words.1.toNat
  else if off = 0x4834 then s.pmc.words.2.1.toNat
  else if off = 0x4838 then s.pmc.words.2.2.1.toNat
  else if off = 0x483C then s.pmc.words.2.2.2.toNat
  else if off = 0x4840 then s.pmc.smpRev.toNat
  else if off = 0x4844 then at_ 27 s.pmc.skid.toNat + s.pmc.smpAc.toNat
  else if 0x4C00 ≤ off ∧ off < 0x5000 then
    let c := 128 * s.fld 0x4804 0 1 + (off - 0x4C00) / 8
    let v := (tget 0 s.pmc.snap c).toNat
    if off % 8 = 0 then v % 2 ^ 32 else v / 2 ^ 32 + at_ 31 (b2n (bitOf s.pmc.snapOvf.toNat c))
  -- power and service (17), routes (12)
  else if off = 0x5004 then at_ 31 (b2n s.pwr.req.isSome) + s.pwr.st.code
  else if off = 0x5008 then at_ 17 (b2n s.pwr.bufActive) + at_ 16 (b2n s.pwr.core) + s.pwr.on.toNat
  else if off = 0x5404 then at_ 29 s.svc.removal.code + at_ 28 (b2n s.svc.locate) + at_ 27 (b2n s.svc.latchOpen) +
    at_ 26 (b2n s.svc.seated) + s.svc.ignored.toNat
  else if 0x8000 ≤ off ∧ off ≤ 0xFFFF ∧ off % 8 = 4 then
    let r := s.route ((off - 0x8004) / 8)
    at_ 31 (b2n r.valid) + at_ 28 r.pri.val + at_ 25 r.alt.val + at_ 24 (b2n r.altValid) + at_ 23 (b2n r.usingAlt) +
      at_ 8 r.priCost.toNat + r.altCost.toNat
  else 0

/-- Status bits a write of 1 clears, as they stand (R5, R413). -/
def State.w1cWord (s : State) (off : Nat) : Nat :=
  if 0x4000 ≤ off ∧ off ≤ 0x400C then bitsOf s.flt.status.toNat (8 * (off - 0x4000)) 32 else (s.w1c off).toNat

/-- One field of a read register, in its place. -/
def State.readFld (s : State) (off : Nat) (f : Fld) : Nat :=
  match f.ty with
  | .ro => at_ f.lsb (bitsOf (s.roWord off) f.lsb f.w)
  | .w1c => at_ f.lsb (bitsOf (s.w1cWord off) f.lsb f.w)
  | .wo => 0
  | _ =>
    if off = 0x4024 then s.srcClass (s.fld 0x4020 0 7)
    else at_ f.lsb (s.lastFld off f.lsb f.w)

/-- Value a read of one dword returns (R5, R449); an unmapped offset reads 0. -/
def State.regValue (s : State) (off : Nat) : Word :=
  match regAt off with
  | some d => BitVec.ofNat 32 (d.fields.foldl (fun n f => n + s.readFld off f) 0)
  | none => BitVec.ofNat 32 (if isMailbox off then s.roWord off else 0)

/-- What a read of one dword changes: ATB_NOW_AC latches ATB_NOW_REV (R17), SEQ_CTXn clears RQ_MAX (R168), EVR_STATUS
clears QMAX (R422). -/
def State.readEffect (s : State) (off : Nat) : State :=
  if off = 0x1008 then { s with atb.nowRev := s.atb.rev }
  else if 0x1420 ≤ off ∧ off ≤ 0x1430 ∧ off % 4 = 0 then s.modCtx ((off - 0x1420) / 4) (fun c => { c with rqMax := 0 })
  else if off = 0x4400 then { s with evr.qmax := 0 }
  else s

/-- A read of one dword: its value, and the state after it. -/
def State.readReg (s : State) (off : Nat) : Word × State := (s.regValue off, s.readEffect off)

/-- A read of `n` dwords from `off` on, in increasing offset (R451). -/
def State.readRegs (s : State) (off : Nat) : Nat → List Word × State
  | 0 => ([], s)
  | n + 1 =>
    let (v, s) := s.readReg off
    let (l, s) := s.readRegs (off + 4) n
    (v :: l, s)

/-- A read whose value goes on the bus. -/
def State.readOut (s : State) (off : Nat) : State := { s.readEffect off with regs.rdata := s.regValue off }

end Sys2Proof.Machine
end

