-- ==== Sys2Proof/Machine/Angle.lean ====
section
/-! DEFINITION. The angle time base (R9 to R17): angle words, COAST, and the reads with an effect of their own. -/
namespace Sys2Proof.Machine

open Sys2Proof

/-- One bit of CHECK's division by G(x) (R38). -/
def checkBit (c : Nat) (b : Bool) : Nat :=
  let t := bitOf c 13 != b
  let s := (c * 2) % 16384
  if t then s ^^^ 0x0677 else s
/-- CHECK of bits [47:14] of an angle word (R38). -/
def angleCheck (d : Nat) : Nat :=
  ((List.range 34).foldl (fun c i => checkBit c (bitOf d (33 - i))) 0) ^^^ 0x1555
/-- An angle word is valid when its CHECK matches (R38). -/
def angleOk (w : BitVec 48) : Bool := angleCheck (w.toNat / 16384) == w.toNat % 16384
/-- INDEX of an angle word (R37). -/
def angleK (w : BitVec 48) : Nat := bitsOf w.toNat 14 10
/-- TRACK of an angle word (R37). -/
def angleTrack (w : BitVec 48) : Nat := w.toNat / 2 ^ 24

/-- An actuator follows tracks for a host: FOLLOWING, SEEKING or SETTLING (R433). -/
def ActState.tracks : ActState → Bool
  | .following => true
  | .seeking => true
  | .settling => true
  | _ => false

/-- GEN_READY bit 12 + n is set when the actuator follows with the Geometry Table and its calibration in force (R97, R433),
and bit 16 + n with it once the journal is replayed (R433). -/
def State.actReady (s : State) (n : Nat) : State :=
  if (s.act n).st.tracks && s.recs.geom.isSome && (s.calib n).isSome then
    let s := s.setReady (12 + n) true
    if s.ready 21 then s.setReady (16 + n) true else s
  else s

/-- The ATB leaves STOPPED for ACQUIRE when the spindle reports speed lock and a reference actuator exists (R14). -/
def State.atbWake (s : State) : State :=
  if s.atb.st = .stopped ∧ s.speedLocked ∧ !s.atb.fenced ∧ s.refAct.isSome then s.atbTo raise .acquire else s

/-- What a valid word of the reference actuator does to the ATB (R14, R15); `a` is its shaft angle. -/
def State.refWord (s : State) (k : BitVec 10) (a : Nat) : State :=
  let err := angDiff a s.atb.ac.toNat
  let ok := decide (err.natAbs ≤ s.fld 0x1000 0 8)
  match s.atb.st with
  | .stopped => s
  | .acquire =>
    if s.atb.lastK = some (k - 1) then
      let s := s.atbTo raise .locked
      { s with atb.ac := BitVec.ofNat 22 a }
    else { s with atb.lastK := some k }
  | .locked =>
    if ok then { s with atb.phaseErr := err, atb.bad := false }
    else if s.atb.bad then s.atbTo raise .acquire
    else { s with atb.bad := true }
  | .coast => if ok then { s with atb.st := .locked, atb.phaseErr := err, atb.bad := false } else s

/-- Angle words found: LOADING and ACQUIRING end in FOLLOWING; after unpark on track identity 0 with the head 16 × n (R79,
R80, R97). The live corrections are 0 after unpark (R92). -/
def State.foundWords (s : State) (a : Nat) : State :=
  if (s.act a).st != .loading && (s.act a).st != .acquiring then s
  else
    let fresh := (s.act a).heads == []
    let s := if fresh then (List.range 16).foldl (fun s i => s.modHead (16 * a + i) (fun h => { h with
        live := 0, means := [], sum := 0, cnt := 0, rdSettled := false, wrSettled := false, rdCnt := 0, wrCnt := 0
        coast := 0, offTrack := false, valid := false })) s else s
    let s := s.modAct a (fun x => { x with
      st := .following, tries := 0, retryWait := false, seek := none
      heads := if fresh then [fin64 (16 * a)] else x.heads, track := if fresh then 0 else x.track })
    s.actReady a

/-- ANGLE_WORD (R12 to R15, R74, R80): the instant is that of the word's first bit. -/
def execAngleWord (head : Fin 64) (w : BitVec 48) (s : State) : Result :=
  let a := head.val / 16
  let st := (s.act a).st
  if !angleOk w || st == .parked || st == .unloading || st == .fenced then .next s
  else
    let s := s.modHead head.val (fun h => { h with lastTrack := BitVec.ofNat 24 (angleTrack w) })
    let s := (s.foundWords a).atbWake
    if !s.flag 0x1000 (12 + a) then .next s
    else
      let ang := s.shaftOf a (4096 * angleK w)
      if s.refAct = some a then .next (s.refWord (BitVec.ofNat 10 (angleK w)) ang)
      else if s.spinning && decide (s.fld 0x1000 0 8 < (angDiff ang s.atb.ac.toNat).natAbs) then .next (s.setW1c 0x1004 7)
      else .next s

/-- COAST_ENTRY (R14). -/
def execCoastEntry (s : State) : Result :=
  .next (if s.atb.st = .locked then { s with atb.st := .coast, atb.bad := false } else s)

/-- COAST_MAX_EXPIRY (R14, R16). -/
def execCoastMaxExpiry (s : State) : Result := .next (if s.atb.st = .coast then s.atbTo raise .acquire else s)

/-- ATB_NOW_AC_READ (R17). -/
def execAtbNowAcRead (s : State) : Result := .next (s.readOut 0x1008)

/-- SEQ_CTX_READ (R168). -/
def execSeqCtxRead (ctx : Fin 5) (s : State) : Result := .next (s.readOut (0x1420 + 4 * ctx.val))

/-- EVR_STATUS_READ (R422). -/
def execEvrStatusRead (s : State) : Result := .next (s.readOut 0x4400)

end Sys2Proof.Machine
end

