-- ==== Sys2Proof/Machine/Reset.lean ====
section
/-! DEFINITION. Part reset: what it keeps, what it loads, what it records (R384, R432, R455 to R457). -/
namespace Sys2Proof.Machine

open Sys2Proof

/-- The field at bit `lsb` of a register. -/
def fieldAt (off lsb : Nat) : Option Fld := (regAt off).bind (fun d => d.fields.find? (fun f => f.lsb == lsb))
/-- Width of the field at bit `lsb` of a register. -/
def fieldWidth (off lsb : Nat) : Nat := match fieldAt off lsb with | some f => f.w | none => 0
/-- Roles of an image entry, by its key: offset × 32 + lowest bit. -/
def keyRoles (k : Nat) : List Role := match fieldAt (k / 32) (k % 32) with | some f => f.roles | none => []
/-- Entries of the set-up image without those of some roles (R457); the classes are the installer's (R414). -/
def dropKeys (rs : List Role) (t : Tab Word) : Tab Word := t.filter (fun e => !(keyRoles e.1).any rs.contains)
/-- The same of the saved classes. -/
def dropCls (rs : List Role) (t : Tab (BitVec 3)) : Tab (BitVec 3) :=
  if rs.contains .installer then [] else t

/-- The saved image is loaded where one of its copies is good (R455 to R457). -/
def State.loadImage (s : State) : State :=
  if s.nv.imageBad then s
  else
    let s := s.nv.image.foldl (fun (s : State) (e : Nat × Word) =>
      s.putFld (e.1 / 32) (e.1 % 32) (fieldWidth (e.1 / 32) (e.1 % 32)) e.2.toNat) s
    { s with regs.cls := s.nv.imageCls }
/-- SPN_CTL.RPM is loaded (R107). -/
def State.loadSpeed (s : State) : State := match s.nv2.gtRpm with | some r => s.putFld 0x1C00 0 13 r | none => s

/-- A part reset (R432, R455): every block takes its reset state; MRAM, flash and the one-time-programmable memory are kept,
and firmware accepted before runs from now on (R391). `cause` as RESET_CAUSE. A supply reset counts in the power-cycle
count. -/
def State.partReset (s : State) (cause : Nat) : State :=
  let s := s.endSessions (fun _ => true) 3
  let r : State := { State.reset with
    pending := s.pending, sent := s.sent, free := s.free
    nv := { s.nv with fsvn := s.nv.fwNext.getD s.nv.fsvn, fwNext := none }
    nv2 := { s.nv2 with cycles := if cause = 1 then s.nv2.cycles + 1 else s.nv2.cycles }
    pwr.cause := BitVec.ofNat 2 cause }
  let r := r.loadImage.loadSpeed.event 0x1003 1 [cause]
  if r.nv.imageBad then raise 122 { r with gen.result := 3 } else r

/-- A written part reset takes effect once every actuator reports parked (R432). -/
def State.resetParked (s : State) : State := if s.pwr.rstPend && s.allParked then s.partReset 2 else s

/-- PART_RESET (R432): VDD_AON returns to its range. -/
def execPartReset (s : State) : Result := .next (s.partReset 1)

/-- PART_RESET_DELAY_EXPIRY (R432): 100 ms have passed since the write. -/
def execPartResetDelayExpiry (s : State) : Result := .next (if s.pwr.rstPend then s.partReset 2 else s)

end Sys2Proof.Machine
end

