-- ==== Sys2Proof/Machine/Servo.lean ====
section
/-! DEFINITION. The stripe servo (R73 to R99): samples, loops, settling, write gating, shock, parks and unparks, servo
writing. The control laws are the part's own (log 11): what a loop commands is a free value. -/
namespace Sys2Proof.Machine

open Sys2Proof

/-- Position of a head in its actuator's last head set; 0 after unpark (R80, R93). -/
def State.headPos (s : State) (h : Nat) : Nat :=
  match s.recs.geom, (s.act (h / 16)).lastSet with
  | some g, some hs => ((g.set hs.toNat).heads.findIdx? (fun x => x == h)).getD 0
  | _, _ => 0

/-- The slot a head serves now or next in its channel's banks (R73): one that executes, else the first that has not ended. -/
def State.headSlot (s : State) (h : Nat) : Option Slot :=
  let ch := 4 * (h / 16) + s.headPos h
  let on := fun (sl : Slot) => slotHead sl.e (h / 16) == h && sl.e.kind.toNat != 3
  let ex := fun (k : Nat) => (s.bank k).find? (fun sl => on sl && sl.st == .executing)
  match ex (s.pendKey ch), ex (s.activeKey ch) with
  | some sl, _ => some sl
  | none, some sl => some sl
  | none, none => (s.bank (s.activeKey ch)).find? (fun sl => on sl && sl.unstarted)

/-- Offset of a target as SRVOP codes 2 to 5 give it: ±6 % and ±12 % of pitch in 1/4,096 (R152). -/
def srvOfs (n : Nat) : Int := if n = 2 then 246 else if n = 3 then -246 else if n = 4 then 492 else if n = 5 then -492 else 0

/-- Track identity a head is to follow (R74). -/
def State.headTrack (s : State) (a : Nat) : Nat :=
  match (s.act a).seek with
  | some (_, t, p) => t.toNat + p.toNat
  | none => (s.act a).track.toNat

/-- TARGET of a head: WOFS for a write slot, else ROFS, at its current track, with the slot's own offset (R73, R89, R152). -/
def State.headTarget (s : State) (c : Calib) (x : CalHead) (h : Nat) : Int :=
  let t := s.headTrack (h / 16)
  match s.headSlot h with
  | some sl => interp x c.bw (fun b => if isWriteKind sl.e.kind.toNat then b.1 else b.2.1) t + srvOfs sl.ofs
  | none => interp x c.bw (fun b => b.2.1) t

/-- PES and validity of one sample (R73, R74). Before the head's calibration record is in force PES_GAIN and AMP_NOM are
stated nowhere: both are free values (log 11). -/
def State.samplePes (s : State) (h a1 a2 : Nat) : Int × Bool × State :=
  let a := h / 16
  let d : Int := (a1 : Int) - a2
  let sum := a1 + a2
  let near := decide ((s.head h).lastTrack.toNat ≤ s.headTrack a + 1) && decide (s.headTrack a ≤ (s.head h).lastTrack.toNat + 1)
  match s.calib a, s.calHead h with
  | some c, some x =>
    let pos := if sum = 0 then 0 else roundDiv (x.pesGain * d) sum
    let ok := decide (x.ampNom ≤ 2 * sum) && decide (20 * d.natAbs ≤ 19 * sum) && decide (0 < sum) && near
    (satSigned 16 (pos - s.headTarget c x h), ok, s)
  | _, _ =>
    (satSigned 16 (Config.freeInt s.free), Config.freeNat (s.free + 1) % 2 == 1 && near, s.draw.draw)

/-- Centre displacement of a head in 1/4,096 pitch: C − DH − L of its set at its track (R91); 0 without a set. -/
def State.centre (s : State) (h : Nat) : Int :=
  let a := h / 16
  match s.recs.geom, (s.act a).lastSet with
  | some g, some hs =>
    let t := s.headTrack a
    let l := (g.set hs.toNat).heads.filterMap (fun k => s.dhl k t)
    match s.dhl h t with
    | some d => if (g.set hs.toNat).heads.contains h then midOf l - d else 0
    | none => 0
  | _, _ => 0

/-- The microactuator loop's update (R75 to R77, R88): an invalid sample holds the last command. -/
def State.maUpdate (s : State) (h : Nat) (ok : Bool) : State :=
  let s := if ok then
      let x := Config.freeInt s.free
      let c := satSigned 12 x
      (s.draw).modHead h (fun y => { y with ma := c, saturated := x != c })
    else s.modHead h (fun y => { y with saturated := false })
  let a := fin4 (h / 16)
  let p := fin4 (s.headPos h)
  s.palSend a p 5 (toTwos 12 (s.head h).ma * 2 ^ 12)

/-- Counts of R81, R86 and R88 that one sample moves. -/
def State.countSample (s : State) (h : Nat) (pes : Int) (ok : Bool) : State :=
  let a := s.act (h / 16)
  let n := pes.natAbs
  let on := a.st == .settling || a.st == .following
  let need := s.fld 0x1804 24 6
  let re := s.fld 0x1800 24 4
  s.modHead h (fun x =>
    let rd := if ok && on && decide (n ≤ s.fld 0x1804 0 12) then x.rdCnt + 1 else 0
    let wr := if ok && on && decide (n ≤ s.fld 0x1804 12 12) then x.wrCnt + 1 else 0
    { x with
      pes := pes, valid := ok, rdCnt := rd, wrCnt := wr
      rdSettled := x.rdSettled || decide (need ≤ rd && 0 < rd), wrSettled := x.wrSettled || decide (need ≤ wr && 0 < wr)
      coast := if ok then 0 else x.coast + 1, offTrack := x.offTrack && !ok
      rearm := if x.rearm = 0 then 0 else if ok && decide (n ≤ s.fld 0x1800 0 12 / 2) then x.rearm - 1 else re })

/-- The live correction's sum for this revolution (R92). -/
def State.liveSample (s : State) (h : Nat) (ok : Bool) : State :=
  if ok && (s.act (h / 16)).st == .following then
    match s.calHead h with
    | some c =>
      let d := roundDiv ((s.head h).ma * c.maGain) 16 - s.centre h
      s.modHead h (fun x => { x with sum := x.sum + d, cnt := x.cnt + 1 })
    | none => s
  else s

/-- A gate that a sample's conditions no longer allow goes off, and the head must re-arm (R85, R86). -/
def State.gateCheck (s : State) (h : Nat) : State :=
  let ch := 4 * (h / 16) + s.headPos h
  let mine := match s.writing ch with
    | some (k, i) => match s.slotAt k i with | some sl => slotHead sl.e (h / 16) == h | none => false
    | none => false
  if (s.ch ch).gate && mine && !s.mayWrite h then
    let re := s.fld 0x1800 24 4
    (s.cutGate ch).modHead h (fun x => { x with rearm := re })
  else s

/-- An actuator returns to FOLLOWING when all heads of its set are settled for writing (R81). -/
def State.settleDone (s : State) (a : Nat) : State :=
  if (s.act a).st = .settling ∧ (s.act a).heads.all (fun h => (s.head h.val).wrSettled)
  then s.modAct a (fun x => { x with st := .following }) else s

/-- PES_SAMPLE (R73, R74, R76, R77, R81, R85, R86, R88, R92). -/
def execPesSample (head : Fin 64) (a1 a2 : BitVec 16) (s : State) : Result :=
  let a := head.val / 16
  let st := (s.act a).st
  if !(s.act a).heads.contains head || !(st.tracks || st == .acquiring) then .next s
  else
    let (pes, ok, s) := s.samplePes head.val a1.toNat a2.toNat
    let s := (s.countSample head.val pes ok).maUpdate head.val ok
    .next (((s.liveSample head.val ok).gateCheck head.val).settleDone a)

/-- VCM_UPDATE (R75, R76, R100, R368): the loop's new command goes over the MDL. -/
def execVcmUpdate (act : Fin 4) (s : State) : Result :=
  let a := act.val
  if !((s.act a).st.tracks || (s.act a).st == .acquiring) then .next s
  else
    let v := satSigned 18 (Config.freeInt s.free)
    let i := Config.freeInt (s.free + 1)
    let n := (Config.freeInt (s.free + 2), Config.freeInt (s.free + 3))
    let s := s.draw.draw.draw.draw.modAct a (fun x => { x with vcm := v, integ := i, notches := n })
    .next (s.mdlSend 1 (a * 2 ^ 38 + toTwos 18 v * 2 ^ 20))

/-- Slots of a bank that one head serves are dropped as not settled (R28, R88). -/
def State.dropHead (s : State) (h : Nat) : State :=
  let ch := 4 * (h / 16) + s.headPos h
  let k := s.activeKey ch
  (List.range (s.bank k).length).foldl (fun s i => match s.slotAt k i with
    | some sl => if sl.unstarted && sl.e.kind.toNat != 3 && slotHead sl.e (h / 16) == h
        then s.dropSlot k i .wasted false else s
    | none => s) s

/-- OFF_TRACK (R88): the head loses its remaining slots and must settle again; with every head off track the actuator
returns to ACQUIRING. -/
def execOffTrack (head : Fin 64) (s : State) : Result :=
  let a := head.val / 16
  if !(s.act a).heads.contains head || (s.head head.val).offTrack || !(s.act a).st.tracks ||
    decide ((s.head head.val).coast ≤ s.fld 0x1800 12 4) then .next s
  else
    let s := s.modHead head.val (fun x => { x with
      offTrack := true, rdSettled := false, wrSettled := false, rdCnt := 0, wrCnt := 0 })
    let s := s.dropHead head.val
    if (s.act a).heads.all (fun h => (s.head h.val).offTrack) then
      .next ((s.actReadyOff a).modAct a (fun x => { x with st := .acquiring, seek := none }))
    else .next s

/-- SEEK_ARRIVAL (R81). -/
def execSeekArrival (act : Fin 4) (s : State) : Result :=
  let a := act.val
  match (s.act a).st, (s.act a).seek with
  | .seeking, some (_, t, p) =>
    .next (s.modAct a (fun x => { x with
      st := .settling, seek := none, track := BitVec.ofNat 24 (t.toNat + p.toNat) }))
  | _, _ => .next s

/-- SHOCK_ASSERT (R87). -/
def execShockAssert (s : State) : Result :=
  if !s.flag 0x1800 31 || s.srv.shock then .next s
  else
    let cut := bitsUpto 4 (fun a => (List.range 4).any (fun p => (s.ch (4 * a + p)).gate))
    let s := (s.cutGates 0 16).setW1c 0x180C 20
    let s : State := { s with srv.shock := true }
    .next (raise 13 (s.event 0x2005 2 [cut]))

/-- SHOCK_HOLD_EXPIRY (R87). -/
def execShockHoldExpiry (s : State) : Result := .next { s with srv.shock := false }

/-! ### Park and unpark (R96, R97) -/

/-- A requested park: it holds the actuator, and begins at the first index after which the active bank is empty (R96). -/
def State.requestPark (s : State) (n : Nat) : State :=
  s.modAct n (fun x => { x with
    reqPark := true, parkPend := x.st != .parked && x.st != .unloading && x.st != .fenced, retryWait := false })
/-- A requested unpark ends a requested park (R97). -/
def State.requestUnpark (s : State) (n : Nat) : State :=
  (s.modAct n (fun x => { x with reqPark := false, parkPend := false, retryWait := false, tries := 0 })).unpark n

/-- UNPARK_TIMEOUT (R97): the actuator unloads; the third failure leaves it PARKED, with its event and source. -/
def execUnparkTimeout (act : Fin 4) (s : State) : Result :=
  let n := act.val
  let a := s.act n
  if a.st = .loading ∨ (a.st = .acquiring ∧ a.heads = []) then
    let s := (s.modAct n (fun x => { x with st := .unloading, tries := x.tries + 1, retryWait := true })).sendPark (2 ^ n) 1
    if a.tries + 1 < 3 then .next s
    else .next (raise (4 + n) (s.event 0x2008 3 [n, a.st.code]))
  else .next s

/-- UNPARK_RETRY (R97). -/
def execUnparkRetry (act : Fin 4) (s : State) : Result :=
  let n := act.val
  if (s.act n).retryWait && (s.act n).st == .parked then
    let s := s.modAct n (fun x => { x with retryWait := false })
    .next (if (s.act n).tries < 3 then s.unpark n else s)
  else .next s

/-! ### Servo writing (R98, R99) -/

/-- May an operation start now: one of R99's, its seed head on its actuator (SRV_SSW_ARG)? -/
def sswKnown (op : Nat) : Bool := op == 1 || op == 2 || op == 3 || op == 4 || op == 14 || op == 15

/-- A servo-writing operation starts, or resumes at its track when it is the one that was paused; the actuator reports SSW and
its slots find no head settled (R99). It fails at once where the actuator follows no track. -/
def State.sswStart (s : State) (a : Fin 4) (op : Nat) : State :=
  let resume := s.srv.sswResult == 4 && s.srv.sswOp.toNat == op && s.srv.sswAct == a
  let t := if resume then s.srv.sswTrack else if op = 2 then 16 else 0
  let s : State := { s with
    srv.sswOp := BitVec.ofNat 4 op, srv.sswAct := a, srv.sswTrack := t, srv.sswStop := 0, srv.sswResult := 0 }
  if (s.act a.val).st.tracks then
    let s := (s.modAct a.val (fun x => { x with st := .ssw, seek := none })).actReadyOff a.val
    let s := (s.act a.val).heads.foldl (fun s h => s.modHead h.val (fun x => { x with
      rdSettled := false, wrSettled := false })) s
    { s with srv.sswBusy := true }
  else { s with srv.sswResult := 2 }

/-- An operation ends with a result; the actuator follows again on its idle head (R80, R99). -/
def State.sswEnd (s : State) (res : Nat) : State :=
  if !s.srv.sswBusy then s
  else
    let a := s.srv.sswAct.val
    let s : State := { s with srv.sswBusy := false, srv.sswResult := BitVec.ofNat 3 res, srv.sswStop := 0 }
    if (s.act a).st = .ssw then (s.modAct a (fun x => { x with st := .following })).actReady a else s

/-- A write of SRV_SSW_CMD that R99 accepts. -/
def State.sswCommand (s : State) (a : Fin 4) (op : Nat) : State :=
  if op = 14 ∨ op = 15 then (if s.srv.sswBusy then { s with srv.sswStop := BitVec.ofNat 4 op } else s)
  else s.sswStart a op

/-- Skips found by an operation, cause 1 (R99, R188). -/
def State.sswSkips (s : State) (skips : List (Fin 64 × Nat × Nat)) : State :=
  let s := skips.foldl (fun s k => (s.rltAdd (skipEnt k.1 k.2.1 k.2.2 1 false)).1) s
  if skips = [] then s else s.rltWrite s.srv.sswAct.val

/-- SSW_DONE (R99): the running operation finishes, with the skips it found and, for CALIBRATE, its new record; one told to
pause or abort ends so. -/
def execSswDone (ok : Bool) (rec : List Byte) (skips : List (Fin 64 × Nat × Nat)) (s : State) : Result :=
  if !s.srv.sswBusy then .next s
  else
    let op := s.srv.sswOp.toNat
    let a := s.srv.sswAct.val
    let s := if op = 2 ∨ op = 3 then s.sswSkips skips else s
    if s.srv.sswStop = 14 then
      .next (({ s with srv.sswTrack := BitVec.ofNat 24 (Config.freeNat s.free) } : State).draw.sswEnd 4)
    else if s.srv.sswStop = 15 then .next (s.sswEnd 3)
    else if !ok then .next (s.sswEnd 2)
    else if op = 4 then
      if (checkCal (s.recs.geom.map (·.crc)) a rec).isSome then .next (s.sswEnd 2)
      else .next (({ s with
        recs.cal := tset s.recs.cal a (some (parseCal rec)), recs.bytes := tset s.recs.bytes (8 + a) rec
        recs.gen := s.recs.gen + 1
        srv.sswTrack := BitVec.ofNat 24 (Config.freeNat s.free) } : State).draw.sswEnd 1)
    else if op = 3 then
      .next (({ s with srv.sswTrack := BitVec.ofNat 24 ((s.recs.geom.map (·.tracks)).getD 1 - 1) } : State).sswEnd 1)
    else
      .next (({ s with
        srv.sswTrack := if op = 2 then BitVec.ofNat 24 (s.lastFld 0x1864 0 24) else 15 } : State).sswEnd 1)

end Sys2Proof.Machine
end

