-- ==== Sys2Proof/Machine/Spindle.lean ====
section
/-! DEFINITION. The spindle and the motor drive link (R100 to R117), the token messages (R110 to R113, R349), the phase
reference (R114, R350), power failure (R115, R116). -/
namespace Sys2Proof.Machine

open Sys2Proof

/-! ### Frames from the stage -/

/-- A frame is accepted only with the right SYNC and CRC (R100). -/
def mdlOk (f : BitVec 64) : Bool :=
  f.toNat / 2 ^ 56 == 0xA7 && crc8 48 (bitsOf f.toNat 8 48) == f.toNat % 256
/-- Spin-up at power-up, once PD_AON is ready and the MDL carries valid frames (R105). -/
def State.powerUpSpin (s : State) : State :=
  if s.pwr.aon && s.mdl.lastType != 0 && s.flag 0x1C00 31 then s.requestSpin else s

/-- An actuator whose park the stage reports (R96): UNLOADING ends in PARKED; one that leaves the ramp is ACQUIRING (R79). -/
def State.parkedBit (s : State) (n : Nat) (b : Bool) : State :=
  if (s.act n).st = .unloading ∧ b then s.modAct n (fun x => { x with st := .parked, heads := [] })
  else if (s.act n).st = .loading ∧ !b then s.modAct n (fun x => { x with st := .acquiring })
  else s

/-- A STATUS frame: parked mask, faults, discards, supply (R100, R104, R408). -/
def State.stageStatus (s : State) (f : Nat) : State :=
  let fl := bitsOf f 41 3
  let new := fl != 0 && s.mdl.faults == 0
  let s : State := { s with
    mdl.parked := BitVec.ofNat 4 (bitsOf f 44 4), mdl.faults := BitVec.ofNat 3 fl
    mdl.stageDiscards := BitVec.ofNat 8 (bitsOf f 32 8), mdl.supply := BitVec.ofNat 12 (bitsOf f 20 12) }
  let s := (List.range 4).foldl (fun s n => s.parkedBit n (bitOf f (44 + n))) s
  let s := s.brakeIfParked
  if new then raise 12 s else s

/-- A frame arrives from the stage: what its TYPE says (R100); one that fails its checks is discarded and counted. -/
def State.mdlIn (s : State) (w : BitVec 64) : State :=
  if !mdlOk w then { s with mdl.discards := s.mdl.discards + 1 }
  else
    let f := w.toNat
    let ty := bitsOf f 52 4
    let first := s.mdl.lastType == 0
    let s : State := { s with mdl.lastType := BitVec.ofNat 4 ty, spn.mdlLost := false }
    let s := if ty = 8 then { s with mdl.cur := BitVec.ofNat 36 (bitsOf f 12 36) }
      else if ty = 9 then { s with mdl.volt := BitVec.ofNat 36 (bitsOf f 12 36) }
      else if ty = 10 then s.stageStatus f
      else s
    if first then s.powerUpSpin else s

/-- ISENSE (R100). -/
def execIsense (frame : BitVec 64) (s : State) : Result := .next (s.mdlIn frame)
/-- VSENSE (R100); the back-EMF speed it gives is no stated formula's (log 19). -/
def execVsense (frame : BitVec 64) (s : State) : Result := .next (s.mdlIn frame)
/-- MDL_STATUS (R100, R102). -/
def execMdlStatus (frame : BitVec 64) (s : State) : Result := .next (s.mdlIn frame).resetParked

/-- SPIN_TICK (R100, R415): 2 µs of crystal time pass, with the operating seconds; the SPIN frame goes out while PD_CORE is
on. -/
def execSpinTick (s : State) : Result :=
  let t := s.pwr.ticks + 1
  let s : State := { s with pwr.ticks := t, nv2.secs := if t % ticksPerSec = 0 then s.nv2.secs + 1 else s.nv2.secs }
  .next (if s.pwr.core then s.spinMode s.mdl.mode.toNat else s)

/-- MDL_LOST (R103). -/
def execMdlLost (s : State) : Result :=
  if s.spn.mdlLost then .next s
  else
    let s := ((s.setW1c 0x1C04 14).cutGates 0 16).abandonAll
    let s : State := { s with spn.mdlLost := true, spn.wanted := false, spn.newRpm := none, spn.ramping := false }
    let s := s.eventSrc 0x2002 3 8 [s.mdl.lastType.toNat, s.mdl.stageDiscards.toNat]
    let s := s.lockEnds raise
    .next (raise 8 (({ s with spn.st := .fault } : State).spinMode 0))

/-! ### Pre-heat (R108, R109) -/

/-- PREHEAT_TICK (R108, R109). -/
def execPreheatTick (s : State) : Result :=
  if s.spn.st != .preheat then .next s
  else
    let n := s.spn.preheatS + 1
    let s : State := { s with spn.preheatS := n, spn.path := s.spn.path + 1 }
    if s.spn.tempBad then .next (if s.fld 0x1C08 12 12 ≤ n then s.toWaitToken else s)
    else .next (if s.thresh ≤ s.tempC then s.toWaitToken else s)

/-- PREHEAT_TIMEOUT (R108): MAX_S seconds have passed; pre-heat goes on. -/
def execPreheatTimeout (s : State) : Result :=
  if s.spn.st = .preheat ∧ !s.spn.tempBad ∧ s.spn.preheatS = s.fld 0x1C08 12 12 then
    .next ((s.setW1c 0x1C04 12).event 0x2003 2 [toTwos 32 s.tempC, toTwos 32 s.thresh, s.fld 0x1C08 12 12])
  else .next s

/-- TEMP_SAMPLE (R109, R469): below −60 °C or above +140 °C the thermistor is faulty. -/
def execTempSample (t : BitVec 16) (s : State) : Result :=
  let x := ofTwos 16 t.toNat
  if x < -600 ∨ 1400 < x then
    let s : State := { s with spn.temp := 0x8000 }
    if s.spn.tempBad then .next s
    else .next (raise 14 ((({ s with spn.tempBad := true } : State).setW1c 0x1C04 13).eventSrc 0x2004 3 14 [t.toNat]))
  else .next { s with spn.temp := t, spn.tempBad := false }

/-! ### Spin-up (R104, R105) -/

/-- ALIGN_DONE (R104). -/
def execAlignDone (s : State) : Result :=
  .next (if s.spn.st = .align then ({ s with spn.st := .ramp } : State).spinMode 1 else s)

/-- Speed lock is reported (R97, R105, R107): LOCKED, GEN_READY bit 11, event 0x2000; the actuators unpark. -/
def State.lockBegins (s : State) : State :=
  let n := s.spn.attempts + 1
  let t := (s.pwr.ticks - s.spn.reqTick) / ticksPerSec
  let s : State := { s with
    spn.st := .locked, spn.wanted := false, spn.attempts := 0, spn.retryWait := false, spn.newRpm := none
    spn.ramping := false, spn.offCnt := 0, spn.before := none }
  let s := (s.setReady 11 true).event 0x2000 1 [s.lastFld 0x1C00 0 13, n, t]
  ((List.range 4).foldl (fun s a => s.unparkFree a) s).atbWake

/-- A revolution's period against the target (R106): within ±0.005 %, and beyond ±0.1 %; `p` in ns. -/
def State.speedIs (s : State) (p : Nat) : Bool × Bool :=
  let rpm := s.lastFld 0x1C00 0 13
  let d : Int := 60000000000 - (p * rpm : Nat)
  (decide (d.natAbs * 20000 ≤ p * rpm), decide (p * rpm < d.natAbs * 1000))

/-- SPEED_LOCK (R105). -/
def execSpeedLock (period : Nat) (s : State) : Result :=
  if s.spn.st != .ramp then .next s
  else .next ({ s with spn.period := period, spn.reg := (s.speedIs period).1 } : State).lockBegins

/-- SPINUP_TIMEOUT (R105): commutation has not closed within 5 s of ALIGN, or speed lock not come within 30 s of the
grant. -/
def execSpinupTimeout (lock : Bool) (s : State) : Result :=
  .next (if s.spn.st = .ramp ∨ (lock ∧ s.spn.st = .align) then s.spinFail raise (if lock then 2 else 1) else s)

/-- SPINUP_RETRY (R105): the next attempt, or FAULT after three failed ones. -/
def execSpinupRetry (s : State) : Result :=
  if !s.spn.retryWait then .next s
  else
    let s : State := { s with spn.retryWait := false }
    if s.spn.attempts < 3 then .next (if s.spn.wanted then s.requestSpin else s)
    else
      let s := ({ s with spn.st := .fault, spn.wanted := false } : State).spinMode 0
      .next (raise 9 (s.eventSrc 0x2001 3 9 [s.spn.failCause, s.lastFld 0x1C00 0 13]))

/-- SPEED_LOCK_LOSS (R106): at half the target or more the SPN returns to RAMP without a new token, else it stops and begins
again from OFF. Before the index has measured the loss, the back-EMF has: a free value (log 19). -/
def execSpeedLockLoss (s : State) : Result :=
  if s.spn.st != .locked then .next s
  else
    let fast := if 16 ≤ s.spn.offCnt then decide (s.spn.period * s.lastFld 0x1C00 0 13 ≤ 120000000000)
      else Config.freeNat s.free % 2 == 1
    let s := raise 10 (s.draw.lockEnds raise)
    if s.spn.st != .locked then .next s
    else if fast then .next (({ s with spn.st := .ramp, spn.wanted := true } : State).spinMode 1)
    else .next { s.spinStop raise with spn.wanted := true }

/-- BRAKE_DONE (R104, R105): OFF; an attempt that is still wanted begins again unless its 10 s run. -/
def execBrakeDone (s : State) : Result :=
  if s.spn.st != .stopping || s.mdl.mode != 3 then .next s
  else
    let s := ({ s with spn.st := .off } : State).spinMode 0
    .next (if s.spn.wanted && !s.spn.retryWait then s.requestSpin else s)

/-! ### Change of speed (R107) -/

/-- The part changes its speed (R107): parks, GEN_READY bits 11 to 19, CHANGING; a higher speed waits for a token. -/
def State.changeSpeed (s : State) (rpm : Nat) : State :=
  if s.spn.st != .locked then s.putFld 0x1C00 0 13 rpm
  else
    let up := decide (s.lastFld 0x1C00 0 13 < rpm)
    let s := ((s.parkAll.clearSpinReady).lockEnds raise)
    let s : State := { s with
      spn.st := .changing, spn.newRpm := some rpm, spn.ramping := !up || s.spn.token, spn.reqTick := s.pwr.ticks }
    if up && !s.spn.token then s.askToken else s

/-- SPEED_CHANGE_DONE (R107). -/
def execSpeedChangeDone (s : State) : Result :=
  match s.spn.st, s.spn.newRpm with
  | .changing, some n => .next (if s.spn.ramping then (s.putFld 0x1C00 0 13 n).lockBegins else s)
  | _, _ => .next s

/-! ### Tokens (R110 to R113, R349) -/

/-- TOKEN_REQUEST_REPEAT (R110). -/
def execTokenRequestRepeat (s : State) : Result := .next (if s.waitsToken then s.askToken else s)

/-- TOKEN_RETURN_TIMER (R111). -/
def execTokenReturnTimer (s : State) : Result := .next (if s.spn.token ∧ s.spn.st = .locked then s.giveToken else s)

/-- TOKEN_LEASE_EXPIRY (R111): the shift boss reclaims the token; this module, where it is its own and speed lock has not
come, brakes and counts the attempt as failed. -/
def execTokenLeaseExpiry (slot : Fin 16) (s : State) : Result :=
  let mine := s.spn.token && slot == s.slotNo
  let s := if s.ledger.office && s.ledger.held.contains slot then s.ledgerReturn slot else s
  if !mine then .next s
  else
    let s : State := { s with spn.token := false, spn.solo := false }
    .next (if s.spn.st = .align ∨ s.spn.st = .ramp ∨ s.spn.st = .changing then s.spinFail raise 3 else s)

/-- BOSS_HOLD_EXPIRY (R112). -/
def execBossHoldExpiry (s : State) : Result :=
  .next (if s.ledger.office ∧ s.ledger.holdoff then ({ s with ledger.holdoff := false } : State).grantAll else s)

/-- SOLO_WAIT_EXPIRY (R113). -/
def execSoloWaitExpiry (s : State) : Result :=
  let up := (List.range 5).any (fun n => (s.port n).st == .up)
  .next (if s.waitsToken && !s.spn.token && !up then s.tokenGot true else s)

/-- Is an address in this module's shelf (R332)? -/
def State.inShelf (s : State) (a : BitVec 12) : Bool := !s.fab.noaddr && a.toNat / 16 == s.fab.addr.toNat / 16

/-- A token request reaches this module (R110). -/
def State.gotTokenReq (s : State) (slot : Fin 16) : State := if s.ledger.office then s.ledgerReq slot else s
/-- A grant reaches this module (R110); one it does not wait for goes back (R111). -/
def State.gotTokenGrant (s : State) : State :=
  if s.waitsToken && !s.spn.token then s.tokenGot false
  else if s.spn.token then s
  else ({ s with spn.token := true } : State).giveToken
/-- A returned token reaches this module (R111). -/
def State.gotTokenReturn (s : State) (slot : Fin 16) : State := if s.ledger.office then s.ledgerReturn slot else s
/-- A new shift boss asks for the tokens held (R112). -/
def State.gotLedgerQuery (s : State) (src : BitVec 12) : State :=
  let s : State := { s with spn.boss := if s.spn.token then src else s.spn.boss }
  s.e2eSend src 0x17 s.tokenBytes
/-- A module's report of the tokens it holds (R112). -/
def State.gotLedgerHeld (s : State) (slot : Fin 16) (held : Nat) : State :=
  if s.ledger.office && held != 0 && !s.ledger.held.contains slot then
    { s with ledger.held := s.ledger.held ++ [slot], ledger.queue := s.ledger.queue.filter (· != slot) }
  else s

/-- TOKEN_REQ (R110). -/
def execTokenReq (src : BitVec 12) (shelf : Byte) (slot : Fin 16) (_held : Byte) (s : State) : Result :=
  .next (if s.inShelf src && shelf.toNat == s.fab.addr.toNat / 16 then s.gotTokenReq slot else s)
/-- TOKEN_GRANT (R110). -/
def execTokenGrant (src : BitVec 12) (s : State) : Result := .next (if s.inShelf src then s.gotTokenGrant else s)
/-- TOKEN_RETURN (R111). -/
def execTokenReturn (src : BitVec 12) (shelf : Byte) (slot : Fin 16) (_held : Byte) (s : State) : Result :=
  .next (if s.inShelf src && shelf.toNat == s.fab.addr.toNat / 16 then s.gotTokenReturn slot else s)
/-- LEDGER_QUERY (R112). -/
def execLedgerQuery (src : BitVec 12) (s : State) : Result := .next (if s.inShelf src then s.gotLedgerQuery src else s)
/-- LEDGER_HELD (R112). -/
def execLedgerHeld (src : BitVec 12) (slot : Fin 16) (held : Byte) (s : State) : Result :=
  .next (if s.inShelf src then s.gotLedgerHeld slot held.toNat else s)

/-- Taking and leaving the shift boss's office (R112, R349): a new ledger is empty, every module of the shelf is asked, and
nothing is granted for 500 ms. -/
def State.setOffice (s : State) (on : Bool) : State :=
  if on = s.ledger.office then s
  else if !on then { s with ledger := Ledger.init }
  else
    let own := if s.spn.token && !s.spn.solo then [s.slotNo] else []
    let s : State := { s with ledger.office := true, ledger.holdoff := true, ledger.held := own, ledger.queue := [] }
    let me := s.slotNo
    (List.range 16).foldl (fun s k =>
      let d := BitVec.ofNat 12 (s.fab.addr.toNat / 16 * 16 + k)
      if k = me.val ∨ d = 0 ∨ d = 0xFFF ∨ !(s.route d.toNat).valid then s else s.e2eSend d 0x16 s.tokenBytes) s

/-! ### Phase reference (R114, R350) -/

/-- PHASE_REF_SEND (R350). -/
def execPhaseRefSend (s : State) : Result :=
  .next (if s.ledger.office ∧ s.spn.st = .locked ∧ s.atb.st = .locked then
    s.broadcast 0x12 (leBytes 2 (s.lastFld 0x1C00 0 13) ++ leBytes 2 0 ++ leBytes 4 0) else s)

/-- A phase reference with its corrected arrival angle (R114). The trim, at most ±40 parts per million, is the part's own law:
a free value (log 11). -/
def State.gotPhaseRef (s : State) (rpm : Nat) (a : Nat) : State :=
  if !s.flag 0x1C00 30 || s.spn.st != .locked || s.atb.st != .locked || rpm != s.lastFld 0x1C00 0 13 then s
  else
    let e := angDiff a ((s.slotNo.val * s.fld 0x1C10 0 22) % revAC)
    let n := if e.natAbs ≤ 16384 then s.spn.phaseGood + 1 else 0
    { s.draw with
      spn.phaseErr := e, spn.phaseGood := n, spn.phaseLocked := s.spn.phaseLocked || decide (4 ≤ n)
      spn.trim := (Config.freeNat s.free % 81 : Int) - 40 }
/-- PHASE_REF (R114, R350). -/
def execPhaseRef (src : BitVec 12) (rpm : BitVec 16) (angleAtArrival : BitVec 22) (s : State) : Result :=
  .next (if s.inShelf src then s.gotPhaseRef rpm.toNat angleAtArrival.toNat else s)

/-- PHASE_REF_LOSS (R114). -/
def execPhaseRefLoss (s : State) : Result := .next { s with spn.phaseLocked := false, spn.phaseGood := 0, spn.trim := 0 }

/-! ### Power failure (R115, R116) -/

/-- The part acts on PFAIL_N being asserted (R115, R218, R351, R432). -/
def State.pfail (s : State) : State :=
  if s.spn.pfailLow then s
  else
    let s := ({ s with spn.pfailLow := true, zon.jstop := true } : State).actPfail raise
    let s := ({ s with fab.leaving := true } : State).floodLsa
    raise 115 s
/-- PFAIL_ASSERT (R115). -/
def execPfailAssert (s : State) : Result := .next s.pfail

/-- PFAIL_DEASSERT (R116). -/
def execPfailDeassert (s : State) : Result :=
  .next { s with spn.pfailLow := false, fab.leaving := s.svc.removal == .safe || s.svc.removal == .surprise }

/-- The SPN leaves PFAIL once every actuator is parked (R116): FAULT while its fence holds, else OFF, with spin-up requested
where it turned or was to turn. -/
def State.pfailEnds (s : State) : State :=
  if s.spn.st != .pfail || s.spn.pfailLow || !s.allParked || s.svc.removal == .surprise then s
  else
    let s : State := { s with zon.jstop := bitOf s.flt.fenced.toNat 61 }
    if s.spn.fenced then { s with spn.st := .fault }
    else
      let b := s.spn.before
      let again := b != some .off && b != some .stopping && b.isSome
      let s : State := { s with spn.st := .off }
      if again then s.requestSpin else { s with spn.before := none }
/-- PFAIL_RECOVER (R116). -/
def execPfailRecover (s : State) : Result := .next s.pfailEnds

end Sys2Proof.Machine
end

