-- ==== Sys2Proof/Machine/ChunkPath.lean ====
section
/-! DEFINITION. What the chunk path's units answer: engines (R198 to R202, R212), crypto lanes (R204, R205), the XTP (R183),
commit records, checkpoints and copies in place (R215 to R220), locator index builds (R254). -/
namespace Sys2Proof.Machine

open Sys2Proof

/-! ### Engines (R199 to R202, R212) -/

/-- A requested fence of engine `k` takes effect once it holds no chunk (R202). -/
def State.cmpRequested (s : State) (k : Nat) : State :=
  if s.flag 0x3400 (4 + k) && !(s.engine k).fenced && (s.engine k).job == .none then s.fenceCmp k else s

/-- Stored length of a deflated chunk: padded to 256 bytes (R199). -/
def paddedLen (n : Nat) : Nat := 256 * ceilDiv n 256

/-- What follows when engine `k` has let its chunk go. -/
def State.engineFree (s : State) (k : Nat) : State :=
  ((((s.modEngine k (fun e => { e with job := .none })).cmpRequested k).startEngines).forceRaw.pumpWrites none).settle

/-- CHUNK_COMPRESS_DONE (R199, R200, R201): the chunk has its stored length; an engine whose output path is full stalls and
keeps it. -/
def execChunkCompressDone (k : Fin 4) (deflated : Nat) (s : State) : Result :=
  let e := s.engine k.val
  match e.job with
  | .compress z c cs =>
    if e.fenced || e.stalled then .next s
    else if (s.dmaCh (16 + k.val)).busy then .next (s.modEngine k.val (fun e => { e with stalled := true }))
    else
      match s.cmp.jobs.find? (fun j => j.zone == z && j.chunk == c && j.csec == cs) with
      | none => .next (s.engineFree k.val)
      | some j =>
        let n := paddedLen deflated
        let raw := decide (4096 * j.nblk ≤ n)
        let done := if raw then rawJob j else { j with slen := some n }
        let s : State := { s with cmp.jobs := s.cmp.jobs.map (fun x =>
          if x.zone = z ∧ x.chunk = c ∧ x.csec = cs then done else x) }
        .next ((s.count ((if raw then 156 else 152) + k.val) 1).engineFree k.val)
  | _ => .next s

/-- CMP_OUTPUT_RESUME (R201): the engine goes on where it stood. -/
def execCmpOutputResume (k : Fin 4) (s : State) : Result :=
  .next (s.modEngine k.val (fun e => { e with stalled := false }))

/-- What a decompression answers (R212): the output limit, then validity, length and LCRC. -/
def inflateEnd (l : Locator) (stored : List Byte) : ChunkEnd :=
  let (out, valid) := Config.inflate stored
  if 4096 * l.nblk < out.length then .limit
  else if !valid then .bad 1
  else if out.length < 4096 * l.nblk then .bad 2
  else if crc32c out ≠ l.lcrc.toNat then .bad 3
  else .good out

/-- DECOMPRESS_DONE (R200, R212, R213): the chunk passes or fails for its command. -/
def execDecompressDone (k : Fin 4) (s : State) : Result :=
  let e := s.engine k.val
  match e.job with
  | .inflate z c q t =>
    if e.fenced then .next s
    else
      let s := match s.cmd? q.val t, s.locator z c with
        | some cmd, some l => s.endChunk cmd (z, c) (inflateEnd l (s.storedBytes z l))
        | _, _ => s
      .next (s.engineFree k.val)
  | _ => .next s

/-! ### Crypto lanes (R204, R205) -/

/-- The staged unit and index of a staging position of actuator `a` (R219). -/
def State.stagedAt (s : State) (a sbi : Nat) : Option (CUnit × Nat) :=
  let r := max (s.stageOrder a).length 1
  (s.cmp.units.filter (fun u => u.conv && u.zone == a && u.formed)).findSome? (fun u =>
    ((List.range (u.count + 1)).find? (fun i => (u.firstSbi + i) % r == sbi)).map (fun i => (u, i)))

/-- The data-unit number T of R204. -/
def State.tweak (s : State) (z sbi : Nat) : Nat :=
  if z < convZone then z * 2 ^ 32 + s.origSbi z sbi
  else if z = convZone then 2 ^ 64 + sbi
  else match s.stagedAt (z - stageZone 0) sbi with
    | some (u, i) => if i < u.count then 2 ^ 64 + u.cblk + i else 2 ^ 65 + sbi
    | none => 2 ^ 65 + sbi

/-- Number of the XTS key of a block's key range (R204, R386). -/
def State.xtsKey (s : State) (z : Nat) : Nat :=
  tget 0 s.sec.lanes (if z < convZone then (s.zone z).key.toNat else (s.nv.convRange.getD 0).toNat)

/-- A requested fence of lane `k` takes effect once it holds no data unit (R205). -/
def State.cryRequested (s : State) (k : Nat) : State :=
  if s.flag 0x3800 k && !bitOf s.cry.fenced.toNat k && !s.cry.lane.any (fun e => e.1 == k) then s.fenceLane k else s

/-- One data unit is encrypted: its block's payload is as it goes to the writer (R204, R209). -/
def State.encryptUnit (s : State) (z sbi : Nat) : State :=
  { s with cmp.blks := s.cmp.blks.map (fun b => if b.zone = z ∧ b.sbi = sbi ∧ !b.enc
      then { b with data := Config.xtsEnc (s.xtsKey z) (s.tweak z sbi) b.data, enc := true } else b) }
/-- One data unit is decrypted for the commands that wait for it (R204, R211). -/
def State.decryptUnit (s : State) (z sbi : Nat) : State :=
  let new := (s.cmp.got.filter (fun p => p.1 == z && p.2.1 == sbi)).map (fun p =>
    (z, sbi, Config.xtsDec (s.xtsKey z) (s.tweak z sbi) p.2.2))
  { s with
    cmp.got := s.cmp.got.filter (fun p => !(p.1 == z && p.2.1 == sbi))
    cmp.plain := s.cmp.plain ++ new }

/-- CRY_UNIT_DONE (R204, R205, R209, R240): a lane ends its data unit; a block that is final by it starts the transfer whose
pulse its slot waits for. The lane waits while its last transfer runs. -/
def execCryUnitDone (lane : Fin 4) (s : State) : Result :=
  if (s.dmaCh (20 + lane.val)).busy then .next s
  else match s.cry.lane.find? (fun e => e.1 == lane.val) with
    | none => .next s
    | some (_, z, sbi, dec) =>
      let s : State := { s with cry.lane := s.cry.lane.filter (fun e => e.1 != lane.val) }
      let s := s.count (161 + lane.val) 1
      let s := if dec then s.decryptUnit z sbi else s.encryptUnit z sbi
      let s := (s.cryRequested lane.val).startLanes
      .next ((s.pumpWrites (some (20 + lane.val))).pumpParity.settle)

/-! ### Reconstruction (R183) -/

/-- RECONSTRUCT_DONE (R183, R184): an unfenced XTP delivers the oldest rebuilt block of an actuator. -/
def execReconstructDone (act : Fin 4) (s : State) : Result :=
  if s.xtp.fenced then .next s
  else match s.readyL6 act.val with
    | some e => .next (s.reconstruct e).settle
    | none => .next s

/-! ### Commits (R215 to R218) -/

/-- COMMIT_RECORD_WRITE (R215, R217, R218): `ok1` and `ok2` are the verifications of its first and second write. After source
121 the command ends INTERNAL instead; after PFAIL_N nothing begins. -/
def execCommitRecordWrite (csec : Word) (ok1 ok2 : Bool) (s : State) : Result :=
  match s.unit? csec with
  | none => .next s
  | some u =>
    if !s.mayCommit u || s.spn.pfailLow then .next s
    else if s.zon.jstop then .next (s.failCommit u)
    else if !s.slotFree then .next s.jwait
    else
      let (s, ok) := s.tryRec (s.unitRec u) ok1 ok2
      .next (if ok then s.commitUnit u else s.failCommit u)

/-- CHECKPOINT_DONE (R189, R217): the checkpoint is on media, with the pending relocation entries, and its type-4 record
written. -/
def execCheckpointDone (s : State) : Result :=
  match s.zon.ckptBusy with
  | none => .next s
  | some c =>
    if s.zon.jstop then .next s
    else
      let s : State := { s with
        nv.ckpt := some c, zon.ckptBusy := none, recs.gen := s.recs.gen + 1, rcv.clean := []
        zon.unchk := (s.jrecs.filter (fun r => decide (c.jseq.toNat < r.jseq.toNat))).length }
      .next ((s.putRec { JRec.of 4 0 with firstSbi := c.jseq }).pumpWrites none)

/-! ### Copies in place (R219, R220) -/

/-- Every target of a committed staged unit is written and verified, or a newer committed unit's copy takes its place
(R219, R220). -/
def State.copiesDone (s : State) (u : CUnit) : Bool :=
  (List.range u.count).all (fun i =>
    let t := u.cblk + i
    s.cmp.units.any (fun v => v.conv && v.committed && decide (u.csec.toNat < v.csec.toNat) && decide (v.cblk ≤ t) &&
      decide (t < v.cblk + v.count)) ||
    s.cmp.blks.any (fun b => b.zone == convZone && b.sbi == t && b.csec == u.csec && b.ok))

/-- COPY_IN_PLACE_DONE (R216, R219, R220): in CSEQ order; its type-3 record is written, and its staging positions are free. -/
def execCopyInPlaceDone (csec : Word) (s : State) : Result :=
  match s.unit? csec with
  | none => .next s
  | some u =>
    if !u.conv || !u.committed || !s.zon.staged.all (fun c => decide (csec.toNat ≤ c.toNat)) || !s.copiesDone u ||
       s.zon.jstop then .next s
    else if !s.slotFree then .next s.jwait
    else
      let j := ((s.jrecs.find? (fun r => r.jtype == 2 && r.csec == csec)).map (·.jseq)).getD 0
      let s := s.putRec { JRec.of 3 u.zone with csec := csec, firstSbi := j }
      let s : State := { s with
        zon.staged := s.zon.staged.filter (· != csec), cmp.units := s.cmp.units.filter (fun v => v.csec != csec)
        cmp.blks := s.cmp.blks.filter (fun b => b.csec != csec), nv2.descs := s.nv2.descs.filter (fun e => e.1 != csec.toNat) }
      .next ((s.pumpWrites none).wakeWaiters.wakeData.settle)

/-! ### Locator indexes (R254) -/

/-- LOCATOR_INDEX_BUILD_DONE (R254, R256, R243): the index is whole; a build that fails raises source 68 and ends the commands
that wait for it. -/
def execLocatorIndexBuildDone (zone : Nat) (ok : Bool) (locs : List Locator) (s : State) : Result :=
  if !s.zon.builds.contains zone then .next s
  else if ok then
    let s : State := { s with zon.builds := s.zon.builds.filter (· != zone) }
    .next ((s.modZone zone (fun z => { z with locs := mergeLocs locs z.locs })).settle)
  else
    let cs := s.hqi.cmds.filter (fun c => (s.readBlocks c).any (fun p => p.1 == zone && s.srcOf c p == .wait))
    let s := (raise 68 s).modZone zone (fun z => { z with idx := none, locs := [] })
    let s : State := { s with
      zon.builds := s.zon.builds.filter (· != zone), zon.used := s.zon.used.filter (· != zone) }
    .next ((cs.foldl (fun s c => s.endCmd c stInternal 0) s).settle)

end Sys2Proof.Machine
end

