-- ==== Sys2Proof/Machine/Buffer.lean ====
section
/-! DEFINITION. Buffer memory's errors (R226 to R236), the sheepdog, page retirement, the DMA engine (R238 to R244), map cache
fills and maintenance (R246 to R250). -/
namespace Sys2Proof.Machine

open Sys2Proof

/-! ### Errors (R226, R232 to R236) -/

/-- The 64 data bits of an ECC word. -/
def State.wordData (s : State) (w : Nat) : Nat := leAt (s.load (8 * w) 8) 0 8
/-- Check byte stored with a word of the diagnostic region (R236). -/
def State.rawChk (s : State) (w : Nat) : Byte :=
  if s.buf.poison.contains w then Config.eccCheck (s.wordData w) ^^^ 0x5A
  else tget (Config.eccCheck (s.wordData w)) s.buf.chk w
/-- Syndrome of a word: a poisoned one's, a chosen check byte's, else what the cells give (R226, R227, R236). -/
def State.syndrome (s : State) (w : Nat) (cells : Byte) : Byte :=
  if s.buf.poison.contains w then 0x5A
  else if s.buf.chk.any (fun e => e.1 == w) then s.rawChk w ^^^ Config.eccCheck (s.wordData w)
  else cells

/-- A word is stored poisoned (R227). -/
def State.poisonWord (s : State) (w : Nat) : State := { s with buf.poison := insertNat w s.buf.poison }
/-- A word is written whole with its own check byte (R228). -/
def State.freshWord (s : State) (w : Nat) : State :=
  { s with buf.poison := s.buf.poison.filter (· != w), buf.chk := s.buf.chk.filter (fun e => e.1 != w) }

/-- Lowest spare page not in use (R234). -/
def State.freeSpare (s : State) : Option Nat := (List.range 512).find? (fun k => !s.buf.spared.any (fun e => e.2 == k))
/-- The MRAM list takes a retired page; a full one raises source 58 (R234). -/
def State.keepRetired (s : State) (e : Word) : State :=
  if s.nv2.retired.length < 1024 then { s with nv2.retired := s.nv2.retired ++ [e] } else raise 58 s
/-- The 4 KiB page of a word is retired (R233, R234): in a fixed region it moves to a spare page; in a pool it is handed out no
more. Other pages are no rule's. -/
def State.retirePage (s : State) (w : Nat) : State :=
  let p := 8 * w / 4096
  if 8 * w < 0x30000000 then
    match s.freeSpare with
    | none => (raise 58 (s.setW1c 0x2808 15)).event 0x5003 3 [p]
    | some k =>
      let s : State := { s with buf.spared := s.buf.spared ++ [(p, k)] }
      let s := s.keepRetired (BitVec.ofNat 32 (2 ^ 31 + k * 2 ^ 22 + p))
      s.event 0x5001 2 [p, 2, k, s.nv2.retired.length]
  else if s.buf.noPool.contains p || (decide (0x114000000 ≤ 8 * w) && decide (8 * w < 0x114200000)) || isDiag (8 * w) then s
  else
    let s := ({ s with buf.noPool := s.buf.noPool ++ [p] } : State).keepRetired (BitVec.ofNat 32 p)
    s.event 0x5001 2 [p, 1, 0, s.nv2.retired.length]

/-- The entry R232 replaces: lowest count among those not rewritten, the oldest on a tie. -/
def oldestLow (l : List (Nat × CeEnt)) : Option Nat :=
  (l.foldl (fun (a : Option (Nat × Nat)) e => if e.2.rewritten then a else match a with
    | some (_, n) => if e.2.count < n then some (e.1, e.2.count) else a
    | none => some (e.1, e.2.count)) none).map (·.1)
/-- A corrected read is logged (R232); one in a word whose entry is rewritten retires its page (R233). -/
def State.logCe (s : State) (w : Nat) (syn : Byte) : State :=
  let s := s.count 146 1
  match s.buf.ce.find? (fun e => e.2.word == w) with
  | some (_, x) =>
    let s : State := { s with buf.ce := s.buf.ce.map (fun e => if e.2.word = w
      then (e.1, { e.2 with count := min 65535 (e.2.count + 1), syn := syn }) else e) }
    if x.rewritten then s.retirePage w else s
  | none =>
    match (List.range 64).find? (fun i => !s.buf.ce.any (fun e => e.1 == i)) with
    | some i => { s with buf.ce := s.buf.ce ++ [(i, ⟨w, 1, syn, false⟩)] }
    | none => match oldestLow s.buf.ce with
      | some i => ({ s with buf.ce := s.buf.ce.filter (fun e => e.1 != i) ++ [(i, ⟨w, 1, syn, false⟩)] } : State).setW1c 0x2808 13
      | none => s.count 147 1

/-- Words the pair mirrors for R235: the Zone Table, and chunk buffers of mirrored write data (R370). -/
def State.pairMirrors (s : State) (w : Nat) : Bool :=
  s.mirroring && (decide (8 * w < 0x800000) || (decide (0x114200000 ≤ 8 * w) && decide (8 * w < 0x37FFF0000)))
/-- An uncorrectable word was read (R235): repaired from the partner where that may be, else written back poisoned; source 56,
event 0x5002, its page retired. `unit` is the reader. -/
def State.logUe (s : State) (w : Nat) (syn : Byte) (partnerOk : Bool) (unit : Nat) : State :=
  let s := (s.count 148 1).setW1c 0x2808 14
  let fix := s.flag 0x2800 9 && s.pairMirrors w && partnerOk
  let s := if fix then s.freshWord w else s.poisonWord w
  ((raise 56 s).event 0x5002 3 [w, syn.toNat, if fix then 2 else 1, unit]).retirePage w

/-- A read of ECC word `w` whose cells give a syndrome (R226, R232 to R236). -/
def State.eccRead (s : State) (w : Nat) (cells : Byte) (partnerOk : Bool) (unit : Nat) : State :=
  let syn := s.syndrome w cells
  let s := if isDiag (8 * w) && s.flag 0x2830 31 then
      { s with buf.diagRd := BitVec.ofNat 16 (syn.toNat * 256 + (s.rawChk w).toNat) } else s
  match eccClass syn with
  | .good => s
  | .corrected => s.logCe w syn
  | .poisoned => raise 56 ((s.count 148 1).setW1c 0x2808 14)
  | .uncorrectable => s.logUe w syn partnerOk unit
/-- Reads of successive ECC words. -/
def State.eccReads (s : State) (w : Nat) (partnerOk : Bool) (unit : Nat) : List Byte → State
  | [] => s
  | b :: t => (s.eccRead w b partnerOk unit).eccReads (w + 1) partnerOk unit t

/-- The sheepdog's unit number in events: the BUF (R410). -/
def bufUnit : Nat := 32

/-- A granule is read, corrected and written back with fresh check bytes; a poisoned word stays so, and BUF_DIAG may choose the
bytes of the diagnostic region (R227, R233, R235, R236). -/
def State.rewriteGranule (s : State) (g : Nat) : State :=
  let chosen := s.flag 0x2830 31 && s.flag 0x2830 30 && isDiag (64 * g)
  { s with
    buf.chk := (List.range 8).foldl (fun c i => if s.buf.poison.contains (8 * g + i) then c
      else if chosen then tset c (8 * g + i) (BitVec.ofNat 8 (s.fld 0x2830 0 8))
      else c.filter (fun e => e.1 != 8 * g + i)) s.buf.chk }

/-- SHEEPDOG_STEP (R235): the next granule is read, `syn` being its eight words' syndromes as the cells give them; with EAGER one
that held a correctable error is rewritten. -/
def execSheepdogStep (syn : List Byte) (partnerOk : Bool) (s : State) : Result :=
  if !s.flag 0x2804 0 || !s.ready 2 || s.buf.selfRefresh || s.pwr.st = .dark then .next s
  else
    let g := s.buf.pos
    let hit := ((syn.take 8).zip (List.range 8)).any (fun x => eccClass (s.syndrome (8 * g + x.2) x.1) == .corrected)
    let s := s.eccReads (8 * g) partnerOk bufUnit (syn.take 8)
    let s := if hit && s.flag 0x2800 8 then s.rewriteGranule g else s
    let wrap := decide (memTop / 64 ≤ g + 1)
    .next { s with
      buf.pos := if wrap then 0 else g + 1
      buf.passes := if wrap then s.buf.passes + 1 else s.buf.passes }

/-- SHEEPDOG_REWRITE (R233): the granule of an entry at the threshold is written fresh. -/
def execSheepdogRewrite (idx : Fin 64) (s : State) : Result :=
  match s.buf.ce.find? (fun e => e.1 == idx.val) with
  | none => .next s
  | some (_, x) =>
    if x.rewritten || decide (x.count < s.fld 0x2800 0 8) || s.buf.selfRefresh then .next s
    else
      let s : State := { s with buf.ce := s.buf.ce.map (fun e => if e.1 = idx.val then (e.1, { e.2 with rewritten := true }) else e) }
      .next ((s.rewriteGranule (x.word / 8)).event 0x5000 1 [x.word, x.count, x.syn.toNat])

/-- BUF_INIT_DONE (R229, R234, R433): memory reads zero, the retired-page list applies, GEN_READY bit 2, and with it bit 10, the
XTP's. -/
def execBufInitDone (s : State) : Result :=
  if s.ready 2 || s.buf.selfRefresh || !s.pwr.bufActive then .next s
  else
    let sp := s.nv2.retired.filterMap (fun e => if bitOf e.toNat 31 then some (bitsOf e.toNat 0 22, bitsOf e.toNat 22 9) else none)
    let np := s.nv2.retired.filterMap (fun e => if bitOf e.toNat 31 then none else some (bitsOf e.toNat 0 22))
    .next (({ s with buf.mem := [], buf.poison := [], buf.chk := [], buf.spared := sp, buf.noPool := np } : State).setReady 2 true |>.setReady 10 true)

/-! ### DMA (R238 to R244) -/

/-- Priority of a channel (R238): 31 has priority 1 for a rewrite under R233. -/
def State.dmaPrio (s : State) (n : Nat) : Nat :=
  if n < 16 then 0
  else if n < 26 then 1
  else if n < 30 then 2
  else if n = 31 && s.buf.ce.any (fun e => !e.2.rewritten && decide (s.fld 0x2800 0 8 ≤ e.2.count)) then 1
  else 3
/-- A channel asks for a burst: a paused one starts none that reads memory (R242). -/
def State.dmaWants (s : State) (n : Nat) : Bool :=
  let c := s.dmaCh n
  c.busy && decide (0 < c.remain) && !(c.reads && s.flag 0x2C00 n)
/-- The order of round robin after channel `k`. -/
def after (k : Nat) : List Nat := (List.range 32).map (fun i => (k + 1 + i) % 32)
/-- The channel the engine serves next (R239), and whether it is served under GUARD. -/
def State.dmaNext (s : State) : Option (Nat × Bool) :=
  let late := (List.range 32).filter (fun n => s.dmaWants n && decide (s.fld 0x2C08 0 8 ≤ (s.dmaCh n).waited))
  match late with
  | n :: t => some (t.foldl (fun a x => if (s.dmaCh a).waited < (s.dmaCh x).waited then x else a) n, true)
  | [] =>
    ((List.range 4).findSome? (fun p =>
      (after (tget 31 s.dma.last p)).find? (fun n => s.dmaWants n && s.dmaPrio n == p))).map (fun n => (n, false))
/-- Regions a channel may address: its media buffers for CH0 to CH15, else all but the diagnostic region (R230, R238, R243). -/
def dmaAllowed (n a len : Nat) : Bool :=
  if n < 16 then decide (0x30000000 ≤ a) && decide (a + len ≤ 0x54000000)
  else decide (a + len ≤ 0x37FFF0000)

/-- DMA_BURST (R239, R243): the next burst moves; `syn` holds the syndromes of the words it reads. -/
def execDmaBurst (syn : List Byte) (s : State) : Result :=
  match s.dmaNext with
  | none => .next s
  | some (n, guard) =>
    let c := s.dmaCh n
    if !dmaAllowed n c.addr c.remain then
      .next (raise 60 ((s.modDma n (fun c => { c with busy := false, remain := 0, dst := .none })).setW1c 0x2C10 n))
    else
      let len := min 512 c.remain
      let p := s.dmaPrio n
      let others := (List.range 32).filter (fun k => k != n && s.dmaWants k)
      let s := others.foldl (fun s k => s.modDma k (fun c => { c with waited := c.waited + 1 })) s
      let ws := (List.range (ceilDiv len 8)).map (fun i => c.addr / 8 + i)
      let bad := c.reads && (ws.zip (syn ++ List.replicate 64 0)).any (fun e => match eccClass (s.syndrome e.1 e.2) with
        | .poisoned => true
        | .uncorrectable => true
        | _ => false)
      let s := if c.reads then s.eccReads (c.addr / 8) false 33 (syn.take (ceilDiv len 8)) else s
      let s := s.modDma n (fun c => { c with addr := c.addr + len, remain := c.remain - len, waited := 0, poison := c.poison || bad })
      let s : State := { s with dma.last := tset s.dma.last p n }
      let s := s.count 186 1
      .next (if guard then s.count 187 1 else s)

/-- DMA_PAUSE_DRAINED (R242): a paused channel has delivered what it had read. -/
def execDmaPauseDrained (n : Fin 32) (s : State) : Result :=
  if s.flag 0x2C00 n.val then .next { s with dma.paused := s.dma.paused ||| (1#32 <<< n.val) } else .next s

/-- A write of DMA_PAUSE: a cleared bit lets its channel resume (R242). -/
def State.dmaResume (s : State) : State := { s with dma.paused := s.dma.paused &&& s.forceWord 0x2C00 }

/-! ### Map cache fills and maintenance (R246 to R250) -/

/-- MAP_FILL_DONE (R246 to R249): a fill in progress completes its line, `syn` being its words' syndromes; a LOCK_FILL's goes into
the lowest locked way that is invalid. -/
def execMapFillDone (line : BitVec 24) (syn : List Byte) (s : State) : Result :=
  let n := line.toNat
  match s.map.fills.find? (fun f => f.1 == n) with
  | none => .next s
  | some (_, wr) =>
    let s : State := { s with map.fills := s.map.fills.filter (fun f => f.1 != n) }
    let s := s.eccReads (8 * n) false 34 (syn.take 8)
    let lockWay := (List.range 8).find? (fun w => s.wayLocked w && (s.mapWay (mapSet n) w).isNone)
    .next (match s.map.maint, lockWay with
      | some (4, m), some w => if m.toNat = n then s.fillWay n w wr else s.mapAlloc n wr
      | _, _ => s.mapAlloc n wr)

/-- A write of MAP_MAINT.OP starts an operation (R248); false where it is ignored. -/
def State.mapMaint (s : State) (op : Nat) : State × Bool :=
  let line := s.lastFld 0x300C 0 24
  if !([1, 2, 3, 4, 8, 9].contains op) || s.map.maint.isSome || s.map.disabling then (s, false)
  else if op = 4 && !(List.range 8).any (fun w => s.wayLocked w && (s.mapWay (mapSet line) w).isNone) then (s, false)
  else
    let s : State := { s with map.maint := some (BitVec.ofNat 4 op, BitVec.ofNat 24 line) }
    (if op = 4 && (s.mapFind line).isNone && !s.map.fills.any (fun f => f.1 == line) then
      { s with map.fills := s.map.fills ++ [(line, false)] } else s, true)

/-- MAP_MAINT_DONE (R248, R249): the operation applies once no fill it must wait for is in progress, and BUSY clears. -/
def execMapMaintDone (s : State) : Result :=
  match s.map.maint with
  | none => .next s
  | some (op, l) =>
    let line := l.toNat
    let all := decide (8 ≤ op.toNat)
    if s.map.fills.any (fun f => all || f.1 == line) then .next s
    else
      let s : State := { s with map.maint := none }
      .next (match op.toNat with
        | 1 => s.mapClean line false
        | 2 => s.mapClean line true
        | 3 =>
          let s := s.store (64 * line) (List.replicate 64 0)
          let s := (List.range 8).foldl (fun s i => s.freshWord (8 * line + i)) s
          if !s.flag 0x3000 0 then s
          else match s.mapFind line with
            | some w => (s.setWay (mapSet line) w (some ⟨line / 8192, true⟩)).touchWay (mapSet line) w
            | none => s.mapAlloc line true
        | 8 => s.cleanMap
        | 9 => { s.cleanMap with map.lines := s.map.lines.map (fun e => (e.1, none)) }
        | _ => s)

/-- A write of 0 to MAP_CTL.ENABLE starts the disable clean (R250). -/
def State.mapDisable (s : State) : State := { s with map.disabling := true }

/-- MAP_DISABLE_DONE (R250): every line is invalid, ENABLE and LOCK_MASK read 0. -/
def execMapDisableDone (s : State) : Result :=
  if !s.map.disabling || s.map.fills != [] then .next s
  else
    let s := s.cleanMap
    .next (({ s with map.disabling := false, map.lines := s.map.lines.map (fun e => (e.1, none)) } : State).putFld 0x3000 0 1 0
      |>.putFld 0x3000 8 8 0)

end Sys2Proof.Machine
end

