-- ==== Sys2Proof/Machine/Security.lean ====
section
/-! DEFINITION. Roles, keys and the security boundary: messages and the mailbox (R381, R402), sessions (R382 to R384),
lifecycle (R376 to R378), key ranges (R386, R387), signed images (R390, R391), self-tests and the error state (R392, R393),
sanitize (R394 to R396), zeroisation (R397), auditing (R398, R399). -/
namespace Sys2Proof.Machine

open Sys2Proof

/-! ### Sessions (R380, R384) -/

/-- Role of a code (R381). -/
def roleOf (n : Nat) : Option Role := if n = 1 then some .maker else if n = 2 then some .installer else if n = 3 then some .operator else none
/-- Channel byte of R382. -/
def chanCode : Chan → Nat
  | .pcie => 1 | .smbus => 2 | .fabric => 3
/-- The channel and source a message came on: PCIe from source 0, or the mailbox's claimant (R382, R402). -/
def State.who (s : State) : Via → Chan × BitVec 12
  | .qp0 _ => (.pcie, 0)
  | .mbox => s.sec.mbox.claim.getD (.pcie, 0)
/-- The session of a role on a channel and source (R380, R384). -/
def State.session (s : State) (w : Chan × BitVec 12) (r : Role) : Option Session :=
  s.sec.sessions.find? (fun x => x.role == r && x.chan == w.1 && x.src == w.2)
/-- Any session of a channel and source, the lowest role first. -/
def State.anySession (s : State) (w : Chan × BitVec 12) : Option Session :=
  ((s.session w .maker).or (s.session w .installer)).or (s.session w .operator)
/-- The operator's consent ends, and with it every maker session (R383). -/
def State.endConsent (s : State) : State :=
  ({ s with sec.consent := false } : State).endSessions (fun x => x.role == .maker) 5

/-! ### Messages (R381, R402) -/

/-- Byte `i` of the mailbox. -/
def State.mboxByte (s : State) (i : Nat) : Byte := tget 0 s.sec.mbox.bytes i
/-- Bytes of the mailbox. -/
def State.mboxBytes (s : State) (i n : Nat) : List Byte := (List.range n).map (fun k => s.mboxByte (i + k))
/-- Payload length of the mailbox's request (R402). -/
def State.mboxLen (s : State) : Nat := ofLe (s.mboxBytes 2 2)
/-- The command a message came as. -/
def State.viaCmd (s : State) : Via → Option Cmd
  | .qp0 t => s.cmd? 0 t
  | .mbox => none
/-- Command parameter CPn of a message, n from 1 to 4 (R319, R402). -/
def State.viaCp (s : State) (v : Via) (n : Nat) : Nat :=
  match v with
  | .qp0 t => match s.cmd? 0 t with | some c => c.p n | none => 0
  | .mbox => ofLe (s.mboxBytes (4 * n) 4)
/-- Payload of a message: of SECURITY SEND the data that was read, of the mailbox its bytes from 32 on. -/
def State.viaData (s : State) : Via → List Byte
  | .qp0 t => match s.cmd? 0 t with | some c => c.data | none => []
  | .mbox => s.mboxBytes 32 s.mboxLen
/-- Length a message names: COUNT, or the mailbox's payload length. -/
def State.viaLen (s : State) (v : Via) : Nat :=
  match v with
  | .qp0 t => match s.cmd? 0 t with | some c => c.count.toNat | none => 0
  | .mbox => s.mboxLen
/-- Is this message waiting to be run: its SECURITY SEND or RECEIVE fetched with its data, or the mailbox busy with it? -/
def State.msgIs (s : State) (v : Via) (send : Bool) (proto msg : Nat) : Bool :=
  match v with
  | .qp0 t => match s.cmd? 0 t with
    | some c => c.opc == (if send then 0x09 else 0x0A) && (!send || c.need == 0) && c.pf 0 0 8 == proto && c.pf 1 0 8 == msg
    | none => false
  | .mbox => s.sec.mbox.busy && (s.mboxByte 0).toNat == proto && (s.mboxByte 1).toNat == msg
/-- Byte offset of a parameter in a descriptor: CPn at 36 + 4n (R267). -/
def cpOfs (n : Nat) : Nat := 36 + 4 * n
/-- A message ends: the command completes, or the mailbox holds status and response (R402). RESULT stands in bytes 4 to 11 of a
mailbox response, a DESIGN CHOICE (log 31). -/
def State.secEnd (s : State) (v : Via) (status result : Nat) (data : List Byte) : State :=
  match v with
  | .qp0 t => match s.cmd? 0 t with
    | some c => s.reply c status result data
    | none => s
  | .mbox =>
    if !s.sec.mbox.busy then s
    else
      let out := s.mboxBytes 0 2 ++ leBytes 2 data.length ++ leBytes 8 result ++ leBytes 20 0 ++ data
      { s with
        sec.mbox.busy := false, sec.mbox.waits := false, sec.mbox.status := BitVec.ofNat 16 status
        sec.mbox.bytes := upto 512 (fun i t => tset t i ((out[i]?).getD 0)) s.sec.mbox.bytes }
/-- A message breaks its layout (R381): INVALID_FIELD with the offset of the field. -/
def State.secBad (s : State) (v : Via) (ofs : Nat) : State := s.secEnd v stInvalidField ofs []
/-- A check of a message fails (R381): SECURITY_ERROR with its cause. -/
def State.secFail (s : State) (v : Via) (cause : Nat) : State := s.secEnd v stSecurityError cause []
/-- A message succeeds. -/
def State.secOk (s : State) (v : Via) (result : Nat) : State := s.secEnd v stSuccess result []
/-- A message waits, to be run again (R387, R434). -/
def State.secWait (s : State) (v : Via) (st : CmdSt) : State :=
  match v with
  | .qp0 t => s.modCmd 0 t (fun c => { c with st := st })
  | .mbox => { s with sec.mbox.waits := true }
/-- A message runs (R377, R381, R392, R393): in DECOMMISSIONED and in the error state it completes SECURITY_ERROR, before
GEN_READY bit 1 it is held, or from the mailbox NOT_READY. The error state's RESULT is stated nowhere: a free value. -/
def State.secRun (s : State) (v : Via) (send : Bool) (proto msg : Nat) (ok : Bool) (f : State → State) : State :=
  if !(s.msgIs v send proto msg && ok) then s
  else if s.nv.life = .decommissioned then s.secFail v 5
  else if s.sec.error && !((proto == 3 && msg == 6) || (proto == 1 && msg == 1)) then
    s.draw.secFail v (Config.freeNat s.free % 2 ^ 64)
  else if !s.sec.error && !s.ready 1 then
    (match v with
     | .qp0 _ => s.secWait v .held
     | .mbox => s.secEnd v stNotReady 0 [])
  else f s
/-- A role action (R398, R399): refused while its record cannot be kept. -/
def State.roleAct (s : State) (v : Via) (f : State → State) : State :=
  if s.auditBlocked then s.secFail v 8
  else f s
/-- A role action to which R398 lists no code writes a record all the same; its code and words are free values. -/
def State.auditFree (s : State) : State := s.draw.audit (0xA000 + Config.freeNat s.free % 256) 1 [0, 0, 0, 0]

/-! ### Authentication (R381, R382, R384) -/

/-- The 68-byte message of R382. -/
def State.authMsg (s : State) (nonce : BitVec 384) (role : Nat) (w : Chan × BitVec 12) (cid : Word) : List Byte :=
  [0x41, 0x55, 0x54, 0x48] ++ leBytes 48 nonce.toNat ++ leBytes 8 s.nv.nodeId.toNat ++
    [BitVec.ofNat 8 role, BitVec.ofNat 8 (chanCode w.1)] ++ leBytes 2 w.2.toNat ++ leBytes 4 cid.toNat
/-- The challenge of that ID on a channel and source (R382). -/
def State.challenge (s : State) (w : Chan × BitVec 12) (cid : Word) : Option Challenge :=
  s.sec.challenges.find? (fun c => c.chan == w.1 && c.src == w.2 && c.cid == cid)
/-- Challenges of a channel and source go (R382). -/
def State.dropChallenge (s : State) (w : Chan × BitVec 12) : State :=
  { s with sec.challenges := s.sec.challenges.filter (fun c => !(c.chan == w.1 && c.src == w.2)) }
/-- A signature over a challenge: cause 2 where the challenge is not there, cause 1 where the signature does not verify; it is
used once (R381, R382). -/
def State.proof (s : State) (w : Chan × BitVec 12) (role : Nat) (cid : Word) (key sig : List Byte) : Nat × State :=
  match s.challenge w cid with
  | none => (2, s)
  | some c =>
    ((if key ≠ [] ∧ Config.sigOk key (s.authMsg c.nonce role w cid) sig then 0 else 1), s.dropChallenge w)

/-- AUTH_CHALLENGE (R382, R393). -/
def execAuthChallenge (via : Via) (s : State) : Result :=
  .next (s.secRun via false 1 1 true (fun s =>
    if (via matches .qp0 _) && s.viaLen via != 64 then s.secBad via 32
    else
      let w := s.who via
      let cid := s.sec.nextCid
      let nonce := if s.sec.error then 0 else Config.drbg s.free
      let s := ({ s with sec.nextCid := cid + 1 } : State).draw.dropChallenge w
      let s := if s.sec.error then s else { s with sec.challenges := s.sec.challenges ++ [⟨w.1, w.2, nonce, cid⟩] }
      s.secEnd via stSuccess 0 (leBytes 48 nonce.toNat ++ leBytes 4 cid.toNat ++ leBytes 8 s.nv.nodeId.toNat ++
        leBytes 4 s.nv.life.code)))

/-- A RESPONSE fails (R384, R398): it is recorded and counted, and from the fifth on the role is refused, for a period that
doubles up to 3,600 s. -/
def State.authFail (s : State) (v : Via) (r : Role) (cause : Nat) : State :=
  let w := s.who v
  let s := s.audit 0xA002 2 [r.code, chanCode w.1, w.2.toNat, cause]
  if cause = 4 then s.secFail v 4
  else
    let i := r.code - 1
    let n := min 255 (tget 0 s.sec.fails i + 1)
    let p := tget 0 s.sec.period i
    let s : State := { s with sec.fails := tset s.sec.fails i n }
    let s : State := if n < 5 then s
      else
        let p := if p = 0 then 60 else min 3600 (2 * p)
        { s with sec.refuse := tset s.sec.refuse i p, sec.period := tset s.sec.period i p }
    s.secFail v cause

/-- Lowest free session number (R382). -/
def State.freeSession (s : State) : Option (Fin 16) :=
  (List.finRange 16).find? (fun n => n.val != 0 && !s.sec.sessions.any (fun x => x.num == n))

/-- AUTH_RESPONSE (R382 to R384). -/
def execAuthResponse (via : Via) (role : Byte) (cid : Word) (sig : List Byte) (s : State) : Result :=
  let d := s.viaData via
  .next (s.secRun via true 1 2 (leAt d 0 1 == role.toNat && leAt d 4 4 == cid.toNat && d.drop 8 == sig) (fun s =>
    match roleOf role.toNat with
    | none => s.secBad via 32
    | some r =>
      if d.length ≠ 104 ∨ !zeros d 1 3 then s.secBad via 32
      else
        let w := s.who via
        if tget 0 s.sec.refuse (r.code - 1) ≠ 0 then s.authFail via r 4
        else
          let (c, s) := s.proof w r.code cid (tget [] s.nv.keys (r.code - 1)) sig
          if c = 2 then s.authFail via r 2
          else if r = .maker ∧ s.nv.life = .fielded ∧ !s.sec.consent then s.authFail via r 3
          else if c = 1 then s.authFail via r 1
          else match s.freeSession with
            | none => s.authFail via r 7
            | some n =>
              if (s.session w r).isSome then s.authFail via r 7
              else
                let s := s.audit 0xA000 1 [r.code, n.val, chanCode w.1, w.2.toNat]
                let s : State := { s with
                  sec.sessions := s.sec.sessions ++ [⟨n, r, w.1, w.2⟩]
                  sec.fails := tset s.sec.fails (r.code - 1) 0, sec.period := tset s.sec.period (r.code - 1) 0 }
                s.secOk via n.val))

/-- AUTH_END (R384): the operand is the session the message ends. A message names none, so one of its channel is ended: the one
of the lowest role (log 32). -/
def execAuthEnd (via : Via) (sess : Fin 16) (s : State) : Result :=
  .next (s.secRun via true 1 3 true (fun s =>
    match s.anySession (s.who via) with
    | none => s.secFail via 3
    | some x => if x.num = sess then (s.endSessions (fun y => y.num == x.num) 1).secOk via 0 else s))

/-- AUTH_SET_KEY (R379, R381, R382): the installer key by the installer or the operator, the operator key by the operator. -/
def execAuthSetKey (via : Via) (role : Byte) (cid : Word) (key sig : List Byte) (s : State) : Result :=
  let d := s.viaData via
  .next (s.secRun via true 1 4 (leAt d 0 1 == role.toNat && leAt d 4 4 == cid.toNat && (d.drop 8).take 96 == key &&
      d.drop 104 == sig) (fun s =>
    match roleOf role.toNat with
    | none => s.secBad via 32
    | some r =>
      if d.length ≠ 200 ∨ !zeros d 1 3 then s.secBad via 32
      else s.roleAct via (fun s =>
        let w := s.who via
        let fail := fun (s : State) (c : Nat) =>
          (s.audit 0xA002 2 [r.code, chanCode w.1, w.2.toNat, c]).secFail via c
        if !((r == .installer && (s.session w .installer).isSome) || (r != .maker && (s.session w .operator).isSome)) then
          fail s 3
        else
          let (c, s) := s.proof w r.code cid key sig
          if c ≠ 0 then fail s c
          else ({ s.auditFree with nv.keys := tset s.nv.keys (r.code - 1) key } : State).secOk via 0)))

/-- SESSION_IDLE_TIMEOUT (R384). -/
def execSessionIdleTimeout (sess : Fin 16) (s : State) : Result := .next (s.endSessions (fun x => x.num == sess) 2)
/-- CHALLENGE_EXPIRY (R382). -/
def execChallengeExpiry (chan : Chan) (src : BitVec 12) (s : State) : Result := .next (s.dropChallenge (chan, src))
/-- CONSENT_EXPIRY (R383). -/
def execConsentExpiry (s : State) : Result := .next (if s.sec.consent then s.endConsent else s)
/-- LOCKOUT_EXPIRY (R384): the refusal period of a role ends. -/
def execLockoutExpiry (role : Fin 4) (s : State) : Result :=
  .next (if role.val = 0 then s else { s with sec.refuse := tset s.sec.refuse (role.val - 1) 0 })

/-! ### Key ranges (R385 to R387) -/

/-- A range takes a new key from the DRBG (R385, R386); UNLOCKED ones have it in the lanes. -/
def State.newKey (s : State) (r : Nat) : State :=
  let k := s.free + 1
  let s := (s.modRange r (fun x => { x with keyNo := k })).draw
  if (s.range r).st = 2 then { s with sec.lanes := tset s.sec.lanes r k } else s
/-- A range's key leaves the lanes (R386). -/
def State.unloadKey (s : State) (r : Nat) : State := { s with sec.lanes := tset s.sec.lanes r 0 }
/-- A range is unlocked: its key goes into the lanes (R386). -/
def State.loadKey (s : State) (r : Nat) : State :=
  (({ s with sec.lanes := tset s.sec.lanes r (s.range r).keyNo } : State)).modRange r (fun x => { x with st := 2 })
/-- Every wrapped key is unusable and overwritten (R385). -/
def State.wipeKeys (s : State) : State :=
  { s with nv.ranges := [], nv.convRange := none, sec.lanes := [] }
/-- The integration range is created (R387): range 0, UNLOCKED, the conventional range, AUTOLOCK clear. -/
def State.integrationRange (s : State) : State :=
  ({ s.modRange 0 (fun _ => ⟨2, false, 0⟩) with nv.convRange := some 0 } : State).newKey 0
/-- Ranges that are configured (R386). -/
def State.configured (s : State) : List Nat := (List.range 256).filter (fun r => (s.range r).st != 0)
/-- The key range a command that moves user data uses (R305, R387); none where it needs no key. A conventional command uses the
conventional range, 256 standing for none configured. -/
def State.cmdRange (s : State) (c : Cmd) : Option Nat :=
  let o := c.opc.toNat
  let z := s.zone c.zone
  if o = 0x28 ∨ o = 0x29 then some ((s.nv.convRange.map (·.toNat)).getD 256)
  else if o = 0x20 ∨ o = 0x26 ∨ o = 0x27 then (if z.st = .empty then none else some z.key.toNat)
  else if o = 0x21 ∨ o = 0x22 then some (if z.st = .empty then c.pf 0 0 8 else z.key.toNat)
  else none
/-- Work of a range that a LOCK or DESTROY at place `ord` waits for (R387). -/
def State.rangeBusy (s : State) (r ord : Nat) : Bool :=
  s.hqi.cmds.any (fun c => decide (c.ord < ord) && s.cmdRange c == some r) ||
  s.cmp.units.any (fun u => u.key.toNat == r && !u.committed && u.dead.isNone && decide (u.ord < ord))
/-- Does a LOCK or DESTROY of the range wait that was fetched before place `ord` (R387)? -/
def State.lockPending (s : State) (r ord : Nat) : Bool :=
  s.hqi.cmds.any (fun c => c.qp == 0 && c.opc == 0x09 && c.st == .waiting && c.pf 0 0 8 == 3 &&
    (c.pf 1 0 8 == 2 || c.pf 1 0 8 == 4) && c.pf 2 0 8 == r && decide (c.ord < ord)) ||
  (s.sec.mbox.busy && s.sec.mbox.waits && s.mboxByte 0 == 3 && (s.mboxByte 1 == 2 || s.mboxByte 1 == 4) &&
    (s.mboxByte 8).toNat == r && decide (s.sec.mbox.ord ≤ ord))
/-- Place of a message in fetch order. -/
def State.viaOrd (s : State) (v : Via) : Nat :=
  match s.viaCmd v with
  | some c => c.ord
  | none => s.sec.mbox.ord

/-- A KEYS action of the operator (R379, R386, R398): `act` is its message, `judge` the cause of its refusal or 0. -/
def State.keysAct (s : State) (v : Via) (act r : Nat) (judge : State → Nat) (waits : Bool) (f : State → State) : State :=
  s.secRun v true 3 act (s.viaCp v 2 % 256 == r) (fun s =>
    s.roleAct v (fun s =>
      let role := match s.session (s.who v) .operator with
        | some _ => 3
        | none => ((s.anySession (s.who v)).map (·.role.code)).getD 0
      let cause := if role ≠ 3 then 3 else judge s
      if cause ≠ 0 then (s.audit 0xA004 1 [r, act, role, cause]).secFail v cause
      else if waits ∧ s.rangeBusy r (s.viaOrd v) then s.secWait v .waiting
      else (f (s.audit 0xA004 1 [r, act, role, 0])).secOk v 0))

/-- KEYS_CREATE (R386). -/
def execKeysCreate (via : Via) (range : Byte) (autolock : Bool) (s : State) : Result :=
  let r := range.toNat
  .next (if bitOf (s.viaCp via 2) 8 != autolock then s
    else s.keysAct via 1 r (fun s => if (s.range r).st = 0 then 0 else 6) false (fun s =>
      (s.modRange r (fun _ => ⟨2, autolock, 0⟩)).newKey r))
/-- KEYS_LOCK (R386, R387). -/
def execKeysLock (via : Via) (range : Byte) (s : State) : Result :=
  let r := range.toNat
  .next (s.keysAct via 2 r (fun s => if (s.range r).st = 0 then 6 else 0) true (fun s =>
    (s.modRange r (fun x => { x with st := 1 })).unloadKey r))
/-- KEYS_UNLOCK (R386). -/
def execKeysUnlock (via : Via) (range : Byte) (s : State) : Result :=
  let r := range.toNat
  .next (s.keysAct via 3 r (fun s => if (s.range r).st = 0 then 6 else 0) false (fun s => s.loadKey r))
/-- KEYS_DESTROY (R386, R387). -/
def execKeysDestroy (via : Via) (range : Byte) (s : State) : Result :=
  let r := range.toNat
  .next (s.keysAct via 4 r (fun s =>
      if (s.range r).st = 0 ∨ s.nv.convRange = some range ∨ s.zonesOf r ≠ 0 then 6 else 0) true (fun s =>
    (s.modRange r (fun _ => KeyRange.init)).unloadKey r))
/-- KEYS_SET_CONV (R386). -/
def execKeysSetConv (via : Via) (range : Byte) (s : State) : Result :=
  .next (s.keysAct via 5 range.toNat (fun s => if (s.range range.toNat).st = 0 then 6 else 0) false (fun s =>
    { s with nv.convRange := some range }))
/-- KEYS_QUERY (R381). -/
def execKeysQuery (via : Via) (s : State) : Result :=
  .next (s.secRun via false 3 6 true (fun s =>
    if (via matches .qp0 _) && s.viaLen via != 256 then s.secBad via 32
    else s.secEnd via stSuccess 0 ((List.range 256).map (fun r =>
      let x := s.range r
      BitVec.ofNat 8 (x.st.toNat + 4 * b2n x.auto + 8 * b2n (s.nv.convRange == some (BitVec.ofNat 8 r)))))))

/-! ### Emptying zones, sanitize (R394 to R396) -/

/-- Zones that `p` picks go to EMPTY as under RESET, OFFLINE ones included; what they still have uncommitted ends LOCKED (R376,
R395). -/
def State.emptyZones (s : State) (p : Nat → Zone → Bool) : State :=
  s.zon.zones.foldl (fun (s : State) e =>
    if e.2.st == .empty || !p e.1 e.2 then s
    else
      let us := (s.cmp.units.filter (fun u => !u.conv && u.zone == e.1 && !u.committed && u.dead.isNone)).map (·.csec)
      (us.foldl (fun s u => s.killUnit u stLocked) s).emptyZone e.1 .empty) s
/-- Is a range touched by a SANITIZE action (R395)? -/
def sanRange (act : BitVec 4) (rg : Byte) (r : Nat) : Bool := act != 2 || rg.toNat == r
/-- Every configured range an action names takes a new key; how many there were (R395, R396). -/
def State.replaceKeys (s : State) (act : BitVec 4) (rg : Byte) : State × Nat :=
  let l := s.configured.filter (sanRange act rg)
  (l.foldl (fun s r => s.newKey r) s, l.length)
/-- The zones of an action's ranges are emptied; with action 3 the data and staging tracks are DC-erased: staged units, fill and
staging cursors and cause 4 to 6 entries go (R395). -/
def State.sanZones (s : State) (act : BitVec 4) (rg : Byte) : State :=
  let s := s.emptyZones (fun _ z => sanRange act rg z.key.toNat)
  if act ≠ 3 then s
  else
    let conv := s.cmp.units.filter (·.conv)
    let s := conv.foldl (fun s u => s.killUnit u.csec stLocked) s
    let s : State := { s with
      cmp.units := s.cmp.units.filter (fun u => !u.conv)
      rpl.work := s.rpl.work.filter (fun w => w.cls != .parity || w.zone.isSome)
      zon.staged := [], zon.fill := [], zon.stage := [], nv2.special := [], nv2.descs := [], nv2.hkeys := []
      rcv.rlt := s.rcv.rlt.filter (fun e => !(decide (4 ≤ e.cause) && decide (e.cause ≤ 6))) }
    (List.range 4).foldl (fun s a => s.rltWrite a) s
/-- Is user data of a range shut out by a SANITIZE in progress (R394)? -/
def State.sanBlocks (s : State) (r : Nat) : Bool :=
  match s.nv2.sanitize with
  | some (a, rg) => sanRange a rg r
  | none => false

/-- SANITIZE (R293, R294 to R296, R394 to R396): first admitted, when all before it is done, then looked at again until its
checkpoint is written. -/
def State.sanitize (s : State) (tag : BitVec 16) (act : BitVec 4) : State :=
  match s.cmd? 0 tag with
  | none => s
  | some c =>
    let rg := BitVec.ofNat 8 (c.pf 1 0 8)
    if c.opc ≠ 0x0E ∨ c.pf 0 0 4 ≠ act.toNat then s
    else if c.st = .running then
      (if s.zon.ckptBusy.isSome then s
       else
         let n := ((c.fin.map (·.2)).getD 0)
         let s := s.audit 0xA00B 1 [act.toNat, n, 0, 0]
         ({ s with nv2.sanitize := none, sec.sanAction := 0 } : State).finish 0 tag stSuccess n)
    else if s.nv.life = .decommissioned then s.finish 0 tag stSecurityError 5
    else match s.session (.pcie, 0) .operator with
      | none => s.finish 0 tag stRoleRequired 0
      | some x =>
        if act = 2 ∧ (s.range rg.toNat).st = 0 then s.finish 0 tag stSecurityError 6
        else if s.auditBlocked then
          s.finish 0 tag stSecurityError 8
        else if !s.ready 9 || !s.ready 21 then s.modCmd 0 tag (fun c => { c with st := .waiting })
        else if s.hqi.cmds.any (fun y => decide (y.ord < c.ord)) || s.zon.ckptBusy.isSome ||
            bitsOf s.pwr.ready.toNat 12 4 == 0 ||
            s.cmp.units.any (fun u => !u.committed && u.dead.isNone && decide (u.ord < c.ord)) then
          s.modCmd 0 tag (fun c => { c with st := .waiting })
        else
          let s := s.audit 0xA00A 1 [act.toNat, rg.toNat, x.num.val, 0]
          let s : State := { s with nv2.sanitize := some (act, rg), sec.sanAction := act }
          let (s, n) := s.replaceKeys act rg
          (s.sanZones act rg).startCkpt.modCmd 0 tag (fun c => { c with st := .running, fin := some (0, n) })

/-- SANITIZE_CRYPTO_ERASE_ALL (R395). -/
def execSanitizeCryptoEraseAll (tag : BitVec 16) (s : State) : Result := .next (s.sanitize tag 1)
/-- SANITIZE_CRYPTO_ERASE_RANGE (R395). -/
def execSanitizeCryptoEraseRange (tag : BitVec 16) (s : State) : Result := .next (s.sanitize tag 2)
/-- SANITIZE_OVERWRITE (R395). -/
def execSanitizeOverwrite (tag : BitVec 16) (s : State) : Result := .next (s.sanitize tag 3)

/-! ### Lifecycle (R376 to R378, R383, R390, R397) -/

/-- A lifecycle action (R376, R378, R398): the state first, then the role; `chk` is the cause of its own check or 0. It is
recorded before it takes effect, and then every session ends. -/
def State.lifeAct (s : State) (v : Via) (msg : Nat) (ok : Bool) (len : Nat) (frm : List Life) (dest : Life) (role : Life → Role)
    (chk : State → Session → Nat × State) (f : State → State) : State :=
  s.secRun v true 2 msg ok (fun s =>
    if len ≠ 0 ∧ (s.viaData v).length ≠ len then s.secBad v 32
    else s.roleAct v (fun s =>
      let w := s.who v
      let no := fun (s : State) (c : Nat) =>
        let x := s.anySession w
        (s.audit 0xA003 1 [s.nv.life.code, s.nv.life.code, (x.map (·.role.code)).getD 0, (x.map (·.num.val)).getD 0]).secFail v c
      if !frm.contains s.nv.life then no s 5
      else match s.session w (role s.nv.life) with
        | none => no s 3
        | some x =>
          let (c, s) := chk s x
          if c ≠ 0 then
            (if msg = 2 then s.audit 0xA002 2 [3, chanCode w.1, w.2.toNat, c] else s).secFail v c
          else
            let s := s.audit 0xA003 1 [s.nv.life.code, dest.code, x.role.code, x.num.val]
            let s : State := { f s with nv.life := dest }
            (s.endSessions (fun _ => true) 4).secOk v 0))

/-- INTEGRATE (R376, R387). -/
def execIntegrate (via : Via) (key : List Byte) (s : State) : Result :=
  .next (s.lifeAct via 1 (s.viaData via == key) 96 [.blank] .integration (fun _ => .maker) (fun s _ => (0, s)) (fun s =>
    ({ s with nv.devKey := true, nv.keys := tset s.nv.keys 1 key } : State).integrationRange))
/-- CLAIM (R376, R382, R387). -/
def execClaim (via : Via) (key : List Byte) (cid : Word) (sig : List Byte) (s : State) : Result :=
  let d := s.viaData via
  .next (s.lifeAct via 2 (d.take 96 == key && leAt d 96 4 == cid.toNat && d.drop 100 == sig) 196 [.integration] .fielded
    (fun _ => .installer) (fun s x => s.proof (x.chan, x.src) 3 cid key sig) (fun s =>
      let s := (s.emptyZones (fun _ _ => true)).wipeKeys
      { s with nv.keys := tset s.nv.keys 2 key, nv.kekGen := s.nv.kekGen + 1 }))
/-- RETURN (R376, R395, R456): SANITIZE action 1, and the operator's part of the set-up image goes. -/
def execReturnLifecycle (via : Via) (s : State) : Result :=
  .next (s.lifeAct via 3 true 0 [.fielded] .integration (fun _ => .operator) (fun s _ => (0, s)) (fun s =>
    let s := ((s.replaceKeys 1 0).1.sanZones 1 0).startCkpt.wipeKeys
    let s : State := { s with nv.image := dropKeys [.operator] s.nv.image }
    ({ s with nv.keys := tset s.nv.keys 2 [], nv.kekGen := s.nv.kekGen + 1 } : State).integrationRange))
/-- DECOMMISSION (R376, R377, R397, R457): both copies of the set-up image are erased, so neither checks from then on. -/
def execDecommission (via : Via) (s : State) : Result :=
  .next (s.lifeAct via 4 true 0 [.integration, .fielded] .decommissioned
    (fun l => if l = .fielded then .operator else .installer) (fun s _ => (0, s)) (fun s =>
      let s := s.wipeKeys
      { s with
        nv.devKey := false, nv.keys := tset (tset s.nv.keys 1 []) 2 [], nv.anchor := [], nv.cert := []
        nv.image := [], nv.imageCls := [], nv.imageBad := true
        nv.drkFuse := true, sec.challenges := [], fab.pm := [] }))

/-- CONSENT (R383). -/
def execConsent (via : Via) (seconds : Word) (s : State) : Result :=
  .next (s.secRun via true 2 5 (s.viaCp via 2 == seconds.toNat) (fun s =>
    if 86400 < seconds.toNat then s.secBad via 44
    else s.roleAct via (fun s =>
      match s.session (s.who via) .operator with
      | none => (s.audit 0xA009 1 [seconds.toNat, 0, 0, 0]).secFail via 3
      | some x =>
        let s := s.audit 0xA009 1 [seconds.toNat, x.num.val, 0, 0]
        (if seconds = 0 then s.endConsent else { s with sec.consent := true }).secOk via 0)))
/-- COMMIT_SVN (R379, R390). -/
def execCommitSvn (via : Via) (firmware : Bool) (s : State) : Result :=
  .next (s.secRun via true 2 6 (bitOf (s.viaCp via 2) 0 == firmware) (fun s => s.roleAct via (fun s =>
    let w := s.who via
    let old := if firmware then s.nv.fsvnMin else s.nv.isvnMin
    let img := if firmware then s.nv.fsvn else s.seq.isvn
    let kind := if firmware then 2 else 1
    let no := fun (c : Nat) =>
      (s.audit 0xA008 1 [kind, old.toNat, old.toNat, ((s.anySession w).map (·.num.val)).getD 0]).secFail via c
    if s.nv.life ≠ .integration ∧ s.nv.life ≠ .fielded then no 5
    else match s.session w (if s.nv.life = .fielded then .operator else .installer) with
      | none => no 3
      | some x =>
        let new := if img.toNat < old.toNat then old else img
        let s := s.audit 0xA008 1 [kind, old.toNat, new.toNat, x.num.val]
        let s : State := if firmware then { s with nv.fsvnMin := new } else { s with nv.isvnMin := new }
        s.secOk via 0)))

/-! ### Peer-move certificate (R389), firmware (R391) -/

/-- ANCHOR_ID [31:0]: the first bytes of an anchor key's digest (R389). -/
def anchorId (key : List Byte) : Nat := leAt (Config.sha384 key) 0 4
/-- An operator's PEERCERT action with its record (R398). -/
def State.peercertAct (s : State) (v : Via) (msg kind len : Nat) (ok good : Bool) (aid : Nat) (f : State → State) : State :=
  s.secRun v true 4 msg ok (fun s =>
    if (s.viaData v).length ≠ len ∨ !good then s.secBad v 32
    else s.roleAct v (fun s =>
      match s.session (s.who v) .operator with
      | none => (s.audit 0xA00C 1 [kind, aid, 0, 0]).secFail v 3
      | some x => (f (s.audit 0xA00C 1 [kind, aid, x.num.val, 0])).secOk v 0))
/-- PEERCERT_ANCHOR (R381). -/
def execPeercertAnchor (via : Via) (key : List Byte) (s : State) : Result :=
  .next (s.peercertAct via 1 1 96 (s.viaData via == key) true (anchorId key) (fun s => { s with nv.anchor := key }))
/-- PEERCERT_DEVICE_KEY (R381). -/
def execPeercertDeviceKey (via : Via) (s : State) : Result :=
  .next (s.secRun via false 4 2 true (fun s =>
    if (via matches .qp0 _) && s.viaLen via != 104 then s.secBad via 32
    else s.secEnd via stSuccess 0 (leBytes 8 s.nv.nodeId.toNat ++ padTo 96 (Config.devicePub s.nv.nodeId.toNat))))
/-- PEERCERT_CERT (R389). -/
def execPeercertCert (via : Via) (cert : List Byte) (s : State) : Result :=
  .next (s.peercertAct via 3 2 216 (s.viaData via == cert) (leAt cert 0 1 == 1 && zeros cert 1 7) (leAt cert 112 4)
    (fun s => { s with nv.cert := cert }))

/-- Who may load microcode or firmware on a channel (R293, R379): the cause of a refusal, or the session. -/
def State.loader (s : State) (w : Chan × BitVec 12) : Except Nat Session :=
  if s.nv.life = .integration then (match s.session w .installer with | some x => .ok x | none => .error 3)
  else if s.nv.life = .fielded then
    (match s.session w .operator with
     | some x => .ok x
     | none => match s.session w .maker with
       | some x => if s.sec.consent then .ok x else .error 3
       | none => .error 3)
  else .error 5
/-- FIRMWARE_CHUNK (R391). -/
def execFirmwareChunk (via : Via) (ofs : Word) (bytes : List Byte) (s : State) : Result :=
  .next (s.secRun via true 5 1 (s.viaCp via 2 == ofs.toNat && s.viaData via == bytes) (fun s => s.roleAct via (fun s =>
    match s.loader (s.who via) with
    | .error c => s.auditFree.secFail via c
    | .ok _ =>
      ({ s.auditFree with nv.fwAlt := (bytes.foldl (fun (p : Tab Byte × Nat) b => (tset p.1 p.2 b, p.2 + 1))
          (s.nv.fwAlt, ofs.toNat)).1 } : State).secOk via 0)))
/-- FIRMWARE_FINISH (R390, R391): `good` is what the signature check found. -/
def execFirmwareFinish (via : Via) (good : Bool) (fsvn : Word) (keySlot : Fin 4) (s : State) : Result :=
  .next (s.secRun via true 5 2 true (fun s => s.roleAct via (fun s =>
    let rec_ := fun (s : State) (c : Nat) => s.audit 0xA007 1 [2, fsvn.toNat, keySlot.val, c]
    match s.loader (s.who via) with
    | .error c => (rec_ s c).secFail via c
    | .ok _ =>
      if !good || s.nv.fwAlt == [] || bitOf s.nv.revoked.toNat (4 + keySlot.val) || decide (fsvn.toNat < s.nv.fsvnMin.toNat)
      then (rec_ s 1).secFail via 1
      else ({ rec_ s 0 with nv.fwNext := some fsvn, nv.fwSel := (!s.nv.fwSel.1, s.nv.fwSel.2 + 1), nv.fwAlt := [] } :
        State).secOk via 0)))

/-! ### The mailbox (R402) -/

/-- Is a protocol and message one of R381's? -/
def knownMsg (proto msg : Nat) : Bool :=
  decide (1 ≤ msg) && ((proto == 1 && decide (msg ≤ 4)) || (proto == 2 && decide (msg ≤ 6)) || (proto == 3 && decide (msg ≤ 6)) ||
    (proto == 4 && decide (msg ≤ 3)) || (proto == 5 && decide (msg ≤ 2)) || (proto == 6 && decide (msg ≤ 3)))
/-- Does a message travel by SECURITY RECEIVE (R381)? -/
def recvMsg (proto msg : Nat) : Bool :=
  (proto == 1 && msg == 1) || (proto == 3 && msg == 6) || (proto == 4 && msg == 2) || (proto == 6 && msg == 3)
/-- GO by the claimant while the mailbox is not busy (R402): the message waits to be run; one that is none of R381's completes
INVALID_FIELD at once. -/
def State.mboxGo (s : State) : State :=
  let s : State := { s with sec.mbox.busy := true, sec.mbox.waits := false, sec.mbox.ord := s.hqi.ord }
  if !knownMsg (s.mboxByte 0).toNat (s.mboxByte 1).toNat then s.secBad .mbox 0
  else if 480 < s.mboxLen then s.secBad .mbox 2
  else s
/-- The mailbox is freed (R402). -/
def State.mboxFree (s : State) : State := if s.sec.mbox.busy then s else { s with sec.mbox.claim := none }
/-- MAILBOX_TIMEOUT (R402). -/
def execMailboxTimeout (s : State) : Result := .next s.mboxFree

/-! ### Self-tests and the error state (R391 to R393) -/

/-- The error state (R393). Which test failed is a number stated nowhere, and the cause of the sessions' end too: free values. -/
def State.toError (s : State) : State :=
  let s := s.auditSrc 0xA00D 4 124 [Config.freeNat s.free % 2 ^ 32, 0, 0, 0]
  let s := (s.endSessions (fun _ => true) (Config.freeNat (s.free + 1) % 2 ^ 32)).draw.draw
  let s : State := { s with sec.error := true, sec.lanes := [], sec.challenges := [], fab.pm := [] }
  let s := (s.setReady 1 false).setReady 9 false
  raise 124 (s.endCmds (fun c => isDataOpc c.opc.toNat || (c.opc == 0x0E && c.st != .running)) stNotReady)
/-- ENTROPY_HEALTH_FAIL (R392, R393). -/
def execEntropyHealthFail (s : State) : Result := .next (if s.sec.error then s else s.toError)
/-- POWER_UP_SELF_TESTS (R386, R391, R392): firmware verified, then the known answers, then each lane's own. -/
def execPowerUpSelfTests (fwOk katOk : Bool) (laneOk : BitVec 4) (s : State) : Result :=
  .next (if s.sec.error || s.ready 1 then s
    else if !fwOk then s
    else if !katOk then s.toError
    else
      let s := s.setReady 1 true
      let s := s.configured.foldl (fun (s : State) r =>
        if (s.range r).auto then s.modRange r (fun x => { x with st := 1 }) else s.loadKey r) s
      let s := (List.range 4).foldl (fun (s : State) k =>
        if bitOf laneOk.toNat k || bitOf s.cry.fenced.toNat k then s else raise (80 + k) (s.fenceLane k)) s
      s.setReady 9 true)

end Sys2Proof.Machine
end

