-- ==== Sys2Proof/Machine/Sysrec.lean ====
section
/-! DEFINITION. System records: finding them at power-up (R67), staging, committing, writing and reading them (R66, R72). -/
namespace Sys2Proof.Machine

open Sys2Proof

/-- One relocation entry (R187). -/
def rltEntBytes (e : RltEnt) : List Byte :=
  [BitVec.ofNat 8 e.head.val, BitVec.ofNat 8 ((if e.remap then 2 else 1) + 4 * b2n e.pending), BitVec.ofNat 8 e.cause, e.thead] ++
    leBytes 4 e.track.toNat ++ leBytes 4 e.ttrack.toNat ++ leBytes 2 e.pos.toNat ++ leBytes 2 e.tpos.toNat
/-- Entries of an actuator in the table in force. -/
def State.rltOf (s : State) (a : Nat) : List RltEnt := s.rcv.rlt.filter (fun e => e.head.val / 16 == a)
/-- Bytes of an actuator's relocation record (R187). -/
def State.rltBytes (s : State) (a : Nat) : List Byte :=
  let l := s.rltOf a
  leBytes 4 0x544C5258 ++ [1, BitVec.ofNat 8 a, 0, 0] ++ leBytes 4 l.length ++
    leBytes 4 ((s.recs.geom.map Geom.crc).getD 0).toNat ++ leBytes 16 0 ++ (l.map rltEntBytes).flatten
/-- Check of a record by its type: the offset of the first field that fails (R71, R90, R123, R187). -/
def State.checkRec (s : State) (ty a : Nat) (b : List Byte) : Option Nat :=
  let crc := s.recs.geom.map Geom.crc
  if ty = 1 then checkGeom b
  else if ty = 2 then checkCal crc a b
  else if ty = 3 then checkRlt crc a b
  else checkParam s.recs.geom a b
/-- A record comes into force (R72, R90, R107, R122, R187): a Geometry Table whose GT_RPM is not the running speed changes it. -/
def State.enforce (s : State) (ty a : Nat) (b : List Byte) : State :=
  let s : State := { s with recs.bytes := tset s.recs.bytes (4 * ty + a) b }
  if ty = 1 then
    let g := parseGeom b
    let new := match s.recs.geom with | some o => o.crc != g.crc | none => false
    let s : State := { s with
      recs.geom := some g, nv2.gtRpm := some g.rpm, zon.fill := if new then [] else s.zon.fill }
    if s.lastFld 0x1C00 0 13 = g.rpm then s else s.changeSpeed g.rpm
  else if ty = 2 then { s with recs.cal := tset s.recs.cal a (some (parseCal b)) }
  else if ty = 3 then
    { s with
      rcv.rlt := (parseRlt b).foldl (fun l e => rltInsert e l) (s.rcv.rlt.filter (fun e => e.head.val / 16 != a))
      rcv.clean := tset s.rcv.clean a true }
  else s

/-- Bytes of a record as the heads found them, where they found one that checks. The calibration record found at power-up gives
ATB_OFSn its value (R90, R455). -/
def State.foundRec (s : State) (found : List SysRec) (ty a : Nat) : State :=
  match found.find? (fun r => r.rtype.toNat == ty && (ty == 1 || r.act.val == a) && (s.checkRec ty a r.bytes).isNone) with
  | some r =>
    let s := s.enforce ty a r.bytes
    if ty = 2 then s.putFld (0x1010 + 4 * a) 0 22 (leAt r.bytes 16 4) else s
  | none => s

/-- SYSTEM_DIRECTORY_LOAD (R67, R90, R122): once, through a head that follows. How many heads were tried for want of a table is
no rule's number: a free value. -/
def execSystemDirectoryLoad (found : List SysRec) (s : State) : Result :=
  .next (if s.recs.geom.isSome || !(List.range 4).any (fun a => (s.act a).st.tracks) then s
    else
      let s := s.foundRec found 1 0
      match s.recs.geom with
      | none => ({ s with recs.noGeom := true } : State).draw.event 0x2009 3 [Config.freeNat s.free % 65]
      | some _ =>
        let s := upto 4 (fun a (s : State) => ((s.foundRec found 2 a).foundRec found 3 a).foundRec found 7 a) s
        upto 4 (fun a (s : State) => s.actReady a) s)

/-- Who may place or commit a record now (R72, R379): 0, or the cause of the refusal; type 0 asks for any of them. -/
def State.sysrecCause (s : State) (w : Chan × BitVec 12) (ty : Nat) : Nat :=
  let has := fun r => (s.session w r).isSome
  match s.nv.life with
  | .blank => if has .maker then 0 else 3
  | .integration => if has .installer then 0 else 3
  | .fielded => if ty = 1 ∨ ty = 7 then 5 else if has .installer then 0 else 3
  | .decommissioned => 5
/-- Bytes of the staging area (R72). -/
def State.areaBytes (s : State) (n : Nat) : List Byte := (List.range n).map (fun i => tget 0 s.recs.area i)

/-- SYSREC_STAGE (R72, R381). -/
def execSysrecStage (via : Via) (ofs : Word) (bytes : List Byte) (s : State) : Result :=
  .next (s.secRun via true 6 1 (s.viaCp via 2 == ofs.toNat && s.viaData via == bytes) (fun s =>
    if 2097152 < ofs.toNat + bytes.length then s.secBad via (cpOfs 2)
    else s.roleAct via (fun s =>
      let c := s.sysrecCause (s.who via) 0
      if c ≠ 0 then s.auditFree.secFail via c
      else
        let area := if ofs = 0 then [] else s.recs.area
        ({ s.auditFree with recs.area := (bytes.foldl (fun (p : Tab Byte × Nat) b => (tset p.1 p.2 b, p.2 + 1))
          (area, ofs.toNat)).1 } : State).secOk via 0)))

/-- Is this position in a group that is in use (R188)? -/
def State.groupInUse (s : State) (e : RltEnt) : Bool :=
  match s.recs.geom with
  | none => false
  | some g => (s.takenGroups g).any (fun t =>
      let x := groupArea g t
      x.1.contains e.head.val && decide (x.2.1 ≤ e.track.toNat) && decide (e.track.toNat < x.2.1 + x.2.2))
/-- What R72 asks of a relocation record written in FIELDED. -/
def State.fieldedRltOk (s : State) (a : Nat) (b : List Byte) : Bool :=
  let new := parseRlt b
  (s.rltOf a).all (fun e => new.contains e) &&
    new.all (fun e => (s.rltOf a).contains e || (e.cause == 2 && !s.groupInUse e))

/-- SYSREC_COMMIT (R72): checked in full, the record is then written; SYSREC_WRITTEN ends it. -/
def execSysrecCommit (via : Via) (cp2 len : Word) (s : State) : Result :=
  let busy := match s.viaCmd via with
    | some c => c.st == CmdSt.running
    | none => (match s.recs.commit with | some x => x.1 == via | none => false)
  .next (if busy then s
    else s.secRun via true 6 2 (s.viaCp via 2 == cp2.toNat && s.viaCp via 3 == len.toNat) (fun s =>
    let ty := bitsOf cp2.toNat 0 16
    let a := if ty = 1 then 0 else bitsOf cp2.toNat 16 2
    if !(ty == 1 || ty == 2 || ty == 3 || ty == 7) then s.secBad via (cpOfs 2)
    else if 2097152 < len.toNat then s.secBad via (cpOfs 3)
    else s.roleAct via (fun s =>
      let c := s.sysrecCause (s.who via) ty
      let b := s.areaBytes len.toNat
      if c ≠ 0 then s.auditFree.secFail via c
      else match s.checkRec ty a b with
        | some o =>
          let s := s.auditFree
          let s := if ty = 7 then s.event 0x3000 2 [a, o]
            else if ty ≤ 2 then s.event 0x200A 2 [ty, a, o] else s
          s.secBad via o
        | none =>
          if ty = 3 ∧ s.nv.life = Life.fielded ∧ !s.fieldedRltOk a b then s.auditFree.secFail via 5
          else if s.recs.commit.isSome then s.secWait via .waiting
          else ({ s.auditFree with recs.commit := some (via, ty, fin4 a, b) } : State).secWait via .running)))

/-- SYSREC_WRITTEN (R72). -/
def execSysrecWritten (ok : Bool) (s : State) : Result :=
  .next (match s.recs.commit with
    | none => s
    | some (via, ty, a, b) =>
      let s : State := { s with recs.commit := none }
      if !ok then s.secEnd via stInternal 0 []
      else
        let s := ({ s with recs.gen := s.recs.gen + 1 } : State).enforce ty a.val b
        (upto 4 (fun a (s : State) => s.actReady a) s).secOk via 0)

/-- SYSREC_READ (R72): bytes past the record's end, or of a record that is not in force, are stated nowhere: free values. -/
def execSysrecRead (via : Via) (cp2 ofs count : Word) (s : State) : Result :=
  .next (s.secRun via false 6 3 (s.viaCp via 2 == cp2.toNat && s.viaCp via 3 == ofs.toNat && s.viaLen via == count.toNat) (fun s =>
    let ty := bitsOf cp2.toNat 0 16
    let a := if ty = 1 then 0 else bitsOf cp2.toNat 16 2
    if !(ty == 1 || ty == 2 || ty == 3 || ty == 7) then s.secBad via (cpOfs 2)
    else
      let b := if ty = 3 then s.rltBytes a else tget [] s.recs.bytes (4 * ty + a)
      let out := (b.drop ofs.toNat).take count.toNat
      s.draw.secEnd via stSuccess 0 (out ++ padTo (count.toNat - out.length) (Config.freeBytes (count.toNat - out.length) s.free))))

end Sys2Proof.Machine
end

