-- ==== Sys2Proof/Machine/Replay.lean ====
section
/-! DEFINITION. The power-up replay of the journal (R180, R221, R222). -/
namespace Sys2Proof.Machine

open Sys2Proof

/-- A group as the checkpoint shows it, at power-up: no accumulator outlives a power loss (R180, R195). -/
def replayGroup (g : ZGroup) : ZGroup :=
  { g with acc := none, rebuild := false, closing := false, noPar := g.noPar || (!g.isOpen && (g.closing || g.acc.isSome)) }
/-- A zone as the checkpoint shows it, at power-up: what only buffer memory held is gone (R197, R222, R254). -/
def replayZone (z : Zone) : Zone :=
  { z with
    awp := z.wp, tail := none, locs := [], idx := none, cursor := z.streamEnd, nextPos := z.nextSbi, stopped := false
    groups := z.groups.map replayGroup }
/-- The newest checkpoint is loaded with its bitmaps (R221). -/
def State.loadCkpt (s : State) : State :=
  match s.nv.ckpt with
  | none => s
  | some c =>
    let lost := c.zones.any (fun e => e.2.groups.any (fun g => !g.isOpen && !g.noPar && (g.closing || g.acc.isSome)))
    let s : State := { s with
      zon.zones := c.zones.map (fun e => (e.1, replayZone e.2)), zon.fill := c.fill, zon.stage := c.stage }
    if lost then raise 86 s else s
/-- A zone that a record names has been written: it is OPEN on the record's actuator (R302). -/
def State.replayOpen (s : State) (z : Nat) (a : Fin 4) : State :=
  let x := s.zone z
  if x.st == .empty then
    s.modZone z (fun x => { x with st := .opened, act := a, key := tget 0 s.nv2.hkeys z, oslot := s.freeOslot a.val })
  else if x.st == .closed then s.modZone z (fun x => { x with st := .opened, oslot := s.freeOslot x.act.val })
  else s
/-- A type-1 or type-5 record is applied (R221); any other changes no table here. -/
def State.replayRec (s : State) (r : JRec) : State :=
  let z := r.zone.toNat
  if r.jtype = 1 then
    let s := s.replayOpen z (fin4 (bitsOf r.flags.toNat 4 2))
    let s := s.modZone z (fun x =>
      let nx := max x.nextSbi r.nextSbi.toNat
      let se := max x.streamEnd r.streamEnd.toNat
      { x with
        wp := r.wp.toNat, awp := r.wp.toNat, locHead := some r.locSbi.toNat, nextSbi := nx, nextPos := nx, streamEnd := se
        cursor := se })
    let nx := (s.zone z).nextSbi
    let s := s.modZone z (fun x => { x with groups := x.groups.map (fun g =>
      if g.isOpen then { g with used := min (s.groupSize g.tgn.toNat) (nx - g.firstSbi) } else g) })
    if r.wp = 524288 then s.modZone z (fun x => { x with st := .full, oslot := none }) else s
  else if r.jtype = 5 then
    let s := s.replayOpen z (fin4 (tgnAct r.tgn.toNat))
    let s := s.modZone z (fun x => { x with
      groups := x.groups ++ [⟨r.tgn, r.firstSbi.toNat, 0, true, false, false, none, false⟩] })
    let t := match s.recs.geom with | some g => groupTracks (g.set (tgnSet r.tgn.toNat)).heads.length | none => 0
    { s with zon.fill := tset s.zon.fill (tgnAct r.tgn.toNat) (tgnTrk r.tgn.toNat + t) }
  else s
/-- Records by JSEQ, each once. -/
def insertRec (r : JRec) : List JRec → List JRec
  | [] => [r]
  | x :: t => if r.jseq.toNat < x.jseq.toNat then r :: x :: t else if r.jseq = x.jseq then x :: t else x :: insertRec r t

/-- An open group's accumulator is rebuilt by reading every member written (R180); without a slot it goes NO_PARITY. -/
def State.startRebuild (s : State) (z : Nat) (g : ZGroup) : State :=
  if !g.isOpen then s
  else match s.freeAcc with
    | none => s.modGroup z g.tgn (fun g => { g with isOpen := false, noPar := true })
    | some k =>
      let later := ((s.zone z).groups.filter (fun x => decide (g.firstSbi < x.firstSbi))).map (·.firstSbi)
      let top := later.foldl min (s.zone z).nextSbi
      let s := (s.takeAcc k).modGroup z g.tgn (fun g => { g with acc := some k, rebuild := decide (g.firstSbi < top) })
      (List.range (top - g.firstSbi)).foldl (fun s i =>
        match s.locate z (g.firstSbi + i) with
        | some (t, m, h, trk, j) => s.addWork { mkWork .parity 1 (some z) (g.firstSbi + i) (t, h, trk, j) true with mem := some (0, m, 0) }
        | none => s) s
/-- A staged unit with no type-3 record is queued for its copies: its staged blocks are read (R219 to R221). -/
def State.replayStaged (s : State) (r : JRec) : State :=
  let a := bitsOf r.flags.toNat 4 2
  let n := r.wp.toNat
  let u : CUnit := {
    csec := r.csec, conv := true, zone := a, cblk := tget 0 s.nv2.descs r.csec.toNat, qp := 0, tag := 0
    fua := bitOf r.flags.toNat 0, count := n, wp := n, firstChunk := 0, nchunk := 0, placed := 0, sinceLoc := 0, locs := []
    firstSbi := r.firstSbi.toNat, locSbi := r.locSbi.toNat, nextSbi := r.nextSbi.toNat, streamEnd := 0, reserved := 0
    laid := true, dead := none, committed := true, dataIn := true, key := s.nv.convRange.getD 0, data := []
    effort := 0, formed := true, ord := 0, mir := [] }
  let ring := max (s.stageOrder a).length 1
  let s : State := { s with cmp.units := s.cmp.units ++ [u], zon.staged := s.zon.staged ++ [r.csec] }
  (List.range n).foldl (fun s i =>
    let p := (r.firstSbi.toNat + i) % ring
    match s.place (stageZone a) p with
    | some q => s.addWork (mkWork .host 1 (some (stageZone a)) p q true)
    | none => s) s

/-- JOURNAL_REPLAY (R180, R221, R222, R394): once BUF and the Geometry Table are ready; `partner` holds the records of the
partner's journal. -/
def execJournalReplay (partner : List (List Byte)) (s : State) : Result :=
  .next (if !s.ready 2 || s.recs.geom.isNone || s.ready 21 then s
    else
      let own := s.jrecs
      let other := if s.pair.paired then (partner.filter recOk).map parseRec else []
      let all := (own ++ other.filter (fun r => r.jtype != 0)).foldl (fun l r => insertRec r l) []
      let s := s.loadCkpt
      let new := all.filter (fun r => !s.covered r.jseq)
      let ap := new.filter (fun r => r.jtype == 1 || r.jtype == 5)
      let s := ap.foldl (fun s r => s.replayRec r) s
      let s := s.zon.zones.foldl (fun s e => (s.zone e.1).groups.foldl (fun s g => s.startRebuild e.1 g) s) s
      let staged := all.filter (fun r => r.jtype == 2 && !all.any (fun t => t.jtype == 3 && t.firstSbi == r.jseq))
      let s := (new.filter (fun r => r.jtype == 2)).foldl (fun (s : State) r =>
        let a := bitsOf r.flags.toNat 4 2
        { s with zon.stage := tset s.zon.stage a ((r.locSbi.toNat + 1) % max (s.stageOrder a).length 1) }) s
      let s := staged.foldl (fun s r => s.replayStaged r) s
      let top := all.foldl (fun n r => max n r.jseq.toNat) 0
      let hic := all.foldl (fun n r => max n r.csec.toNat) 0
      let base := match s.nv.ckpt with | some c => c.csec.toNat | none => 1
      let s : State := { s with
        nv.jseq := BitVec.ofNat 32 (max 1 (top + 1)), cmp.nextCsec := BitVec.ofNat 32 (max base (hic + 1))
        zon.unchk := (own.filter (fun r => !s.covered r.jseq)).length }
      let s := match s.nv2.sanitize with
        | none => s
        | some (a, rg) =>
          let s := (s.sanZones a rg).startCkpt.audit 0xA00B 1 [a.toNat, (s.configured.filter (sanRange a rg)).length, 0, 0]
          { s with nv2.sanitize := none }
      let s := s.zon.zones.foldl (fun s e => if (s.zone e.1).st == .opened then s.needIdx e.1 else s) s
      let s := (s.rebuildAll).setReady 21 true
      let s := upto 4 (fun a (s : State) => s.actReady a) s
      s.event 0x6200 1 [ap.length, staged.length, hic])

end Sys2Proof.Machine
end

