-- ==== Sys2Proof/Machine/Hqi.lean ====
section
/-! DEFINITION. The Fraolt rings (10): resets of the function (R260, R261), rings and gateway enabled (R263, R275),
polling (R275, R276), doorbell page and descriptor reads (R277 to R282), the poster (R271, R283, R284). -/
namespace Sys2Proof.Machine

open Sys2Proof

/-! ### Mirrored queue state (R369) -/

/-- One change of queue state goes to the partner; its bytes are laid out nowhere, a free value (R366, R369; log 21). -/
def State.mirrorQ (s : State) : State :=
  if s.mirroring then s.draw.pairSend 5 (Config.freeBytes s.free 64) else s

/-! ### Resets of the function (R260, R261) -/

/-- Is an offset one of R289's registers? -/
def hqiReg (off : Nat) : Bool := decide (0x0400 ≤ off) && decide (off < 0x044C)
/-- The HQI registers return to their reset values (R261). -/
def State.resetHqi (s : State) : State :=
  { s with
    regs.vals := s.regs.vals.filter (fun e => !hqiReg e.1)
    regs.force := s.regs.force.filter (fun e => !hqiReg e.1)
    regs.w1c := s.regs.w1c.filter (fun e => !hqiReg e.1)
    hqi.gw := .off, hqi.words := [], hqi.found := false, hqi.active := false, hqi.swapFail := false, hqi.qpErr := 0 }
/-- A reset of the PCIe function (R261, R384): `cause` as event 0x7005 names it. -/
def State.functionReset (s : State) (cause : Nat) : State :=
  let n := (s.hqi.cmds.filter (fun c => !c.peer)).length
  (s.disableQps.resetHqi.endSessions (fun x => x.chan == .pcie) 3).event 0x7005 1 [cause, n]

/-- PERST_ASSERT (R260, R261): the endpoint is not ready until PERST_N rises. -/
def execPerstAssert (s : State) : Result :=
  .next (if s.hqi.perst then s else ({ s.functionReset 3 with hqi.perst := true } : State).setReady 5 false)
/-- PERST_DEASSERT (R260): with PD_PCIE on, the endpoint becomes ready. -/
def execPerstDeassert (s : State) : Result :=
  .next (if s.domainOn 5 then ({ s with hqi.perst := false } : State).setReady 5 true else { s with hqi.perst := false })
/-- FUNCTION_LEVEL_RESET (R261). -/
def execFunctionLevelReset (s : State) : Result := .next (s.functionReset 1)
/-- HOT_RESET (R261). -/
def execHotReset (s : State) : Result := .next (s.functionReset 2)

/-! ### Rings and gateway enabled (R263, R275, R276) -/

/-- The PCIe link is up. -/
def State.linkUp (s : State) : Bool := s.hqi.link.1 != 0
/-- Polling starts where GW_EN is 1, the link is up and no Swap has failed since GW_EN was written (R275, R276). -/
def State.startGw (s : State) : State :=
  if s.flag 0x0400 1 && s.linkUp && !s.hqi.swapFail && !s.hqi.fenced && s.hqi.gw == .off
  then { s with hqi.gw := .waiting, hqi.seen := s.pwr.ticks } else s
/-- EN goes from 0 to 1: QP0 becomes ACTIVE with what its registers hold; a fence of the HQI that has been released ends
(R263, R405). -/
def State.enableHqi (s : State) : State :=
  let cfg := (s.forceWord 0x0428).toNat
  let a64 := fun (s : State) (lo : Nat) =>
    BitVec.ofNat 64 ((s.forceWord lo).toNat / 4096 * 4096 + 2 ^ 32 * (s.forceWord (lo + 4)).toNat)
  let s : State := { s with hqi.fenced := bitOf s.flt.fenced.toNat 56 }
  if s.hqi.fenced then s
  else
    let s := s.modQp 0 (fun _ => { Qp.init with
      st := .active, log2 := BitVec.ofNat 4 (bitsOf cfg 0 4), sq := a64 s 0x0418, cq := a64 s 0x0420
      vector := BitVec.ofNat 8 (bitsOf cfg 16 8), ien := bitOf cfg 31, rights := BitVec.ofNat 6 (s.fld 0x042C 0 6) })
    s.startGw.mirrorQ
/-- EN goes to 0: every QP returns to DISABLED under the terms of R261 (R263). -/
def State.disableHqi (s : State) : State := s.disableQps.mirrorQ
/-- GW_EN goes from 0 to 1 (R275, R276). -/
def State.enableGw (s : State) : State := ({ s with hqi.swapFail := false } : State).startGw
/-- GW_EN goes to 0: polling stops (R275). -/
def State.disableGw (s : State) : State := { s with hqi.gw := .off, hqi.words := [], hqi.active := false }

/-- PCIE_LINK_UP (R275, R289, R290). -/
def execPcieLinkUp (gen width : BitVec 4) (s : State) : Result :=
  .next (({ s with hqi.link := (gen, width) } : State).event 0x7000 1 [gen.toNat, width.toNat]).startGw
/-- PCIE_LINK_DOWN (R275, R289, R290): source 104 while EN is 1. -/
def execPcieLinkDown (s : State) : Result :=
  let n := (s.hqi.cmds.filter (fun c => !c.peer)).length
  let s := ({ s with hqi.link := (0, 0), hqi.gw := .off, hqi.words := [], hqi.active := false } : State).event 0x7001 2 [n]
  .next (if s.flag 0x0400 0 then raise 104 s else s)

/-! ### Polling (R275, R276) -/

/-- Address of the doorbell summary. -/
def State.sumBase (s : State) : Nat :=
  (s.forceWord 0x0430).toNat / 4096 * 4096 + 2 ^ 32 * (s.forceWord 0x0434).toNat
/-- A pass ends: the next waits ACTIVE while a bit was seen less than 1 ms ago, else IDLE_US (R275). -/
def State.endPass (s : State) : State :=
  let t := if s.hqi.found then s.pwr.ticks else s.hqi.seen
  { s with hqi.gw := .waiting, hqi.words := [], hqi.seen := t, hqi.active := decide (s.pwr.ticks - t < 500) }
/-- The Swap of the next word of the pass, or the pass's end. -/
def State.nextSwap (s : State) : State :=
  match s.hqi.words with
  | [] => s.endPass
  | w :: _ => ({ s with hqi.gw := .swapping } : State).send (.swap (BitVec.ofNat 64 (s.sumBase + 8 * w.val)))

/-- GW_POLL_PASS (R275). -/
def execGwPollPass (s : State) : Result :=
  .next (if s.hqi.gw = .waiting then
      (({ s with hqi.gw := .reading, hqi.words := [], hqi.found := false } : State).count 183 1).send
        (.hostRead (BitVec.ofNat 64 s.sumBase) 512)
    else s)
/-- SUMMARY_READ_DONE (R275). A failed read shows no word: the pass ends. DESIGN CHOICE (log 33). -/
def execSummaryReadDone (words : Option (List (BitVec 64))) (s : State) : Result :=
  .next (if s.hqi.gw = .reading then
      let l := words.getD []
      ({ s with hqi.words := (List.finRange 64).filter (fun w => (l[w.val]?).getD 0 != 0) } : State).nextSwap
    else s)
/-- One set bit of the summary (R275): a hint for this module, for another, or counted and ignored. -/
def State.hintFor (s : State) (a : Nat) : State :=
  if a = 0 ∨ a = 0xFFF then { s with hqi.badHints := s.hqi.badHints + 1 }
  else
    let d := BitVec.ofNat 12 a
    if d = s.fab.addr ∨ s.isMine d then s.readPage else (s.count 182 1).e2eSend d 0x20 []
/-- SUMMARY_SWAP_DONE (R275). -/
def execSummarySwapDone (word : Fin 64) (old : BitVec 64) (s : State) : Result :=
  .next (match s.hqi.gw, s.hqi.words with
    | .swapping, w :: t =>
      if w ≠ word then s
      else
        let s : State := { s with hqi.words := t, hqi.found := s.hqi.found || old != 0 }
        ((setBits 64 old.toNat).foldl (fun s b => s.hintFor (64 * word.val + b)) s).nextSwap
    | _, _ => s)
/-- SWAP_TIMEOUT (R276): polling stops until GW_EN is written with 0 and then 1. -/
def execSwapTimeout (status : Byte) (s : State) : Result :=
  .next (match s.hqi.gw, s.hqi.words with
    | .swapping, w :: _ =>
      let s : State := { s with hqi.gw := .off, hqi.words := [], hqi.active := false, hqi.swapFail := true }
      raise 106 ((s.setW1c 0x0404 7).event 0x7003 3 [status.toNat, w.val])
    | _, _ => s)

/-! ### The doorbell page (R277, R281, R282) -/

/-- One entry of the page is taken (R277, R281): the tail by an ACTIVE queue pair, the head by any that posts. -/
def State.takeDoorbell (s : State) (q : Nat) (tail head : Nat) : State :=
  let x := s.qp q
  let d := x.depth
  if x.st = .active then
    if d ≤ tail then s.qpError q 1 tail
    else if d ≤ head then s.qpError q 2 head
    else s.modQp q (fun x => { x with tail := tail, cqHead := head })
  else if x.st ≠ .disabled ∧ head < d then s.modQp q (fun x => { x with cqHead := head })
  else s
/-- The page's read ends (R277, R279, R282). -/
def State.pageDone (s : State) (page : Option (List (BitVec 16 × BitVec 16))) : State :=
  if !s.hqi.dbRead then s
  else
    let again := s.hqi.dbAgain
    let s : State := { s with hqi.dbRead := false, hqi.dbAgain := false }
    let s := match page with
      | none =>
        let s := (List.range 128).foldl (fun (s : State) q => if (s.qp q).st = QpSt.active then s.qpError q 4 0 else s) s
        raise 107 s
      | some l => (List.range 128).foldl (fun s q => match l[q]? with
        | some e => s.takeDoorbell q e.1.toNat e.2.toNat
        | none => s) s
    let s := if again then s.readPage else s
    s.fetchAll
/-- DOORBELL_PAGE_READ_DONE (R277, R281, R282): SQ_TAIL and CQ_HEAD by queue pair, or none where the read failed. -/
def execDoorbellPageReadDone (page : Option (List (BitVec 16 × BitVec 16))) (s : State) : Result := .next (s.pageDone page)

/-! ### Fetched entries (R267, R280, R293, R295) -/

/-- Bits of CP0 to CP6 that an opcode names (R280, and 11's opening). -/
def cpMask (opc cp0 : Nat) : List Nat :=
  match opc with
  | 0x01 => [0xFF]
  | 0x02 => [0xFFFFFFFF, 0xFFFFFFFF, 0x3F01FF0F, 0x7F]
  | 0x03 => [0, 0, 0, 0x7F]
  | 0x04 => [0xFF]
  | 0x06 => [0x3F, 0, 0, 0x7F]
  | 0x07 => [0xFFFF, 0, 0, 0x7F]
  | 0x08 => [0xF]
  | 0x09 => [0xFF, 0xFFFFFFFF, 0xFFFFFFFF, 0xFFFFFFFF, 0xFFFFFFFF]
  | 0x0A => [0xFF, 0xFFFFFFFF, 0xFFFFFFFF, 0xFFFFFFFF, 0xFFFFFFFF]
  | 0x0B =>
    let a := cp0 % 16
    [0xF, if a = 1 then 3 else if a = 2 ∨ a = 3 then 0x3F3F else if a = 4 ∨ a = 5 then 0xF else 0]
  | 0x0C => [0xF]
  | 0x0E => [0xF, if cp0 % 16 = 2 then 0xFF else 0]
  | 0x0F => [0xFF]
  | 0x21 => [0xFF, 7]
  | 0x22 => [0xFF, 7]
  | 0x23 => [0xFF, 7, 0x10F]
  | 0x24 => [7]
  | 0x25 => [1]
  | 0x27 => [0xFFF, 0x3FFFF, 0x7FF]
  | _ => []
/-- FLAGS bits an opcode allows (R293). -/
def flagMask (opc : Nat) : Nat :=
  match opc with
  | 0x01 => 0x10
  | 0x04 => 0x10
  | 0x05 => 0x10
  | 0x09 => 0x10
  | 0x0A => 0x10
  | 0x0D => 0x10
  | 0x0F => 0x10
  | 0x20 => 0x30
  | 0x21 => 0x1F
  | 0x22 => 0x1F
  | 0x24 => 0x10
  | 0x26 => 0x20
  | 0x27 => 0x2E
  | 0x28 => 0x30
  | 0x29 => 0x11
  | _ => 0
/-- Rights an opcode needs (R264, R293). -/
def needRights (opc : Nat) : Nat :=
  match opc with
  | 0x04 => 0x10
  | 0x05 => 8
  | 0x06 => 0x20
  | 0x08 => 4
  | 0x09 => 0x20
  | 0x0A => 0x20
  | 0x0B => 4
  | 0x0C => 4
  | 0x0D => 0x20
  | 0x0E => 0x20
  | 0x0F => 0x10
  | 0x20 => 1
  | 0x21 => 2
  | 0x22 => 2
  | 0x23 => 4
  | 0x24 => 1
  | 0x25 => 2
  | 0x26 => 1
  | 0x27 => 3
  | 0x28 => 1
  | 0x29 => 2
  | _ => 0
/-- An opcode whose ADDR is a logical block address (R291). -/
def isLba (o : Nat) : Bool := decide (0x20 ≤ o) && decide (o ≤ 0x27)

/-- The command an entry spells (R267). -/
def cmdOf (q : Fin 128) (ord : Nat) (rights : BitVec 6) (b : List Byte) : Cmd :=
  { qp := q, tag := BitVec.ofNat 16 (leAt b 2 2), opc := BitVec.ofNat 8 (leAt b 0 1), flags := BitVec.ofNat 8 (leAt b 1 1)
    dptr0 := BitVec.ofNat 64 (leAt b 8 8), dptr1 := BitVec.ofNat 64 (leAt b 16 8), addr := BitVec.ofNat 64 (leAt b 24 8)
    count := BitVec.ofNat 32 (leAt b 32 4), cp := (List.range 7).map (fun i => BitVec.ofNat 32 (leAt b (36 + 4 * i) 4))
    ord := ord, rights := rights, st := .fetched, csec := none, rank := 0, fail := none, bad := [], data := [], segs := []
    need := 0, fin := none, top := 0, parts := [] }

/-- Offset of the first reserved part of an entry that is not 0 (R267, R280). -/
def Cmd.reservedAt (c : Cmd) (b : List Byte) : Option Nat :=
  let o := c.opc.toNat
  let m := cpMask o (c.p 0)
  if c.flags.toNat &&& (0xFF ^^^ flagMask o) ≠ 0 then some 1
  else if leAt b 4 4 ≠ 0 then some 4
  else if isLba o ∧ 2 ^ 37 ≤ c.addr.toNat then some 24
  else ((List.range 7).find? (fun i => (c.p i &&& (0xFFFFFFFF ^^^ (m[i]?).getD 0)) != 0)).map (fun i => 36 + 4 * i)

/-- The checks of R280, after the one on the TAG: status and result of the first that fails. -/
def Cmd.fetchCheck (c : Cmd) (b : List Byte) : Option (Nat × Nat) :=
  let o := c.opc.toNat
  let known := if c.qp = 0 then decide (1 ≤ o) && decide (o ≤ 0x0F) else decide (0x20 ≤ o) && decide (o ≤ 0x29)
  let miss := needRights o &&& (0x3F ^^^ c.rights.toNat)
  if !known then some (stInvalidOpcode, 0)
  else match c.reservedAt b with
    | some k => some (stInvalidField, k)
    | none => match c.badPtr with
      | some k => some (stInvalidField, k)
      | none => if miss ≠ 0 then some (stRightsDenied, miss) else none

/-- In DECOMMISSIONED only five commands are accepted (R376, R377). -/
def State.retired (s : State) (c : Cmd) : Bool :=
  s.nv.life == .decommissioned && !([0x01, 0x04, 0x0B, 0x0C, 0x0F].contains c.opc.toNat)

/-- A command that names an action, a protocol or a message no table lists, or a security payload of a length R319 does not
allow: its status and result. No row takes such a command up, so it is judged where it is fetched (R295, R310, R318, R319,
R381). -/
def State.unlisted (s : State) (c : Cmd) : Option (Nat × Nat) :=
  let o := c.opc.toNat
  let a := c.pf 0 0 4
  let bad : Option Nat :=
    if o = 0x08 then (if a = 1 ∨ a = 2 ∨ a = 15 then none else some 36)
    else if o = 0x0B then (if 1 ≤ a ∧ a ≤ 7 then none else some 36)
    else if o = 0x0C then (if 1 ≤ a ∧ a ≤ 4 then none else some 36)
    else if o = 0x0E then (if 1 ≤ a ∧ a ≤ 3 then none else some 36)
    else if o = 0x23 then (if 1 ≤ c.pf 2 0 4 ∧ c.pf 2 0 4 ≤ 5 then none else some 44)
    else if o = 0x09 ∨ o = 0x0A then
      let p := c.pf 0 0 8
      let m := c.pf 1 0 8
      if p = 0 ∨ 6 < p then some 36
      else if !knownMsg p m || recvMsg p m != (o == 0x0A) then some 40
      else if c.count.toNat < 4 ∨ 65536 < c.count.toNat ∨ c.count.toNat % 4 ≠ 0 then some 32
      else none
    else none
  match bad with
  | none => none
  | some k =>
    if s.retired c then some (stSecurityError, 5)
    else if o = 0x0E ∧ (s.session (.pcie, 0) .operator).isNone then some (stRoleRequired, 0)
    else some (stInvalidField, k)

/-- A transfer length that R268 allows for the command's list or data to be read. -/
def Cmd.lenOk (c : Cmd) : Bool := decide (c.len ≤ 4194304)
/-- Does the command read data that goes to its own message or image: SECURITY SEND, MICROCODE LOAD (R319)? -/
def Cmd.ownData (c : Cmd) : Bool := c.opc == 0x09 || c.opc == 0x0D
/-- Data of a SECURITY SEND or MICROCODE LOAD is read (R282, R319). -/
def State.startOwn (s : State) (q : Fin 128) (t : BitVec 16) : State :=
  match s.cmd? q.val t with
  | none => s
  | some c =>
    if c.ownData && c.need == 0 && c.segs != [] then
      let s := s.modCmd q.val t (fun x => { x with need := 2, data := [] })
      c.segs.foldl (fun s g => s.hostRead (.data q t) g.1.toNat g.2) s
    else s

/-- A completion committed for an entry that never became an outstanding command. -/
def State.postNow (s : State) (q : Fin 128) (t : BitVec 16) (status result : Nat) : State :=
  { s with hqi.posts := s.hqi.posts ++ [⟨q, t, BitVec.ofNat 16 status, BitVec.ofNat 64 result, none, false⟩] }

/-- A TAG of QP0 that no outstanding command holds, for the append of a peer move (log 41). -/
def State.freeTag (s : State) : BitVec 16 :=
  let l := s.hqi.cmds.filter (fun c => c.qp.val == 0)
  match (List.range (l.length + 1)).find? (fun n => !l.any (fun c => c.tag.toNat == n)) with
  | some n => BitVec.ofNat 16 n
  | none => 0
/-- A peer's append that goes by a TAG which the host now uses goes by another (log 41). -/
def State.yieldTag (s : State) (q : Fin 128) (t : BitVec 16) : State :=
  match s.cmd? q.val t with
  | none => s
  | some c =>
    if !c.peer then s
    else
      let n := s.freeTag
      { s.modCmd 0 t (fun c => { c with tag := n }) with
        cmp.units := s.cmp.units.map (fun u => if u.qp.val = 0 ∧ u.tag = t ∧ some u.csec = c.csec then { u with tag := n } else u)
        fab.pm := s.fab.pm.map (fun x => if !x.isSrc && x.cmd == some (0, t) then { x with cmd := some (0, n) } else x) }
/-- One fetched entry is checked and becomes an outstanding command; its list, or its segments, are taken (R268, R280). -/
def State.fetchEntry (s : State) (q : Fin 128) (b : List Byte) : State :=
  let c := cmdOf q s.hqi.ord (s.qp q.val).rights b
  let s : State := { s.yieldTag q c.tag with hqi.ord := s.hqi.ord + 1 }
  if (s.cmd? q.val c.tag).isSome then s.postNow q c.tag stInvalidField (2 ^ 63 + 2)
  else match c.fetchCheck b with
    | some (st, r) => s.postNow q c.tag st r
    | none => match s.unlisted c with
      | some (st, r) => s.postNow q c.tag st r
      | none =>
        if c.len = 0 ∨ !c.lenOk then { s with hqi.cmds := s.hqi.cmds ++ [c] }
        else match c.list with
          | some (a, n) =>
            ({ s with hqi.cmds := s.hqi.cmds ++ [{ c with need := 1 }] } : State).hostRead (.data q c.tag) a n
          | none =>
            let segs := match c.segsOf [] with | .ok l => l | .error _ => []
            ({ s with hqi.cmds := s.hqi.cmds ++ [{ c with segs := segs }] } : State).startOwn q c.tag

/-- A descriptor read of queue pair `q` ends (R278, R280, R281). -/
def State.descDone (s : State) (q : Fin 128) (entries : Option (List (List Byte))) : State :=
  let x := s.qp q.val
  match x.reading with
  | none => s
  | some n =>
    let s := s.modQp q.val (fun x => { x with reading := none })
    if x.st ≠ .active then s
    else match entries with
      | none => raise 107 (s.qpError q.val 3 0)
      | some l =>
        let s := s.modQp q.val (fun x => { x with fetch := (x.fetch + n) % x.depth })
        let s := ((l.take n).foldl (fun s b => s.fetchEntry q b) (s.count 165 n)).mirrorQ
        s.fetchAll
/-- DESCRIPTOR_READ_DONE (R278, R280, R281). -/
def execDescriptorReadDone (qp : Fin 128) (entries : Option (List (List Byte))) (s : State) : Result :=
  .next (match entries with
    | some l => if (s.qp qp.val).reading = some l.length then s.descDone qp entries else s
    | none => s.descDone qp none)

/-! ### Lists and write data (R268, R282, R283) -/

/-- A page list or SGL arrives: it is checked, and what waited for it goes on (R268). -/
def State.listDone (s : State) (c : Cmd) (l : List Byte) : State :=
  match c.segsOf l with
  | .error k => s.endCmd c stInvalidField k
  | .ok segs =>
    let s := s.modCmd c.qp.val c.tag (fun x => { x with segs := segs, need := 0, fin := none })
    match c.fin with
    | some (st, r) => (s.writeSegs segs c.data).finish c.qp c.tag st r
    | none => if c.ownData then s.startOwn c.qp c.tag else s.startData c.qp c.tag

/-- Write data that has arrived goes to the partner, in DATA frames; the data address is the allocator's, a free value (R369,
log 21). -/
def State.mirrorData (s : State) (l : List Byte) : State :=
  if s.mirroring then
    ((List.range (ceilDiv l.length 4080)).foldl (fun (s : State) i =>
      let d := (l.drop (4080 * i)).take 4080
      s.draw.pairSend 3 (leBytes 8 (Config.freeNat s.free) ++ leBytes 4 d.length ++ leBytes 4 0 ++ d)) s)
  else s

/-- A command's data has arrived (R231, R283): into its message, or into its unit's chunk buffers. -/
def State.dataDone (s : State) (c : Cmd) (l : List Byte) : State :=
  let s := s.modCmd c.qp.val c.tag (fun x => { x with need := 0, data := if c.ownData then l else [] })
  if c.ownData then s
  else
    let s : State := { s with cmp.units := s.cmp.units.map (fun u =>
      if some u.csec = c.csec then { u with data := l, dataIn := true } else u) }
    ((s.mirrorData l).pumpWrites none).wakeData.pumpReads

/-- A read for a command ends: none where it failed (R282). -/
def State.cmdReadDone (s : State) (q : Fin 128) (t : BitVec 16) (d : Option (List Byte)) : State :=
  match s.cmd? q.val t with
  | none => s
  | some c =>
    if c.need = 0 then s
    else match d with
      | none => s.hostFail c
      | some l => if c.need = 1 then s.listDone c l else s.dataDone c l
/-- HOST_DATA_READ_DONE (R268, R282, R283): everything the command's reads asked for, in order. -/
def execHostDataReadDone (qp : Fin 128) (tag : BitVec 16) (data : Option (List Byte)) (s : State) : Result :=
  .next (match s.cmd? qp.val tag, data with
    | some c, some l =>
      let n := if c.need = 1 then (match c.list with | some (_, n) => n | none => 0) else c.len
      if l.length = n then s.cmdReadDone qp tag data else s
    | _, _ => s.cmdReadDone qp tag data)

/-! ### The Completion Poster (R269, R271, R283, R284, R288) -/

/-- Bytes of a completion entry (R269). -/
def cqBytes (result : BitVec 64) (sqHead : Nat) (tag status : BitVec 16) (q : Nat) (phase : Bool) : List Byte :=
  leBytes 8 result.toNat ++ leBytes 2 sqHead ++ leBytes 2 tag.toNat ++ leBytes 2 status.toNat ++
  [BitVec.ofNat 8 q, if phase then 1 else 0]

/-- A DELETING queue pair with nothing left becomes DISABLED, and its DELETE QP completes (R288). -/
def State.endDelete (s : State) (q : Fin 128) : State :=
  let x := s.qp q.val
  if x.st = .deleting ∧ !s.hqi.cmds.any (fun c => c.qp == q) ∧ !s.hqi.posts.any (fun p => p.qp == q) then
    let s := s.modQp q.val (fun _ => Qp.init)
    match x.delTag with
    | some t => s.finish 0 t stSuccess 0
    | none => s
  else s

/-- A completion is written into its ring (R269, R283); its interrupt follows, a burst being one entry. DESIGN CHOICE (log 34). -/
def State.writePost (s : State) (p : Post) : State :=
  let x := s.qp p.qp.val
  let s : State := { s with hqi.posts := s.hqi.posts.erase p }
  let s := s.hostWrite (x.cq.toNat + 16 * x.cqTail) (cqBytes p.result x.fetch p.tag p.status p.qp.val x.phase)
  let t := (x.cqTail + 1) % x.depth
  let s := (s.modQp p.qp.val (fun x => { x with cqTail := t, phase := if t = 0 then !x.phase else x.phase })).count 166 1
  let s := if x.ien then s.interrupt x.vector else s
  (s.mirrorQ.endDelete p.qp).fetchAll

/-- COMPLETION_POST (R271, R283, R369): in a pair the partner first acknowledges that the completion is being posted. -/
def execCompletionPost (s : State) : Result :=
  .next (match s.nextPost with
    | none => s
    | some p =>
      if s.hqi.fenced then s
      else if s.mirroring && !p.told then
        let q := s.pfr.pseq
        let s := s.mirrorQ
        { s with hqi.posts := s.hqi.posts.map (fun x => if x = p then { x with need := some q, told := true } else x) }
      else s.writePost p)
/-- CQ_FULL_POLL (R271): while completions wait for room. -/
def execCqFullPoll (s : State) : Result :=
  .next (if s.hqi.posts.any (fun p => !s.cqRoom p.qp.val) then s.readPage else s)

end Sys2Proof.Machine
end

