-- ==== Sys2Proof/Machine/PowerOps.lean ====
section
/-! DEFINITION. What a command needs and how it is held (R295, R434), domains switched (R435 to R437), power states
(R438 to R441), the actions of POWER CONTROL (R319). -/
namespace Sys2Proof.Machine

open Sys2Proof

/-! ### Readiness of what a command needs (R433, R434) -/

/-- Actuators of the Geometry Table in force. -/
def State.nActs (s : State) : Nat := match s.recs.geom with | some g => g.acts | none => 4
/-- An actuator that three failed attempts left PARKED (R97). -/
def State.leftParked (s : State) (n : Nat) : Bool := (s.act n).st == .parked && decide (3 ≤ (s.act n).tries)
/-- Both microcode images failed at power-up (R166): the HQI is up and MCODE is not. -/
def State.noMicrocode (s : State) : Bool := s.ready 4 && !s.ready 3
/-- The function of a ready bit has failed (R434). -/
def State.funcFailed (s : State) (b : Nat) : Bool :=
  if b = 1 ∨ b = 9 then s.sec.error
  else if b = 3 then s.noMicrocode
  else if b = 11 then s.spn.st == .fault
  else if 12 ≤ b ∧ b < 20 then
    s.spn.st == .fault || bitOf (s.w1c 0x1C04).toNat 12 || s.leftParked ((b - 12) % 4) || s.noMicrocode || s.recs.noGeom
  else false
/-- Ready bits asked for: 0 all set, 1 a command is held for them, 2 it completes NOT_READY (R434). -/
def State.readyCode (s : State) (bits : List Nat) : Nat :=
  let miss := bits.filter (fun b => !s.ready b)
  if miss = [] then 0 else if miss.any (fun b => bitOf s.pwr.missed.toNat b || s.funcFailed b) then 2 else 1
/-- A held request is turning domain bit `b` off (R434, R436). -/
def State.turningOff (s : State) (b : Nat) : Bool :=
  match s.pwr.req with | some r => bitOf r.off.toNat b | none => false

/-- Actuators a data command needs (R295). -/
def State.cmdActs (s : State) (c : Cmd) : List Nat :=
  let o := c.opc.toNat
  let z := s.zone c.zone
  if o = 0x28 ∨ o = 0x29 then
    let ns := (List.range c.count.toNat).map (fun i => c.addr.toNat + i)
    (ns.filterMap (fun n => (s.convAt (o == 0x29) n).map (fun (p : Nat × Nat × Nat × Nat) => p.1 / 16)) ++
      (if o = 0x28 then ns.filterMap (fun n => (s.stagedUnit c.ord n).map CUnit.zone) else [])).eraseDups
  else if o = 0x20 ∨ o = 0x26 ∨ o = 0x27 then (if z.st = .empty then [] else [z.act.val])
  else if o = 0x21 ∨ o = 0x22 then
    (if z.st ≠ .empty then [z.act.val] else if c.pf 1 2 1 = 1 then [c.pf 1 0 2] else [])
  else []

/-- Work of a command has a place in some bank (R436). -/
def State.cmdPlanned (s : State) (c : Cmd) : Bool :=
  match c.csec with
  | some cs => if isWriteOpc c.opc.toNat then s.rpl.work.any (fun w => w.placed && (s.unitWork cs).contains w.num)
      else false
  | none => let ws := s.wants c
    s.rpl.work.any (fun w => w.placed && ws.any (fun p => w.zone == some p.1 && w.sbi == p.2))
/-- Commands for a domain that is going off, not yet planned, complete DOMAIN_POWERED_DOWN (R436). -/
def State.dropFor (s : State) (mask : Nat) : State :=
  s.hqi.cmds.foldl (fun s c =>
    if isDataOpc c.opc.toNat && (s.cmdActs c).any (fun n => bitOf mask n) && !s.cmdPlanned c
    then s.endCmd c stDomainDown 0 else s) s

/-! ### Domains switched (R435 to R437) -/

/-- Slots of an actuator have all ended, and no DMA transfer of its channels runs (R436). -/
def State.actQuiet (s : State) (n : Nat) : Bool :=
  (List.range 4).all (fun i =>
    (s.bank (bankKey (4 * n + i) false)).all (·.isOver) && (s.bank (bankKey (4 * n + i) true)).all (·.isOver) &&
    !(s.dmaCh (4 * n + i)).busy)
/-- The heads of an actuator are on the ramp. -/
def State.onRamp (s : State) (n : Nat) : Bool :=
  (s.act n).st == .parked || ((s.act n).st == .fenced && bitOf s.mdl.parked.toNat n)
/-- No engine holds a chunk. -/
def State.enginesIdle (s : State) : Bool := (List.range 4).all (fun k => (s.engine k).job == .none)
/-- Everything in the domains of `mask` has stopped, so that they may go off (R436). -/
def State.quiet (s : State) (mask : Nat) : Bool :=
  (List.range 4).all (fun n => !bitOf mask n || (s.actQuiet n && s.onRamp n)) && (!bitOf mask 4 || s.enginesIdle)
/-- Domains go off: ready bits of what they hold clear, lanes take their ports down, LEAVING before the last (R339, R351, R433,
R436). -/
def State.domainsOff (s : State) (mask : Nat) : State :=
  let left := s.pwr.on &&& ~~~(BitVec.ofNat 14 mask)
  let last := bitsOf mask 8 6 != 0 && bitsOf left.toNat 8 6 == 0 && bitsOf s.pwr.on.toNat 8 6 != 0
  let s := if last then ({ s with fab.leaving := true } : State).floodLsa else s
  let s : State := { s with pwr.on := left }
  let s := (List.range 4).foldl (fun s n => if bitOf mask n then (s.setReady (12 + n) false).setReady (16 + n) false else s) s
  let s := if bitOf mask 4 then s.setReady 8 false else s
  let s := if bitOf mask 5 then s.setReady 5 false else s
  let s := (List.finRange 5).foldl (fun s n =>
    let off := if n.val = 4 then bitsOf mask 12 2 != 0 && bitsOf left.toNat 12 2 == 0 else bitOf mask (8 + n.val)
    if off then s.portDown raise n .laneOff else s) s
  let s := if last then (s.setReady 6 false).setReady 7 false else s
  if bitOf mask 4 then s.pumpReads else s
/-- Domains come on: actuators unpark while the spindle holds speed lock, ports restart, LEAVING is withdrawn (R97, R351, R433,
R437). -/
def State.domainsOn (s : State) (mask : Nat) : State :=
  let new := mask &&& ((2 ^ 14 - 1) ^^^ s.pwr.on.toNat)
  let s : State := { s with pwr.on := s.pwr.on ||| BitVec.ofNat 14 mask }
  let s := if bitOf new 4 then s.setReady 8 true else s
  let s := if bitOf new 5 then s.setReady 5 !s.hqi.perst else s
  let s := (List.finRange 5).foldl (fun s n =>
    if (if n.val = 4 then bitsOf new 12 2 != 0 else bitOf new (8 + n.val)) then s.restartPort n.val else s) s
  let s := if bitsOf new 8 6 ≠ 0 ∧ s.fab.leaving then ({ s with fab.leaving := false } : State).floodLsa else s
  (List.range 4).foldl (fun s n => if bitOf new n then s.requestUnpark n else s) s
/-- Ready bits the domains of a mask hold (R433, R435). -/
def maskBits (mask : Nat) : List Nat :=
  ((List.range 4).filter (bitOf mask)).map (12 + ·) ++ ((List.range 4).filter (bitOf mask)).map (16 + ·) ++
  (if bitOf mask 4 then [8] else []) ++ (if bitOf mask 5 then [5] else []) ++ (if bitsOf mask 8 6 ≠ 0 then [6] else [])

/-! ### Requests (R436, R437, R439) -/

/-- The request in progress ends, its command, where it has one, with a status. -/
def State.endReq (s : State) (r : PwrReq) (status : Nat) : State :=
  let s : State := { s with pwr.req := none }
  match r.tag with | some t => s.finish 0 t status 0 | none => s
/-- Cause of a state change in event 0x1000 (R448). -/
def PwrReq.cause (r : PwrReq) (dest : PwrSt) : Nat := if r.tag.isSome then 1 else if dest = .activeIdle then 2 else 3
/-- The power state changes (R438, R440); it is carried in the LSA (R335). -/
def State.setPower (s : State) (dest : PwrSt) (cause : Nat) : State :=
  if s.pwr.st = dest then s
  else (({ s with pwr.st := dest } : State).event 0x1000 1 [s.pwr.st.code, dest.code, cause]).floodLsa
/-- A change of power state begins (R439). -/
def State.beginState (s : State) (tag : Option (BitVec 16)) (dest : PwrSt) : State :=
  let down := dest = .spunDown ∨ dest = .dark
  let off := if down then s.pwr.on.toNat % 32 else if dest = .activeIdle then 16 else 0
  let on := if down then 0 else if dest = .activeIdle then 15 else 31
  let s : State := { s with pwr.req := some ⟨tag, BitVec.ofNat 14 off, BitVec.ofNat 14 on, some dest, 0⟩ }
  if down then s.dropFor off else if s.pwr.st = .spunDown then s.requestSpin else s
/-- A command that needs an actuator wakes the part from SPUN_DOWN (R439). -/
def State.wakeUp (s : State) : State :=
  if s.pwr.req.isNone && s.pwr.st == .spunDown then s.beginState none .active else s

/-- Domains off: the request completes once they are (R436). -/
def State.offStep (s : State) (r : PwrReq) : State :=
  let m := r.off.toNat
  if s.quiet m then ((s.domainsOff m).event 0x1002 1 [0, m]).endReq r stSuccess else s
/-- Domains on: powered, then complete with every ready bit they hold (R437). -/
def State.onStep (s : State) (r : PwrReq) : State :=
  let m := r.on.toNat
  if r.step = 0 then
    let s := (s.domainsOn m).event 0x1002 1 [m, 0]
    { s with pwr.req := some { r with step := 1 } }
  else
    match s.readyCode (maskBits m) with
    | 0 => s.endReq r stSuccess
    | 2 => s.endReq r stNotReady
    | _ => s
/-- Towards SPUN_DOWN and DARK (R439): writes commit, the checkpoint, the parks, the spindle; for DARK the completion goes out
and nothing more is fetched. -/
def State.downStep (s : State) (r : PwrReq) (dest : PwrSt) : State :=
  let go := fun (s : State) (n : Nat) => ({ s with pwr.req := some { r with step := n } } : State)
  if r.step = 0 then
    if s.cmp.units.any (fun u => !u.committed && u.dead.isNone) ∨ s.zon.ckptBusy.isSome then s
    else if !(List.range 4).all s.actQuiet then { s with rpl.halt := true }
    else go ({ s with rpl.halt := true } : State).startCkpt 1
  else if r.step = 1 then
    if s.zon.ckptBusy.isSome then s else go (s.parkAll.spinStop raise) 2
  else if r.step = 2 then
    if (s.spn.st = .off ∨ s.spn.st = .fault) ∧ s.quiet r.off.toNat then
      let s := ({ s with rpl.halt := false } : State).domainsOff r.off.toNat
      if dest = .dark then
        let s := match r.tag with | some t => s.finish 0 t stSuccess 0 | none => s
        { go s 3 with pwr.darkPend := true, hqi.noFetch := true }
      else (s.setPower .spunDown (r.cause dest)).endReq r stSuccess
    else s
  else s
/-- From SPUN_DOWN up (R439): the domains on, then complete when the actuators that are not fenced, nor held by a requested
park, are ready. -/
def State.upStep (s : State) (r : PwrReq) (dest : PwrSt) : State :=
  if r.step = 0 then ({ s.domainsOn r.on.toNat with pwr.req := some { r with step := 1, off := 0 } } : State)
  else
    let as := (List.range s.nActs).filter (fun n => !bitOf s.flt.fenced.toNat n && !(s.act n).reqPark)
    match s.readyCode (11 :: as.map (12 + ·)) with
    | 0 => (s.setPower dest (r.cause dest)).endReq r stSuccess
    | 2 => (s.setPower dest (r.cause dest)).endReq r stNotReady
    | _ => s
/-- Between ACTIVE and ACTIVE_IDLE (R439). -/
def State.idleStep (s : State) (r : PwrReq) (dest : PwrSt) : State :=
  if dest = .activeIdle then
    if (List.range 4).all s.actQuiet && s.enginesIdle then
      ((s.domainsOff 16).setPower dest (r.cause dest)).endReq r stSuccess
    else s
  else ((s.domainsOn 16).setPower dest (r.cause dest)).endReq r stSuccess

/-- A POWER CONTROL of actions 4 to 7 that waits completes when its change is complete (R319). -/
def State.motionTry (s : State) (c : Cmd) : State :=
  let a := c.pf 0 0 4
  let as := (List.range 4).filter (fun n => bitOf (c.pf 1 0 4) n)
  if a = 4 then
    if as.all (fun n => (s.act n).st == .parked || (s.act n).st == .fenced) then s.finish 0 c.tag stSuccess 0 else s
  else if a = 5 then
    if as.any (fun n => !s.domainOn n || s.turningOff n) then s.finish 0 c.tag stDomainDown 0
    else match s.readyCode (as.map (12 + ·)) with
      | 0 => s.finish 0 c.tag stSuccess 0
      | 2 => s.finish 0 c.tag stNotReady 0
      | _ => s
  else if a = 6 then
    if s.spn.st = .locked then s.finish 0 c.tag stSuccess 0
    else if s.spn.st = .fault ∨ 3 ≤ s.spn.attempts then s.finish 0 c.tag stNotReady 0
    else s
  else if a = 7 then
    if s.spn.st = .off ∨ s.spn.st = .fault ∨ s.spn.st = .pfail then s.finish 0 c.tag stSuccess 0 else s
  else s

/-- What is in progress is looked at again. -/
def State.powerStep (s : State) : State :=
  match s.pwr.req with
  | some r =>
    match r.target with
    | none => if r.off ≠ 0 then s.offStep r else s.onStep r
    | some .spunDown => s.downStep r .spunDown
    | some .dark => s.downStep r .dark
    | some dest => if s.pwr.st = .spunDown then s.upStep r dest else s.idleStep r dest
  | none =>
    match s.hqi.cmds.find? (fun c => c.opc == 0x0B && c.st == .waiting) with
    | some c => s.motionTry c
    | none => s

/-- DOMAIN_SWITCH_DONE (R436, R437, R439): a domain has switched, a bit has been set, a park or stop has ended. -/
def execDomainSwitchDone (s : State) : Result := .next s.powerStep

/-- POWER CONTROL of action `a` (R295, R319, R436): admitted one at a time, in fetch order; one that waits is looked at
again. -/
def State.powerCtl (s : State) (tag : BitVec 16) (a : Nat) (f : Cmd → State → State) : State :=
  match s.cmd? 0 tag with
  | none => s
  | some c =>
    if c.opc ≠ 0x0B ∨ c.pf 0 0 4 ≠ a ∨ s.shadow then s
    else if c.st = .waiting then s.powerStep
    else if s.pwr.req.isSome || s.hqi.cmds.any (fun x => x.opc == 0x0B && decide (x.ord < c.ord)) then s
    else (f c (s.modCmd 0 tag (fun x => { x with st := .waiting }))).powerStep

/-- SET_POWER_STATE (R439). -/
def execSetPowerState (tag : BitVec 16) (s : State) : Result :=
  .next (s.powerCtl tag 1 (fun c s =>
    let dest : PwrSt := match c.pf 1 0 2 with | 0 => .active | 1 => .activeIdle | 2 => .spunDown | _ => .dark
    if s.pwr.st = dest then s.finish 0 tag stSuccess 0 else s.beginState (some tag) dest))
/-- DOMAINS_OFF (R436). -/
def execDomainsOff (tag : BitVec 16) (s : State) : Result :=
  .next (s.powerCtl tag 2 (fun c s =>
    let m := c.pf 1 0 14
    let ssw := (List.range 4).any (fun n => bitOf m n && (s.act n).st == .ssw)
    if ssw || (bitOf m 5 && (s.flag 0x0400 1 || s.selfGw)) then s.badField 0 tag 40
    else if m = 0 then s.finish 0 tag stSuccess 0
    else
      let s : State := { s with pwr.req := some ⟨some tag, BitVec.ofNat 14 m, 0, none, 0⟩ }
      (List.range 4).foldl (fun s n => if bitOf m n then s.requestPark n else s) (s.dropFor m)))
/-- DOMAINS_ON (R437). -/
def execDomainsOn (tag : BitVec 16) (s : State) : Result :=
  .next (s.powerCtl tag 3 (fun c s =>
    { s with pwr.req := some ⟨some tag, 0, BitVec.ofNat 14 (c.pf 1 0 14), none, 0⟩ }))
/-- POWER_PARK (R96, R319). -/
def execPowerPark (tag : BitVec 16) (s : State) : Result :=
  .next (s.powerCtl tag 4 (fun c s =>
    (List.range 4).foldl (fun s n => if bitOf (c.pf 1 0 4) n then s.requestPark n else s) s))
/-- POWER_UNPARK (R97, R319). -/
def execPowerUnpark (tag : BitVec 16) (s : State) : Result :=
  .next (s.powerCtl tag 5 (fun c s =>
    (List.range 4).foldl (fun s n => if bitOf (c.pf 1 0 4) n then s.requestUnpark n else s) s))
/-- SPIN_UP (R104, R105, R319): the failed attempts are cleared. -/
def execSpinUp (tag : BitVec 16) (s : State) : Result :=
  .next (s.powerCtl tag 6 (fun _ s =>
    let s : State := { s with spn.attempts := 0, spn.retryWait := false }
    let s : State := if s.spn.st = .fault ∧ !s.spn.fenced then { s with spn.st := .off } else s
    s.requestSpin))
/-- SPIN_DOWN (R104, R319). -/
def execSpinDown (tag : BitVec 16) (s : State) : Result := .next (s.powerCtl tag 7 (fun _ s => s.spinStop raise))

/-- IDLE_TIMEOUT (R439): IDLE_S seconds have passed without a committed slot. -/
def execIdleTimeout (s : State) : Result :=
  .next (if s.pwr.st = .active ∧ s.fld 0x5000 0 16 ≠ 0 ∧ s.pwr.req.isNone ∧ (List.range 4).all s.actQuiet
    then (s.beginState none .activeIdle).powerStep else s)

/-- Completions and interrupts have left: none waits, and a remote gateway has acknowledged them (R342, R439). -/
def State.allSent (s : State) : Bool :=
  s.hqi.posts.isEmpty && (s.selfGw || ((s.tx s.gw.toNat).unacked.isEmpty && (s.tx s.gw.toNat).queue.isEmpty &&
    s.fab.gwHeld.isEmpty))
/-- Ready bits of functions in PD_CORE and PD_PCIE (R433, R435). -/
def coreBits : BitVec 22 := 0x200E3A
/-- DARK_ENTRY (R439, R440): self-refresh, PD_CORE and PD_PCIE off. A STOP in between keeps the part in SPUN_DOWN. -/
def execDarkEntry (s : State) : Result :=
  .next (if !s.pwr.darkPend || !s.allSent then s
    else
      let s : State := { s with pwr.darkPend := false, pwr.req := none }
      if s.flt.stop then
        let s : State := { s with hqi.noFetch := false }
        if s.pwr.st = .spunDown then s.event 0x1000 1 [2, 2, 1] else s.setPower .spunDown 1
      else
        let s := s.setPower .dark 1
        { s with
          pwr.core := false, pwr.on := s.pwr.on &&& ~~~(0x20#14), pwr.bufActive := false, buf.selfRefresh := true
          pwr.darkReady := s.pwr.ready &&& coreBits, pwr.ready := s.pwr.ready &&& ~~~coreBits })
/-- The part leaves DARK, and the faults latched there are applied (R440, R441). -/
def State.darkWake (s : State) : State := if s.pwr.st = .dark then s.leaveDark.applyLatched raise else s

/-- HOLD_TIMEOUT (R434): a held command completes NOT_READY. -/
def execHoldTimeout (qp : Fin 128) (tag : BitVec 16) (s : State) : Result :=
  .next (match s.cmd? qp.val tag with
    | some c => if c.st = .held then s.endCmd c stNotReady 0 else s
    | none => s)

end Sys2Proof.Machine
end

