-- ==== Sys2Proof/Machine/Commands.lean ====
section
/-! DEFINITION. Commands that move user data, zone commands (R295 to R312), and the admin commands of R313 to R319 that no
other chapter holds. A command that waits for its turn or its functions is looked at again when it is named again. -/
namespace Sys2Proof.Machine

open Sys2Proof

/-! ### Order of admission (R296, R300) -/

/-- The one zone a command names (R300). -/
def Cmd.names (c : Cmd) : Option Nat :=
  let o := c.opc.toNat
  if o = 0x20 ∨ o = 0x21 ∨ o = 0x22 ∨ o = 0x26 ∨ o = 0x27 then some c.zone
  else if o = 0x23 then (if c.pf 2 8 1 = 1 then none else some c.zone)
  else if o = 0x25 then (if c.pf 0 0 1 = 1 then none else some c.zone)
  else none
/-- A command that has not been admitted (R295). -/
def Cmd.unadmitted (c : Cmd) : Bool := c.st == .fetched || c.st == .held
/-- Is it the command's turn: commands of one zone in fetch order, a ZONE MANAGE alone; conventional ones behind earlier
CONV WRITEs; one over every zone behind earlier zone commands (R297, R300)? -/
def State.turn (s : State) (c : Cmd) : Bool :=
  let before := s.hqi.cmds.filter (fun d => decide (d.ord < c.ord))
  match c.names with
  | some z => !before.any (fun d => d.names == some z && (c.opc == 0x23 || d.opc == 0x23 || d.unadmitted))
  | none =>
    if c.opc = 0x28 ∨ c.opc = 0x29 then !before.any (fun d => d.opc == 0x29 && d.unadmitted)
    else !before.any (fun d => (d.names.isSome || d.opc == 0x29) && d.unadmitted)

/-! ### Tests of R295 -/

/-- What a test says: go on, hold, or complete with a status and a result (R295). -/
inductive Verdict where
  | pass | hold
  | stop (status result : Nat)
  deriving DecidableEq, Repr

/-- Fields of R305 that bind a zone, or must agree with what binds it. -/
def State.bindField (s : State) (c : Cmd) : Option Nat :=
  let z := s.zone c.zone
  if z.st = .offline then none
  else if z.st ≠ .empty then (if c.pf 0 0 8 ≠ z.key.toNat then some 36 else none)
  else if c.pf 1 2 1 = 1 ∧ s.nActs ≤ c.pf 1 0 2 then some 40 else none
/-- Byte offset of a field of the command's own that breaks its rule (R291, R292, R299, R300, R305, R309 to R311). -/
def State.fieldTest (s : State) (c : Cmd) : Option Nat :=
  let o := c.opc.toNat
  let n := c.count.toNat
  if isDataOpc o then
    if n < 1 ∨ 1024 < n then some 32
    else if o = 0x28 ∨ o = 0x29 then (if s.convSize < c.addr.toNat + n ∨ s.convSize = 0 then some 24 else none)
    else if o = 0x22 ∧ c.blk ≠ 0 then some 24
    else if 524288 < c.blk + n then some 24
    else if o = 0x21 ∨ o = 0x22 then s.bindField c else none
  else if o = 0x23 then
    let a := c.pf 2 0 4
    let all := c.pf 2 8 1 = 1
    if a < 1 ∨ 5 < a ∨ (all ∧ (a = 1 ∨ a = 5)) then some 44
    else if all ∧ c.addr ≠ 0 then some 24
    else if a = 1 then s.bindField c else none
  else if o = 0x24 then
    if c.blk ≠ 0 then some 24
    else if c.pf 0 0 3 = 7 then some 36
    else if n % 32 ≠ 0 ∨ n < 64 ∨ 4194304 < n then some 32 else none
  else if o = 0x25 then
    if c.pf 0 0 1 = 1 then (if c.addr ≠ 0 then some 24 else none) else if c.blk ≠ 0 then some 24 else none
  else none

/-- Key range the command uses or would bind (R295, R386). -/
def State.usesRange (s : State) (c : Cmd) : Option Nat :=
  if c.opc = 0x23 then
    if c.pf 2 0 4 ≠ 1 then none
    else some (if (s.zone c.zone).st = .empty then c.pf 0 0 8 else (s.zone c.zone).key.toNat)
  else s.cmdRange c
/-- Does the command complete LOCKED (R386, R387, R394)? -/
def State.lockTest (s : State) (c : Cmd) : Bool :=
  match s.usesRange c with
  | none => false
  | some r => decide (256 ≤ r) || (s.range r).st != 2 || s.lockPending r c.ord || s.sanBlocks r ||
      (s.nv.life == .integration && r != 0)

/-- A domain the command needs is off, or going off (R434). -/
def State.needsOff (s : State) (c : Cmd) : Bool :=
  (s.cmdActs c).any (fun n => !s.domainOn n || s.turningOff n)
/-- In SPUN_DOWN with AUTO_WAKE a command that needs an actuator wakes the part (R439). -/
def State.autoWake (s : State) : Bool := s.pwr.st == .spunDown && s.flag 0x5000 31
/-- Readiness (R295, R434, R439, R444). -/
def State.powerTest (s : State) (c : Cmd) : Verdict :=
  let o := c.opc.toNat
  let verdict := fun (bits : List Nat) => match s.readyCode bits with
    | 0 => Verdict.pass
    | 1 => .hold
    | _ => .stop stNotReady 0
  if !isDataOpc o then verdict [21]
  else if (s.svc.removal = .preparing ∨ s.svc.removal = .safe) ∧ s.svc.ord ≤ c.ord then .stop stDomainDown 0
  else
    let as := s.cmdActs c
    let conv := o = 0x28 ∨ o = 0x29
    if s.needsOff c then (if s.autoWake then .hold else .stop stDomainDown 0)
    else match verdict ([9, 21] ++ as.map (12 + ·) ++ (if conv then [] else as.map (16 + ·))) with
      | .pass =>
        if (o = 0x21 ∨ o = 0x22) ∧ as = [] then
          let l := (List.range s.nActs).map (fun a => if s.domainOn a && !s.turningOff a then verdict [12 + a, 16 + a]
            else if s.autoWake then .hold else .stop stDomainDown 0)
          if l.contains .pass then .pass else if l.contains .hold then .hold else (l.head?).getD (.stop stNotReady 0)
        else .pass
      | v => v

/-- Does the command complete FENCED before it starts (R181, R205, R406)? -/
def State.fenceTest (s : State) (c : Cmd) : Bool :=
  isDataOpc c.opc.toNat && (s.flt.stop || s.cry.fenced == 0xF ||
    ((c.opc == 0x21 || c.opc == 0x22) && s.xtp.fenced && !s.allowNopar))

/-- Tests 2 to 5 of R295; a part in DECOMMISSIONED answers SECURITY_ERROR (R378). -/
def State.admitTest (s : State) (c : Cmd) : Verdict :=
  if s.retired c then .stop stSecurityError 5
  else match s.fieldTest c with
    | some ofs => .stop stInvalidField ofs
    | none =>
      if s.lockTest c then .stop stLocked 0
      else match s.powerTest c with
        | .pass => if s.fenceTest c then .stop stFenced 0 else .pass
        | v => v

/-! ### Writing (R300, R301, R303 to R305, R308, R309) -/

/-- ZONE_FULL with NO_SPACE (R301). -/
def noSpace : Nat × Nat := (stZoneFull, 2 ^ 63)
/-- Positions a write of `count` blocks needs beyond the room left in its zone's open group (R301). -/
def State.needOf (s : State) (z count : Nat) : Nat := boundOf (s.zone z).awp count - s.roomIn z
/-- The actuator with the most free space, the lowest on a tie (R305). -/
def State.roomiest (s : State) (l : List Nat) : Option Nat :=
  l.foldl (fun b a => match b with
    | none => some a
    | some x => if s.freeSpace x < s.freeSpace a then some a else some x) none
/-- Actuator for a zone that leaves EMPTY, needing so many positions (R305). -/
def State.chooseAct (s : State) (c : Cmd) (need : Nat) : Except (Nat × Nat) Nat :=
  if c.pf 1 2 1 = 1 then
    let a := c.pf 1 0 2
    if s.openMax a ≤ s.openCount a then .error (stTooManyOpen, 0)
    else if !s.spaceFor a need then .error noSpace else .ok a
  else
    let as := (List.range s.nActs).filter (fun a => s.ready (12 + a) && s.ready (16 + a) && decide (s.openCount a < s.openMax a))
    if as = [] then .error (stTooManyOpen, 0)
    else match s.roomiest (as.filter (fun a => s.spaceFor a need)) with
      | some a => .ok a
      | none => .error noSpace
/-- State, write-pointer, open-limit and space tests of a ZONE WRITE or ZONE APPEND; answers the zone's actuator (R300, R301,
R303 to R305). -/
def State.writeTest (s : State) (c : Cmd) : Except (Nat × Nat) Nat :=
  let z := s.zone c.zone
  let n := c.count.toNat
  let need := s.needOf c.zone n
  match z.st with
  | .full => .error (stZoneFull, 0)
  | .readOnly => .error (stZoneState, 0)
  | .offline => .error (stZoneState, 0)
  | st =>
    if c.opc = 0x21 ∧ c.blk ≠ z.awp then .error (stWpMismatch, lbaOf c.zone z.awp)
    else if 524288 < z.awp + n then .error (stZoneFull, 0)
    else if st = .empty then s.chooseAct c need
    else if st = .closed ∧ s.openMax z.act.val ≤ s.openCount z.act.val then .error (stTooManyOpen, 0)
    else if !s.spaceFor z.act.val need then .error noSpace else .ok z.act.val
/-- The commit unit of an admitted write (R214, R219, R301). -/
def State.newUnit (s : State) (c : Cmd) (zone cblk wp reserved : Nat) (key : Byte) : CUnit :=
  { csec := s.cmp.nextCsec, conv := c.opc == 0x29, zone := zone, cblk := cblk, qp := c.qp, tag := c.tag, fua := c.fua,
    count := c.count.toNat, wp := wp, firstChunk := 0, nchunk := 0, placed := 0, sinceLoc := 0, locs := [], firstSbi := 0,
    locSbi := 0, nextSbi := 0, streamEnd := 0, reserved := reserved, laid := false, dead := none, committed := false,
    dataIn := false, key := key, data := [], effort := if c.noCompress then 0 else c.effort, formed := false,
    ord := c.ord, mir := [] }
/-- A unit joins those admitted; its command runs. -/
def State.takeUnit (s : State) (c : Cmd) (u : CUnit) (addr : BitVec 64) : State :=
  ({ s with cmp.units := s.cmp.units ++ [u], cmp.nextCsec := s.cmp.nextCsec + 1 } : State).modCmd c.qp.val c.tag
    (fun x => { x with st := .running, csec := some u.csec, addr := addr })
/-- An admitted zone write: the zone opens, AWP advances, positions are reserved (R300 to R302, R308). -/
def State.takeWrite (s : State) (c : Cmd) (a : Nat) : State :=
  let z := c.zone
  let zn := s.zone z
  let need := s.needOf z c.count.toNat
  let key := if zn.st = .empty then BitVec.ofNat 8 (c.pf 0 0 8) else zn.key
  let s := if zn.st = .opened then s else s.openZone z (fin4 a) key
  let u := s.newUnit c z 0 (zn.awp + c.count.toNat) need key
  let s := (s.modZone z (fun x => { x with awp := x.awp + c.count.toNat })).zoneAccess z true
  (s.takeUnit c u (BitVec.ofNat 64 (lbaOf z zn.awp))).mirrorQ
/-- An admitted CONV WRITE: one staged unit on the actuator of its first target (R219, R309). -/
def State.takeConv (s : State) (c : Cmd) : State :=
  let a := match s.convAt true c.addr.toNat with | some p => p.1 / 16 | none => 0
  (s.takeUnit c (s.newUnit c a c.addr.toNat c.count.toNat 0 (s.nv.convRange.getD 0)) c.addr).mirrorQ
/-- A write that has passed the tests of R295 goes on. -/
def State.goWrite (s : State) (c : Cmd) : State :=
  if c.opc = 0x29 then (s.takeConv c).startData c.qp c.tag
  else match s.writeTest c with
    | .error (st, r) => s.finish c.qp c.tag st r
    | .ok a =>
      let s := (s.takeWrite c a).startData c.qp c.tag
      if c.peer then s.pumpWrites none else s

/-! ### Reading (R303, R306, R307, R312) -/

/-- A READ, VERIFY, PEER MOVE or CONV READ goes on: it looks up its zone and chunks, and reads (R252, R254, R306, R307). -/
def State.goRead (s : State) (c : Cmd) : State :=
  let z := c.zone
  let zn := s.zone z
  if c.opc = 0x28 then (s.modCmd c.qp.val c.tag (fun x => { x with st := .running })).pumpReads
  else if zn.st = .offline then s.finish c.qp c.tag stZoneState 0
  else
    let s := s.modCmd c.qp.val c.tag (fun x => { x with st := .running, top := zn.awp })
    let s := if zn.locHead.isSome then s.needIdx z else s
    let cs := ((List.range c.count.toNat).map (fun i => (c.blk + i) / 16)).eraseDups
    (cs.foldl (fun (s : State) k => s.locAccess z k false) (s.zoneAccess z false)).pumpReads

/-! ### ZONE MANAGE, ZONE REPORT (R310, R311) -/

/-- ZONE MANAGE OPEN (R302, R304, R305, R310). -/
def State.goOpen (s : State) (c : Cmd) : State :=
  let z := s.zone c.zone
  let opn := fun (a : Nat) (key : Byte) => (s.openZone c.zone (fin4 a) key).finish c.qp c.tag stSuccess 1
  match z.st with
  | .opened => s.finish c.qp c.tag stSuccess 0
  | .closed => if s.openMax z.act.val ≤ s.openCount z.act.val then s.finish c.qp c.tag stTooManyOpen 0 else opn z.act.val z.key
  | .empty =>
    match s.chooseAct c 0 with
    | .error (st, r) => s.finish c.qp c.tag st r
    | .ok a => opn a (BitVec.ofNat 8 (c.pf 0 0 8))
  | _ => s.finish c.qp c.tag stZoneState 0

/-- Code of a zone's state in ZONE REPORT (R311). -/
def ZState.code : ZState → Nat
  | .empty => 0
  | .opened => 1
  | .closed => 2
  | .full => 3
  | .readOnly => 4
  | .offline => 5
/-- One entry of a report (R311). -/
def State.reportEntry (s : State) (z : Nat) : List Byte :=
  let x := s.zone z
  let un := x.st = .empty
  leBytes 4 z ++ [BitVec.ofNat 8 x.st.code, if un then 0xFF else BitVec.ofNat 8 x.act.val, if un then 0xFF else x.key,
    BitVec.ofNat 8 (b2n x.tail.isSome + 2 * b2n (x.groups.any (·.noPar)))] ++
    leBytes 4 x.wp ++ leBytes 4 x.awp ++ leBytes 8 x.streamEnd ++ leBytes 2 x.groups.length ++ leBytes 6 0
/-- Zones of the table from `z` on that match a filter; those with no entry of their own are EMPTY (R311). -/
def State.matching (s : State) (z filter : Nat) : List Nat :=
  (List.range (262144 - z)).filterMap (fun i => if filter = 0 ∨ (s.zone (z + i)).st.code = filter - 1 then some (z + i) else none)
/-- ZONE REPORT (R311). -/
def State.goReport (s : State) (c : Cmd) : State :=
  let l := s.matching c.zone (c.pf 0 0 3)
  let n := min l.length ((c.count.toNat - 32) / 32)
  s.reply c stSuccess n (leBytes 4 l.length ++ leBytes 4 n ++ leBytes 24 0 ++ ((l.take n).map s.reportEntry).flatten)

/-! ### Admission -/

/-- What a command does once admitted. -/
def State.admitted (s : State) (c : Cmd) : State :=
  let o := c.opc.toNat
  if isWriteOpc o then s.goWrite c
  else if o = 0x23 then (if c.pf 2 0 4 = 1 then s.goOpen c else s.manageTry c)
  else if o = 0x24 then s.goReport c
  else if o = 0x25 then s.flushTry c
  else s.goRead c
/-- The command of queue pair `q` and `t` is looked at, where it is of opcode `o` and not yet admitted (R295, R296, R300, R434). -/
def State.consider (s : State) (o : Nat) (q : Fin 128) (t : BitVec 16) (p : Cmd → Bool) : State :=
  match s.cmd? q.val t with
  | none => s
  | some c =>
    if c.opc.toNat ≠ o ∨ s.shadow ∨ !c.unadmitted ∨ c.fin.isSome ∨ !p c ∨ !s.turn c then s
    else match s.admitTest c with
      | .stop st r => s.finish q t st r
      | .hold =>
        let s := s.modCmd q.val t (fun x => { x with st := .held })
        if s.needsOff c ∨ (s.autoWake && (c.opc == 0x21 || c.opc == 0x22)) then s.wakeUp else s
      | .pass => s.admitted c

/-- READ (R306). -/
def execReadBlocks (qp : Fin 128) (tag : BitVec 16) (s : State) : Result := .next (s.consider 0x20 qp tag (fun _ => true))
/-- VERIFY (R306). -/
def execVerifyBlocks (qp : Fin 128) (tag : BitVec 16) (s : State) : Result := .next (s.consider 0x26 qp tag (fun _ => true))
/-- ZONE_WRITE (R308). -/
def execZoneWrite (qp : Fin 128) (tag : BitVec 16) (s : State) : Result := .next (s.consider 0x21 qp tag (fun _ => true))
/-- ZONE_APPEND (R308). -/
def execZoneAppend (qp : Fin 128) (tag : BitVec 16) (s : State) : Result := .next (s.consider 0x22 qp tag (fun _ => true))
/-- ZONE_OPEN (R310). -/
def execZoneOpen (qp : Fin 128) (tag : BitVec 16) (s : State) : Result := .next (s.consider 0x23 qp tag (fun c => c.pf 2 0 4 == 1))
/-- ZONE_CLOSE (R310). -/
def execZoneClose (qp : Fin 128) (tag : BitVec 16) (s : State) : Result := .next (s.consider 0x23 qp tag (fun c => c.pf 2 0 4 == 2))
/-- ZONE_FINISH (R310). -/
def execZoneFinish (qp : Fin 128) (tag : BitVec 16) (s : State) : Result := .next (s.consider 0x23 qp tag (fun c => c.pf 2 0 4 == 3))
/-- ZONE_RESET (R310). -/
def execZoneReset (qp : Fin 128) (tag : BitVec 16) (s : State) : Result := .next (s.consider 0x23 qp tag (fun c => c.pf 2 0 4 == 4))
/-- ZONE_OFFLINE (R310). -/
def execZoneOffline (qp : Fin 128) (tag : BitVec 16) (s : State) : Result := .next (s.consider 0x23 qp tag (fun c => c.pf 2 0 4 == 5))
/-- ZONE_REPORT (R311). -/
def execZoneReport (qp : Fin 128) (tag : BitVec 16) (s : State) : Result := .next (s.consider 0x24 qp tag (fun _ => true))
/-- FLUSH (R299). -/
def execFlush (qp : Fin 128) (tag : BitVec 16) (s : State) : Result := .next (s.consider 0x25 qp tag (fun _ => true))
/-- PEER_MOVE (R312): its blocks are read, then sent under a session that R352 opens. -/
def execPeerMove (qp : Fin 128) (tag : BitVec 16) (s : State) : Result := .next (s.consider 0x27 qp tag (fun _ => true))
/-- CONV_READ (R307). -/
def execConvRead (qp : Fin 128) (tag : BitVec 16) (s : State) : Result := .next (s.consider 0x28 qp tag (fun _ => true))
/-- CONV_WRITE (R309). -/
def execConvWrite (qp : Fin 128) (tag : BitVec 16) (s : State) : Result := .next (s.consider 0x29 qp tag (fun _ => true))

/-! ### Admin commands (R313 to R318, R355) -/

/-- The admin command of `t`, where it is of opcode `o` and not yet answered. -/
def State.adminCmd (s : State) (o : Nat) (t : BitVec 16) (f : Cmd → State) : State :=
  match s.cmd? 0 t with
  | none => s
  | some c =>
    if c.opc.toNat ≠ o ∨ s.shadow ∨ c.fin.isSome ∨ c.st = .running then s
    else if s.retired c then s.finish 0 t stSecurityError 5 else f c

/-- ASCII bytes padded with spaces to `n` (R313). -/
def ascii (n : Nat) (l : List Nat) : List Byte := ((l.map (BitVec.ofNat 8 ·)) ++ List.replicate n 0x20).take n
/-- "CAERRO MICRODEV". -/
def vendorText : List Nat := [67, 65, 69, 82, 82, 79, 32, 77, 73, 67, 82, 79, 68, 69, 86]
/-- "NX4160-BE". -/
def modelText : List Nat := [78, 88, 52, 49, 54, 48, 45, 66, 69]
/-- Data positions of an actuator's data region with every track free (R301, R313). -/
def State.physSpace (s : State) (a : Nat) : Nat :=
  match s.recs.geom with
  | some g => ({ s with zon.zones := [], zon.fill := [], rcv.spare := [] } : State).freeLoop a (2 ^ 64) g.tracks 0
  | none => 0
/-- The module page (R313). -/
def State.modulePage (s : State) : List Byte :=
  let acts := match s.recs.geom with | some g => g.acts | none => 0
  let heads := match s.recs.geom with
    | some g => ((List.range 64).filter (fun h => g.present h && (s.calHead h).isSome)).length
    | none => 0
  let pair := if !s.pair.paired then 0 else if s.pair.owner then 1 else 2
  ascii 16 vendorText ++ ascii 16 modelText ++ (List.finRange 16).map Config.serial ++
    [2, BitVec.ofNat 8 s.nv.life.code, BitVec.ofNat 8 pair, 0] ++ leBytes 2 s.fab.addr.toNat ++
    leBytes 2 (if s.selfGw then s.fab.addr.toNat else s.gw.toNat) ++ leBytes 4 s.nv.fsvn.toNat ++ leBytes 4 s.seq.isvn.toNat ++
    leBytes 4 262144 ++ leBytes 4 524288 ++ leBytes 8 s.convSize ++ leBytes 2 1024 ++ leBytes 2 1024 ++ [128, 12] ++
    (List.range 4).map (fun a => if a < s.nActs then BitVec.ofNat 8 (s.openMax a) else 0) ++
    [BitVec.ofNat 8 acts, BitVec.ofNat 8 heads] ++ leBytes 2 (s.lastFld 0x1C00 0 13) ++ leBytes 2 256 ++
    leBytes 4 s.pwr.ready.toNat ++ ((List.range 4).map (fun a => leBytes 4 (s.freeSpace a / 4096))).flatten ++
    leBytes 8 (4096 * (List.range 4).foldl (fun n a => n + s.physSpace a) 0) ++ leBytes 3972 0
/-- IDENTIFY (R313). -/
def execIdentify (tag : BitVec 16) (s : State) : Result :=
  .next (s.adminCmd 0x01 tag (fun c =>
    if c.pf 0 0 8 ≠ 0 then s.badField 0 tag 36 else s.reply c stSuccess 0 s.modulePage))

/-- CREATE_QP (R314). -/
def execCreateQp (tag : BitVec 16) (s : State) : Result :=
  .next (s.adminCmd 0x02 tag (fun c =>
    let q := c.pf 3 0 7
    let sq := c.addr
    let cq := BitVec.ofNat 64 (c.p 0 + c.p 1 * 2 ^ 32)
    let d := c.pf 2 0 4
    if q = 0 ∨ (s.qp q).st ≠ .disabled then s.badField 0 tag 48
    else if sq.toNat % 4096 ≠ 0 then s.badField 0 tag 24
    else if cq.toNat % 4096 ≠ 0 then s.badField 0 tag 36
    else if d < 1 ∨ 12 < d then s.badField 0 tag 44
    else
      let rights := BitVec.ofNat 6 (c.pf 2 24 6) &&& (s.qp 0).rights
      let s := s.modQp q (fun _ => { Qp.init with
        st := .active, log2 := BitVec.ofNat 4 d, sq := sq, cq := cq, vector := BitVec.ofNat 8 (c.pf 2 8 8)
        ien := c.pf 2 16 1 == 1, rights := rights, phase := true })
      (s.finish 0 tag stSuccess rights.toNat).mirrorQ))

/-- DELETE_QP (R288): the queue's outstanding commands are aborted, and it ends once their completions are posted. -/
def execDeleteQp (tag : BitVec 16) (s : State) : Result :=
  .next (s.adminCmd 0x03 tag (fun c =>
    let q := c.pf 3 0 7
    if q = 0 ∨ (s.qp q).st = .disabled ∨ (s.qp q).st = .deleting then s.badField 0 tag 48
    else
      let s := s.modQp q (fun x => { x with st := .deleting, delTag := some tag, reading := none })
      let s := s.modCmd 0 tag (fun x => { x with st := .running })
      let s := s.endCmds (fun x => x.qp.val == q) stAborted
      match (List.finRange 128).find? (fun n => n.val == q) with
      | some n => (s.endDelete n).mirrorQ
      | none => s))

/-- Part `ofs` to `ofs + n` of a page; bytes past its end read 0 (R316). -/
def pagePart (l : List Byte) (ofs n : Nat) : List Byte :=
  let d := (l.drop ofs).take n
  d ++ List.replicate (n - d.length) 0
/-- The 32 bytes of an event record (R415). -/
def evBytes (e : Ev) : List Byte :=
  leBytes 4 (e.code.toNat * 65536 + e.sev.val * 4096 + e.src.toNat * 16 + b2n e.audit + 2 * b2n e.overflow + 4 * b2n e.reserve) ++
    leBytes 4 e.secs.toNat ++ leBytes 4 (e.cycles.toNat * 256 + e.sub.toNat) ++
    ((List.range 5).map (fun i => leBytes 4 ((e.par[i]?).getD 0).toNat)).flatten
/-- The health page (R316). The die's temperature is a free value (log 43). -/
def State.healthPage (s : State) : List Byte :=
  let per := fun (f : Nat → Nat) => ((List.range 4).map (fun a => leBytes 4 (f a))).flatten
  let tally := fun (k : Nat) (a : Nat) => tget 0 s.rcv.tallies (4 * k + a)
  leBytes 4 s.pwr.ready.toNat ++ leBytes 4 s.nv2.secs.toNat ++ leBytes 4 s.nv2.cycles.toNat ++ leBytes 2 s.spn.temp.toNat ++
    leBytes 2 (Config.freeNat s.free) ++ [BitVec.ofNat 8 s.spn.st.code, BitVec.ofNat 8 s.atb.st.code] ++
    (List.range 4).map (fun a => BitVec.ofNat 8 (s.act a).st.code) ++ leBytes 2 s.buf.spared.length ++
    leBytes 4 s.rcv.rlt.length ++ leBytes 4 (s.rcv.rlt.filter (·.pending)).length ++ per (tally 0) ++ per (tally 1) ++
    per (tally 2) ++ leBytes 4 (s.zon.zones.filter (fun e => e.2.st == .readOnly)).length ++
    leBytes 4 (s.zon.zones.foldl (fun n e => n + (e.2.groups.filter (·.noPar)).length) 0) ++
    [BitVec.ofNat 8 (b2n s.evr.degraded + 2 * b2n (bitOf (s.w1c 0x2808).toNat 15) + 4 * b2n (bitOf (s.w1c 0x1780).toNat 30) +
      8 * b2n (bitOf (s.w1c 0x1780).toNat 31) + 16 * b2n (bitOf (s.w1c 0x1C04).toNat 12) +
      32 * b2n s.spn.tempBad)] ++ leBytes 39 0
/-- A log page (R316). -/
def State.logPage (s : State) (n : Nat) : Option (List Byte) :=
  match n with
  | 1 => some (s.nv.log.map evBytes).flatten
  | 2 => some (s.nv.audit.map (fun e => evBytes e.1)).flatten
  | 3 => some s.healthPage
  | 4 => some (s.nv2.retired.map (fun w => leBytes 4 w.toNat)).flatten
  | 5 => some (if s.evr.degraded then (s.evr.ring.map (fun e => evBytes e.1)).flatten else [])
  | _ => none
/-- A page command: page, offset and length, then the bytes (R316, R355). -/
def State.pageCmd (s : State) (c : Cmd) (page : Option (List Byte)) : State :=
  let n := c.count.toNat
  match page with
  | none => s.badField 0 c.tag 36
  | some l =>
    if c.addr.toNat % 4 ≠ 0 then s.badField 0 c.tag 24
    else if n % 4 ≠ 0 ∨ n < 4 ∨ 4194304 < n then s.badField 0 c.tag 32
    else s.reply c stSuccess l.length (pagePart l c.addr.toNat n)
/-- GET_LOG (R316): page 2 needs a session of any role besides the right. -/
def execGetLog (tag : BitVec 16) (s : State) : Result :=
  .next (s.adminCmd 0x04 tag (fun c =>
    let p := c.pf 0 0 8
    if p = 2 ∧ (s.anySession (.pcie, 0)).isNone then s.finish 0 tag stRoleRequired 0
    else (if p = 3 then s.draw else s).pageCmd c (s.logPage p)))

/-- GET_COUNTERS (R317). -/
def execGetCounters (tag : BitVec 16) (s : State) : Result :=
  .next (s.adminCmd 0x05 tag (fun c =>
    let a := c.addr.toNat
    let n := c.count.toNat
    if 255 < a then s.badField 0 tag 24
    else if n < 1 ∨ 256 < a + n then s.badField 0 tag 32
    else s.reply c stSuccess 0 ((List.range n).map (fun i =>
      leBytes 8 (s.ctr (a + i) + 2 ^ 63 * b2n (bitOf s.pmc.ovf.toNat (a + i))))).flatten))

/-- A queue pair's rights mask changes; for QP0 HQI_QP0_RIGHTS is written (R264, R314). -/
def State.setRights (s : State) (q : Nat) (m : BitVec 6) : State :=
  let s := if q = 0 then s.putFld 0x042C 0 6 m.toNat else s
  (s.modQp q (fun x => { x with rights := m })).mirrorQ
/-- SET_RIGHTS (R264, R314, R398). -/
def execSetRights (tag : BitVec 16) (s : State) : Result :=
  .next (s.adminCmd 0x06 tag (fun c =>
    match s.session (.pcie, 0) .operator with
    | none => s.finish 0 tag stRoleRequired 0
    | some x =>
      if s.auditBlocked then s.finish 0 tag stSecurityError 8
      else
        let q := c.pf 3 0 7
        let m := BitVec.ofNat 6 (c.pf 0 0 6)
        let s := s.audit 0xA006 1 [q, (s.qp q).rights.toNat, m.toNat, x.num.val]
        (s.setRights q m).finish 0 tag stSuccess 0))

/-! ### SELF-TEST (R318) -/

/-- The self-test that runs stops: its planned work, its fence and its channel test end. -/
def State.testStop (s : State) : State :=
  let n := s.gen.testAt
  let s := if n < 16 then (s.abortBist n).modCh n (fun c => { c with testReq := false }) else s
  let ws := (s.rpl.work.filter (fun w => w.cls == .selftest)).map (·.num)
  let s := s.withdrawWork ws
  let s : State := { s with rpl.work := s.rpl.work.filter (fun w => w.cls != .selftest), gen.selfTest := none }
  (List.range 4).foldl (fun (s : State) a => s.setRecList a ((s.recList a).filter (fun e => !e.scan))) s
/-- SELF-TEST 1 and 2 (R318). -/
def State.testStart (s : State) (tag : BitVec 16) (ext : Bool) : State :=
  s.adminCmd 0x08 tag (fun c =>
    if c.pf 0 0 4 ≠ (if ext then 2 else 1) then s
    else if s.gen.selfTest.isSome then s.badField 0 tag 36
    else
      let s := s.modCmd 0 tag (fun x => { x with st := .running })
      ({ s with gen.selfTest := some (tag, ext), gen.testRes := 0, gen.testAt := 0 } : State).testNext)
/-- SELF_TEST_SHORT (R318). -/
def execSelfTestShort (tag : BitVec 16) (s : State) : Result := .next (s.testStart tag false)
/-- SELF_TEST_EXTENDED (R318). -/
def execSelfTestExtended (tag : BitVec 16) (s : State) : Result := .next (s.testStart tag true)
/-- SELF_TEST_ABORT (R318). -/
def execSelfTestAbort (tag : BitVec 16) (s : State) : Result :=
  .next (s.adminCmd 0x08 tag (fun c =>
    if c.pf 0 0 4 ≠ 15 then s
    else match s.gen.selfTest with
      | none => s.badField 0 tag 36
      | some (t, _) => (s.testStop.finish 0 t stAborted s.gen.testRes.toNat).finish 0 tag stSuccess 0))

/-! ### ABORT (R285, R286, R315) -/

/-- A command that an ABORT does not end: an accepted MICROCODE LOAD, a SANITIZE that has begun (R315). -/
def State.runsOn (s : State) (c : Cmd) : Bool :=
  (c.qp.val == 0 && c.opc == 0x0E && c.st == .running) ||
  (c.qp.val == 0 && c.opc == 0x0D && (match s.seq.pendImg with | some (_, t) => t == c.tag | none => false))
/-- The target of an ABORT ends ABORTED; a self-test stops, a peer move lets its session go. -/
def State.abortOne (s : State) (c : Cmd) : State :=
  let s := if c.qp.val = 0 ∧ s.gen.selfTest.map (·.1) = some c.tag then s.testStop else s
  let s : State := { s with fab.pm := s.fab.pm.filter (fun x => !(x.isSrc && x.cmd == some (c.qp, c.tag))) }
  s.endCmd c stAborted 0
/-- ABORT (R285, R315). -/
def execAbortCmd (tag : BitVec 16) (s : State) : Result :=
  .next (s.adminCmd 0x07 tag (fun c =>
    let q := c.pf 3 0 7
    let t := BitVec.ofNat 16 (c.pf 0 0 16)
    match (s.cmd? q t).filter (fun x => !x.peer) with
    | some x =>
      if x.qp.val = 0 ∧ x.opc = 0x07 then s.badField 0 tag 36
      else if s.runsOn x then s.modCmd 0 tag (fun y => { y with st := .waiting })
      else ((s.abortOne x).finish 0 tag stSuccess 0).wakeWaiters
    | none =>
      if c.st = .waiting ∨ s.hqi.posts.any (fun p => p.qp.val == q && p.tag == t) then s.finish 0 tag stAbortDone 0
      else s.finish 0 tag stAbortUnknown 0))

/-! ### MICROCODE LOAD, FABRIC QUERY (R167, R319, R355) -/

/-- MICROCODE_LOAD (R165, R167, R293, R319, R398): the image in the buffer is checked; an accepted one waits for its index. -/
def execMicrocodeLoad (tag : BitVec 16) (image : List Byte) (s : State) : Result :=
  .next (s.adminCmd 0x0D tag (fun c =>
    let n := c.count.toNat
    match s.loader (.pcie, 0) with
    | .error _ => s.finish 0 tag stRoleRequired 0
    | .ok _ =>
      if n < 436 ∨ 73888 < n then s.badField 0 tag 32
      else match s.readyCode [2, 3] with
        | 1 => s.modCmd 0 tag (fun x => { x with st := .held })
        | 2 => s.finish 0 tag stNotReady 0
        | _ =>
          if c.need ≠ 0 ∨ c.data ≠ image ∨ s.seq.pendImg.isSome then s
          else if s.auditBlocked then s.finish 0 tag stSecurityError 8
          else
            let cause := s.imageCause image
            let s := s.audit 0xA007 1 [1, imgSvn image, leAt image 24 1, cause]
            if cause ≠ 0 then s.finish 0 tag stSecurityError cause
            else ({ s with seq.pendImg := some (image, tag) } : State).modCmd 0 tag (fun x => { x with st := .running })))

/-- Fabric page 1: the ports. Corrected codewords are a free value (R355; log 43). -/
def State.portPage (s : State) : List Byte :=
  ((List.finRange 5).map (fun n =>
    leBytes 4 (s.regValue (0x0814 + 16 * n.val)).toNat ++ leBytes 8 (s.port n.val).nodeId.toNat ++
      leBytes 8 (Config.freeNat (s.free + n.val)) ++ leBytes 4 (s.regValue (0x0818 + 16 * n.val)).toNat ++ leBytes 8 0)).flatten
/-- An LSA put in its place by address. -/
def putLsa (l : Lsa) : List Lsa → List Lsa
  | [] => [l]
  | x :: t => if l.origin.toNat < x.origin.toNat then l :: x :: t else x :: putLsa l t
/-- Fabric page 4: the shelf as its boss holds it (R355). -/
def State.shelfPage (s : State) : List Byte :=
  leBytes 2 s.fab.boss.toNat ++ [BitVec.ofNat 8 s.ledger.held.length, BitVec.ofNat 8 (s.fld 0x1C1C 0 5)] ++
    (List.finRange 16).map (fun i => BitVec.ofNat 8 (b2n (s.ledger.held.contains i) + 2 * b2n (s.ledger.queue.contains i)))
/-- A fabric query page (R355). -/
def State.fabPage (s : State) (n : Nat) : Option (List Byte) :=
  match n with
  | 1 => some s.portPage
  | 2 => some ((s.fab.lsas.foldl (fun l x => putLsa x l) []).map (fun l => pagePart (lsaBytes l) 0 64)).flatten
  | 3 => some ((List.range 8192).map (fun i => leBytes 4 (s.regValue (0x8000 + 4 * i)).toNat)).flatten
  | 4 => some s.shelfPage
  | _ => none
/-- FABRIC_QUERY (R319, R355). -/
def execFabricQuery (tag : BitVec 16) (s : State) : Result :=
  .next (s.adminCmd 0x0F tag (fun c =>
    let p := c.pf 0 0 8
    (if p = 1 then s.draw.draw.draw.draw.draw else s).pageCmd c (s.fabPage p)))

end Sys2Proof.Machine
end

