-- ==== Sys2Proof/Machine/Events.lean ====
section
/-! DEFINITION. Faults as they come, the FAULT_N pulse, the masks of a unit's reset, and the event recorder's own work
(15). -/
namespace Sys2Proof.Machine

open Sys2Proof

/-- Lines of the map cache that are dirty: key of the way, and line number (R245). -/
def State.dirtyList (s : State) : List (Nat × Nat) :=
  s.map.lines.filterMap (fun (e : Nat × Option MapLine) => match e.2 with
    | some l => if l.dirty then some (e.1, 8192 * l.tag + e.1 / 8) else none
    | none => none)

/-- A parity error on a dirty line (R251): its eight words are stored poisoned, and the line is lost. Which line it is comes
from outside: a free value. -/
def State.loseLine (s : State) : State :=
  let l := s.dirtyList
  match l[Config.freeNat s.free % l.length]? with
  | none => s
  | some (k, line) =>
    let s : State := { s.draw with map.lines := tset s.map.lines k none }
    (List.range 8).foldl (fun (s : State) i => s.poisonWord (8 * line + i)) s

/-- FAULT_RAISE (R251, R403, R409, R411): a source raises a fault. -/
def execFaultRaise (src : Fin 128) (s : State) : Result :=
  let n := src.val
  let s := if n = 65 then s.setW1c 0x3004 30 else if n = 64 then s.loseLine else s
  .next (raise n s).wakeUnits

/-- FAULT_PIN_PULSE_END (R412). -/
def execFaultPinPulseEnd (s : State) : Result :=
  .next (if s.flt.pulsing then ({ s with flt.pulsing := false } : State).setPin else s)

/-- MASK_WINDOW_END (R411). -/
def execMaskWindowEnd (unit : Fin 64) (s : State) : Result :=
  .next { s with flt.masking := s.flt.masking &&& ~~~(1#64 <<< unit.val) }

/-- The record of the events of severity `k` lost to a full queue (R418). -/
def State.lossRecord (s : State) (k : Nat) : State :=
  let l := tget Lost.init s.evr.lost k
  if l.count = 0 then s
  else
    let e : Ev := { s.stamp 0xB100 k 0xFF [l.count, l.code1.toNat, l.code2.toNat, l.secs1.toNat, l.secs2.toNat] with
      overflow := true }
    ({ s with evr.lost := tset s.evr.lost k Lost.init } : State).enqueue e

/-- The queue's head leaves it; a queue that is empty then takes the records of what was lost, highest severity first
(R418). -/
def State.leaveQueue (s : State) : State :=
  let s : State := { s with evr.queue := s.evr.queue.tail }
  if s.evr.queue = [] then [4, 3, 2, 1, 0].foldl State.lossRecord s else s

/-- The log's memory has failed (R419): source 120, and event 0xB101 opens the reserve ring, the failed record behind it.
0xB101 names the slot, which is where the record would have stood. -/
def State.degrade (s : State) (e : Ev) : State :=
  let s := raise 120 { s with evr.degraded := true }
  (s.toRing (s.stamp 0xB101 4 120 [s.nv.log.length, e.code.toNat])).toRing e

/-- EVR_RECORD_WRITTEN (R416, R418, R419): the oldest record of the queue is written, or its write has failed. -/
def execEvrRecordWritten (ok : Bool) (s : State) : Result :=
  if !s.domainCore then .next s
  else match s.evr.queue with
    | [] => .next s
    | e :: _ =>
      let s := if s.evr.degraded then s.toRing e else if ok then s.toLog e else s.degrade e
      .next s.leaveQueue

/-- Some actuator is ready to take a copy (R417, R419). -/
def State.someAct (s : State) : Bool := bitsOf s.pwr.ready.toNat 12 4 != 0
/-- Records copied to system record 0x0006, which holds 65,536, the oldest going first (R419). -/
def State.toMedia (s : State) (l : List Ev) : State :=
  let m := s.nv2.mediaLog ++ l
  { s with nv2.mediaLog := m.drop (m.length - 65536), evr.mediaCopy := true }

/-- AUDIT_COPY_DONE (R417): the uncopied audit records are on media. -/
def execAuditCopyDone (s : State) : Result :=
  let l := (s.nv.audit.filter (fun x => !x.2)).map (·.1)
  .next (if !s.someAct || l == [] then s
    else ({ s with nv.audit := s.nv.audit.map (fun x => (x.1, true)) } : State).toMedia l)

/-- The first uncopied record of a ring is marked copied. -/
def markCopied : List (Ev × Bool) → List (Ev × Bool)
  | [] => []
  | (e, true) :: t => (e, true) :: markCopied t
  | (e, false) :: t => (e, true) :: t

/-- RESERVE_COPY_DONE (R419): the oldest uncopied record of the reserve ring is on media; event 0xB102 tells the first. -/
def execReserveCopyDone (s : State) : Result :=
  match s.evr.ring.find? (fun x => !x.2) with
  | none => .next s
  | some x =>
    if !s.someAct then .next s
    else
      let s := ({ s with evr.ring := markCopied s.evr.ring } : State).toMedia [x.1]
      .next (if s.evr.copied102 then s else ({ s with evr.copied102 := true } : State).event 0xB102 1 [1])

end Sys2Proof.Machine
end

