-- ==== Sys2Proof/Machine/Fabric.lean ====
section
/-! DEFINITION. The fabric's ports and database: bring-up (R320 to R322), replay and credits (R324, R326, R328), ports down
(R339), adverts, collisions and routes (R334 to R337, R349), addresses (R332, R348), DARK (R441). -/
namespace Sys2Proof.Machine

open Sys2Proof

/-! ### Link control (R321, R323, R326) -/

/-- Crystal time in ns, as DELAY_REQ carries it (log 5). -/
def State.nsNow (s : State) : BitVec 64 := BitVec.ofNat 64 (2000 * s.pwr.ticks)
/-- A link-control packet goes out with an ACK and one credit return; CVC rotates (R323, R328). -/
def State.ctlSend (s : State) (n : Fin 5) (ty : Byte) (nak : Bool) (t : List (BitVec 64)) : State :=
  let q := s.port n.val
  let h : LinkHdr := ⟨0, q.rxSeq - 1, 0, true, nak, q.cvc, BitVec.ofNat 10 (tget 0 q.freed q.cvc.toNat)⟩
  (s.modPort n.val (fun q => { q with cvc := q.cvc + 1 })).send (.ctl n ty h t)
/-- Pair state as HELLO carries it: 0 single, 1 owner, 2 shadow (R331; log 42). -/
def State.pairCode (s : State) : Nat := if !s.pair.paired then 0 else if s.pair.owner then 1 else 2
/-- PORT_TRAINED (R321). -/
def execPortTrained (port : Fin 5) (s : State) : Result :=
  .next (if (s.port port.val).st = .training then s.modPort port.val (fun q => { q with st := .hello }) else s)
/-- TRAINING_TIMEOUT (R321): training starts again. -/
def execTrainingTimeout (port : Fin 5) (s : State) : Result :=
  .next (if (s.port port.val).st = .training then s.modPort port.val (fun _ => { Port.init with st := .training }) else s)
/-- HELLO_TICK (R321, R331). -/
def execHelloTick (port : Fin 5) (s : State) : Result :=
  .next (if (s.port port.val).st ≠ .hello then s
    else s.ctlSend port 1 false [s.nv.nodeId, BitVec.ofNat 64 (s.fab.addr.toNat + 2 ^ 16 * port.val + 2 ^ 24 * s.pairCode +
      2 ^ 32 * s.fab.inst.toNat)])
/-- HELLO (R321): a port that sees its own NODE_ID stays in HELLO, which event 0x8001 tells once. -/
def execHello (port : Fin 5) (nodeId : BitVec 64) (addr : BitVec 12) (nport pairState : Byte) (inst : BitVec 16) (s : State) :
    Result :=
  let _ := (pairState, inst)
  let q := s.port port.val
  .next (if q.st ≠ .hello then s
    else
      let s' := s.modPort port.val (fun q => { q with nodeId := nodeId, nbr := addr, nport := nport })
      if nodeId = s.nv.nodeId then (if q.nodeId = nodeId ∧ q.nport = nport then s else s'.event 0x8001 2 [port.val, 6, addr.toNat])
      else (s'.ctlSend port 3 false [s.nsNow]).ctlSend port 3 false [s.nsNow])

/-- What a received link header tells: packets acknowledged leave the replay buffer, credit returns (R324, R328). -/
def State.takeHdr (s : State) (n : Fin 5) (h : LinkHdr) : State :=
  let v := h.cvc.toNat
  let s := s.modPort n.val (fun q =>
    let rest := if q.replay.any (fun r => r.1 == h.ack) then (q.replay.dropWhile (fun r => r.1 != h.ack)).drop 1 else q.replay
    { q with
      replay := rest, again := if rest.length < q.replay.length then 0 else q.again
      credit := tset q.credit v (tget 0 q.credit v + (h.cred.toNat + 1024 - tget 0 q.seen v % 1024) % 1024)
      seen := tset q.seen v h.cred.toNat })
  s.drainPort n
/-- The sender replays every unacknowledged packet in order; the sixteenth replay of one takes the port down (R324, R339). -/
def State.replayAll (s : State) (n : Fin 5) : State :=
  let q := s.port n.val
  if q.replay = [] then s
  else
    let s := (s.modPort n.val (fun q => { q with again := q.again + 1, replays := satInc q.replays })).count (176 + n.val) 1
    let s := q.replay.foldl (fun (s : State) r => s.send (.pkt n r.1 r.2)) s
    if 16 ≤ q.again + 1 then s.portDown raise n .replays else s

/-- HEARTBEAT_TICK (R326): on every UP lane; a NAK may be sent again from here on (R324). -/
def execHeartbeatTick (s : State) : Result :=
  .next ((List.finRange 5).foldl (fun s n =>
    if (s.port n.val).st = PortSt.up then (s.modPort n.val (fun q => { q with naked := false })).ctlSend n 2 false [] else s) s)
/-- HEARTBEAT (R326). -/
def execHeartbeat (port : Fin 5) (h : LinkHdr) (s : State) : Result :=
  .next (if (s.port port.val).st = .up then s.takeHdr port h else s)
/-- DELAY_TICK (R326). -/
def execDelayTick (s : State) : Result :=
  .next ((List.finRange 5).foldl (fun s n =>
    if (s.port n.val).st = PortSt.up then s.ctlSend n 3 false [s.nsNow] else s) s)
/-- DELAY_REQ (R326). -/
def execDelayReq (port : Fin 5) (t1 t2 : BitVec 64) (s : State) : Result :=
  let st := (s.port port.val).st
  .next (if st = .up ∨ st = .hello then s.ctlSend port 4 false [t1, t2, s.nsNow] else s)
/-- A port comes UP (R321, R328, R335, R358, R433): fresh numbers and credit, the LSA flooded. -/
def State.portUp (s : State) (n : Fin 5) : State :=
  let s := s.modPort n.val (fun q => { q with
    st := .up, txSeq := 0, rxSeq := 0, naked := false, replay := [], again := 0, replays := 0, uncorr := 0
    credit := (List.range 4).map (fun v => (v, vcUnits v)), seen := [], freed := [], cvc := 0, ready := false
    lanes := if n = 4 then 3 else 1 })
  let q := s.port n.val
  ((s.event 0x8000 1 [n.val, q.nbr.toNat, q.delay]).setReady 6 true).floodLsa
/-- DELAY_RESP (R321, R326): the second result brings the port UP. -/
def execDelayResp (port : Fin 5) (t1 t2 t3 t4 : BitVec 64) (s : State) : Result :=
  let q := s.port port.val
  if q.st ≠ .up ∧ q.st ≠ .hello ∨ q.nodeId = s.nv.nodeId then .next s
  else
    let d := ((t4 - t1) - (t3 - t2)).toNat / 2
    let s := s.modPort port.val (fun q => { q with delays := (d :: q.delays).take 8 })
    .next (if q.st = .hello ∧ 2 ≤ (s.port port.val).delays.length then s.portUp port else s)
/-- LINK_NAK (R324). -/
def execLinkNak (port : Fin 5) (h : LinkHdr) (s : State) : Result :=
  .next (if (s.port port.val).st = .up then (s.takeHdr port h).replayAll port else s)
/-- ACK_TIMEOUT (R324). -/
def execAckTimeout (port : Fin 5) (s : State) : Result :=
  .next (if (s.port port.val).st = .up then s.replayAll port else s)
/-- Does the cause of PORT_DOWN hold (R339)? Lost symbols and missed HEARTBEATs are the line's. -/
def State.downHolds (s : State) (n : Fin 5) (c : DownCause) : Bool :=
  match c with
  | .symbols => true
  | .heartbeats => true
  | .replays => decide (16 ≤ (s.port n.val).again)
  | .fence => s.restartSt n.val == .fenced
  | .leaving => s.fab.lsas.any (fun l => l.origin == (s.port n.val).nbr && bitOf l.flags.toNat 5)
  | .laneOff => !s.portEnabled n.val
/-- PORT_DOWN (R339, R340). -/
def execPortDown (port : Fin 5) (cause : DownCause) (s : State) : Result :=
  .next (if s.downHolds port cause then s.portDown raise port cause else s)
/-- UP_HOLD_EXPIRY (R337). -/
def execUpHoldExpiry (port : Fin 5) (s : State) : Result :=
  .next (if (s.port port.val).st = .up then s.modPort port.val (fun q => { q with ready := true }) else s)
/-- PARTNER_WAIT_EXPIRY (R340). -/
def execPartnerWaitExpiry (s : State) : Result :=
  .next { s with fab.discards := s.fab.discards + s.fab.partnerWait.length, fab.partnerWait := [] }

/-! ### Fences and enables of a port (R320, R339, R356) -/

/-- FENCE_REQ or LOOPBACK of a port has been written (R356). -/
def State.portCtl (s : State) (n : Fin 5) : State :=
  let off := 0x0810 + 16 * n.val
  if s.flag off 0 then
    let s := if (s.port n.val).st = .up then s.portDown raise n .fence else s
    s.modPort n.val (fun _ => { Port.init with st := if s.flag off 1 then .loopback else .fenced })
  else s.restartPort n.val
/-- PORT_EN has been written (R320): a cleared bit powers the lane off, a set one starts it. -/
def State.portEnables (s : State) : State :=
  (List.finRange 5).foldl (fun s n =>
    if n = 4 then s
    else if s.portEnabled n.val then ((if (s.port n.val).st = PortSt.disabled then s.restartPort n.val else s) : State)
    else if (s.port n.val).st = .up then s.portDown raise n .laneOff
    else if (s.port n.val).st = .fenced ∨ (s.port n.val).st = .loopback then s
    else s.modPort n.val (fun _ => Port.init)) s

/-! ### Addresses (R332, R333) -/

/-- Address the module takes; 0 stands for none (R332, R333). -/
def State.addrFor (s : State) : BitVec 12 :=
  if s.pair.paired then
    if bitOf s.fab.loc.toNat 0 then 0 else if s.pair.owner then s.fab.loc else s.fab.loc ^^^ 1
  else if s.flag 0x0800 31 then BitVec.ofNat 12 (s.fld 0x0800 16 12) else s.fab.loc
/-- The module takes its address (R332, R333): without one, source 94 and event 0x8002. -/
def State.readdress (s : State) : State :=
  let a := s.addrFor
  let none_ := a == 0 || a == 0xFFF
  let s : State := { s with
    fab.addr := if none_ then 0 else a, fab.noaddr := none_, fab.age := if s.fab.addr = a then s.fab.age else 0 }
  if none_ then (raise 94 (s.event 0x8002 3 [s.fab.loc.toNat])).floodLsa else s.floodLsa

/-! ### Adverts (R334, R335, R441) -/

/-- Is sequence number `a` newer than `b`, mod 2^32 (R330, R335)? -/
def newer (a b : Word) : Bool := a != b && decide ((a - b).toNat < 2 ^ 31)
/-- In DARK a change of the database powers PD_CORE to compute routes (R441). -/
def State.routeWake (s : State) : State :=
  if s.pwr.st = .dark ∧ !s.pwr.routeWake then
    ({ s with pwr.routeWake := true, pwr.core := true } : State).applyLatched raise
  else s
/-- A collision over this module's address (R334): the greater CLAIM_AGE keeps it, on a tie the lower NODE_ID. -/
def State.collide (s : State) (l : Lsa) : State :=
  let pairs := s.pair.paired && bitOf l.flags.toNat 2 && l.partner == pairOther l.origin &&
    (l.origin == s.fab.addr || l.origin == pairOther s.fab.addr)
  if s.fab.noaddr || l.origin != s.fab.addr || l.nodeId == s.nv.nodeId || pairs then s
  else
    let keep := decide (l.claimAge.toNat < s.fab.age.toNat) || (l.claimAge == s.fab.age && decide (s.nv.nodeId.toNat < l.nodeId.toNat))
    let s := s.event 0x8003 3 [l.origin.toNat, l.nodeId.toNat % 2 ^ 32, l.nodeId.toNat / 2 ^ 32, if keep then 1 else 2]
    if keep then s
    else
      let s := (raise 94 s).endCmds (fun _ => true) stUnreachable
      (({ s with fab.addr := 0, fab.noaddr := true, fab.age := 0 } : State).setW1c 0x0804 30).floodLsa
/-- An LSA arrives (R335): a newer one is stored; collisions (R334), neighbours that leave (R339). -/
def State.gotLsa (s : State) (l : Lsa) : State :=
  if l.nodeId = s.nv.nodeId then s
  else
    let same := fun (x : Lsa) => x.origin == l.origin && x.nodeId == l.nodeId
    let old := s.fab.lsas.find? same
    match old with
    | some x => if newer l.aseq x.aseq then store s same (some x) else s
    | none => store s same none
where
  /-- The LSA takes its place and what it tells is acted on. -/
  store (s : State) (same : Lsa → Bool) (old : Option Lsa) : State :=
    let s : State := { s with fab.lsas := s.fab.lsas.filter (fun x => !same x) ++ [l] }
    let changed := match old with
      | some x => x.nbrs != l.nbrs || x.flags != l.flags || x.partner != l.partner
      | none => true
    let s := if changed then s.routeWake else s
    let s := s.collide l
    let at_ := (List.finRange 5).filter (fun n => (s.port n.val).st == .up && (s.port n.val).nodeId == l.nodeId)
    let s := at_.foldl (fun s n => s.modPort n.val (fun q => { q with nbr := l.origin })) s
    if bitOf l.flags.toNat 5 then at_.foldl (fun s n => s.portDown raise n .leaving) s else s
/-- LSA_TICK (R335): CLAIM_AGE rises, and the LSA is flooded. -/
def execLsaTick (s : State) : Result :=
  .next ({ s with fab.age := if s.fab.noaddr then 0 else satInc s.fab.age } : State).floodLsa
/-- LSA (R335), as it arrives on a port. -/
def execLsa (port : Fin 5) (l : Lsa) (s : State) : Result :=
  .next (if (s.port port.val).st = .up then s.gotLsa l else s)
/-- LSA_EXPIRY (R335). -/
def execLsaExpiry (addr : BitVec 12) (nodeId : BitVec 64) (s : State) : Result :=
  .next (if s.fab.lsas.any (fun l => l.origin == addr && l.nodeId == nodeId) then
    ({ s with fab.lsas := s.fab.lsas.filter (fun l => !(l.origin == addr && l.nodeId == nodeId)) } : State).routeWake else s)

/-! ### Routes (R336, R349) -/

/-- Do both ends list the link that entry `e` of `a` names, to `b` (R336)? -/
def linked (a b : Lsa) (e : LsaNbr) : Bool :=
  e.addr == b.origin && b.nbrs.any (fun f => f.addr == a.origin && f.ownPort == e.nbrPort && f.nbrPort == e.ownPort)
/-- Neighbours of the `i`-th module of the database. -/
def adjacent (db : List Lsa) (i : Nat) : List Nat :=
  match db[i]? with
  | none => []
  | some a => (List.range db.length).filter (fun j => j != i && match db[j]? with
    | some b => a.nbrs.any (linked a b)
    | none => false)
/-- Costs spread from a frontier at cost `d`. -/
def spread (db : List Lsa) : Nat → Nat → List Nat → Tab Nat → Tab Nat
  | 0, _, _, t => t
  | fuel + 1, d, fr, t =>
    let nx := ((fr.map (adjacent db)).flatten.eraseDups).filter (fun j => !t.any (fun e => e.1 == j))
    if nx = [] then t else spread db fuel (d + 1) nx (nx.foldl (fun t j => tset t j (d + 1)) t)
/-- Least cost between two modules of the database; none where no path joins them. -/
def pathCost (db : List Lsa) (i j : Nat) : Option Nat :=
  ((spread db db.length 0 [i] [(i, 0)]).find? (fun e => e.1 == j)).map (·.2)
/-- The least of a list by a key, the first on a tie. -/
def leastBy {α : Type} (key : α → Nat) (l : List α) : Option α :=
  l.foldl (fun b x => match b with
    | none => some x
    | some y => if key x < key y then some x else some y) none
/-- Entry for module `j` of the database, this module being the first of it, over ports with the neighbour of each; none where
it is not reachable (R336). -/
def routeTo (db : List Lsa) (ports : List (Nat × Nat)) (noAlt : Bool) (j : Nat) : Option Route :=
  let c := fun (i k : Nat) => (pathCost db i k).getD 1000000
  let near := ports.filter (fun p => (pathCost db p.2 j).isSome)
  match leastBy (fun (p : Nat × Nat) => 8 * c p.2 j + p.1) near with
  | none => none
  | some pr =>
    let fit := near.filter (fun p => p.2 != pr.2 && decide (c p.2 j < c p.2 0 + c 0 j))
    let key := fun (p : Nat × Nat) => (if c p.2 j < c p.2 pr.2 + c pr.2 j then 0 else 2 ^ 40) + 8 * c p.2 j + p.1
    let alt := if noAlt then none else leastBy key fit
    let cost := fun (p : Nat × Nat) => BitVec.ofNat 8 (min 255 (1 + c p.2 j))
    some { valid := true, pri := Fin.ofNat 8 pr.1, alt := Fin.ofNat 8 ((alt.map (·.1)).getD 0), altValid := alt.isSome
           usingAlt := false, priCost := cost pr, altCost := (alt.map cost).getD 0 }
/-- This module's LSA with the ports that may carry routes (R337), then every other. -/
def State.database (s : State) : List Lsa :=
  let own := s.ownLsa
  { own with nbrs := own.nbrs.filter (fun e => (s.port e.ownPort.toNat).ready) } :: s.fab.lsas
/-- Addresses a module of the database answers to (R335, R348). -/
def lsaAnswers (l : Lsa) : List (BitVec 12) :=
  if l.origin = 0 ∨ l.origin = 0xFFF then [] else if bitOf l.flags.toNat 4 then [l.origin, pairOther l.origin] else [l.origin]
/-- The routing table of R336. -/
def State.computeRoutes (s : State) : Tab Route :=
  let db := s.database
  let own := db.head?
  let ports := ((own.map (·.nbrs)).getD []).filterMap (fun e =>
    ((List.range db.length).find? (fun j => j != 0 && match own, db[j]? with
      | some a, some b => linked a b e
      | _, _ => false)).map (fun j => (e.ownPort.toNat, j)))
  let far := ((List.range db.length).filter (· != 0)).foldl (fun t j =>
    match db[j]? with
    | none => t
    | some l => (lsaAnswers l).foldl (fun t a =>
      let r := routeTo db ports (s.pair.paired && a == pairOther s.fab.addr) j
      match r with
      | none => t
      | some r =>
        let x := tget Route.init t a.toNat
        if x.valid && decide (x.priCost.toNat ≤ r.priCost.toNat) then t else tset t a.toNat r) t) ([] : Tab Route)
  let me := if s.fab.noaddr then [] else if s.fab.takeover then [s.fab.addr, pairOther s.fab.addr] else [s.fab.addr]
  me.foldl (fun t a => tset t a.toNat { Route.init with valid := true, pri := 7 }) far
/-- ROUTE_COMPUTE (R336). -/
def execRouteCompute (s : State) : Result :=
  .next (if s.domainCore || s.pwr.routeWake then { s with fab.computed := some s.computeRoutes } else s)
/-- The shift boss of this module's shelf (R349): the lowest slot among those not excluded; 0 where none remains. -/
def State.bossOf (s : State) : BitVec 12 :=
  let l := (s.ownLsa :: s.fab.lsas).filter (fun l =>
    s.inShelf l.origin && !bitOf l.flags.toNat 6 && !bitOf l.flags.toNat 7 && (!bitOf l.flags.toNat 2 || bitOf l.flags.toNat 3))
  match leastBy (fun (l : Lsa) => l.origin.toNat) l with
  | some l => l.origin
  | none => 0
/-- The shift boss is found; this module takes or leaves office (R112, R349). -/
def State.findBoss (s : State) : State :=
  let b := s.bossOf
  let on := b == s.fab.addr && !s.fab.noaddr && b != 0
  let was := s.ledger.office
  let s := ({ s with fab.boss := b } : State).setOffice on
  if on = was then s else (s.event 0x8007 1 [s.fab.addr.toNat / 16, if on then 1 else 2]).floodLsa
/-- ROUTE_INSTALL_DONE (R336, R349, R358, R433, R441): the computed entries replace local repair; a port that has gone down since
is repaired at once. -/
def execRouteInstallDone (s : State) : Result :=
  .next (match s.fab.computed with
    | none => s
    | some t =>
      let down := (List.range 5).filter (fun n => (s.port n).st != .up)
      let t := down.foldl (fun t n => repair n t) t
      let s : State := { s with fab.routes := t, fab.computed := none }
      let known := (t.filter (fun e => e.2.valid)).length
      let s := s.event 0x8004 1 [known, (t.filter (fun e => e.2.altValid)).length]
      if s.pwr.routeWake then { s with pwr.routeWake := false, pwr.core := s.pwr.st != .dark }
      else (s.setReady 7 true).findBoss)
/-- A TAKEOVER arrives (R348): the entry of the survivor's other address is copied. -/
def State.gotTakeover (s : State) (taken survivor : BitVec 12) : State :=
  let from_ := if survivor = taken then pairOther taken else survivor
  { s with fab.routes := tset s.fab.routes taken.toNat (s.route from_.toNat) }
/-- TAKEOVER (R348). -/
def execTakeover (taken survivor : BitVec 12) (s : State) : Result :=
  .next (if s.isMine taken then s else s.gotTakeover taken survivor)

end Sys2Proof.Machine
end

