-- ==== Sys2Proof/Machine/Pair.lean ====
section
/-! DEFINITION. Redundant pair operation: ownership (R362, R363, R371), the canary (R364, R365), pair frames (R366), the
shadow (R367, R368), mirroring (R369), planned handover (R373). -/
namespace Sys2Proof.Machine

open Sys2Proof

/-! ### Ownership (R362, R363, R371) -/

/-- The HANDOVER trap in every context (R160, R371). -/
def State.handoverTraps (s : State) : State :=
  (List.range 5).foldl (fun (s : State) n => s.modCtx n (fun c => { c with traps := c.traps ||| 1 })) s
/-- A cold takeover (R363): the stage has parked the heads, and they are unparked again. -/
def State.coldHeads (s : State) : State :=
  let s := s.setW1c 0x0C04 22
  let s := (List.range 4).foldl (fun (s : State) n =>
    if (s.act n).st = .fenced then s
    else ((s.abandonAct n).actReadyOff n).modAct n (fun a => { a with st := .parked, heads := [], seek := none, lastSet := none })) s
  (List.range 4).foldl (fun s n => s.unparkFree n) s
/-- The module takes ownership (R348, R362, R363, R371, R375): `cause` as PAIR_STATUS.LAST_CAUSE. How long it took is a free value
(log 44). -/
def State.takeOwner (s : State) (cause : Nat) : State :=
  if !s.pair.paired || s.pair.owner then s
  else
    let warm := s.pair.aligned
    let silent := s.pair.lost || !s.pair.canaryOk
    let time := Config.freeNat s.free % 65536
    let up := cause = 1
    let s : State := { s.draw with
      pair.ownLow := true, pair.owner := true, pair.lastCause := BitVec.ofNat 4 cause, pair.aligned := false
      pair.handovers := satInc s.pair.handovers, pair.takeTime := BitVec.ofNat 16 time, pair.noPull := true
      pair.yielding := false, pair.peerAligned := false, pair.mirrorOk := false, pfr.unacked := [], pfr.snap := none
      pfr.agree := [], pfr.apart := 0, pfr.takeStep := if up then 0 else 1, rpl.halt := !up
      hqi.posts := s.hqi.posts.map (fun p => { p with need := none }) }
    let s := (s.handoverTraps.spinMode s.mdl.mode.toNat).setReady 20 true
    let s := s.event 0x9000 1 [cause, time, if warm then 1 else 2]
    let s : State := if up then s else { s with hqi.noFetch := true }
    let s := if silent && !up then { s with fab.takeover := true } else s
    let s := s.readdress
    let s := if silent && !up then
        let peer := ((s.nodeOf (s.fab.loc ^^^ 1)).or (s.nodeOf s.fab.loc)).getD 0
        let s := s.broadcast 0x11 (leBytes 2 s.fab.loc.toNat ++ leBytes 2 (s.fab.loc ^^^ 1).toNat)
        s.event 0x8006 1 [s.fab.loc.toNat, peer.toNat % 2 ^ 32, peer.toNat / 2 ^ 32]
      else s
    if warm ∨ up then s else s.coldHeads
/-- The owner releases OWN_N (R360, R363): its write gates are cut, and it is the shadow; ALIGNED at once when it yielded (R373). -/
def State.releaseOwn (s : State) : State :=
  if !s.pair.paired || !s.pair.owner then s
  else
    let y := s.pair.yielding
    let s := (s.cutGates 0 16).abandonAll
    let s : State := { s with
      pair.ownLow := false, pair.owner := false, pair.aligned := y, pair.yielding := false, pair.noPull := !y
      fab.takeover := false, hqi.noFetch := false, rpl.halt := false, pfr.takeStep := 0, pfr.agree := [], pfr.apart := 0
      pair.mirrorOk := false, pfr.unacked := [], pfr.snap := none }
    (s.handoverTraps.setReady 20 y).readdress

/-- HANDOVER_N falls (R362, R363): the owner releases OWN_N; the other takes ownership. What the taker can tell of the cause:
its own pull, a yield, the enclosure, else a FAILOVER fault. -/
def State.handoverFalls (s : State) (byEnclosure : Bool) : State :=
  if !s.pair.paired then s
  else
    let s : State := { s with pair.handoverLow := true }
    if s.pair.owner then s.releaseOwn
    else if s.pair.peerLow && !s.pair.canaryOk && !s.pair.pulling && !byEnclosure then s
    else
      ({ s with pair.peerLow := false } : State).takeOwner
        (if s.pair.pulling then 2 else if byEnclosure then 3 else if s.pair.peerYield then 5 else 6)
/-- OWN_PEER_N has been high for 10 µs with HANDOVER_N high (R362). -/
def State.peerReleased (s : State) : State :=
  if s.pair.paired ∧ s.pair.peerSeen ∧ !s.pair.handoverLow then
    ({ s with pair.peerLow := false } : State).takeOwner 4 else s
/-- SIDE_B_POWERUP_TIMEOUT (R362). -/
def execSideBPowerupTimeout (s : State) : Result :=
  .next (if s.pair.paired ∧ s.pair.sideB ∧ !s.pair.peerLow then s.takeOwner 1 else s)
/-- OWN_CHECK (R362): with both OWN_N low, side B releases its own. -/
def execOwnCheck (peerLow : Bool) (s0 : State) : Result :=
  let s : State := { s0 with pair.peerLow := peerLow, pair.peerSeen := s0.pair.peerSeen || peerLow }
  if !s.pair.paired then .next s0
  else .next (if s.pair.owner ∧ peerLow ∧ s.pair.sideB then
    raise 101 ((s.releaseOwn.setW1c 0x0C04 23).event 0x9003 3 [1]) else s)
/-- HANDOVER_PULL_RELEASE (R363). -/
def execHandoverPullRelease (s : State) : Result :=
  .next (if s.pair.pulling then { s with pair.pulling := false, pair.handoverLow := false } else s)

/-- A completion that the old owner was posting counts as posted (R371). -/
def State.countPosted (s : State) (q : Fin 128) (t : BitVec 16) : State :=
  match s.hqi.posts.find? (fun p => p.qp == q && p.tag == t) with
  | none => s
  | some p =>
    let x := s.qp q.val
    let n := (x.cqTail + 1) % x.depth
    let s := s.modQp q.val (fun x => { x with cqTail := n, phase := if n = 0 then !x.phase else x.phase })
    ({ s with hqi.posts := s.hqi.posts.erase p } : State).endDelete q
/-- TAKEOVER_SEND_AS_DRIVE (R371): 8 µs after taking OWNER. `posted` names the completions whose entry in host memory matched. -/
def execTakeoverSendAsDrive (posted : List (Fin 128 × BitVec 16)) (s : State) : Result :=
  .next (if s.pfr.takeStep ≠ 1 then s
    else
      let s := (posted.filter (fun p => s.hqi.posting.contains p)).foldl (fun s p => s.countPosted p.1 p.2) s
      let s : State := { s with pfr.takeStep := 2, hqi.noFetch := false, hqi.posting := [] }
      s.readPage.fetchAll)
/-- Units whose data the shadow mirrored hold it again; the rest read it from the host (R371). -/
def State.mirroredData (s : State) : State :=
  { s with cmp.units := s.cmp.units.map (fun u =>
      if u.dataIn && u.data == [] && !u.formed then
        { u with data := ((u.mir.map (fun a => s.load a 65536)).flatten).take (4096 * u.count) } else u) }
/-- TAKEOVER_REBUILD_DONE (R371): accumulators of open groups are rebuilt, admitted writes packed again, reads run again; planning
may start. -/
def execTakeoverRebuildDone (s : State) : Result :=
  .next (if s.pfr.takeStep = 0 ∨ !s.pair.owner then s
    else
      let s : State := { s.mirroredData with pfr.takeStep := 0, rpl.halt := false }
      let s := s.zon.zones.foldl (fun s e => (s.zone e.1).groups.foldl (fun s g =>
        if g.isOpen && g.acc.isNone then s.startRebuild e.1 g else s) s) s
      let s := s.rebuildAll
      let s := s.hqi.cmds.foldl (fun s c => if isReadOpc c.opc.toNat && c.st == .running then s.goRead c else s) s
      ((s.pumpWrites none).wakeData.pumpReads).wakeWaiters)

/-! ### The canary (R364, R365) -/

/-- CANARY_TICK (R364). -/
def execCanaryTick (s : State) : Result :=
  .next (if !s.pair.paired ∨ (s.port 4).st ≠ .up then s
    else
      let d1 := s.pair.canary
      let d2 := BitVec.ofNat 8 (b2n s.pair.owner + 2 * b2n s.pair.aligned + 4 * b2n s.pair.yielding)
      ({ s with pair.canary := d1 + 1 } : State).send (.canary d1 d2 (d1 ^^^ d2 ^^^ 0xA5)))
/-- D2 of a valid canary; D1 is its low byte (R364). -/
def canaryOf (w : Option (BitVec 24)) : Option Nat :=
  match w with
  | none => none
  | some w =>
    let d1 := bitsOf w.toNat 0 8
    let d2 := bitsOf w.toNat 8 8
    if bitsOf w.toNat 16 8 = d1 ^^^ d2 ^^^ 0xA5 ∧ d2 < 8 then some d2 else none
/-- CANARY_WINDOW (R365): what each lane received in it. -/
def execCanaryWindow (l0 l1 : Option (BitVec 24)) (s : State) : Result :=
  if !s.pair.paired then .next s
  else match (canaryOf l0).or (canaryOf l1) with
  | some d2 =>
    let own := bitOf d2 0
    let s : State := { s with
      pair.missRun := 0, pair.goodRun := s.pair.goodRun + 1, pair.canaryOk := true, pair.peerAligned := bitOf d2 1
      pair.peerYield := bitOf d2 2, pair.peerLow := own, pair.peerSeen := s.pair.peerSeen || own }
    if s.pair.goodRun = 1000 then
      let s : State := { s with pair.lost := false }
      let back := s.fab.takeover && s.pair.owner
      let s := if back then { s with fab.takeover := false }.floodLsa else s
      .next (if s.pair.owner ∧ !s.pair.mirrorOk then s.startSnapshot else s)
    else .next s
  | none =>
    let s : State := { (s.count 185 1) with
      pair.missRun := s.pair.missRun + 1, pair.goodRun := 0, pair.canaryOk := false, pair.missed := satInc s.pair.missed }
    if s.pair.missRun ≠ 8 then .next s
    else if s.pair.owner then .next (s.partnerLost raise 1)
    else if s.flag 0x0C00 1 ∧ s.pair.aligned ∧ !s.pair.noPull then .next s.pullHandover
    else .next (s.event 0x9001 2 [1])

/-! ### Pair frames (R366) -/

/-- A frame arrives: the next in order takes effect, and is acknowledged; one taken before is acknowledged again. -/
def State.pairTake (s : State) (pseq : BitVec 16) (f : State → State) : State :=
  if !s.pair.paired || s.pfr.fenced then s
  else if pseq = s.pfr.pack + 1 then (f { s with pfr.pack := pseq }).pairSend 0 []
  else if (s.pfr.pack - pseq).toNat < 32768 then s.pairSend 0 []
  else s
/-- PAIR_ACK (R365, R366, R369): frames up to PACK leave, and what waited for them goes on; the last frame of a snapshot makes the
mirroring complete. -/
def execPairAck (pack : BitVec 16) (s : State) : Result :=
  let done := fun (q : BitVec 16) => decide ((pack - q).toNat < 32768)
  if !s.pair.paired then .next s
  else
    let bytes := (s.pfr.unacked.filter (fun f => done f.1)).foldl (fun n f => n + f.2.2.length) 0
    let gone := s.pfr.unacked.any (fun f => done f.1)
    let s : State := { s with
      pfr.unacked := s.pfr.unacked.filter (fun f => !done f.1), pfr.reps := if gone then 0 else s.pfr.reps
      hqi.posts := s.hqi.posts.map (fun p => match p.need with | some q => if done q then { p with need := none } else p | none => p) }
    match s.pfr.snap with
    | some q => .next (if done q then ({ s with pfr.snap := none, pair.mirrorOk := true } : State).event 0x9002 1 [bytes] else s)
    | none => .next s
/-- PAIR_FRAME_RETRY (R366): every unacknowledged frame again; after four repetitions the partner is lost, with source 102. -/
def execPairFrameRetry (s : State) : Result :=
  .next (if !s.pair.paired ∨ s.pfr.unacked = [] then s
    else if 4 ≤ s.pfr.reps then raise 102 (({ s with pfr.reps := 0, pfr.unacked := [] } : State).partnerLost raise 2)
    else
      let s : State := { s with pfr.reps := s.pfr.reps + 1 }
      s.pfr.unacked.foldl (fun (s : State) f => (s.count 184 1).send (.pair f.1 f.2.1 f.2.2)) s)

/-! ### The shadow (R367, R368) -/

/-- ALIGNED is lost (R368, R375). -/
def State.alignLost (s : State) (act diff : Nat) : State :=
  if !s.pair.aligned then s
  else (({ s with pair.aligned := false, pfr.agree := [] } : State).setReady 20 false).event 0x9004 2 [act, diff]
/-- One actuator of an ALIGN frame (R368): its command compared, its values taken. -/
def State.alignAct (s : State) (x : AlignAct) : State :=
  let n := x.act.val
  let d := ((s.act n).vcm - x.vcm).natAbs
  let near := decide (d ≤ 64 * s.fld 0x0C00 8 8)
  let far := !near && s.pfr.apart ≠ 0
  let s : State := { s with
    pfr.agree := tset s.pfr.agree n (if near then min 2 (tget 0 s.pfr.agree n + 1) else 0)
    pfr.apart := if near then 0 else s.pfr.apart + 1 }
  let st := ([ActState.parked, .loading, .acquiring, .following, .seeking, .settling, .unloading, .ssw, .fenced])[x.state.toNat]?
  let s := s.modAct n (fun a => { a with
    st := st.getD a.st, integ := x.integ, vcm := x.vcm, notches := (x.notch1, x.notch2) })
  let s := x.heads.foldl (fun (s : State) h =>
    s.modHead h.1.val (fun y => { y with maInt := h.2.1, ma := h.2.2.1, live := h.2.2.2 })) s
  if far then raise 103 (s.alignLost n d) else s
/-- ALIGN (R368): the shadow takes the owner's servo state; ALIGNED once every actuator that is not PARKED has agreed twice. -/
def execAlignFrame (pseq : BitVec 16) (rev : Word) (acts : List AlignAct) (s : State) : Result :=
  .next (s.pairTake pseq (fun s =>
    if s.pair.owner then s
    else
      let s := acts.foldl (fun s x => s.alignAct x) ({ s with atb.rev := rev, pfr.aligns := 0 } : State)
      let all := (List.range 4).all (fun n => (s.act n).st == .parked || (s.act n).st == .fenced || decide (2 ≤ tget 0 s.pfr.agree n))
      if all && s.pfr.apart = 0 && !s.pair.aligned then
        ({ s with pair.aligned := true, pair.noPull := false } : State).setReady 20 true
      else s))
/-- ALIGN_LATE (R368). -/
def execAlignLate (s : State) : Result :=
  .next (if s.pair.paired ∧ !s.pair.owner then s.alignLost 0 0 else s)
/-- Bytes of an ALIGN frame, in the order R368 names its parts (log 21). -/
def State.alignBytes (s : State) : List Byte :=
  leBytes 4 s.atb.rev.toNat ++ leBytes 4 s.atb.ac.toNat ++
    ((List.range 4).map (fun n =>
      let a := s.act n
      if a.st = .parked then []
      else [BitVec.ofNat 8 n, BitVec.ofNat 8 a.st.code] ++ leBytes 4 (toTwos 32 a.integ) ++ leBytes 4 (toTwos 32 a.vcm) ++
        leBytes 4 (toTwos 32 a.notches.1) ++ leBytes 4 (toTwos 32 a.notches.2) ++ (a.heads.map (fun h =>
          let x := s.head h.val
          [BitVec.ofNat 8 h.val] ++ leBytes 4 (toTwos 32 x.maInt) ++ leBytes 2 (toTwos 16 x.ma) ++ leBytes 4 (toTwos 32 x.live))).flatten)).flatten
/-- ALIGN_SEND (R368). -/
def execAlignSend (s : State) : Result :=
  .next (if s.pair.paired ∧ s.pair.owner ∧ (List.range 4).any (fun n => (s.act n).st != .parked)
    then s.pairSend 1 s.alignBytes else s)
/-- SELECT (R367): the heads the shadow follows. -/
def execSelectFrame (pseq : BitVec 16) (act : Fin 4) (hs : BitVec 6) (trk : BitVec 24) (tpos : BitVec 5) (heads : List (Fin 64))
    (s : State) : Result :=
  .next (s.pairTake pseq (fun s =>
    if s.pair.owner then s
    else s.modAct act.val (fun a => { a with lastSet := some hs, heads := heads, track := trk + tpos.setWidth 24 })))

/-! ### Mirrored state (R369) -/

/-- PAIR_DATA (R369). An address at or above 14 GiB is no address of buffer memory (R225). -/
def execPairData (pseq : BitVec 16) (addr : BitVec 64) (bytes : List Byte) (s : State) : Result :=
  if s.pair.paired ∧ !s.pair.owner ∧ memTop < addr.toNat + bytes.length then .fault .addressOutside
  else .next (s.pairTake pseq (fun s => if s.pair.owner then s else s.store addr.toNat bytes))
/-- JRNL (R216, R221, R369): the shadow writes the record to its own journal with FLAGS[2] set, applies it, and frees what the unit
held. -/
def execJrnl (pseq : BitVec 16) (rec : List Byte) (s : State) : Result :=
  .next (s.pairTake pseq (fun s =>
    if s.pair.owner || !recOk rec then s
    else
      let r := parseRec rec
      let r : JRec := { r with flags := r.flags ||| 4 }
      let s : State := { s with
        nv.journal := tset s.nv.journal s.nv.jslot (some r), nv.jslot := (s.nv.jslot + 1) % 1024, nv.jseq := r.jseq + 1
        zon.unchk := s.zon.unchk + 1 }
      let s := s.replayRec r
      { s with cmp.units := s.cmp.units.filter (fun u => !(u.csec == r.csec && (r.jtype == 1 || r.jtype == 2))) }))
/-- One change of queue state (R369). -/
def State.takeQ (s : State) (c : QChange) : State :=
  match c with
  | .qp q st log2 vector ien rights sq cq =>
    let st : QpSt := match st.toNat with | 0 => .disabled | 1 => .active | 2 => .error | _ => .deleting
    s.modQp q.val (fun x => { x with st := st, log2 := log2, vector := vector, ien := ien, rights := rights, sq := sq, cq := cq })
  | .fetch q idx => s.modQp q.val (fun x => { x with fetch := idx })
  | .fetched q b =>
    let c := cmdOf q s.hqi.ord (s.qp q.val).rights b
    if (s.cmd? q.val c.tag).isSome then s
    else
      let segs := match c.segsOf [] with | .ok l => if c.list.isNone then l else [] | .error _ => []
      { s with hqi.cmds := s.hqi.cmds ++ [{ c with segs := segs, need := if c.list.isSome then 1 else 0 }], hqi.ord := s.hqi.ord + 1 }
  | .awp z n => s.modZone z (fun x => { x with awp := n })
  | .admission q t csec a reserved bufs =>
    match s.cmd? q.val t with
    | none => s
    | some c =>
      let z := s.zone c.zone
      let conv := c.opc == 0x29
      let key := if conv then s.nv.convRange.getD 0 else if z.st = .empty then BitVec.ofNat 8 (c.pf 0 0 8) else z.key
      let s := if conv || z.st == .opened then s else s.openZone c.zone a key
      let wp := if conv then c.count.toNat else (s.zone c.zone).awp
      let u := s.newUnit c (if conv then a.val else c.zone) c.addr.toNat wp reserved key
      let first := if c.opc = 0x22 then BitVec.ofNat 64 (lbaOf c.zone (wp - c.count.toNat)) else c.addr
      s.takeUnit c { u with csec := csec, mir := bufs } first
  | .dataIn csec =>
    { s with cmp.units := s.cmp.units.map (fun u => if u.csec = csec then { u with dataIn := true } else u) }
  | .rtag t => { s with fab.nextRtag := t + 1 }
  | .e2eRx src next => { s with fab.rx := tmod E2eRx.init s.fab.rx src.toNat (fun x => { x with next := BitVec.ofNat 32 next }) }
  | .posting q t status result =>
    { s with
      hqi.cmds := s.hqi.cmds.filter (fun c => !(c.qp == q && c.tag == t))
      hqi.posts := s.hqi.posts ++ [⟨q, t, status, result, none, true⟩], hqi.posting := s.hqi.posting ++ [(q, t)] }
  | .posted q t => { s.countPosted q t with hqi.posting := s.hqi.posting.filter (fun p => !(p.1 == q && p.2 == t)) }
/-- QSTATE (R369). -/
def execQstate (pseq : BitVec 16) (c : QChange) (s : State) : Result :=
  .next (s.pairTake pseq (fun s => if s.pair.owner then s else s.takeQ c))
/-- SNAPSHOT (R365, R366). -/
def execSnapshotFrame (pseq : BitVec 16) (mark : Byte) (s : State) : Result :=
  .next (s.pairTake pseq (fun s => if s.pair.owner then s else { s with pfr.snapIn := mark == 1 }))

/-! ### Planned handover (R373) -/

/-- A write of 1 to YIELD that R373 accepts. -/
def State.startYield (s : State) : State := { s with pair.yielding := true }
/-- May YIELD be written now (R373)? -/
def State.mayYield (s : State) : Bool := s.pair.paired && s.pair.owner && s.pair.peerAligned
/-- YIELD_HANDOVER (R373): with every bank empty the final ALIGN and QSTATE go out; once they are acknowledged HANDOVER_N is pulled. -/
def execYieldHandover (s : State) : Result :=
  .next (if !s.pair.yielding ∨ !s.seq.banks.all (fun e => e.2.all (·.isOver)) then s
    else if s.pfr.takeStep ≠ 5 then { (s.pairSend 1 s.alignBytes).mirrorQ with pfr.takeStep := 5 }
    else if s.pfr.unacked = [] then s.pullHandover else s)

end Sys2Proof.Machine
end

