-- ==== Sys2Proof/Machine/Power.lean ====
section
/-! DEFINITION. Power-up and its ready bounds (R433), the technician interface, safe and surprise removal (R442 to R446).
-/
namespace Sys2Proof.Machine

open Sys2Proof

/-! ### Power-up -/

/-- Side B, or a module that finds OWN_PEER_N low, starts as the shadow; side A that finds it high takes ownership at once
(R362). A single module holds OWN_N low (R359). -/
def State.firstOwner (s : State) : State :=
  if !s.pair.paired then
    (({ s with pair.ownLow := true, pair.owner := true } : State).setReady 20 true).readdress
  else if !s.pair.sideB && !s.pair.peerLow then s.takeOwner 1
  else s.readdress

/-- AON_READY (R329, R332, R359, R433): PD_AON becomes ready, the straps are sampled, the other domains are powered, the
ports begin. PRSNT_N is low on a module that has power (log 45). -/
def execAonReady (loc : BitVec 12) (pairPrsntN pairSide ownPeerN : Bool) (s : State) : Result :=
  if s.pwr.aon then .next s
  else
    let pr := !pairPrsntN
    let s : State := { s.draw with
      pwr.aon := true, pwr.core := true, pwr.bufActive := true, pwr.on := if pr then 0x3FFF else 0x0FFF
      pair.paired := pr, pair.sideB := pairSide, pair.peerLow := !ownPeerN, pair.peerSeen := !ownPeerN
      fab.loc := loc, fab.inst := BitVec.ofNat 16 (Config.freeNat s.free), svc.seated := true }
    let s := ((s.setReady 0 true).setReady 8 true).firstOwner
    let s := s.portEnables
    .next ((if pr then s.restartPort 4 else s).setPin).powerUpSpin

/-- Bound of a ready bit in milliseconds (R433); bit 20 has none. -/
def readyBound (b : Nat) : Option Nat :=
  if b = 20 then none
  else if 12 ≤ b ∧ b ≤ 15 then some 4000
  else if 16 ≤ b ∧ b ≤ 19 ∨ b = 21 then some 2000
  else [5, 180, 250, 300, 350, 100, 120, 1500, 10, 200, 10, 30000][b]?

/-- READY_BOUND_EXPIRY (R433). -/
def execReadyBoundExpiry (bit : Fin 22) (s : State) : Result :=
  match readyBound bit.val with
  | none => .next s
  | some ms =>
    .next (if s.ready bit.val then s
      else
        let s : State := { s with pwr.missed := s.pwr.missed ||| (1#22 <<< bit.val) }
        raise 117 ((s.setW1c 0x0008 30).event 0x1001 2 [bit.val, ms]))

/-! ### Locate and the button -/

/-- The three LED outputs (R443). -/
inductive Led where
  | off | hz1 | hz2 | steady
  deriving DecidableEq, Repr
/-- LED_LOC_N (R443). -/
def State.ledLoc (s : State) : Led := if s.svc.locate then .hz2 else .off
/-- LED_FLT_N (R443). -/
def State.ledFlt (s : State) : Led :=
  if s.pinRec || s.sec.error then .steady else if bitOf (s.w1c 0x5404).toNat 25 then .hz1 else .off
/-- LED_OK2RM_N (R443); in a pair the other module's part in it is outside one module (R444). -/
def State.ledOk2rm (s : State) : Led :=
  match s.svc.removal with
  | .preparing => .hz1
  | .safe => .steady
  | _ => .off

/-- Locate goes on or off, with its cause: 1 button, 2 command, 3 timeout (R443, R448). -/
def State.setLocate (s : State) (on : Bool) (cause : Nat) : State :=
  if s.svc.locate = on then s else ({ s with svc.locate := on } : State).event 0xC000 0 [b2n on, cause]
/-- The button policy in force (R442). -/
def State.policy (s : State) : Nat := let p := s.fld 0x5400 0 2; if p = 3 then s.fld 0x5400 2 2 else p
/-- An ignored press (R442). -/
def State.ignorePress (s : State) (ms : Nat) : State :=
  ({ s with svc.ignored := satInc s.svc.ignored } : State).event 0xC003 0 [ms, s.policy]

/-! ### Safe removal -/

/-- A request that R444 accepts: 1 from the button, 2 by command. -/
def State.startRemoval (s : State) (frm : Nat) : State :=
  ({ s with svc.removal := .preparing, svc.ord := s.hqi.ord, svc.since := s.pwr.ticks, svc.step := 0, svc.off := 0 } :
    State).event 0xC001 1 [frm]

/-- ATTN_RELEASE (R442): the press ends after `ms` milliseconds. -/
def execAttnRelease (ms : Nat) (s : State) : Result :=
  if s.svc.longDone then .next { s with svc.longDone := false }
  else .next (if ms < 1000 ∧ (s.policy = 1 ∨ s.policy = 2) then s.setLocate (!s.svc.locate) 1 else s.ignorePress ms)

/-- ATTN_LONG_PRESS (R442): the press has lasted 3 s. One that the policy ignores is counted when it is released. -/
def execAttnLongPress (s : State) : Result :=
  if s.policy ≠ 2 ∨ s.svc.longDone then .next s
  else
    let s : State := { s with svc.longDone := true }
    .next (if s.svc.removal = .normal then s.startRemoval 1 else s.ignorePress 3000)

/-- LOCATE_TIMEOUT (R443). -/
def execLocateTimeout (s : State) : Result := .next (if s.fld 0x5400 16 8 = 0 then s else s.setLocate false 3)

/-- SERVICE of action `a` (R319, R443, R444). It completes once it has been accepted; when a request that finds a removal
under way, or a cancel that finds none, has no effect. DESIGN CHOICE (log 46). -/
def State.service (s : State) (tag : BitVec 16) (a : Nat) (f : State → State) : State :=
  s.adminCmd 0x0C tag (fun c => if c.pf 0 0 4 = a then (f s).finish 0 tag stSuccess 0 else s)

/-- LOCATE_ON (R443). -/
def execLocateOn (tag : BitVec 16) (s : State) : Result := .next (s.service tag 1 (fun s => s.setLocate true 2))
/-- LOCATE_OFF (R443). -/
def execLocateOff (tag : BitVec 16) (s : State) : Result := .next (s.service tag 2 (fun s => s.setLocate false 2))
/-- SAFE_REMOVAL_REQUEST (R444). -/
def execSafeRemovalRequest (tag : BitVec 16) (s : State) : Result :=
  .next (s.service tag 3 (fun s => if s.svc.removal = .normal then s.startRemoval 2 else s))

/-- The spindle turns again after a removal that came to nothing (R105, R444): from SPUN_DOWN with the change to ACTIVE. -/
def State.spinAgain (s : State) : State := if s.pwr.st = .spunDown then s.wakeUp else s.requestSpin
/-- The removal is over: what step 5 turned off comes on again, and the LSA goes out without LEAVING (R444). -/
def State.endRemoval (s : State) : State :=
  let off := s.svc.off.toNat
  let s : State := { s with svc.removal := .normal, svc.step := 0, svc.off := 0 }
  let s := if off = 0 then s else s.domainsOn off
  (if s.fab.leaving then ({ s with fab.leaving := false } : State).floodLsa else s).spinAgain

/-- SAFE_REMOVAL_CANCEL (R444). -/
def execSafeRemovalCancel (tag : BitVec 16) (s : State) : Result :=
  .next (s.service tag 4 (fun s =>
    if s.svc.removal = .preparing ∨ s.svc.removal = .safe then
      let was := s.svc.removal.code
      let safe := s.svc.removal == .safe
      let s := s.endRemoval
      (if safe then s else s.floodLsa).event 0xC005 1 [was]
    else s))

/-- Nothing fetched before the removal began is outstanding, and every admitted write has committed (R444). -/
def State.workEnded (s : State) : Bool :=
  !s.hqi.cmds.any (fun c => decide (c.ord < s.svc.ord)) && s.hqi.posts.isEmpty &&
    !s.cmp.units.any (fun u => !u.committed && u.dead.isNone)
/-- The copies of R444 step 3 are on media, as far as an actuator can take them. -/
def State.copiesMade (s : State) : Bool :=
  bitsOf s.pwr.ready.toNat 12 4 == 0 || !(s.nv.audit.any (fun x => !x.2) || s.evr.ring.any (fun x => !x.2))

/-- Step 5 of R444: LEAVING, the lanes and PD_PCIE off, SAFE. A part that was ACTIVE or ACTIVE_IDLE is SPUN_DOWN from then
on (R448, cause 4). -/
def State.safeNow (s : State) : State :=
  let up := s.pwr.st == .active || s.pwr.st == .activeIdle
  let off := (0x3F20#14 ||| (if up then 0x1F#14 else 0)) &&& s.pwr.on
  let s := if s.fab.leaving then s else ({ s with fab.leaving := true } : State).floodLsa
  let s := s.domainsOff off.toNat
  let s : State := { s with svc.removal := .safe, svc.off := off, svc.step := 0 }
  let s := if up then s.setPower .spunDown 4 else s
  s.event 0xC002 1 [(s.pwr.ticks - s.svc.since) / ticksPerSec]

/-- Preparation goes on by one step where it may (R444). -/
def State.removalStep (s : State) : State :=
  if s.svc.removal ≠ .preparing then s
  else if s.svc.step = 0 then
    if s.workEnded && s.zon.ckptBusy.isNone then
      let s : State := { s with svc.step := 1 }
      if s.shadow then s else s.startCkpt
    else s
  else if s.svc.step = 1 then
    if s.zon.ckptBusy.isSome || !s.copiesMade then s else ({ s with svc.step := 2 } : State).parkAll.spinStop raise
  else if (s.spn.st = .off ∨ s.spn.st = .fault) ∧ (List.range 4).all s.onRamp then s.safeNow
  else s

/-- REMOVAL_SAFE (R444): preparation is looked at, and goes on as far as it may. -/
def execRemovalSafe (s : State) : Result := .next s.removalStep.removalStep.removalStep

/-- PREP_TIMEOUT (R444): PREP_S seconds have passed. Work and checkpoint are step 3, parking and stopping step 4. -/
def execPrepTimeout (s : State) : Result :=
  .next (if s.svc.removal ≠ .preparing then s
    else
      let n := if s.svc.step = 2 then 4 else 3
      ((s.setW1c 0x5404 25).event 0xC004 3 [n]).endRemoval)

/-! ### Surprise removal -/

/-- Outstanding commands end: a write whose unit has committed with SUCCESS, every other DOMAIN_POWERED_DOWN (R286, R446). -/
def State.endAll (s : State) : State :=
  s.hqi.cmds.foldl (fun (s : State) c =>
    let done := match c.csec with
      | some cs => s.cmp.units.any (fun u => u.csec == cs && u.committed)
      | none => false
    if done then s.endCmd c stSuccess 0 else s.endCmd c stDomainDown 0) s

/-- A surprise removal begins: 1 the latch, 2 PRSNT_N (R446). -/
def State.surprise (s : State) (what : Nat) : State :=
  let n := (s.hqi.cmds.filter (fun c => !c.peer)).length
  let s := ({ s with zon.jstop := true } : State).actPfail raise
  let s := ({ s with fab.leaving := true, hqi.noFetch := true, svc.removal := .surprise } : State).floodLsa
  (s.endAll.setW1c 0x5404 24).event 0xC007 4 [what, n]

/-- LATCH_RISE (R445). -/
def execLatchRise (s : State) : Result :=
  let s : State := { s with svc.latchOpen := true }
  .next (match s.svc.removal with
    | .safe => s.event 0xC006 0 []
    | .surprise => s
    | _ => s.surprise 1)

/-- PRSNT_RISE (R445). -/
def execPrsntRise (s : State) : Result :=
  let s : State := { s with svc.seated := false }
  .next (if s.svc.removal = .safe ∨ s.svc.removal = .surprise then s else s.surprise 2)

/-- SURPRISE_END (R116, R446): both pins have been low for 1 s. -/
def execSurpriseEnd (s : State) : Result :=
  .next (if s.svc.removal ≠ .surprise then s
    else
      let s : State := { s with
        svc.removal := .normal, svc.latchOpen := false, svc.seated := true, hqi.noFetch := false, fab.leaving := s.spn.pfailLow }
      (s.pfailEnds.floodLsa).event 0xC008 1 [])

end Sys2Proof.Machine
end

