-- ==== Sys2Proof/Machine/Setup.lean ====
section
/-! DEFINITION. What a register write does beyond its fields: the counters' snapshot and preset (R427, R428), the saved image
(R456, R457), the note of an ignored write (R6, R454). -/
namespace Sys2Proof.Machine

open Sys2Proof

/-! ### Writers and what is ignored -/

/-- Channel and source of a writer: PCIe and SMBus have one source, 0 (R380, R382). -/
def origin (w : Writer) : Chan × BitVec 12 := (w.chan, if w.chan = .fabric then w.src else 0)

/-- A refused or ignored write (R454): counter 189 and GEN_LAST_IGNORED, with its cause. -/
def State.ignoreWrite (s : State) (w : Writer) (off cause : Nat) : State :=
  { s with
    regs.lastIgnored := BitVec.ofNat 32 (chanCode w.chan * 2 ^ 30 + cause * 2 ^ 26 + off) }.count 189 1
/-- A write refused for want of a role counts in DENIED too (R380). -/
def State.denyWrite (s : State) : State := { s with regs.denied := satInc s.regs.denied }

/-- Sessions a writer may use (R380): those of its channel and source; of a fabric packet, the one it names. -/
def State.sessionsOf (s : State) (w : Writer) : List Session :=
  s.sec.sessions.filter (fun x => x.chan == (origin w).1 && x.src == (origin w).2 &&
    (w.chan != .fabric || x.num.val == w.sess.toNat))
/-- The session a field is written with: of the role named first that the writer holds (R380). -/
def State.sessionFor (s : State) (w : Writer) (roles : List Role) : Option Session :=
  roles.findSome? (fun r => (s.sessionsOf w).find? (fun x => x.role == r))

/-! ### Counters (R427, R428) -/

/-- PMC_SNAP.TAKE (R427). -/
def State.snapTake (s : State) : State :=
  { s with pmc.snap := s.pmc.ctr, pmc.snapOvf := s.pmc.ovf, pmc.seq := s.pmc.seq + 1 }

/-- The six tally counters of the channel of counter `c` (R428). -/
def tallyOf (c : Nat) : List Nat :=
  let n := if c < 64 then c / 4 else (c - 64) % 16
  [4 * n, 4 * n + 1, 4 * n + 2, 4 * n + 3, 64 + n, 80 + n]
/-- The counter PMC_PRESET_SEL names. -/
def State.presetSel (s : State) : Nat := s.fld 0x4808 0 8
/-- Value of a preset whose HI is `hi`. -/
def State.presetVal (s : State) (hi : Nat) : Nat := (hi % 2 ^ 16) * 2 ^ 32 + (s.forceWord 0x480C).toNat
/-- May the preset be made: a tally counter takes only 0 (R428)? -/
def State.presetOk (s : State) (hi : Nat) : Bool := decide (96 ≤ s.presetSel) || s.presetVal hi == 0
/-- Counter `c` loaded, its OVF cleared. -/
def State.loadCtr (s : State) (c v : Nat) : State :=
  { s with pmc.ctr := tset s.pmc.ctr c (BitVec.ofNat 48 v), pmc.ovf := s.pmc.ovf &&& ~~~(1#256 <<< c) }
/-- The preset (R428). -/
def State.preset (s : State) (hi : Nat) : State :=
  let c := s.presetSel
  if c < 96 then (tallyOf c).foldl (fun (s : State) k => s.loadCtr k 0) s else s.loadCtr c (s.presetVal hi)

/-! ### The saved image (R456, R457) -/

/-- Every persistent field of the map with its offset, FLT_SRC_CFG.CLASS apart (R456). -/
def savedFields : List (Nat × Fld) :=
  regDefs.flatMap (fun d =>
    (d.fields.filter (fun f => f.persist && d.base != 0x4024)).flatMap (fun f =>
      (List.range d.count).map (fun i => (d.base + d.stride * i, f))))

/-- The image with the values that reads now return of every field of some roles (R457). -/
def State.savedVals (s : State) (rs : List Role) (t : Tab Word) : Tab Word :=
  (savedFields.filter (fun e => e.2.roles.any rs.contains)).foldl (fun t e =>
    tset t (32 * e.1 + e.2.lsb) (BitVec.ofNat 32 (s.lastFld e.1 e.2.lsb e.2.w))) t
/-- The same of the classes, which are the installer's. -/
def State.savedCls (s : State) (rs : List Role) (t : Tab (BitVec 3)) : Tab (BitVec 3) :=
  if rs.contains .installer then (List.range 128).map (fun n => (n, BitVec.ofNat 3 (s.srcClass n))) else t

/-- SAVE by holders of some roles: the image begins to be written (R457). -/
def State.startSave (s : State) (rs : List Role) : State :=
  { s with gen.saving := some (s.savedVals rs s.nv.image, s.savedCls rs s.nv.imageCls) }
/-- CLEAR by holders of some roles (R457). -/
def State.startClear (s : State) (rs : List Role) : State :=
  let (i, c) := s.gen.saving.getD (s.nv.image, s.nv.imageCls)
  { s with gen.saving := some (dropKeys rs i, dropCls rs c) }

/-- SAVE_DONE (R457): the image is written, or its verification failed twice. -/
def execSaveDone (ok : Bool) (s : State) : Result :=
  match s.gen.saving with
  | none => .next s
  | some (i, c) =>
    let s : State := { s with gen.saving := none, gen.result := if ok then 1 else 2 }
    .next (if ok then { s with
        nv.image := i, nv.imageCls := c, nv.imageBad := false, nv.imageGen := s.nv.imageGen + 1 }
      else raise 122 s)

end Sys2Proof.Machine
end

