-- ==== Sys2Proof/Machine/RegWrite.lean ====
section
/-! DEFINITION. Writing registers: how each field is judged (R5 to R8, R380, R399, R453, R454), how a staged one is set
(R31 to R33), what a write starts, requests and their limits (R450, R451, R455). -/
namespace Sys2Proof.Machine

open Sys2Proof

/-! ### Conditions of fields -/

/-- A channel is idle: neither of its banks holds a slot that has not ended (R8; log 48). -/
def State.chIdle (s : State) (n : Nat) : Bool :=
  (s.ch n).fenced || ((s.bank (bankKey n true)).all Slot.isOver && (s.bank (bankKey n false)).all Slot.isOver)
/-- An actuator is fenced or idle (R8; log 48). -/
def State.actIdle (s : State) (n : Nat) : Bool :=
  (s.act n).st == .fenced ||
    ((s.act n).st != .ssw && (List.range 4).all (fun p => s.chIdle (4 * n + p)))
/-- A context is fenced or idle. -/
def State.ctxIdle (s : State) (n : Nat) : Bool :=
  !(s.ctx n).running && (s.ctx n).harvest.isNone && (s.ctx n).frame.isNone

/-- Does the condition of R8 hold for field `f` of a register, to take `x`? The codes are those of `Fld.idle`. -/
def State.idleOk (s : State) (off : Nat) (f : Fld) (x : Nat) : Bool :=
  match f.idle with
  | 0 => true
  | 1 => s.actIdle ((off - 0x1010) / 4)
  | 2 => (List.range 4).all s.actIdle
  | 3 => !s.srv.sswBusy
  | 4 => s.spn.st == .off
  | 5 => s.chIdle ((off - 0x2000) / 0x80)
  | 6 => (List.range 5).all (fun n => bitOf x n == s.flag off n || s.ctxIdle n)
  | 7 => !s.flag 0x0400 0
  | 8 => !s.flag 0x0400 1
  | 9 => (List.range 4).all (fun n => (s.port n).st == .fenced) && (!s.pair.paired || (s.port 4).st == .fenced)
  | _ => !s.flag 0x4820 15

/-- Roles that may write a field now: those of SRV_SSW_CMD act in the lifecycle states of R99; `v` is the dword. -/
def State.rolesNow (s : State) (off : Nat) (f : Fld) (v : Nat) : List Role :=
  if off = 0x1860 then
    match s.nv.life with
    | .blank => [.maker]
    | .integration => [.installer]
    | .fielded => if v % 16 = 2 then [] else [.installer]
    | .decommissioned => []
  else f.roles

/-- A condition stated for one field, to take `x`: 0, or the cause of its refusal (R453, and the field's own rule). -/
def State.fieldCond (s : State) (off lsb x v : Nat) : Nat :=
  let bad := fun (b : Bool) => if b then 2 else 0
  let o := if 0x2000 ≤ off ∧ off < 0x2800 then 0x2000 + (off - 0x2000) % 0x80 else off
  let n := (off - 0x2000) / 0x80
  if off = 0x1740 ∧ lsb = 24 then bad (s.lastFld 0x1744 24 8 < x)
  else if off = 0x1744 ∧ lsb = 24 then bad (x < s.lastFld 0x1740 24 4)
  else if off = 0x1804 ∧ lsb = 12 then bad (s.lastFld 0x1800 0 12 ≤ x)
  else if off = 0x1800 ∧ lsb = 0 then bad (x ≤ s.lastFld 0x1804 12 12)
  else if 0x1818 ≤ off ∧ off ≤ 0x1848 ∧ off % 16 = 8 ∧ (lsb = 0 ∨ lsb = 16) then bad (2047 < x)
  else if off = 0x1860 ∧ lsb = 0 then
    let a := v / 16 % 4
    if !sswKnown x then 2
    else if s.srv.sswBusy && x != 14 && x != 15 then 7
    else bad ((x == 1 || x == 2) && s.lastFld 0x1864 24 6 / 16 != a)
  else if off = 0x1C00 ∧ lsb = 0 then bad (match s.recs.geom with | some g => x != g.rpm | none => false)
  else if off = 0x1C08 ∧ lsb = 0 then bad (!(decide (-500 ≤ ofTwos 12 x) && decide (ofTwos 12 x ≤ 400)))
  else if o = 0x2008 ∧ lsb = 16 then bad (x < s.lastFld (off + 8) 16 4)
  else if o = 0x2010 ∧ lsb = 16 then bad (s.lastFld (off - 8) 16 4 < x)
  else if o = 0x2014 then
    if !([1, 2, 3, 4, 14, 15].contains x) then 2
    else if !(s.ch n).fenced then 3
    else if (s.ch n).bist && x != 14 then 7 else 0
  else if off = 0x2800 ∧ lsb = 8 then bad (decide (2 ≤ x) && !s.pair.paired)
  else if off = 0x3000 ∧ lsb = 8 then bad (x == 255)
  else if off = 0x3000 ∧ lsb = 0 then (if x = 1 ∧ (s.map.maint.isSome ∨ s.map.disabling) then 7 else 0)
  else if off = 0x3008 then (if s.map.maint.isSome ∨ s.map.disabling then 7 else bad (!(s.mapMaint x).2))
  else if off = 0x0400 ∧ lsb = 0 then bad (x == 1 && s.lastFld 0x0428 0 4 == 0)
  else if off = 0x0C00 ∧ lsb = 0 then bad (!s.mayYield)
  else if off = 0x3824 ∧ lsb = 31 then (if s.sec.mbox.busy then 7 else 0)
  else if off = 0x4024 then bad (x < srcFloor s.pair.paired (s.fld 0x4020 0 7))
  else if off = 0x4810 then bad (!s.presetOk v)
  else if off = 0x5004 then bad (s.pwr.st != .dark)
  else if off = 0x0010 then (if s.gen.saving.isSome then 7 else 0)
  else 0

/-- What judging a field says (R453): nothing to do, its new value with the session that writes it, or a refusal's cause. -/
inductive Judged where
  | skip
  | take (x : Nat) (by_ : Option Session)
  | refuse (cause : Nat)
  deriving DecidableEq, Repr

/-- The value a field has before the write. -/
def State.fieldNow (s : State) (off : Nat) (f : Fld) : Nat :=
  if off = 0x4024 then s.srcClass (s.fld 0x4020 0 7) else if f.ty = .wo then 0 else s.lastFld off f.lsb f.w

/-- One field of a written dword is judged (R5, R6, R8, R453). Writing MAP_CTL.ENABLE with 1 is judged by R250 whatever it
holds. -/
def State.judge (s : State) (w : Writer) (off v : Nat) (f : Fld) : Judged :=
  let x := bitsOf v f.lsb f.w
  match f.ty with
  | .ro => .skip
  | .w1c => if x = 0 then .skip else .take x none
  | t =>
    let same := decide (x = s.fieldNow off f) && off != 0x4810
    let roles := s.rolesNow off f v
    let who := s.sessionFor w roles
    if t = .wo ∧ x = 0 then .skip
    else if f.roles ≠ [] ∧ who.isNone then (if same then .skip else .refuse 1)
    else
      let c := s.fieldCond off f.lsb x v
      if !same && !(decide (f.lo ≤ x) && decide (x ≤ f.hi)) && !(off == 0x1C08 && f.lsb == 0) then .refuse 2
      else if !same && !s.idleOk off f x then .refuse 3
      else if c ≠ 0 ∧ (!same || off == 0x3000) then .refuse c
      else .take x who

/-! ### Applying what is accepted -/

/-- A staged field is set (R31 to R33): at once while the ATB is STOPPED or in ACQUIRE, else at the next index, or at the one
after that from 65,536 AC before the index on. -/
def State.stageFld (s : State) (off : Nat) (f : Fld) (x : Nat) : State :=
  let rest := s.regs.staged.filter (fun g => !(g.off == off && g.lsb == f.lsb))
  if s.atb.st = .stopped ∨ s.atb.st = .acquire then { s.putFld off f.lsb f.w x with regs.staged := rest }
  else
    let k := if s.atb.ac.toNat ≤ 4128767 then 1 else 2
    { s with
      regs.vals := tset s.regs.vals off (putField (s.lastWord off) f.lsb f.w x)
      regs.staged := rest ++ [⟨off, f.lsb, s.atb.rev + k⟩] }

/-- An accepted field takes its value. FLT_STATUS bits and actions are the register's own (`State.startedBy`). -/
def State.applyFld (s : State) (off : Nat) (f : Fld) (x : Nat) : State :=
  match f.ty with
  | .rw =>
    if off = 0x4024 then { s with regs.cls := tset s.regs.cls (s.fld 0x4020 0 7) (BitVec.ofNat 3 x) }
    else s.putFld off f.lsb f.w x
  | .ws => s.stageFld off f x
  | .w1c =>
    if 0x4000 ≤ off ∧ off ≤ 0x400C then s
    else { s with regs.w1c := tset s.regs.w1c off (s.w1c off &&& ~~~(BitVec.ofNat 32 (x * 2 ^ f.lsb))) }
  | _ => s

/-! ### What a write starts -/

/-- Requested fences of the compression engines (R202). -/
def State.cmpFences (s : State) : State :=
  ((List.range 4).foldl (fun (s : State) k =>
    if s.flag 0x3400 (4 + k) then s.cmpRequested k
    else if (s.engine k).fenced && !bitOf s.flt.fenced.toNat (36 + k) then
      (s.modEngine k (fun e => { e with fenced := false })).cmpAllFenced
    else s) s).wakeUnits
/-- Requested fences of the crypto lanes (R205, R393). -/
def State.cryFences (s : State) : State :=
  ((List.range 4).foldl (fun (s : State) k =>
    if s.flag 0x3800 k then s.cryRequested k
    else if bitOf s.cry.fenced.toNat k && !bitOf s.flt.fenced.toNat (40 + k) && !s.sec.error then
      { s with cry.fenced := s.cry.fenced &&& ~~~(1#4 <<< k) }
    else s) s).wakeUnits
/-- The requested fence of the XTP (R181): open groups keep their accumulators. -/
def State.xtpFence (s : State) : State :=
  ({ s with xtp.fenced := s.flag 0x3C00 0 || bitOf s.flt.fenced.toNat 44 } : State).wakeUnits

/-- CTX_EN changed from `old` (R166, R168): a context that is enabled runs INIT when an image is in force; one that is not
stops. -/
def State.ctxEnables (s : State) (old : Nat) : State :=
  (List.range 5).foldl (fun (s : State) n =>
    if bitOf old n = s.flag 0x1400 n then s
    else if !s.flag 0x1400 n then s.modCtx n (fun c => if c.st = .fenced then c else { c with st := .stopped, running := false })
    else if s.ready 3 then s.runInit n else s) s

/-- HQI_CTL changed from `old` (R263, R275). -/
def State.hqiCtl (s : State) (old : Nat) : State :=
  let s := if bitOf old 0 = s.flag 0x0400 0 then s else if s.flag 0x0400 0 then s.enableHqi else s.disableHqi
  if bitOf old 1 = s.flag 0x0400 1 then s else if s.flag 0x0400 1 then s.enableGw else s.disableGw

/-- FAB_CTL changed from `old` (R320, R332). -/
def State.fabCtl (s : State) (old : Nat) : State :=
  let s := if old % 16 = s.fld 0x0800 0 4 then s else s.portEnables
  if old / 2 ^ 16 = s.fld 0x0800 16 16 then s else s.readdress

/-- MAP_CTL changed from `old` (R250): a write of 0 to ENABLE starts the disable clean, until whose end ENABLE reads 1. -/
def State.mapCtl (s : State) (old : Nat) : State :=
  if bitOf old 0 && !s.flag 0x3000 0 then (s.putFld 0x3000 0 1 1).mapDisable else s

/-- BTN_DEF goes into the set-up image at each accepted write (R456). -/
def State.keepBtnDef (s : State) : State :=
  let k := 32 * 0x5400 + 2
  let v := BitVec.ofNat 32 (s.lastFld 0x5400 2 2)
  { s with
    nv.image := tset s.nv.image k v, nv.imageBad := false
    gen.saving := s.gen.saving.map (fun p => (tset p.1 k v, p.2)) }

/-- SAVE and CLEAR by holders of `rs` (R457); in a pair the owner's go to the partner with their roles. The layout of that frame's
value is the model's: bit 4 installer, bit 5 operator (log 47). -/
def State.saveClear (s : State) (save clear : Bool) (rs : List Role) : State :=
  let s := if save then s.startSave rs else s
  let s := if clear then s.startClear rs else s
  s.mirror 6 (leBytes 4 0x0010 ++ leBytes 4 (b2n save * 2 ^ 31 + b2n clear * 2 ^ 30 + 16 * b2n (rs.contains .installer) +
    32 * b2n (rs.contains .operator)))

/-- What a write to register `off` starts. `old` is its last written value before; `took lsb` the value accepted for a field;
`rs` the writer's roles. -/
def State.startedBy (s : State) (off old : Nat) (took : Nat → Option Nat) (rs : List Role) : State :=
  let hit := fun (lsb : Nat) => (took lsb).isSome
  if off = 0x0010 then (if hit 31 ∨ hit 30 then s.saveClear (hit 31) (hit 30) rs else s)
  else if off = 0x0400 then s.hqiCtl old
  else if off = 0x042C then (match took 0 with | some x => s.setRights 0 (BitVec.ofNat 6 x) | none => s)
  else if off = 0x0800 then s.fabCtl old
  else if 0x0810 ≤ off ∧ off ≤ 0x0850 ∧ off % 16 = 0 then
    (if hit 0 ∨ hit 1 then (if (s.lastWord off).toNat = old then s
      else s.portCtl ⟨(off - 0x0810) / 16 % 5, Nat.mod_lt _ (by decide)⟩) else s)
  else if off = 0x0C00 then (if hit 0 then s.startYield else s)
  else if off = 0x1000 then s.atbWake
  else if off = 0x1400 then s.ctxEnables old
  else if 0x181C ≤ off ∧ off ≤ 0x184C ∧ off % 16 = 12 then
    let a := (off - 0x181C) / 16
    match took 0 with
    | some 1 => s.requestPark a
    | some 2 => s.requestUnpark a
    | _ => s
  else if off = 0x1860 then
    (match took 0 with | some op => s.sswCommand (fin4 ((took 4).getD 0)) op | none => s)
  else if off = 0x1C1C then s.grantAll
  else if 0x2000 ≤ off ∧ off < 0x2800 ∧ off % 0x80 = 0x14 then
    let n := (off - 0x2000) / 0x80
    match took 0 with
    | some 14 => s.abortBist n
    | some t => s.startBist n t
    | none => s
  else if off = 0x2C00 then s.dmaResume
  else if off = 0x3000 then s.mapCtl old
  else if off = 0x3008 then (match took 0 with | some op => (s.mapMaint op).1 | none => s)
  else if off = 0x3400 then (if hit 4 then s.cmpFences else s)
  else if off = 0x3800 then s.cryFences
  else if off = 0x3824 then
    let s := if hit 31 then s.mboxGo else s
    if hit 30 then s.mboxFree else s
  else if off = 0x3C00 then s.xtpFence
  else if 0x4000 ≤ off ∧ off ≤ 0x400C then
    (match took 0 with
      | some x => (s.clearStatus (BitVec.ofNat 128 (x * 2 ^ (8 * (off - 0x4000))))).wakeUnits
      | none => s)
  else if off = 0x4028 then s.setPin
  else if off = 0x4800 then (if hit 31 then s.snapTake else s)
  else if off = 0x4810 then (match took 0 with | some x => s.preset x | none => s)
  else if off = 0x4820 then (if s.flag 0x4820 15 then s else { s with pmc.trig := none })
  else if off = 0x5004 then (if hit 8 then s.darkWake else s)
  else if off = 0x500C then (if hit 0 then ({ s.pfail with pwr.rstPend := true } : State).resetParked else s)
  else if off = 0x5400 then (if hit 2 then s.keepBtnDef else s)
  else s

/-! ### One dword -/

/-- Ranges that tie fields of one register: the four ranks of RPL_PRIO are distinct (R453). -/
def tieBroken (off v : Nat) : Bool :=
  off == 0x1700 && !(([v % 4, v / 4 % 4, v / 16 % 4, v / 64 % 4] : List Nat).Nodup)

/-- Accepted fields of a judgement. -/
def takenOf (l : List (Fld × Judged)) : List (Fld × Nat × Option Session) :=
  l.filterMap (fun (e : Fld × Judged) => match e.2 with | .take x b => some (e.1, x, b) | _ => none)
/-- Causes of a judgement's refusals, in the table's order. -/
def causesOf (l : List (Fld × Judged)) : List Nat :=
  l.filterMap (fun (e : Fld × Judged) => match e.2 with | .refuse c => some c | _ => none)

/-- The audit records of a write's accepted fields: one for each session (R380, R398). -/
def State.auditWrite (s : State) (off v : Nat) (l : List Session) : State :=
  l.foldl (fun (s : State) x => s.audit 0xA005 0 [off, v, x.role.code, x.num.val]) s

/-- Accepted values go to the partner (R369, R454): the register as last written. -/
def State.mirrorReg (s : State) (off : Nat) (took : List (Fld × Nat × Option Session)) : State :=
  if mirroredReg off && took.any (fun e => e.1.ty == .rw || e.1.ty == .ws) then
    s.mirror 6 (leBytes 4 off ++ leBytes 4 (s.lastWord off).toNat)
  else s

/-- A write of a register's dword is judged and applied (R453, R454). Answers also the status of R458: 0 or 4. -/
def State.writeReg (s : State) (w : Writer) (d : RegDef) (off v : Nat) : State × Nat :=
  let js := d.fields.map (fun f => (f, s.judge w off v f))
  let causes := causesOf js
  let took := takenOf js
  let who := (took.filterMap (fun (e : Fld × Nat × Option Session) => e.2.2)).eraseDups
  if tieBroken off v && !causes.contains 1 then (s.ignoreWrite w off 2, 4)
  else if who ≠ [] ∧ s.auditBlocked then (s.ignoreWrite w off 9, 4)
  else
    let old := (s.lastWord off).toNat
    let rs := (s.sessionsOf w).map (·.role)
    let s := s.auditWrite off v who
    let s := match causes with
      | [] => s
      | c :: _ => (if causes.contains 1 then s.denyWrite else s).ignoreWrite w off c
    let s := took.foldl (fun (s : State) e => s.applyFld off e.1 e.2.1) s
    let s := s.mirrorReg off took
    let s := s.startedBy off old (fun lsb => (took.find? (fun e => e.1.lsb == lsb)).map (·.2.1)) rs
    (s, if causes = [] then 0 else 4)

/-- Does another channel and source hold the mailbox (R402)? -/
def State.mboxOther (s : State) (w : Writer) : Bool :=
  match s.sec.mbox.claim with | some c => c != origin w | none => false
/-- Bytes of the mailbox are written (R402). -/
def State.mboxStore (s : State) (i : Nat) (v : Nat) : State :=
  { s with sec.mbox.bytes := (List.range 4).foldl (fun t k => tset t (i + k) (BitVec.ofNat 8 (v / 2 ^ (8 * k)))) s.sec.mbox.bytes }

/-- A write of one dword, by its offset (R402, R449, R453). Answers the status of R458. -/
def State.writeDword (s : State) (w : Writer) (off v : Nat) : State × Nat :=
  if isMailbox off ∨ off = 0x3824 then
    if s.mboxOther w then (s.ignoreWrite w off 6, 6)
    else
      let s : State := { s with sec.mbox.claim := some (origin w) }
      if isMailbox off then (s.mboxStore (off - 0x3A00) v, 0)
      else match regAt off with
        | some d => s.writeReg w d off v
        | none => (s, 0)
  else match regAt off with
    | some d => s.writeReg w d off v
    | none => (s.ignoreWrite w off 4, 1)

/-! ### Requests (R450, R451, R455) -/

/-- Dwords a request may carry, by channel (R450). -/
def maxDwords : Chan → Nat
  | .pcie => 2 | .smbus => 7 | .fabric => 16

/-- Only GEN, PWR and SVC are reachable in DARK (R440, R455). -/
def darkReg (off : Nat) : Bool := decide (off ≤ 0x0014) || (decide (0x5000 ≤ off) && decide (off ≤ 0x5404))

/-- Limits of a request of `n` dwords (R450, R455, R458): its status where it breaks one, else 0. -/
def State.limits (s : State) (c : Chan) (off n : Nat) : Nat :=
  if s.pwr.st = .dark ∧ !darkReg off then 3
  else if n = 0 ∨ maxDwords c < n then 2
  else if off % 4 ≠ 0 ∨ (c = .pcie ∧ n = 2 ∧ off % 8 ≠ 0) then 1
  else if (indexRow off).isNone ∨ !(List.range n).all (fun i => indexRow (off + 4 * i) == indexRow off) then 1
  else 0

/-- Status of a request from those of its dwords. -/
def worstStatus (a b : Nat) : Nat :=
  if a = 1 ∨ b = 1 then 1 else if a = 6 ∨ b = 6 then 6 else if a = 4 ∨ b = 4 then 4 else 0

/-- The dwords of a request, in increasing offset (R451). -/
def State.writeDwords (s : State) (w : Writer) (off : Nat) : List Word → State × Nat
  | [] => (s, 0)
  | v :: l =>
    let (s, a) := s.writeDword w off v.toNat
    let (s, b) := s.writeDwords w (off + 4) l
    (s, worstStatus a b)

/-- A write request (R450, R451). Answers the status of R458. -/
def State.writeReq (s : State) (w : Writer) (off : Nat) (l : List Word) : State × Nat :=
  match s.limits w.chan off l.length with
  | 0 => s.writeDwords w off l
  | 3 => (s, 3)
  | c => (s.ignoreWrite w off (if c = 1 ∧ off % 4 = 0 ∧ (indexRow off).isNone then 4 else 5), c)

/-- A read request of `n` dwords: status, what it returns, the state after it (R450, R451). Status 1 where an offset of it is
unmapped. -/
def State.readReq (s : State) (c : Chan) (off n : Nat) : Nat × List Word × State :=
  match s.limits c off n with
  | 0 =>
    let (l, t) := s.readRegs off n
    (if (List.range n).all (fun i => isMapped (off + 4 * i)) then 0 else 1, l, t)
  | k => (k, List.replicate n 0, s)

/-- One dword written by itself: what each row for a register with behaviour of its own does. -/
def State.write1 (s : State) (w : Writer) (off v : Nat) : Result := .next (s.writeReq w off [BitVec.ofNat 32 v]).1

end Sys2Proof.Machine
end

