-- ==== Sys2Proof/Machine/RegRows.lean ====
section
/-! DEFINITION. The commands that are one register write, the SMBus commands (R458), and the CFG frame that carries a write
to the partner (R369). A write to one field leaves the dword's other fields as they were last written. -/
namespace Sys2Proof.Machine

open Sys2Proof

/-- A register's dword with one field changed, written by itself. -/
def State.writeFld (s : State) (w : Writer) (off lsb width x : Nat) : Result :=
  s.write1 w off (putField (s.lastWord off) lsb width x).toNat

/-- REGISTER_WRITE (R450, R453): a write request. -/
def execRegisterWrite (w : Writer) (off : BitVec 16) (data : List Word) (s : State) : Result :=
  .next (s.writeReq w off.toNat data).1

/-! ### Servo, channels, chunk path -/

/-- ACT_PARK_CMD (R96): SRV_ACTCMDn.CMD = 1. -/
def execActParkCmd (w : Writer) (act : Fin 4) (s : State) : Result := s.write1 w (0x181C + 16 * act.val) 1
/-- ACT_UNPARK_CMD (R97): SRV_ACTCMDn.CMD = 2. -/
def execActUnparkCmd (w : Writer) (act : Fin 4) (s : State) : Result := s.write1 w (0x181C + 16 * act.val) 2

/-- SRV_SSW_CMD written with an operation and an actuator (R99). -/
def State.writeSsw (s : State) (w : Writer) (act : Fin 4) (op : Nat) : Result := s.write1 w 0x1860 (16 * act.val + op)
/-- SSW_SEED_CHECK (R99). -/
def execSswSeedCheck (w : Writer) (act : Fin 4) (s : State) : Result := s.writeSsw w act 1
/-- SSW_PROPAGATE (R99). -/
def execSswPropagate (w : Writer) (act : Fin 4) (s : State) : Result := s.writeSsw w act 2
/-- SSW_VERIFY (R99). -/
def execSswVerify (w : Writer) (act : Fin 4) (s : State) : Result := s.writeSsw w act 3
/-- SSW_CALIBRATE (R99). -/
def execSswCalibrate (w : Writer) (act : Fin 4) (s : State) : Result := s.writeSsw w act 4
/-- SSW_PAUSE (R99). -/
def execSswPause (w : Writer) (act : Fin 4) (s : State) : Result := s.writeSsw w act 14
/-- SSW_ABORT (R99). -/
def execSswAbort (w : Writer) (act : Fin 4) (s : State) : Result := s.writeSsw w act 15

/-- CH_FENCE_REQ (R142). -/
def execChFenceReq (w : Writer) (ch : Fin 16) (on : Bool) (s : State) : Result :=
  s.writeFld w (chReg ch.val 0) 31 1 (b2n on)
/-- CHn_BIST.TEST written (R143). -/
def State.writeBist (s : State) (w : Writer) (ch : Fin 16) (t : Nat) : Result := s.write1 w (chReg ch.val 0x14) t
/-- CH_BIST_MEMORY (R143). -/
def execChBistMemory (w : Writer) (ch : Fin 16) (s : State) : Result := s.writeBist w ch 1
/-- CH_BIST_ADC (R143). -/
def execChBistAdc (w : Writer) (ch : Fin 16) (s : State) : Result := s.writeBist w ch 2
/-- CH_BIST_LOOPBACK (R143). -/
def execChBistLoopback (w : Writer) (ch : Fin 16) (s : State) : Result := s.writeBist w ch 3
/-- CH_BIST_DECODER (R143). -/
def execChBistDecoder (w : Writer) (ch : Fin 16) (s : State) : Result := s.writeBist w ch 4
/-- CH_BIST_ALL (R143). -/
def execChBistAll (w : Writer) (ch : Fin 16) (s : State) : Result := s.writeBist w ch 15
/-- CH_BIST_ABORT (R143). -/
def execChBistAbort (w : Writer) (ch : Fin 16) (s : State) : Result := s.writeBist w ch 14

/-- XTP_FENCE_REQ (R181). -/
def execXtpFenceReq (w : Writer) (on : Bool) (s : State) : Result := s.writeFld w 0x3C00 0 1 (b2n on)
/-- CMP_FENCE_REQ (R202). -/
def execCmpFenceReq (w : Writer) (mask : BitVec 4) (s : State) : Result := s.writeFld w 0x3400 4 4 mask.toNat
/-- CRY_FENCE_REQ (R205). -/
def execCryFenceReq (w : Writer) (mask : BitVec 4) (s : State) : Result := s.writeFld w 0x3800 0 4 mask.toNat

/-! ### Buffer memory, DMA, map cache -/

/-- DMA_PAUSE_WRITE (R242). -/
def execDmaPauseWrite (w : Writer) (mask : Word) (s : State) : Result := s.write1 w 0x2C00 mask.toNat
/-- MAP_MAINT.OP written (R248). -/
def State.writeMaint (s : State) (w : Writer) (op : Nat) : Result := s.write1 w 0x3008 op
/-- MAP_CLEAN (R248). -/
def execMapClean (w : Writer) (s : State) : Result := s.writeMaint w 1
/-- MAP_CLEAN_INV (R248). -/
def execMapCleanInv (w : Writer) (s : State) : Result := s.writeMaint w 2
/-- MAP_ZERO (R248). -/
def execMapZero (w : Writer) (s : State) : Result := s.writeMaint w 3
/-- MAP_LOCK_FILL (R248). -/
def execMapLockFill (w : Writer) (s : State) : Result := s.writeMaint w 4
/-- MAP_CLEAN_ALL (R248). -/
def execMapCleanAll (w : Writer) (s : State) : Result := s.writeMaint w 8
/-- MAP_CLEAN_INV_ALL (R248). -/
def execMapCleanInvAll (w : Writer) (s : State) : Result := s.writeMaint w 9
/-- MAP_DISABLE (R250). -/
def execMapDisable (w : Writer) (s : State) : Result := s.writeFld w 0x3000 0 1 0
/-- BUF_DIAG_WRITE (R236). -/
def execBufDiagWrite (w : Writer) (v : Word) (s : State) : Result := s.write1 w 0x2830 v.toNat

/-! ### Host interface, mailbox, fabric, pair -/

/-- HQI_ENABLE (R263). -/
def execHqiEnable (w : Writer) (s : State) : Result := s.writeFld w 0x0400 0 1 1
/-- HQI_DISABLE (R263). -/
def execHqiDisable (w : Writer) (s : State) : Result := s.writeFld w 0x0400 0 1 0
/-- GW_ENABLE (R275). -/
def execGwEnable (w : Writer) (s : State) : Result := s.writeFld w 0x0400 1 1 1
/-- GW_DISABLE (R275). -/
def execGwDisable (w : Writer) (s : State) : Result := s.writeFld w 0x0400 1 1 0
/-- MAILBOX_GO (R402). -/
def execMailboxGo (w : Writer) (s : State) : Result := s.write1 w 0x3824 0x80000000
/-- MAILBOX_RELEASE (R402). -/
def execMailboxRelease (w : Writer) (s : State) : Result := s.write1 w 0x3824 0x40000000
/-- PORT_FENCE_REQ (R356). -/
def execPortFenceReq (w : Writer) (port : Fin 5) (on : Bool) (s : State) : Result :=
  s.writeFld w (0x0810 + 16 * port.val) 0 1 (b2n on)
/-- YIELD (R373). -/
def execYield (w : Writer) (s : State) : Result := s.writeFld w 0x0C00 0 1 1

/-! ### Faults, counters, power, set-up -/

/-- FLT_STATUS_CLEAR (R413). -/
def execFltStatusClear (w : Writer) (k : Fin 4) (v : Word) (s : State) : Result := s.write1 w (0x4000 + 4 * k.val) v.toNat
/-- PMC_SNAP_TAKE (R427). -/
def execPmcSnapTake (w : Writer) (s : State) : Result := s.write1 w 0x4800 0x80000000
/-- PMC_PRESET (R428): PMC_PRESET_HI written with `v`. -/
def execPmcPreset (w : Writer) (v : Word) (s : State) : Result := s.write1 w 0x4810 v.toNat
/-- PART_RESET_WRITE (R432). -/
def execPartResetWrite (w : Writer) (s : State) : Result := s.write1 w 0x500C 1
/-- DARK_WAKE (R440). -/
def execDarkWake (w : Writer) (s : State) : Result := s.write1 w 0x5004 0x100
/-- GEN_SAVE (R457). -/
def execGenSave (w : Writer) (s : State) : Result := s.write1 w 0x0010 0x80000000
/-- GEN_CLEAR (R457). -/
def execGenClear (w : Writer) (s : State) : Result := s.write1 w 0x0010 0x40000000

/-! ### SMBus (R458) -/

/-- The writer that SMBus is. -/
def smbus : Writer := ⟨.smbus, 0, 0⟩
/-- SMB_WRITE (R458): one whose PEC fails writes nothing. -/
def execSmbWrite (off : BitVec 16) (data : List Word) (pec : Bool) (s : State) : Result :=
  let (s, c) := if pec then s.writeReq smbus off.toNat data else (s.ignoreWrite smbus off.toNat 8, 5)
  .next { s with gen.smbStatus := BitVec.ofNat 8 c }
/-- SMB_SET_READ (R458). A length outside its limits is kept, and the READ that follows answers for it. -/
def execSmbSetRead (off : BitVec 16) (len : Byte) (pec : Bool) (s : State) : Result :=
  .next (if pec then { s with gen.smbNext := some (off, len) } else s)
/-- SMB_READ (R458): status, then the data; status 2 alone where no SET_READ came before. -/
def execSmbRead (pec : Bool) (s : State) : Result :=
  match pec, s.gen.smbNext with
  | false, _ => .next s
  | true, none => .next { s with gen.smbOut := [2] }
  | true, some (off, len) =>
    let n := len.toNat
    let (c, l, s) := if n % 4 = 0 then s.readReq .smbus off.toNat (n / 4) else (2, [], s)
    .next { s with
      gen.smbOut := BitVec.ofNat 8 c :: (l.flatMap (fun (v : Word) => leBytes 4 v.toNat) ++ List.replicate n 0).take n }
/-- SMB_STATUS (R458). -/
def execSmbStatus (pec : Bool) (s : State) : Result :=
  .next (if pec then { s with gen.smbOut := [s.gen.smbStatus] } else s)

/-! ### CFG (R369) -/

/-- An accepted write of the owner's is applied (R369, R457). -/
def State.takeCfg (s : State) (off v : Nat) : State :=
  if off = 0x0010 then
    s.saveClear (bitOf v 31) (bitOf v 30) ((if bitOf v 4 then [.installer] else []) ++ (if bitOf v 5 then [.operator] else []))
  else match regAt off with
    | none => s
    | some d =>
      let fs := d.fields.filter (fun f => (f.ty == .rw || f.ty == .ws) && mirroredReg off)
      let old := (s.lastWord off).toNat
      let s := fs.foldl (fun (s : State) f => s.applyFld off f (bitsOf v f.lsb f.w)) s
      s.startedBy off old (fun lsb => (fs.find? (fun f => f.lsb == lsb)).map (fun f => bitsOf v f.lsb f.w)) []
/-- CFG (R369): a frame of the pair brings an accepted write. -/
def execCfgFrame (pseq : BitVec 16) (off : BitVec 16) (v : Word) (s : State) : Result :=
  .next (s.pairTake pseq (fun s => s.takeCfg off.toNat v.toNat))

end Sys2Proof.Machine
end

