-- ==== Sys2Proof/Machine/FabMsg.lean ====
section
/-! DEFINITION. Packets that reach this module: links (R324), broadcasts (R330), end-to-end delivery (R342 to R344), remote
memory access and the gateway (R345 to R347), management (R354), peer moves (R352, R353), what waits for a takeover (R340). -/
namespace Sys2Proof.Machine

open Sys2Proof

/-! ### Remote memory access (R345, R346) -/

/-- Bytes of an RMA_RDATA (R345). -/
def rdataBytes (rtag : BitVec 16) (status : Nat) (last : Bool) (ofs : Nat) (l : List Byte) : List Byte :=
  leBytes 2 rtag.toNat ++ leBytes 1 status ++ leBytes 1 (b2n last) ++ leBytes 4 ofs ++ l
/-- HQI_CTL.GW_EN (R345). -/
def State.gwOn (s : State) : Bool := s.flag 0x0400 1
/-- Does a range lie wholly within FAB_RMA_BASE to FAB_RMA_LIMIT (R346)? -/
def State.rmaWithin (s : State) (a n : Nat) : Bool :=
  let at_ := fun (off : Nat) => (s.forceWord off).toNat + 2 ^ 32 * (s.forceWord (off + 4)).toNat
  decide (at_ 0x0870 ≤ a) && decide (a + n ≤ at_ 0x0878 + 1)
/-- A remote read reaches the gateway (R345, R346). -/
def State.gotRmaRead (s : State) (src : BitVec 12) (a n : Nat) (rtag : BitVec 16) : State :=
  if !s.gwOn then s.e2eSend src 0x24 (rdataBytes rtag 6 true 0 [])
  else if !s.rmaWithin a n then s.e2eSend src 0x24 (rdataBytes rtag 5 true 0 [])
  else ({ s with fab.serving := s.fab.serving ++ [(src, rtag, BitVec.ofNat 64 a, BitVec.ofNat 32 n)] } : State).send
    (.hostRead (BitVec.ofNat 64 a) n)
/-- RMA_READ (R346). -/
def execRmaRead (src : BitVec 12) (addr : BitVec 64) (len : Word) (rtag : BitVec 16) (s : State) : Result :=
  .next (s.gotRmaRead src addr.toNat len.toNat rtag)
/-- GW_PCIE_READ_DONE (R346): data goes back in increasing offset, no packet's bytes across a host page; a failed read sends its
status and nothing further. -/
def execGwPcieReadDone (src : BitVec 12) (rtag : BitVec 16) (status : Byte) (ofs : Word) (last : Bool) (data : List Byte)
    (s : State) : Result :=
  .next (match s.fab.serving.find? (fun x => x.1 == src && x.2.1 == rtag) with
    | none => s
    | some x =>
      let gone : State := { s with fab.serving := s.fab.serving.erase x }
      if status ≠ 0 then gone.e2eSend src 0x24 (rdataBytes rtag status.toNat true 0 [])
      else
        let ps := pieces 4088 (data.length + 1) (x.2.2.1.toNat + ofs.toNat) data.length
        let s := if last then gone else s
        (ps.foldl (fun (p : State × Nat) e =>
          let l := (data.drop p.2).take e.2
          (p.1.e2eSend src 0x24 (rdataBytes rtag 0 (last && decide (p.2 + e.2 = data.length)) (ofs.toNat + p.2) l), p.2 + e.2))
          (s, 0)).1)
/-- A remote write reaches the gateway (R345, R346). -/
def State.gotRmaWrite (s : State) (src : BitVec 12) (a : Nat) (l : List Byte) : State :=
  if !s.gwOn then s
  else if !s.rmaWithin a l.length then s.event 0x8008 2 [src.toNat, a % 2 ^ 32, a / 2 ^ 32]
  else s.send (.hostWrite (BitVec.ofNat 64 a) l)
/-- RMA_WRITE (R346). -/
def execRmaWrite (src : BitVec 12) (addr : BitVec 64) (data : List Byte) (s : State) : Result :=
  .next (s.gotRmaWrite src addr.toNat data)
/-- A remote interrupt request reaches the gateway (R346). -/
def State.gotRmaIrq (s : State) (v : Byte) : State := if s.gwOn then s.send (.msix v) else s
/-- RMA_IRQ (R346). -/
def execRmaIrq (_src : BitVec 12) (vector : Byte) (s : State) : Result := .next (s.gotRmaIrq vector)

/-- What the remote reads for one purpose brought: none where one failed (R277, R278, R281, R282). -/
def State.purposeDone (s : State) (p : RPurpose) (d : Option (List Byte)) : State :=
  match p with
  | .page => s.pageDone (d.map (fun l => (List.range 128).map (fun i =>
      (BitVec.ofNat 16 (leAt l (8 * i) 2), BitVec.ofNat 16 (leAt l (8 * i + 4) 2)))))
  | .desc q => s.descDone q (d.map (fun l => (List.range (l.length / 64)).map (fun i => (l.drop (64 * i)).take 64)))
  | .data q t => s.cmdReadDone q t d
/-- The remote reads for a purpose fail (R281, R282, R344). -/
def State.purposeFailed (s : State) (p : RPurpose) : State :=
  ({ s with fab.rtags := s.fab.rtags.filter (fun x => x.2.1 != p) } : State).purposeDone p none
/-- Remote read data arrives; a purpose is done with the last of its reads (R345). -/
def State.gotRdata (s : State) (src : BitVec 12) (rtag : BitVec 16) (status : Nat) (last : Bool) (ofs : Nat) (l : List Byte) :
    State :=
  match s.fab.rtags.find? (fun x => x.1 == rtag) with
  | none => s
  | some x =>
    if src ≠ s.gw ∨ x.2.2.2 then s
    else if status ≠ 0 then s.purposeFailed x.2.1
    else if ofs ≠ x.2.2.1.length then s
    else
      let s : State := { s with fab.rtags := s.fab.rtags.map (fun y =>
        if y.1 = rtag then (y.1, y.2.1, y.2.2.1 ++ l, last) else y) }
      let mine := s.fab.rtags.filter (fun y => y.2.1 == x.2.1)
      if mine.all (fun y => y.2.2.2) then
        ({ s with fab.rtags := s.fab.rtags.filter (fun y => y.2.1 != x.2.1) } : State).purposeDone x.2.1
          (some (mine.map (fun y => y.2.2.1)).flatten)
      else s
/-- RMA_RDATA (R345). -/
def execRmaRdata (src : BitVec 12) (rtag : BitVec 16) (status : Byte) (last : Bool) (ofs : Word) (data : List Byte) (s : State) :
    Result := .next (s.gotRdata src rtag status.toNat last ofs.toNat data)

/-- A doorbell hint reaches this module (R277, R440). -/
def State.gotHint (s : State) : State :=
  if s.pwr.st = .dark then (if s.flag 0x5000 30 then s.darkWake else s) else s.readPage
/-- DB_HINT (R277, R440). -/
def execDbHint (_src : BitVec 12) (s : State) : Result := .next s.gotHint

/-! ### Management (R354) -/

/-- The answer to a management packet; a module without an address sends it over the direct link, untracked (R332; log 57). -/
def State.mgmtAnswer (s : State) (dst : BitVec 12) (sess : Byte) (status : Nat) (l : List Word) : State :=
  let bytes := leBytes 4 status ++ (l.map (fun (v : Word) => leBytes 4 v.toNat)).flatten
  if s.fab.noaddr then
    match (List.finRange 5).find? (fun n => (s.port n.val).st == .up && (s.port n.val).nbr == dst) with
    | some n => s.sendOn n ⟨0x32, 0, dst, 0, 255, sess, 0, s.fab.inst, bytes⟩
    | none => s
  else s.e2eSendSess dst 0x32 sess bytes
/-- A management read (R354). -/
def State.gotMgmtRd (s : State) (src : BitVec 12) (sess : Byte) (off len : Nat) : State :=
  if len % 4 ≠ 0 then s.mgmtAnswer src sess 2 []
  else
    let r := s.readReq .fabric off (len / 4)
    r.2.2.mgmtAnswer src sess r.1 (if r.1 = 0 then r.2.1 else [])
/-- MGMT_RD (R354). -/
def execMgmtRd (src : BitVec 12) (off : BitVec 16) (len : Byte) (s : State) : Result :=
  .next (s.gotMgmtRd src 0 off.toNat len.toNat)
/-- A management write (R354, R453). -/
def State.gotMgmtWr (s : State) (src : BitVec 12) (sess : Byte) (off : Nat) (l : List Word) : State :=
  let r := s.writeReq ⟨.fabric, src, sess⟩ off l
  r.1.mgmtAnswer src sess r.2 []
/-- MGMT_WR (R354). -/
def execMgmtWr (src : BitVec 12) (sess : Byte) (off : BitVec 16) (data : List Word) (s : State) : Result :=
  .next (s.gotMgmtWr src sess off.toNat data)
/-- MGMT_RSP (R354). -/
def execMgmtRsp (_src : BitVec 12) (status : Byte) (data : List Word) (s : State) : Result :=
  .next { s with fab.mgmtRsp := (status, data) }
/-- The words of a list of bytes. -/
def wordsOf (l : List Byte) : List Word := (List.range (l.length / 4)).map (fun i => BitVec.ofNat 32 (leAt l (4 * i) 4))

/-! ### Peer moves (R312, R352, R353, R389) -/

/-- Does a certificate stand under this module's own anchor and name the source's NODE_ID, and does the signature over a key of
the session verify (R389)? `a` and `b` are the NODE_IDs of S and T. -/
def State.pmGood (s : State) (src : BitVec 12) (num : Word) (pub cert sig : List Byte) (a b : BitVec 64) : Bool :=
  s.nv.cert != [] && s.nv.anchor != [] && cert.length == 216 && leAt cert 0 1 == 1 && zeros cert 1 7 &&
  (cert.drop 112).take 8 == (Config.sha384 s.nv.anchor).take 8 &&
  Config.sigOk s.nv.anchor (Config.sha384 (cert.take 120)) (cert.drop 120) &&
  s.nodeOf src == some (BitVec.ofNat 64 (leAt cert 8 8)) &&
  Config.sigOk ((cert.drop 16).take 96) (pmMsg pub num a b) sig
/-- Fixed info of the key derivation: both NODE_IDs and both public keys, the source's first (R352). -/
def pmInfo (a b : BitVec 64) (pubS pubT : List Byte) : List Byte :=
  leBytes 8 a.toNat ++ leBytes 8 b.toNat ++ pubS ++ pubT
/-- AAD of a PM_DATA: the fabric header, the parts that change on the way as 0 (R329, R352; log 42). -/
def pmAad (dst src : BitVec 12) (inst : BitVec 16) (n : Nat) : List Byte :=
  [0x42, 1] ++ leBytes 2 dst.toNat ++ leBytes 2 src.toNat ++ [0, 0] ++ leBytes 4 0 ++ leBytes 2 n ++ leBytes 2 inst.toNat
/-- IV of a PM_DATA: session number, then packet number (R352). -/
def pmIv (num : Word) (pno : Nat) : Nat := num.toNat * 2 ^ 64 + pno
/-- The session of a number with a peer, on this module's side. -/
def State.pmFind (s : State) (isSrc : Bool) (peer : BitVec 12) (num : Word) : Option PmSess :=
  s.fab.pm.find? (fun x => x.isSrc == isSrc && x.peer == peer && x.num == num)
/-- A session is over; its key goes with it (R352). -/
def State.pmDrop (s : State) (x : PmSess) : State := { s with fab.pm := s.fab.pm.filter (fun y => y != x) }
/-- T refuses a session (R353): every block of it is discarded. -/
def State.pmRefuse (s : State) (peer : BitVec 12) (num : Word) (status : Nat) : State :=
  ({ s with fab.pm := s.fab.pm.filter (fun x => x.isSrc || x.peer != peer || x.num != num) } : State).e2eSend peer 0x44
    (leBytes 4 num.toNat ++ leBytes 2 status)
/-- A session of S fails (R312, R353): event 0x800A, source 99, and the PEER MOVE completes PEER_REFUSED. -/
def State.pmFail (s : State) (x : PmSess) (status : Nat) : State :=
  let s := raise 99 ((s.pmDrop x).eventSrc 0x800A 2 99 [x.peer.toNat, status])
  match x.cmd with
  | some (q, t) => s.finish q t stPeerRefused (status + 65536)
  | none => s
/-- A PM_OPEN reaches T (R352, R353, R389). -/
def State.gotPmOpen (s : State) (src : BitVec 12) (num cp1 cp2 : Word) (flags : Byte) (pub cert sig : List Byte) : State :=
  let a := (s.nodeOf src).getD 0
  if 8 ≤ (s.fab.pm.filter (fun x => !x.isSrc)).length then s.pmRefuse src num stInternal
  else if !s.pmGood src num pub cert sig a s.nv.nodeId then s.pmRefuse src num stPeerRefused
  else
    let own := Config.ephPub s.free
    let key := Config.ecdhKey s.free pub (pmInfo a s.nv.nodeId pub own)
    ({ s.draw with fab.pm := s.fab.pm ++ [⟨num, src, false, 3, none, [], key, own, cp1, cp2, flags, 0⟩] } : State).e2eSend src 0x41
      (leBytes 4 num.toNat ++ own ++ s.nv.cert ++ Config.deviceSign s.nv.nodeId.toNat (pmMsg own num a s.nv.nodeId))
/-- PM_OPEN (R352). -/
def execPmOpen (src : BitVec 12) (sess cp1 cp2 : Word) (flags : Byte) (pub cert sig : List Byte) (s : State) : Result :=
  .next (s.gotPmOpen src sess cp1 cp2 flags pub cert sig)
/-- S sends its data, sealed, then PM_DONE with the block count (R352). A PM_DATA carries session and packet number, up to 4,068
bytes of data, and the tag (log 42). -/
def State.pmSend (s : State) (x : PmSess) (key : Nat) : State :=
  let s := (List.range (ceilDiv x.data.length 4068)).foldl (fun (s : State) i =>
    let d := (x.data.drop (4068 * i)).take 4068
    let c := Config.gcmSeal key (pmIv x.num i) (pmAad x.peer s.fab.addr s.fab.inst (d.length + 28)) d
    s.e2eSend x.peer 0x42 (leBytes 4 x.num.toNat ++ leBytes 8 i ++ c.1 ++ c.2)) s
  s.e2eSend x.peer 0x43 (pmDoneBytes x.num (x.data.length / 4096) 0 0)
/-- A PM_ACCEPT reaches S (R352, R353). -/
def State.gotPmAccept (s : State) (src : BitVec 12) (num : Word) (pub cert sig : List Byte) : State :=
  match s.pmFind true src num with
  | none => s
  | some x =>
    let b := (s.nodeOf src).getD 0
    if x.step ≠ 1 then s
    else if !s.pmGood src num pub cert sig s.nv.nodeId b then s.pmFail x stPeerRefused
    else
      let key := Config.ecdhKey x.keyNo pub (pmInfo s.nv.nodeId b x.pub pub)
      ({ s with fab.pm := s.fab.pm.map (fun y => if y = x then { y with step := 3, keyNo := key, data := [] } else y) } : State).pmSend
        x key
/-- PM_ACCEPT (R352). -/
def execPmAccept (src : BitVec 12) (sess : Word) (pub cert sig : List Byte) (s : State) : Result :=
  .next (s.gotPmAccept src sess pub cert sig)
/-- A PM_DATA reaches T (R352, R353): one that does not authenticate, or brings more than 4 MiB, ends the session. -/
def State.gotPmData (s : State) (src : BitVec 12) (num : Word) (pno : Nat) (ct tag : List Byte) : State :=
  match s.pmFind false src num with
  | none => s
  | some x =>
    if x.step ≠ 3 then s
    else
      let inst := ((tget E2eRx.init s.fab.rx src.toNat).inst).getD 0
      match Config.gcmOpen x.keyNo (pmIv num pno) (pmAad s.fab.addr src inst (ct.length + 28)) ct tag with
      | none => s.pmRefuse src num stPeerRefused
      | some d =>
        if pno ≠ x.pno ∨ 4194304 < x.data.length + d.length then s.pmRefuse src num stPeerRefused
        else { s with fab.pm := s.fab.pm.map (fun y => if y = x then { y with data := y.data ++ d, pno := y.pno + 1 } else y) }
/-- PM_DATA (R352). -/
def execPmData (src : BitVec 12) (sess : Word) (pno : BitVec 64) (ct tag : List Byte) (s : State) : Result :=
  .next (s.gotPmData src sess pno.toNat ct tag)
/-- T appends what a session brought: a ZONE APPEND with FUA, under a free TAG of QP0 (R308, R312, R352; log 41). -/
def State.pmAppend (s : State) (x : PmSess) : State :=
  let t := s.freeTag
  let c : Cmd := {
    qp := 0, tag := t, opc := 0x22, flags := (x.flags &&& 0x0E) ||| 1, dptr0 := 0, dptr1 := 0
    addr := BitVec.ofNat 64 (x.cp1.toNat % 2 ^ 18 * 2 ^ 19), count := BitVec.ofNat 32 (x.data.length / 4096)
    cp := [x.cp2 &&& 0xFF, (x.cp2 >>> 8) &&& 7, 0, 0, 0, 0, 0], ord := s.hqi.ord, rights := 0, st := .fetched, csec := none
    rank := 0, fail := none, bad := [], data := [], segs := [], need := 0, fin := none, top := 0, parts := [] }
  ({ s with
    hqi.cmds := s.hqi.cmds ++ [c], hqi.ord := s.hqi.ord + 1
    fab.pm := s.fab.pm.map (fun y => if y = x then { y with step := 4, cmd := some (0, t) } else y) } : State).consider 0x22 0 t
      (fun _ => true)
/-- A PM_DONE arrives (R312, R352): at T the append, once every block is there; at S the end of the PEER MOVE. -/
def State.gotPmDone (s : State) (src : BitVec 12) (num : Word) (blocks status lba : Nat) : State :=
  match s.pmFind true src num with
  | some x =>
    let s := s.pmDrop x
    match x.cmd with
    | some (q, t) =>
      let ok := match s.cmd? q.val t with | some c => rankStatus c.rank | none => stSuccess
      if status = stSuccess then s.finish q t ok lba else s.finish q t stPeerRefused (status + 131072)
    | none => s
  | none => match s.pmFind false src num with
    | some x => if x.step = 3 ∧ x.data.length = 4096 * blocks then s.pmAppend x else s
    | none => s
/-- PM_DONE (R352). -/
def execPmDone (src : BitVec 12) (sess : Word) (blocks : Nat) (status : BitVec 16) (lba : BitVec 64) (s : State) : Result :=
  .next (s.gotPmDone src sess blocks status.toNat lba.toNat)
/-- A PM_REFUSE reaches S (R312, R353). -/
def State.gotPmRefuse (s : State) (src : BitVec 12) (num : Word) (status : Nat) : State :=
  match s.pmFind true src num with
  | some x => s.pmFail x status
  | none => s
/-- PM_REFUSE (R353). -/
def execPmRefuse (src : BitVec 12) (sess : Word) (status : BitVec 16) (s : State) : Result :=
  .next (s.gotPmRefuse src sess status.toNat)
/-- PM_SESSION_TIMEOUT (R353): T refuses a session whose data stopped coming; none whose append runs. -/
def execPmSessionTimeout (sess : Word) (s : State) : Result :=
  .next (match s.fab.pm.find? (fun x => !x.isSrc && x.num == sess && x.step != 4) with
    | some x => s.pmRefuse x.peer x.num stPeerRefused
    | none => s)

/-! ### End to end (R342 to R344, R347) -/

/-- The gateway is reachable again: what was held for it goes out (R347). -/
def State.flushGw (s : State) : State :=
  let l := s.fab.gwHeld
  let d := s.gw.toNat
  let s : State := { s with fab.gwHeld := [] }
  let s := s.modTx d (fun x => { x with queue := x.queue ++ l })
  s.pumpTx d l.length
/-- An end-to-end acknowledgement arrives (R342). -/
def State.gotE2eAck (s : State) (src : BitVec 12) (seq : Word) : State :=
  let d := src.toNat
  let old := (s.tx d).unacked
  let rest := old.filter (fun p => decide (2 ^ 31 ≤ (seq - p.seq).toNat))
  if rest.length = old.length then s
  else
    let s := s.modTx d (fun x => { x with unacked := rest, tries := 0 })
    let s := s.pumpTx d (s.tx d).queue.length
    if s.fab.gwDown && src == s.gw then ({ s with fab.gwDown := false } : State).flushGw else s
/-- E2E_ACK (R342). -/
def execE2eAck (src : BitVec 12) (seq : Word) (s : State) : Result := .next (s.gotE2eAck src seq)
/-- A destination is unreachable (R344): its packets are discarded and reported to what waits for them; the gateway's writes and
interrupt requests are held instead (R347). -/
def State.unreachable (s : State) (d : BitVec 12) : State :=
  let x := s.tx d.toNat
  let all := x.unacked ++ x.queue
  let toGate := d == s.gw && !s.selfGw
  let keep := if toGate then all.filter (fun p => p.ptype == 0x22 || p.ptype == 0x23) else []
  let s := s.modTx d.toNat (fun x => { x with unacked := [], queue := [], tries := 0, resync := true })
  let s : State := { s with fab.gwDown := s.fab.gwDown || toGate, fab.gwHeld := keep ++ s.fab.gwHeld }
  let s := raise 95 (s.eventSrc 0x8005 2 95 [d.toNat, all.length - keep.length])
  let reads := (all.filter (fun p => p.ptype == 0x21)).map (fun p => BitVec.ofNat 16 (leAt p.payload 12 2))
  let s := (s.fab.rtags.filterMap (fun r => if reads.contains r.1 then some r.2.1 else none)).eraseDups.foldl
    (fun (s : State) p => s.purposeFailed p) s
  (s.fab.pm.filter (fun y => y.peer == d)).foldl (fun (s : State) y =>
    if y.isSrc then
      match y.cmd with
      | some (q, t) => (s.pmDrop y).finish q t stUnreachable 0
      | none => s.pmDrop y
    else if y.step = 4 then s else s.pmDrop y) s
/-- E2E_RETX_TIMEOUT (R344). -/
def execE2eRetxTimeout (dst : BitVec 12) (s : State) : Result :=
  let x := s.tx dst.toNat
  .next (if x.unacked = [] then s
    else if s.fld 0x0860 0 4 ≤ x.tries then s.unreachable dst
    else
      let s := (s.modTx dst.toNat (fun x => { x with tries := x.tries + 1 })).count 181 x.unacked.length
      x.unacked.foldl (fun (s : State) p => s.forward none { p with flags := p.flags ||| 4 }) s)
/-- GW_RETRY_TICK (R347). -/
def execGwRetryTick (s : State) : Result :=
  .next (if s.fab.gwDown ∧ (s.tx s.gw.toNat).unacked = [] then s.flushGw else s)
/-- GW_HOLD_EXPIRY (R347): every outstanding command ends as R261 ends them, and nothing held is written. -/
def execGwHoldExpiry (s : State) : Result :=
  .next (if !s.fab.gwDown then s
    else
      let n := (s.hqi.cmds.filter (fun c => !c.peer)).length + s.hqi.posts.length
      let s : State := { s.endSilently with fab.gwHeld := [], fab.rtags := [] }
      let s := s.modTx s.gw.toNat (fun x => { x with unacked := [], queue := [], tries := 0, resync := true })
      raise 98 (s.eventSrc 0x8009 3 98 [s.gw.toNat, n]))

/-! ### Packets for this module (R329 to R332, R342) -/

/-- The LSA its bytes spell (R335). -/
def lsaOf (l : List Byte) : Lsa :=
  ⟨BitVec.ofNat 12 (leAt l 0 2), BitVec.ofNat 16 (leAt l 2 2), BitVec.ofNat 64 (leAt l 4 8), BitVec.ofNat 32 (leAt l 12 4),
   BitVec.ofNat 32 (leAt l 16 4), BitVec.ofNat 12 (leAt l 20 2), (List.range (leAt l 22 1)).map (fun i =>
     let o := 24 + 8 * i
     ⟨BitVec.ofNat 12 (leAt l o 2), BitVec.ofNat 8 (leAt l (o + 2) 1), BitVec.ofNat 8 (leAt l (o + 3) 1),
      BitVec.ofNat 16 (leAt l (o + 4) 2)⟩)⟩
/-- Packets a module in DARK acts on (R440, R441); the rest it leaves unacknowledged (log 58). -/
def darkType (t : Nat) : Bool := t == 0x10 || t == 0x11 || t == 0x20 || t == 0x28 || t == 0x30 || t == 0x31
/-- A packet that reached this module is acted on, by its type (R331). -/
def State.deliver (s : State) (p : Pkt) : State :=
  let l := p.payload
  let at_ := fun (o n : Nat) => leAt l o n
  let near := s.inShelf p.src
  let here := near && at_ 0 1 == s.fab.addr.toNat / 16
  let w := fun (o : Nat) => BitVec.ofNat 32 (at_ o 4)
  match p.ptype.toNat with
  | 0x13 => if here then s.gotTokenReq (fin16 (at_ 1 1)) else s
  | 0x14 => if near then s.gotTokenGrant else s
  | 0x15 => if here then s.gotTokenReturn (fin16 (at_ 1 1)) else s
  | 0x16 => if near then s.gotLedgerQuery p.src else s
  | 0x17 => if near then s.gotLedgerHeld (fin16 (at_ 1 1)) (at_ 2 1) else s
  | 0x20 => s.gotHint
  | 0x21 => s.gotRmaRead p.src (at_ 0 8) (at_ 8 4) (BitVec.ofNat 16 (at_ 12 2))
  | 0x22 => s.gotRmaWrite p.src (at_ 0 8) (l.drop 16)
  | 0x23 => s.gotRmaIrq (BitVec.ofNat 8 (at_ 0 1))
  | 0x24 => s.gotRdata p.src (BitVec.ofNat 16 (at_ 0 2)) (at_ 2 1) (bitOf (at_ 3 1) 0) (at_ 4 4) (l.drop 8)
  | 0x30 => s.gotMgmtRd p.src p.sess (at_ 0 2) (at_ 2 1)
  | 0x31 => s.gotMgmtWr p.src p.sess (at_ 0 2) (wordsOf (l.drop 4))
  | 0x32 => { s with fab.mgmtRsp := (BitVec.ofNat 8 (at_ 0 1), wordsOf (l.drop 4)) }
  | 0x40 => s.gotPmOpen p.src (w 0) (w 4) (w 8) (BitVec.ofNat 8 (at_ 12 1)) ((l.drop 13).take 96) ((l.drop 109).take 216)
      ((l.drop 325).take 96)
  | 0x41 => s.gotPmAccept p.src (w 0) ((l.drop 4).take 96) ((l.drop 100).take 216) ((l.drop 316).take 96)
  | 0x42 => s.gotPmData p.src (w 0) (at_ 4 8) ((l.drop 12).take (l.length - 28)) (l.drop (l.length - 16))
  | 0x43 => s.gotPmDone p.src (w 0) (at_ 4 4) (at_ 8 2) (at_ 10 8)
  | 0x44 => s.gotPmRefuse p.src (w 0) (at_ 4 2)
  | _ => s
/-- Packets in SEQ order from `q` on among those received early. -/
def inOrder (early : List Pkt) : Nat → Word → List Pkt
  | 0, _ => []
  | fuel + 1, q => match early.find? (fun p => p.seq == q) with
    | some p => p :: inOrder early fuel (q + 1)
    | none => []
/-- What is received from a source, a packet's instance and RESYNC having been looked at (R342, R344). -/
def E2eRx.meet (x : E2eRx) (p : Pkt) : E2eRx :=
  if x.inst ≠ some p.inst then { inst := some p.inst, next := p.seq, early := [] }
  else if bitOf p.flags.toNat 4 && decide ((p.seq - x.next).toNat < 2 ^ 31) then
    { x with next := p.seq, early := x.early.filter (fun e => decide ((e.seq - p.seq).toNat < 2 ^ 31)) }
  else x
/-- An end-to-end packet reaches its destination (R342): delivered in order, at most 64 held early, duplicates discarded; the
highest delivered is acknowledged at once (log 56). -/
def State.receive (s : State) (p : Pkt) : State :=
  let x := (tget E2eRx.init s.fab.rx p.src.toNat).meet p
  let put := fun (s : State) (x : E2eRx) => ({ s with fab.rx := tset s.fab.rx p.src.toNat x } : State)
  let ack := fun (s : State) (q : Word) =>
    s.forward none ⟨0x28, 0, p.src, s.fab.addr, 255, 0, 0, s.fab.inst, leBytes 4 (q - 1).toNat⟩
  let d := (p.seq - x.next).toNat
  if d = 0 then
    let run := p :: inOrder x.early x.early.length (p.seq + 1)
    let next := x.next + BitVec.ofNat 32 run.length
    let early := x.early.filter (fun e => !run.any (fun r => r.seq == e.seq))
    run.foldl (fun (s : State) r => s.deliver r) (ack (put s { x with next := next, early := early }) next)
  else if 2 ^ 31 ≤ d then ack (put s x).discard x.next
  else if x.early.length < 64 ∧ !x.early.any (fun e => e.seq == p.seq) then put s { x with early := x.early ++ [p] }
  else (put s x).discard
/-- A unicast packet for this module (R330, R342, R440). -/
def State.takeMine (s : State) (p : Pkt) : State :=
  if s.pwr.st = .dark ∧ !darkType p.ptype.toNat then s
  else if p.ptype = 0x28 then s.gotE2eAck p.src (BitVec.ofNat 32 (leAt p.payload 0 4))
  else if isE2e p then s.receive p else s.deliver p
/-- The angle at which a phase reference left, as this module's shaft was (R114, R350): `ns` on the way. -/
def State.angleBefore (s : State) (ns : Nat) : Nat :=
  if s.spn.period = 0 then s.atb.ac.toNat else angSub s.atb.ac.toNat (ns * revAC / s.spn.period % revAC)
/-- A broadcast packet (R330, R350): taken and flooded when it is newer than the last of its source and instance. A phase
reference takes on the link's delay and the time spent here, a free value. -/
def State.takeBroadcast (s : State) (inp : Option (Fin 5)) (p : Pkt) : State :=
  let key := p.src.toNat * 65536 + p.inst.toNat
  let old := match tget none s.fab.bseen key with | some x => !newer p.seq x.2 | none => false
  if old || (p.inst == s.fab.inst && p.src == (if s.fab.noaddr then 0 else s.fab.addr)) then s.discard
  else
    let s : State := { s with fab.bseen := tset s.fab.bseen key (some (p.inst, p.seq)) }
    let way := match inp with | some n => (s.port n.val).delay | none => 0
    let corr := leAt p.payload 4 4
    let on : Pkt := if p.ptype = 0x12 then
        { p with ttl := p.ttl - 1, payload := p.payload.take 4 ++ leBytes 4 (corr + way + Config.freeNat s.free) }
      else { p with ttl := p.ttl - 1 }
    let s := if p.ttl.toNat ≤ 1 then s.discard else s.draw.flood inp on
    if s.pwr.st = .dark ∧ !darkType p.ptype.toNat then s
    else match p.ptype.toNat with
      | 0x10 => s.gotLsa (lsaOf p.payload)
      | 0x11 =>
        let d := BitVec.ofNat 12 (leAt p.payload 0 2)
        if s.isMine d then s else s.gotTakeover d (BitVec.ofNat 12 (leAt p.payload 2 2))
      | 0x12 => if s.inShelf p.src then s.gotPhaseRef (leAt p.payload 0 2) (s.angleBefore (corr + way)) else s
      | _ => s
/-- A packet that has arrived whole: taken, flooded, forwarded or discarded (R329 to R332). -/
def State.takePkt (s : State) (inp : Option (Fin 5)) (p : Pkt) : State :=
  let t := p.ptype.toNat
  if !knownType t then s.discard
  else if bitOf p.flags.toNat 1 then s.takeBroadcast inp p
  else if s.isMine p.dst then s.takeMine p
  else if s.fab.noaddr && p.dst == 0 then (if decide (0x30 ≤ t) && decide (t ≤ 0x32) then s.deliver p else s.discard)
  else if p.ttl.toNat ≤ 1 then s.discard
  else s.forward inp { p with ttl := p.ttl - 1 }

/-! ### Sequenced packets of a link (R324, R325, R328) -/

/-- The receiver asks for a replay, once until the expected packet comes or a HEARTBEAT interval passes (R324). -/
def State.nak (s : State) (n : Fin 5) : State :=
  if (s.port n.val).naked then s else (s.modPort n.val (fun q => { q with naked := true })).ctlSend n 2 true []
/-- LINK_PACKET (R324, R325, R328). -/
def execLinkPacket (port : Fin 5) (h : LinkHdr) (crc : LCrc) (p : Pkt) (s : State) : Result :=
  .next (if (s.port port.val).st ≠ .up then s
    else match crc with
      | .inverted => s
      | .bad => s.nak port
      | .good =>
        let s := s.takeHdr port h
        if h.lseq ≠ (s.port port.val).rxSeq then s.nak port
        else
          let v := h.vc.toNat
          (s.modPort port.val (fun q => { q with
            rxSeq := q.rxSeq + 1, naked := false, freed := tset q.freed v (tget 0 q.freed v + pktUnits p) })).takePkt (some port) p)

/-! ### What waits for a takeover (R340, R363) -/

/-- Packets for the address taken over are taken locally (R340). -/
def State.takeWaiting (s : State) : State :=
  if !s.fab.takeover then s
  else
    let l := s.fab.partnerWait
    l.foldl (fun (s : State) p => s.takePkt none p) { s with fab.partnerWait := [] }
/-- HANDOVER_N_FALL (R340, R362, R363). -/
def execHandoverNFall (byEnclosure : Bool) (s : State) : Result := .next (s.handoverFalls byEnclosure).takeWaiting
/-- OWN_PEER_RELEASE_TIMEOUT (R340, R362). -/
def execOwnPeerReleaseTimeout (s : State) : Result := .next s.peerReleased.takeWaiting

end Sys2Proof.Machine
end

