-- ==== Sys2Proof/Machine/IndexRow.lean ====
section
/-! DEFINITION. The index event (R9, R29): what the part does as the shaft angle wraps. -/
namespace Sys2Proof.Machine

open Sys2Proof

/-- Does a slot of channel `n` execute past the index (R33)? Asked before the banks switch. -/
def State.runsPast (s : State) (n : Nat) : Bool := (s.bank (s.activeKey n)).any (fun sl => sl.st == .executing)

/-- Classes that had frozen work and no slot in the revolution that begins count one more revolution; one that was served
starts again (R22). -/
def State.countUnserved (s : State) : State :=
  if s.rpl.planning ≠ some s.atb.rev then s
  else
    let num := fun (c : WorkClass) => match c with | .host => 0 | .recovery => 1 | .parity => 2 | .selftest => 3
    [WorkClass.host, .recovery, .parity, .selftest].foldl (fun (s : State) c =>
      (List.range 4).foldl (fun (s : State) a =>
        let ws := s.rpl.work.filter (fun w => w.cls == c && w.act.val == a && s.rpl.frozen.contains w.num)
        let k := 4 * a + num c
        let n := if ws = [] ∨ ws.any (·.placed) then 0 else tget 0 s.rpl.unserved k + 1
        { s with rpl.unserved := tset s.rpl.unserved k n }) s) s

/-- Every channel switches to its pending bank (R29): what has not started in the old bank is discarded as WASTED; a bank
that was not committed is empty. -/
def State.switchBanks (s : State) : State :=
  let s := (List.range 16).foldl (fun (s : State) n => s.endWhere (s.activeKey n) Slot.unstarted .wasted) s
  let s := s.endWhere (maintKey (s.ctx 4).bank) Slot.unstarted .wasted
  let s := (List.range 16).foldl (fun (s : State) n =>
    if tget false s.seq.committed n then s else s.setBank (s.pendKey n) []) s
  let s := s.setBank (maintKey !(s.ctx 4).bank) []
  let s := (List.range 5).foldl (fun (s : State) n => s.modCtx n (fun c => { c with bank := !c.bank })) s
  { s with
    seq.committed := []
    rpl.waiting := s.rpl.waiting.filter (fun w => w.2.1 == (s.ctx (w.1 / 4)).bank) }

/-- Heaters of heads that had slots and have none in the new revolution go off, and every head waits for its first slot's BIAS
and heater code (R126). -/
def State.heatersOff (s : State) : State :=
  (List.finRange 4).foldl (fun (s : State) a =>
    let has := fun (h : Fin 64) => (List.range 4).any (fun p => (s.bank (s.activeKey (4 * a.val + p))).any (fun sl =>
      slotHead sl.e a.val == h.val))
    let s := ((s.act a.val).biased.filter (fun h => !has h)).foldl (fun (s : State) h => s.palSend a (s.headPos h.val) 2 0) s
    s.modAct a.val (fun x => { x with biased := [] })) s

/-- Requested parks begin where the new active bank holds no slot (R96). -/
def State.parksDue (s : State) : State :=
  (List.range 4).foldl (fun (s : State) a =>
    if (s.act a).parkPend && (List.range 4).all (fun p => (s.bank (s.activeKey (4 * a + p))).isEmpty) then s.parkNow a else s) s

/-- Contexts whose fence has been released run INIT; the maintenance context is idle (R405). -/
def State.initsDue (s : State) : State :=
  (List.range 5).foldl (fun (s : State) n =>
    if !(s.ctx n).initPend then s
    else
      let s := s.modCtx n (fun c => { c with initPend := false, st := if c.st = .fenced then .idle else c.st })
      if n = 4 then s else s.runInit n) s

/-- A revolution of every recovery entry ends: an entry whose level has spent its budget fails it once nothing of it is planned
(R171). -/
def State.recRevs (s : State) : State :=
  let es := (List.range 4).flatMap (fun a => s.recList a)
  let s := es.foldl (fun (s : State) e => s.modRec e.act e.num (fun e => { e with inRev := false })) s
  es.foldl (fun (s : State) e => match s.recNum e.act e.num with
    | some e => if 1 ≤ e.level then s.budgetEnd e else s
    | none => s) s

/-- The revolution's mean of each head that followed joins its live correction, the mean of the last 64; past one track, event
0x2007 (R92). -/
def State.liveMeans (s : State) : State :=
  s.srv.heads.foldl (fun (s : State) e =>
    let h := e.1
    let x := s.head h
    if x.cnt = 0 then s
    else
      let m := (roundDiv x.sum x.cnt :: x.means).take 64
      let l := roundDiv (m.foldl (· + ·) 0) m.length
      let s := s.modHead h (fun x => { x with means := m, live := l, sum := 0, cnt := 0 })
      if 4096 < l.natAbs then s.event 0x2007 2 [h, toTwos 32 l, s.headTrack (h / 16)] else s) s

/-- The revolution's period is measured against the target (R106); nanoseconds. -/
def State.periodIs (s : State) (period : Nat) : State :=
  let s : State := { s with spn.period := period }
  let m := s.speedIs period
  if s.spn.st = .locked then
    { s with spn.reg := m.1, spn.offCnt := if m.2 then s.spn.offCnt + 1 else 0 }
  else s

/-- INDEX (R9, R11, R20, R22, R29, R31 to R33, R92, R96, R99, R106, R126, R142, R171, R405): the wrap of the shaft angle. It does
not come while the ATB is STOPPED or in ACQUIRE. -/
def execIndex (period : Nat) (s : State) : Result :=
  if !s.spinning then .next s
  else
    let past := (List.range 16).filter s.runsPast
    let s := ({ s with atb.ac := 0, atb.rev := s.atb.rev + 1 } : State).count 188 1
    let s := s.countUnserved.switchBanks
    let s := s.applyStaged (fun g => !past.any (fun n => g.ofCh n))
    let s := ((List.range 16).foldl (fun (s : State) n => s.chIndex n) s.heatersOff).initsDue
    let s := (s.parksDue.periodIs period).liveMeans
    let s := if s.srv.sswBusy ∧ s.srv.sswStop = 15 then s.sswEnd 3 else s
    .next s.recRevs.settle

end Sys2Proof.Machine
end

