-- ==== Sys2Proof/Machine/Dispatch.lean ====
section
/-! DEFINITION. One arm per command: a direct call of its meaning, or a rejection by name. -/
namespace Sys2Proof.Machine

open Sys2Proof

/-- The effect of a command on everything but the queue. -/
def exec (i : Instr) (s : State) : Host.Outcome State Fault Refusal :=
  match i with
  | .index period => Sys2Proof.Machine.execIndex period s
  | .angleWord head w => Sys2Proof.Machine.execAngleWord head w s
  | .coastEntry => Sys2Proof.Machine.execCoastEntry s
  | .coastMaxExpiry => Sys2Proof.Machine.execCoastMaxExpiry s
  | .atbNowAcRead => Sys2Proof.Machine.execAtbNowAcRead s
  | .seqCtxRead ctx => Sys2Proof.Machine.execSeqCtxRead ctx s
  | .evrStatusRead => Sys2Proof.Machine.execEvrStatusRead s
  | .cutoff => Sys2Proof.Machine.execCutoff s
  | .rplCommit act plan => Sys2Proof.Machine.execRplCommit act plan s
  | .slotDeadline act start => Sys2Proof.Machine.execSlotDeadline act start s
  | .bufferGrant ch bank idx => Sys2Proof.Machine.execBufferGrant ch bank idx s
  | .completionPulse n => Sys2Proof.Machine.execCompletionPulse n s
  | .slotStart ch idx => Sys2Proof.Machine.execSlotStart ch idx s
  | .slotEnd ch idx => Sys2Proof.Machine.execSlotEnd ch idx s
  | .registerWrite w off data => Sys2Proof.Machine.execRegisterWrite w off data s
  | .systemDirectoryLoad found => Sys2Proof.Machine.execSystemDirectoryLoad found s
  | .sysrecStage via ofs bytes => Sys2Proof.Machine.execSysrecStage via ofs bytes s
  | .sysrecCommit via cp2 len => Sys2Proof.Machine.execSysrecCommit via cp2 len s
  | .sysrecWritten ok => Sys2Proof.Machine.execSysrecWritten ok s
  | .sysrecRead via cp2 ofs count => Sys2Proof.Machine.execSysrecRead via cp2 ofs count s
  | .pesSample head a1 a2 => Sys2Proof.Machine.execPesSample head a1 a2 s
  | .vcmUpdate act => Sys2Proof.Machine.execVcmUpdate act s
  | .offTrack head => Sys2Proof.Machine.execOffTrack head s
  | .seekArrival act => Sys2Proof.Machine.execSeekArrival act s
  | .shockAssert => Sys2Proof.Machine.execShockAssert s
  | .shockHoldExpiry => Sys2Proof.Machine.execShockHoldExpiry s
  | .actParkCmd w act => Sys2Proof.Machine.execActParkCmd w act s
  | .actUnparkCmd w act => Sys2Proof.Machine.execActUnparkCmd w act s
  | .unparkTimeout act => Sys2Proof.Machine.execUnparkTimeout act s
  | .unparkRetry act => Sys2Proof.Machine.execUnparkRetry act s
  | .sswSeedCheck w act => Sys2Proof.Machine.execSswSeedCheck w act s
  | .sswPropagate w act => Sys2Proof.Machine.execSswPropagate w act s
  | .sswVerify w act => Sys2Proof.Machine.execSswVerify w act s
  | .sswCalibrate w act => Sys2Proof.Machine.execSswCalibrate w act s
  | .sswPause w act => Sys2Proof.Machine.execSswPause w act s
  | .sswAbort w act => Sys2Proof.Machine.execSswAbort w act s
  | .sswDone ok rec skips => Sys2Proof.Machine.execSswDone ok rec skips s
  | .spinTick => Sys2Proof.Machine.execSpinTick s
  | .isense frame => Sys2Proof.Machine.execIsense frame s
  | .vsense frame => Sys2Proof.Machine.execVsense frame s
  | .mdlStatus frame => Sys2Proof.Machine.execMdlStatus frame s
  | .mdlLost => Sys2Proof.Machine.execMdlLost s
  | .preheatTick => Sys2Proof.Machine.execPreheatTick s
  | .preheatTimeout => Sys2Proof.Machine.execPreheatTimeout s
  | .alignDone => Sys2Proof.Machine.execAlignDone s
  | .speedLock period => Sys2Proof.Machine.execSpeedLock period s
  | .spinupTimeout lock => Sys2Proof.Machine.execSpinupTimeout lock s
  | .spinupRetry => Sys2Proof.Machine.execSpinupRetry s
  | .speedLockLoss => Sys2Proof.Machine.execSpeedLockLoss s
  | .brakeDone => Sys2Proof.Machine.execBrakeDone s
  | .speedChangeDone => Sys2Proof.Machine.execSpeedChangeDone s
  | .tokenRequestRepeat => Sys2Proof.Machine.execTokenRequestRepeat s
  | .tokenReturnTimer => Sys2Proof.Machine.execTokenReturnTimer s
  | .tokenLeaseExpiry slot => Sys2Proof.Machine.execTokenLeaseExpiry slot s
  | .bossHoldExpiry => Sys2Proof.Machine.execBossHoldExpiry s
  | .soloWaitExpiry => Sys2Proof.Machine.execSoloWaitExpiry s
  | .phaseRefSend => Sys2Proof.Machine.execPhaseRefSend s
  | .phaseRefLoss => Sys2Proof.Machine.execPhaseRefLoss s
  | .pfailAssert => Sys2Proof.Machine.execPfailAssert s
  | .pfailDeassert => Sys2Proof.Machine.execPfailDeassert s
  | .pfailRecover => Sys2Proof.Machine.execPfailRecover s
  | .tempSample t => Sys2Proof.Machine.execTempSample t s
  | .readBlockEnd ch bank idx r => Sys2Proof.Machine.execReadBlockEnd ch bank idx r s
  | .verifyResult ch bank idx r => Sys2Proof.Machine.execVerifyResult ch bank idx r s
  | .l1Done act ok info => Sys2Proof.Machine.execL1Done act ok info s
  | .chFenceReq w ch on => Sys2Proof.Machine.execChFenceReq w ch on s
  | .chBistMemory w ch => Sys2Proof.Machine.execChBistMemory w ch s
  | .chBistAdc w ch => Sys2Proof.Machine.execChBistAdc w ch s
  | .chBistLoopback w ch => Sys2Proof.Machine.execChBistLoopback w ch s
  | .chBistDecoder w ch => Sys2Proof.Machine.execChBistDecoder w ch s
  | .chBistAll w ch => Sys2Proof.Machine.execChBistAll w ch s
  | .chBistAbort w ch => Sys2Proof.Machine.execChBistAbort w ch s
  | .chBistDone ch failed => Sys2Proof.Machine.execChBistDone ch failed s
  | .groupDispatch ctx => Sys2Proof.Machine.execGroupDispatch ctx s
  | .harvest ctx => Sys2Proof.Machine.execHarvest ctx s
  | .trap ctx => Sys2Proof.Machine.execTrap ctx s
  | .nop ctx => Sys2Proof.Machine.execNop ctx s
  | .issue ctx => Sys2Proof.Machine.execIssue ctx s
  | .issuew ctx => Sys2Proof.Machine.execIssuew ctx s
  | .issuewAck ctx => Sys2Proof.Machine.execIssuewAck ctx s
  | .issuewTimeout ctx => Sys2Proof.Machine.execIssuewTimeout ctx s
  | .holdExpiry ctx => Sys2Proof.Machine.execHoldExpiry ctx s
  | .waita ctx => Sys2Proof.Machine.execWaita ctx s
  | .waitaReached ctx => Sys2Proof.Machine.execWaitaReached ctx s
  | .waitc ctx => Sys2Proof.Machine.execWaitc ctx s
  | .waitcMet ctx => Sys2Proof.Machine.execWaitcMet ctx s
  | .waitcTimeout ctx => Sys2Proof.Machine.execWaitcTimeout ctx s
  | .br ctx => Sys2Proof.Machine.execBr ctx s
  | .jmp ctx => Sys2Proof.Machine.execJmp ctx s
  | .callOp ctx => Sys2Proof.Machine.execCallOp ctx s
  | .ret ctx => Sys2Proof.Machine.execRet ctx s
  | .loopOp ctx => Sys2Proof.Machine.execLoopOp ctx s
  | .ldc ctx => Sys2Proof.Machine.execLdc ctx s
  | .setf ctx => Sys2Proof.Machine.execSetf ctx s
  | .clrf ctx => Sys2Proof.Machine.execClrf ctx s
  | .evt ctx => Sys2Proof.Machine.execEvt ctx s
  | .trapret ctx => Sys2Proof.Machine.execTrapret ctx s
  | .halt ctx => Sys2Proof.Machine.execHalt ctx s
  | .microcodeBoot primary alternate => Sys2Proof.Machine.execMicrocodeBoot primary alternate s
  | .microcodeInstall => Sys2Proof.Machine.execMicrocodeInstall s
  | .reconstructDone act => Sys2Proof.Machine.execReconstructDone act s
  | .xtpFenceReq w on => Sys2Proof.Machine.execXtpFenceReq w on s
  | .chunkCompressDone k deflated => Sys2Proof.Machine.execChunkCompressDone k deflated s
  | .cmpOutputResume k => Sys2Proof.Machine.execCmpOutputResume k s
  | .cryUnitDone lane => Sys2Proof.Machine.execCryUnitDone lane s
  | .decompressDone k => Sys2Proof.Machine.execDecompressDone k s
  | .cmpFenceReq w mask => Sys2Proof.Machine.execCmpFenceReq w mask s
  | .cryFenceReq w mask => Sys2Proof.Machine.execCryFenceReq w mask s
  | .commitRecordWrite csec ok1 ok2 => Sys2Proof.Machine.execCommitRecordWrite csec ok1 ok2 s
  | .checkpointDone => Sys2Proof.Machine.execCheckpointDone s
  | .copyInPlaceDone csec => Sys2Proof.Machine.execCopyInPlaceDone csec s
  | .journalReplay partner => Sys2Proof.Machine.execJournalReplay partner s
  | .bufInitDone => Sys2Proof.Machine.execBufInitDone s
  | .sheepdogStep syn partnerOk => Sys2Proof.Machine.execSheepdogStep syn partnerOk s
  | .sheepdogRewrite idx => Sys2Proof.Machine.execSheepdogRewrite idx s
  | .dmaBurst syn => Sys2Proof.Machine.execDmaBurst syn s
  | .dmaPauseWrite w mask => Sys2Proof.Machine.execDmaPauseWrite w mask s
  | .dmaPauseDrained n => Sys2Proof.Machine.execDmaPauseDrained n s
  | .mapFillDone line syn => Sys2Proof.Machine.execMapFillDone line syn s
  | .mapClean w => Sys2Proof.Machine.execMapClean w s
  | .mapCleanInv w => Sys2Proof.Machine.execMapCleanInv w s
  | .mapZero w => Sys2Proof.Machine.execMapZero w s
  | .mapLockFill w => Sys2Proof.Machine.execMapLockFill w s
  | .mapCleanAll w => Sys2Proof.Machine.execMapCleanAll w s
  | .mapCleanInvAll w => Sys2Proof.Machine.execMapCleanInvAll w s
  | .mapMaintDone => Sys2Proof.Machine.execMapMaintDone s
  | .mapDisable w => Sys2Proof.Machine.execMapDisable w s
  | .mapDisableDone => Sys2Proof.Machine.execMapDisableDone s
  | .bufDiagWrite w v => Sys2Proof.Machine.execBufDiagWrite w v s
  | .locatorIndexBuildDone zone ok locs => Sys2Proof.Machine.execLocatorIndexBuildDone zone ok locs s
  | .perstAssert => Sys2Proof.Machine.execPerstAssert s
  | .perstDeassert => Sys2Proof.Machine.execPerstDeassert s
  | .functionLevelReset => Sys2Proof.Machine.execFunctionLevelReset s
  | .hotReset => Sys2Proof.Machine.execHotReset s
  | .hqiEnable w => Sys2Proof.Machine.execHqiEnable w s
  | .hqiDisable w => Sys2Proof.Machine.execHqiDisable w s
  | .gwEnable w => Sys2Proof.Machine.execGwEnable w s
  | .gwDisable w => Sys2Proof.Machine.execGwDisable w s
  | .gwPollPass => Sys2Proof.Machine.execGwPollPass s
  | .summaryReadDone words => Sys2Proof.Machine.execSummaryReadDone words s
  | .summarySwapDone word old => Sys2Proof.Machine.execSummarySwapDone word old s
  | .swapTimeout status => Sys2Proof.Machine.execSwapTimeout status s
  | .doorbellPageReadDone page => Sys2Proof.Machine.execDoorbellPageReadDone page s
  | .descriptorReadDone qp entries => Sys2Proof.Machine.execDescriptorReadDone qp entries s
  | .completionPost => Sys2Proof.Machine.execCompletionPost s
  | .cqFullPoll => Sys2Proof.Machine.execCqFullPoll s
  | .holdTimeout qp tag => Sys2Proof.Machine.execHoldTimeout qp tag s
  | .identify tag => Sys2Proof.Machine.execIdentify tag s
  | .createQp tag => Sys2Proof.Machine.execCreateQp tag s
  | .deleteQp tag => Sys2Proof.Machine.execDeleteQp tag s
  | .getLog tag => Sys2Proof.Machine.execGetLog tag s
  | .getCounters tag => Sys2Proof.Machine.execGetCounters tag s
  | .setRights tag => Sys2Proof.Machine.execSetRights tag s
  | .abortCmd tag => Sys2Proof.Machine.execAbortCmd tag s
  | .selfTestShort tag => Sys2Proof.Machine.execSelfTestShort tag s
  | .selfTestExtended tag => Sys2Proof.Machine.execSelfTestExtended tag s
  | .selfTestAbort tag => Sys2Proof.Machine.execSelfTestAbort tag s
  | .setPowerState tag => Sys2Proof.Machine.execSetPowerState tag s
  | .domainsOff tag => Sys2Proof.Machine.execDomainsOff tag s
  | .domainsOn tag => Sys2Proof.Machine.execDomainsOn tag s
  | .domainSwitchDone => Sys2Proof.Machine.execDomainSwitchDone s
  | .powerPark tag => Sys2Proof.Machine.execPowerPark tag s
  | .powerUnpark tag => Sys2Proof.Machine.execPowerUnpark tag s
  | .spinUp tag => Sys2Proof.Machine.execSpinUp tag s
  | .spinDown tag => Sys2Proof.Machine.execSpinDown tag s
  | .locateOn tag => Sys2Proof.Machine.execLocateOn tag s
  | .locateOff tag => Sys2Proof.Machine.execLocateOff tag s
  | .safeRemovalRequest tag => Sys2Proof.Machine.execSafeRemovalRequest tag s
  | .safeRemovalCancel tag => Sys2Proof.Machine.execSafeRemovalCancel tag s
  | .microcodeLoad tag image => Sys2Proof.Machine.execMicrocodeLoad tag image s
  | .sanitizeCryptoEraseAll tag => Sys2Proof.Machine.execSanitizeCryptoEraseAll tag s
  | .sanitizeCryptoEraseRange tag => Sys2Proof.Machine.execSanitizeCryptoEraseRange tag s
  | .sanitizeOverwrite tag => Sys2Proof.Machine.execSanitizeOverwrite tag s
  | .fabricQuery tag => Sys2Proof.Machine.execFabricQuery tag s
  | .readBlocks qp tag => Sys2Proof.Machine.execReadBlocks qp tag s
  | .verifyBlocks qp tag => Sys2Proof.Machine.execVerifyBlocks qp tag s
  | .zoneWrite qp tag => Sys2Proof.Machine.execZoneWrite qp tag s
  | .zoneAppend qp tag => Sys2Proof.Machine.execZoneAppend qp tag s
  | .zoneOpen qp tag => Sys2Proof.Machine.execZoneOpen qp tag s
  | .zoneClose qp tag => Sys2Proof.Machine.execZoneClose qp tag s
  | .zoneFinish qp tag => Sys2Proof.Machine.execZoneFinish qp tag s
  | .zoneReset qp tag => Sys2Proof.Machine.execZoneReset qp tag s
  | .zoneOffline qp tag => Sys2Proof.Machine.execZoneOffline qp tag s
  | .zoneReport qp tag => Sys2Proof.Machine.execZoneReport qp tag s
  | .flush qp tag => Sys2Proof.Machine.execFlush qp tag s
  | .peerMove qp tag => Sys2Proof.Machine.execPeerMove qp tag s
  | .convRead qp tag => Sys2Proof.Machine.execConvRead qp tag s
  | .convWrite qp tag => Sys2Proof.Machine.execConvWrite qp tag s
  | .authChallenge via => Sys2Proof.Machine.execAuthChallenge via s
  | .authResponse via role cid sig => Sys2Proof.Machine.execAuthResponse via role cid sig s
  | .authEnd via sess => Sys2Proof.Machine.execAuthEnd via sess s
  | .authSetKey via role cid key sig => Sys2Proof.Machine.execAuthSetKey via role cid key sig s
  | .integrate via key => Sys2Proof.Machine.execIntegrate via key s
  | .claim via key cid sig => Sys2Proof.Machine.execClaim via key cid sig s
  | .returnLifecycle via => Sys2Proof.Machine.execReturnLifecycle via s
  | .decommission via => Sys2Proof.Machine.execDecommission via s
  | .consent via seconds => Sys2Proof.Machine.execConsent via seconds s
  | .commitSvn via firmware => Sys2Proof.Machine.execCommitSvn via firmware s
  | .keysCreate via range autolock => Sys2Proof.Machine.execKeysCreate via range autolock s
  | .keysLock via range => Sys2Proof.Machine.execKeysLock via range s
  | .keysUnlock via range => Sys2Proof.Machine.execKeysUnlock via range s
  | .keysDestroy via range => Sys2Proof.Machine.execKeysDestroy via range s
  | .keysSetConv via range => Sys2Proof.Machine.execKeysSetConv via range s
  | .keysQuery via => Sys2Proof.Machine.execKeysQuery via s
  | .peercertAnchor via key => Sys2Proof.Machine.execPeercertAnchor via key s
  | .peercertDeviceKey via => Sys2Proof.Machine.execPeercertDeviceKey via s
  | .peercertCert via cert => Sys2Proof.Machine.execPeercertCert via cert s
  | .firmwareChunk via ofs bytes => Sys2Proof.Machine.execFirmwareChunk via ofs bytes s
  | .firmwareFinish via good fsvn keySlot => Sys2Proof.Machine.execFirmwareFinish via good fsvn keySlot s
  | .mailboxGo w => Sys2Proof.Machine.execMailboxGo w s
  | .mailboxRelease w => Sys2Proof.Machine.execMailboxRelease w s
  | .mailboxTimeout => Sys2Proof.Machine.execMailboxTimeout s
  | .sessionIdleTimeout sess => Sys2Proof.Machine.execSessionIdleTimeout sess s
  | .challengeExpiry chan src => Sys2Proof.Machine.execChallengeExpiry chan src s
  | .consentExpiry => Sys2Proof.Machine.execConsentExpiry s
  | .lockoutExpiry role => Sys2Proof.Machine.execLockoutExpiry role s
  | .entropyHealthFail => Sys2Proof.Machine.execEntropyHealthFail s
  | .portTrained port => Sys2Proof.Machine.execPortTrained port s
  | .trainingTimeout port => Sys2Proof.Machine.execTrainingTimeout port s
  | .helloTick port => Sys2Proof.Machine.execHelloTick port s
  | .hello port nodeId addr nport pairState inst => Sys2Proof.Machine.execHello port nodeId addr nport pairState inst s
  | .heartbeatTick => Sys2Proof.Machine.execHeartbeatTick s
  | .heartbeat port h => Sys2Proof.Machine.execHeartbeat port h s
  | .delayTick => Sys2Proof.Machine.execDelayTick s
  | .delayReq port t1 t2 => Sys2Proof.Machine.execDelayReq port t1 t2 s
  | .delayResp port t1 t2 t3 t4 => Sys2Proof.Machine.execDelayResp port t1 t2 t3 t4 s
  | .linkPacket port h crc p => Sys2Proof.Machine.execLinkPacket port h crc p s
  | .linkNak port h => Sys2Proof.Machine.execLinkNak port h s
  | .ackTimeout port => Sys2Proof.Machine.execAckTimeout port s
  | .portDown port cause => Sys2Proof.Machine.execPortDown port cause s
  | .partnerWaitExpiry => Sys2Proof.Machine.execPartnerWaitExpiry s
  | .upHoldExpiry port => Sys2Proof.Machine.execUpHoldExpiry port s
  | .lsaTick => Sys2Proof.Machine.execLsaTick s
  | .lsa port l => Sys2Proof.Machine.execLsa port l s
  | .lsaExpiry addr nodeId => Sys2Proof.Machine.execLsaExpiry addr nodeId s
  | .routeCompute => Sys2Proof.Machine.execRouteCompute s
  | .routeInstallDone => Sys2Proof.Machine.execRouteInstallDone s
  | .takeover taken survivor => Sys2Proof.Machine.execTakeover taken survivor s
  | .phaseRef src rpm angleAtArrival => Sys2Proof.Machine.execPhaseRef src rpm angleAtArrival s
  | .tokenReq src shelf slot held => Sys2Proof.Machine.execTokenReq src shelf slot held s
  | .tokenGrant src => Sys2Proof.Machine.execTokenGrant src s
  | .tokenReturn src shelf slot held => Sys2Proof.Machine.execTokenReturn src shelf slot held s
  | .ledgerQuery src => Sys2Proof.Machine.execLedgerQuery src s
  | .ledgerHeld src slot held => Sys2Proof.Machine.execLedgerHeld src slot held s
  | .dbHint src => Sys2Proof.Machine.execDbHint src s
  | .rmaRead src addr len rtag => Sys2Proof.Machine.execRmaRead src addr len rtag s
  | .gwPcieReadDone src rtag status ofs last data => Sys2Proof.Machine.execGwPcieReadDone src rtag status ofs last data s
  | .rmaWrite src addr data => Sys2Proof.Machine.execRmaWrite src addr data s
  | .rmaIrq src vector => Sys2Proof.Machine.execRmaIrq src vector s
  | .rmaRdata src rtag status last ofs data => Sys2Proof.Machine.execRmaRdata src rtag status last ofs data s
  | .e2eAck src seq => Sys2Proof.Machine.execE2eAck src seq s
  | .e2eRetxTimeout dst => Sys2Proof.Machine.execE2eRetxTimeout dst s
  | .gwRetryTick => Sys2Proof.Machine.execGwRetryTick s
  | .gwHoldExpiry => Sys2Proof.Machine.execGwHoldExpiry s
  | .mgmtRd src off len => Sys2Proof.Machine.execMgmtRd src off len s
  | .mgmtWr src sess off data => Sys2Proof.Machine.execMgmtWr src sess off data s
  | .mgmtRsp src status data => Sys2Proof.Machine.execMgmtRsp src status data s
  | .pmOpen src sess cp1 cp2 flags pub cert sig => Sys2Proof.Machine.execPmOpen src sess cp1 cp2 flags pub cert sig s
  | .pmAccept src sess pub cert sig => Sys2Proof.Machine.execPmAccept src sess pub cert sig s
  | .pmData src sess pno ct tag => Sys2Proof.Machine.execPmData src sess pno ct tag s
  | .pmDone src sess blocks status lba => Sys2Proof.Machine.execPmDone src sess blocks status lba s
  | .pmRefuse src sess status => Sys2Proof.Machine.execPmRefuse src sess status s
  | .pmSessionTimeout sess => Sys2Proof.Machine.execPmSessionTimeout sess s
  | .portFenceReq w port on => Sys2Proof.Machine.execPortFenceReq w port on s
  | .canaryTick => Sys2Proof.Machine.execCanaryTick s
  | .canaryWindow l0 l1 => Sys2Proof.Machine.execCanaryWindow l0 l1 s
  | .handoverNFall byEnclosure => Sys2Proof.Machine.execHandoverNFall byEnclosure s
  | .ownPeerReleaseTimeout => Sys2Proof.Machine.execOwnPeerReleaseTimeout s
  | .sideBPowerupTimeout => Sys2Proof.Machine.execSideBPowerupTimeout s
  | .ownCheck peerLow => Sys2Proof.Machine.execOwnCheck peerLow s
  | .handoverPullRelease => Sys2Proof.Machine.execHandoverPullRelease s
  | .takeoverSendAsDrive posted => Sys2Proof.Machine.execTakeoverSendAsDrive posted s
  | .takeoverRebuildDone => Sys2Proof.Machine.execTakeoverRebuildDone s
  | .pairAck pack => Sys2Proof.Machine.execPairAck pack s
  | .alignFrame pseq rev acts => Sys2Proof.Machine.execAlignFrame pseq rev acts s
  | .selectFrame pseq act hs trk tpos heads => Sys2Proof.Machine.execSelectFrame pseq act hs trk tpos heads s
  | .pairData pseq addr bytes => Sys2Proof.Machine.execPairData pseq addr bytes s
  | .jrnl pseq rec => Sys2Proof.Machine.execJrnl pseq rec s
  | .qstate pseq c => Sys2Proof.Machine.execQstate pseq c s
  | .cfgFrame pseq off v => Sys2Proof.Machine.execCfgFrame pseq off v s
  | .snapshotFrame pseq mark => Sys2Proof.Machine.execSnapshotFrame pseq mark s
  | .pairFrameRetry => Sys2Proof.Machine.execPairFrameRetry s
  | .alignSend => Sys2Proof.Machine.execAlignSend s
  | .alignLate => Sys2Proof.Machine.execAlignLate s
  | .yield w => Sys2Proof.Machine.execYield w s
  | .yieldHandover => Sys2Proof.Machine.execYieldHandover s
  | .faultRaise src => Sys2Proof.Machine.execFaultRaise src s
  | .fltStatusClear w k v => Sys2Proof.Machine.execFltStatusClear w k v s
  | .faultPinPulseEnd => Sys2Proof.Machine.execFaultPinPulseEnd s
  | .maskWindowEnd unit => Sys2Proof.Machine.execMaskWindowEnd unit s
  | .evrRecordWritten ok => Sys2Proof.Machine.execEvrRecordWritten ok s
  | .auditCopyDone => Sys2Proof.Machine.execAuditCopyDone s
  | .reserveCopyDone => Sys2Proof.Machine.execReserveCopyDone s
  | .pmcSnapTake w => Sys2Proof.Machine.execPmcSnapTake w s
  | .pmcPreset w v => Sys2Proof.Machine.execPmcPreset w v s
  | .partReset => Sys2Proof.Machine.execPartReset s
  | .partResetWrite w => Sys2Proof.Machine.execPartResetWrite w s
  | .aonReady loc pairPrsntN pairSide ownPeerN => Sys2Proof.Machine.execAonReady loc pairPrsntN pairSide ownPeerN s
  | .readyBoundExpiry bit => Sys2Proof.Machine.execReadyBoundExpiry bit s
  | .idleTimeout => Sys2Proof.Machine.execIdleTimeout s
  | .darkEntry => Sys2Proof.Machine.execDarkEntry s
  | .darkWake w => Sys2Proof.Machine.execDarkWake w s
  | .attnRelease ms => Sys2Proof.Machine.execAttnRelease ms s
  | .attnLongPress => Sys2Proof.Machine.execAttnLongPress s
  | .locateTimeout => Sys2Proof.Machine.execLocateTimeout s
  | .removalSafe => Sys2Proof.Machine.execRemovalSafe s
  | .prepTimeout => Sys2Proof.Machine.execPrepTimeout s
  | .latchRise => Sys2Proof.Machine.execLatchRise s
  | .prsntRise => Sys2Proof.Machine.execPrsntRise s
  | .surpriseEnd => Sys2Proof.Machine.execSurpriseEnd s
  | .genSave w => Sys2Proof.Machine.execGenSave w s
  | .genClear w => Sys2Proof.Machine.execGenClear w s
  | .saveDone ok => Sys2Proof.Machine.execSaveDone ok s
  | .smbWrite off data pec => Sys2Proof.Machine.execSmbWrite off data pec s
  | .smbSetRead off len pec => Sys2Proof.Machine.execSmbSetRead off len pec s
  | .smbRead pec => Sys2Proof.Machine.execSmbRead pec s
  | .smbStatus pec => Sys2Proof.Machine.execSmbStatus pec s
  | .palAck act frame => Sys2Proof.Machine.execPalAck act frame s
  | .palStatus act frame => Sys2Proof.Machine.execPalStatus act frame s
  | .palAckTimeout act pos => Sys2Proof.Machine.execPalAckTimeout act pos s
  | .pcieLinkUp gen width => Sys2Proof.Machine.execPcieLinkUp gen width s
  | .pcieLinkDown => Sys2Proof.Machine.execPcieLinkDown s
  | .hostDataReadDone qp tag data => Sys2Proof.Machine.execHostDataReadDone qp tag data s
  | .powerUpSelfTests fwOk katOk laneOk => Sys2Proof.Machine.execPowerUpSelfTests fwOk katOk laneOk s
  | .partResetDelayExpiry => Sys2Proof.Machine.execPartResetDelayExpiry s

end Sys2Proof.Machine
end

