-- ==== Sys2Proof/Machine/Tick.lean ====
section
/-! DEFINITION. What passes when no command waits: one angle count. -/
namespace Sys2Proof.Machine

open Sys2Proof

/-- One angle count in LOCKED or COAST, short of the index (R9); nothing in STOPPED and ACQUIRE. The wrap is INDEX's.
DESIGN CHOICE (log 1). -/
def tick (s : State) : State :=
  if (s.atb.st = .locked ∨ s.atb.st = .coast) ∧ s.atb.ac.toNat + 1 < revAC
  then { s with atb := { s.atb with ac := s.atb.ac + 1 } } else s

end Sys2Proof.Machine
end

