-- ==== Sys2Proof/Safety.lean ====
section
/-! DEFINITION. What counts as a safe run, in the terms the statements use. -/
namespace Sys2Proof.Machine

open Sys2Proof

/-- The step answers a next state. -/
def State.runs (s : State) : Prop := ∃ t, step s = .next t

/-- Buffer memory is in its canonical form: addresses strictly rising, no listed byte 0 (R225, R229). -/
def State.memOk (s : State) : Prop := Memory.wf s.buf.mem = true

/-- In a set of counters every channel's slots are accounted for (R424): those retired, wasted, starved front and starved back
together are those passed, modulo 2^48. -/
def tallied (c : Tab (BitVec 48)) : Prop :=
  ∀ n < 16, tget 0 c (4 * n) + tget 0 c (4 * n + 1) + tget 0 c (4 * n + 2) + tget 0 c (4 * n + 3) = tget 0 c (80 + n)

/-- The slots are accounted for in the counters and in the last snapshot (R424). -/
def State.tallyOk (s : State) : Prop := tallied s.pmc.ctr ∧ tallied s.pmc.snap

/-- What no command undoes (R376, R390, R414): a decommissioned part stays so, the lowest security versions accepted never fall,
NODE_ID is the maker's, and the fuse of R397 stays blown. -/
structure State.Holds (s t : State) : Prop where
  /-- DECOMMISSIONED has no way out (R376). -/
  life : s.nv.life = .decommissioned → t.nv.life = .decommissioned
  /-- The lowest microcode version never falls (R390). -/
  isvn : s.nv.isvnMin.toNat ≤ t.nv.isvnMin.toNat
  /-- The lowest firmware version never falls (R390). -/
  fsvn : s.nv.fsvnMin.toNat ≤ t.nv.fsvnMin.toNat
  /-- NODE_ID never changes. -/
  node : t.nv.nodeId = s.nv.nodeId
  /-- A blown DRK-disable fuse stays blown (R397). -/
  fuse : s.nv.drkFuse = true → t.nv.drkFuse = true

/-- From `s` to `t` the queue is the same, memory keeps its canonical form and every slot its count, nothing is undone that
never may be, and what was sent stays sent. -/
structure State.Kept (s t : State) : Prop where
  /-- The queue of waiting commands is not touched. -/
  queue : t.pending = s.pending
  /-- Memory stays canonical. -/
  mem : s.memOk → t.memOk
  /-- Slots stay accounted for. -/
  tally : s.tallyOk → t.tallyOk
  /-- What no command undoes. -/
  holds : s.Holds t
  /-- What has been sent stays sent. -/
  sent : s.sent <:+ t.sent

end Sys2Proof.Machine
end

