-- ==== Sys2Proof/Certificates/Slice0/Obligations.lean ====
section
/-! DEFINITION.  The statements for the provers, one `def Obligations.<Name> : Prop` each.  Every statement is about
`exec` (one command on a state) or `step`, over all states that meet its hypotheses; where a conclusion gives the whole
next state, that equation is also the frame.  `log n` in a docstring is the entry n of the assumption log. -/

open Sys2Proof Sys2Proof.Machine

/-- Reading ATB_NOW_AC returns the shaft angle and latches ATB_REV for ATB_NOW_REV.  For every state, a read of
ATB_NOW_AC answers a next state whose read data and register value are the shaft angle and whose ATB_NOW_REV is
the ATB_REV of before the read; nothing else changes. A read of ATB_NOW_REV returns the latched value, whatever
the ATB state is.  Cites: R17. -/
def Obligations.AngleReadLatchesRevolution : Prop :=
  ∀ s : State, (∃ t, exec .atbNowAcRead s = .next t ∧ t.regs.rdata = s.atb.ac.setWidth 32 ∧ t.regValue 0x100C = s.atb.rev ∧
      t.regValue 0x1008 = s.atb.ac.setWidth 32 ∧
      ({ t with atb.nowRev := s.atb.nowRev, regs.rdata := s.regs.rdata } : State) = s) ∧
    s.regValue 0x100C = s.atb.nowRev

/-- COAST entry and expiry, and the two status reads that clear their maximum.  In LOCKED, COAST_ENTRY answers COAST
and changes nothing else but the out-of-tolerance mark. In COAST, COAST_MAX_EXPIRY sets LOSS, cuts every write
gate, abandons the banks, goes to ACQUIRE and raises source 11. A read of SEQ_CTXn returns the register and
clears RQMAX; a read of EVR_STATUS returns the register and clears QMAX. Nothing else changes.  Cites: R14, R16,
R168 (SEQ_CTXn), R422 (EVR_STATUS). -/
def Obligations.ReadsThatClearAndCoast : Prop :=
  (∀ s : State, s.atb.st = .locked →
    exec .coastEntry s = .next { s with atb.st := .coast, atb.bad := false }) ∧
  (∀ s : State, s.atb.st = .coast →
    exec .coastMaxExpiry s = .next (raise 11
      { ((s.setW1c 0x1004 6).cutGates 0 16).abandonAll with
        atb.st := .acquire, atb.lastK := none, atb.bad := false, atb.phaseErr := 0 })) ∧
  (∀ (n : Fin 5) (s : State), exec (.seqCtxRead n) s = .next
    { s.modCtx n.val (fun c => { c with rqMax := 0 }) with regs.rdata := s.regValue (0x1420 + 4 * n.val) }) ∧
  (∀ s : State, exec .evrStatusRead s = .next { s with evr.qmax := 0, regs.rdata := s.regValue 0x4400 })

/-- A valid word of the reference actuator keeps, doubts or sets the ATB's phase.  For a valid angle word of the
reference actuator, whose actuator tracks, is under servo writing or is enabled in SRC_MASK: in LOCKED, within
TOL it records the phase error; the first word outside TOL only marks the reference and the second in a row
sends the ATB to ACQUIRE. In COAST, a word within TOL returns to LOCKED and one outside changes only the track
seen (DEDUCED, log 26). In ACQUIRE, a word that follows the previous one enters LOCKED and sets the shaft angle
from itself; another is remembered. The word itself is presented in the states named, and otherwise only the
track seen by the head changes.  Cites: R12, R13, R14, R15, 18_setup_registers.md, log 26. -/
def Obligations.ReferenceWordKeepsPhase : Prop :=
  ∀ (h : Fin 64) (w : BitVec 48) (s : State),
    let a := h.val / 16
    let ang := s.shaftOf a (4096 * angleK w)
    let m := s.modHead h.val (fun x => { x with lastTrack := BitVec.ofNat 24 (angleTrack w) })
    let near := (angDiff ang s.atb.ac.toNat).natAbs ≤ s.fld 0x1000 0 8
    angleOk w = true → (s.act a).st.tracks = true ∨ (s.act a).st = .ssw → s.flag 0x1000 (12 + a) = true →
    s.refAct = some a →
    (s.atb.st = .locked → near → exec (.angleWord h w) s =
      .next { m with atb.phaseErr := angDiff ang s.atb.ac.toNat, atb.bad := false }) ∧
    (s.atb.st = .locked → ¬near → s.atb.bad = false → exec (.angleWord h w) s = .next { m with atb.bad := true }) ∧
    (s.atb.st = .locked → ¬near → s.atb.bad = true → exec (.angleWord h w) s = .next (m.atbTo raise .acquire)) ∧
    (s.atb.st = .coast → near → exec (.angleWord h w) s = .next { m with
      atb.st := .locked, atb.phaseErr := angDiff ang s.atb.ac.toNat, atb.bad := false }) ∧
    (s.atb.st = .coast → ¬near → exec (.angleWord h w) s = .next m) ∧
    (s.atb.st = .acquire → s.atb.lastK = some (BitVec.ofNat 10 (angleK w) - 1) → exec (.angleWord h w) s = .next { m with
      atb.st := .locked, atb.ac := BitVec.ofNat 22 ang, atb.lastK := none, atb.bad := false, atb.phaseErr := 0 }) ∧
    (s.atb.st = .acquire → s.atb.lastK ≠ some (BitVec.ofNat 10 (angleK w) - 1) → exec (.angleWord h w) s = .next { m with
      atb.lastK := some (BitVec.ofNat 10 (angleK w)) })

/-- Motor link frames are checked and kept, the spin loop sends DUTY every tick, and losing the link is a spindle
fault.  A motor link frame with a bad check is only counted as discarded. A good ISENSE, VSENSE or STATUS frame
(not of the first type after reset) stores its samples or the stage status. SPIN_TICK counts crystal time
(500,000 ticks a second: DESIGN CHOICE, log 5), and while the core has power and the part is no shadow sends one
DUTY frame whose command the free control law gives (log 11) and nothing else changes but the frame number. When
no good frame has come for the bound, MDL_LOST sets its bit, cuts the gates, records event 0x2002, ends the
lock, stops the motor and raises source 8.  Cites: R100, R103, R106, R117, log 5, log 11. -/
def Obligations.MotorLinkFrames : Prop :=
  (∀ (f : BitVec 64) (s : State), mdlOk f = false → s.pwr.rstPend = false →
    let t := { s with mdl.discards := s.mdl.discards + 1 }
    exec (.isense f) s = .next t ∧ exec (.vsense f) s = .next t ∧ exec (.mdlStatus f) s = .next t) ∧
  (∀ (f : BitVec 64) (s : State), mdlOk f = true → s.mdl.lastType ≠ 0 → bitsOf f.toNat 52 4 = 8 →
    exec (.isense f) s = .next { s with
      mdl.lastType := 8, spn.mdlLost := false, mdl.cur := BitVec.ofNat 36 (bitsOf f.toNat 12 36) }) ∧
  (∀ (f : BitVec 64) (s : State), mdlOk f = true → s.mdl.lastType ≠ 0 → bitsOf f.toNat 52 4 = 9 →
    exec (.vsense f) s = .next { s with
      mdl.lastType := 9, spn.mdlLost := false, mdl.volt := BitVec.ofNat 36 (bitsOf f.toNat 12 36) }) ∧
  (∀ (f : BitVec 64) (s : State), mdlOk f = true → s.mdl.lastType ≠ 0 → bitsOf f.toNat 52 4 = 10 →
    exec (.mdlStatus f) s = .next (State.stageStatus { s with mdl.lastType := 10, spn.mdlLost := false } f.toNat).resetParked) ∧
  (∀ s : State, s.pwr.core = false → exec .spinTick s = .next { s with
    pwr.ticks := s.pwr.ticks + 1
    nv2.secs := if (s.pwr.ticks + 1) % 500000 = 0 then s.nv2.secs + 1 else s.nv2.secs }) ∧
  (∀ s : State, s.pwr.core = true → s.shadow = false → ∃ t duty, exec .spinTick s = .next t ∧
    t.sent = .mdl (mdlFrame 2 s.mdl.seq.toNat (s.mdl.mode.toNat * 2 ^ 36 + duty % 2 ^ 36)) :: s.sent ∧
    t = { s with
      pwr.ticks := s.pwr.ticks + 1
      nv2.secs := if (s.pwr.ticks + 1) % 500000 = 0 then s.nv2.secs + 1 else s.nv2.secs
      mdl.seq := s.mdl.seq + 1, sent := t.sent, free := s.free + 1 }) ∧
  (∀ s : State, s.spn.mdlLost = false →
    let z := ((s.setW1c 0x1C04 14).cutGates 0 16).abandonAll
    let y : State := { z with spn.mdlLost := true, spn.wanted := false, spn.newRpm := none, spn.ramping := false }
    let x := (y.eventSrc 0x2002 3 8 [z.mdl.lastType.toNat, z.mdl.stageDiscards.toNat]).lockEnds raise
    exec .mdlLost s = .next (raise 8 (({ x with spn.st := .fault } : State).spinMode 0)))

/-- Pre-heat waits for the threshold or its time-out, and a spin-up attempt locks, fails or is retried.
PREHEAT_TICK counts a second and goes to the token wait when the temperature has reached the threshold, or after
PREHEAT_MAX with no good sensor. PREHEAT_TIMEOUT with a good cold sensor sets its bit and records event 0x2003.
A temperature sample in range is stored; one out of range stores 0x8000, and the first such also sets its bit,
records event 0x2004 and raises source 14. ALIGN leads to RAMP, RAMP to LOCKED on speed lock; SPINUP_TIMEOUT and
a stall fail the attempt with cause 1 or 2; the retry asks again before the third failure and afterwards goes to
FAULT with event 0x2001 and source 9.  Cites: R104, R107, R108, R109, R105, log 6. -/
def Obligations.PreheatAndSpinUp : Prop :=
  (∀ s : State, s.spn.st = .preheat → s.spn.tempBad = false → s.tempC < s.thresh →
    exec .preheatTick s = .next { s with spn.preheatS := s.spn.preheatS + 1, spn.path := s.spn.path + 1 }) ∧
  (∀ s : State, s.spn.st = .preheat → s.spn.tempBad = false → s.thresh ≤ s.tempC →
    exec .preheatTick s = .next (State.toWaitToken { s with
      spn.preheatS := s.spn.preheatS + 1, spn.path := s.spn.path + 1 })) ∧
  (∀ s : State, s.spn.st = .preheat → s.spn.tempBad = true → s.fld 0x1C08 12 12 ≤ s.spn.preheatS + 1 →
    exec .preheatTick s = .next (State.toWaitToken { s with
      spn.preheatS := s.spn.preheatS + 1, spn.path := s.spn.path + 1 })) ∧
  (∀ s : State, s.spn.st = .preheat → s.spn.tempBad = false → s.spn.preheatS = s.fld 0x1C08 12 12 →
    exec .preheatTimeout s = .next ((s.setW1c 0x1C04 12).event 0x2003 2
      [toTwos 32 s.tempC, toTwos 32 s.thresh, s.fld 0x1C08 12 12])) ∧
  (∀ (t : BitVec 16) (s : State), -600 ≤ ofTwos 16 t.toNat → ofTwos 16 t.toNat ≤ 1400 →
    exec (.tempSample t) s = .next { s with spn.temp := t, spn.tempBad := false }) ∧
  (∀ (t : BitVec 16) (s : State), ofTwos 16 t.toNat < -600 ∨ 1400 < ofTwos 16 t.toNat → s.spn.tempBad = true →
    exec (.tempSample t) s = .next { s with spn.temp := 0x8000 }) ∧
  (∀ (t : BitVec 16) (s : State), ofTwos 16 t.toNat < -600 ∨ 1400 < ofTwos 16 t.toNat → s.spn.tempBad = false →
    exec (.tempSample t) s = .next (raise 14 ((({ s with spn.temp := 0x8000, spn.tempBad := true } : State).setW1c
      0x1C04 13).eventSrc 0x2004 3 14 [t.toNat]))) ∧
  (∀ s : State, s.spn.st = .align → exec .alignDone s = .next (State.spinMode { s with spn.st := .ramp } 1)) ∧
  (∀ (p : Nat) (s : State), s.spn.st = .ramp →
    exec (.speedLock p) s = .next (State.lockBegins { s with spn.period := p, spn.reg := (s.speedIs p).1 })) ∧
  (∀ s : State, s.spn.st = .ramp → exec (.spinupTimeout false) s = .next (s.spinFail raise 1)) ∧
  (∀ s : State, s.spn.st = .ramp ∨ s.spn.st = .align → exec (.spinupTimeout true) s = .next (s.spinFail raise 2)) ∧
  (∀ s : State, s.spn.retryWait = true → s.spn.attempts < 3 → s.spn.wanted = true →
    exec .spinupRetry s = .next (State.requestSpin { s with spn.retryWait := false })) ∧
  (∀ s : State, s.spn.retryWait = true → 3 ≤ s.spn.attempts →
    exec .spinupRetry s = .next (raise 9 ((State.spinMode { s with
      spn.retryWait := false, spn.st := .fault, spn.wanted := false } 0).eventSrc 0x2001 3 9
        [s.spn.failCause, s.lastFld 0x1C00 0 13])))

/-- Spin-up tokens are asked for, queued, granted, returned and reclaimed by the boss ledger.  A module waiting for
a token repeats TOKEN_REQ to the boss, a locked holder returns its token (locally when it granted it to itself),
and without any link the wait ends in a solo spin-up. In office, the boss queues a request during the hold-off
or when all tokens are out and otherwise grants at once; TOKEN_RETURN and a lease expiry free the place; the
hold-off ends by granting to the queue; a LEDGER_HELD of a holder is entered. A grant starts ALIGN in the token
wait and the ramp in CHANGING. A member whose lease runs out while it spins up fails the attempt with cause 3.
LEDGER_QUERY is answered with LEDGER_HELD.  Cites: R110, R111, R112, R113, log 27. -/
def Obligations.TokensAndLedger : Prop :=
  (∀ s : State, s.waitsToken = true → s.shadow = false → s.fab.noaddr = false → s.fab.boss ≠ 0 → s.fab.boss ≠ s.fab.addr →
    exec .tokenRequestRepeat s = .next (State.e2eSend { s with spn.boss := s.fab.boss } s.fab.boss 0x13 s.tokenBytes)) ∧
  (∀ s : State, s.spn.token = true → s.spn.solo = false → s.spn.st = .locked → s.fab.boss ≠ 0 → s.fab.boss ≠ s.fab.addr →
    let z : State := { s with spn.token := false, spn.solo := false }
    exec .tokenReturnTimer s = .next (z.e2eSend s.fab.boss 0x15 z.tokenBytes)) ∧
  (∀ s : State, s.spn.token = true → s.spn.solo = true → s.spn.st = .locked →
    exec .tokenReturnTimer s = .next { s with spn.token := false, spn.solo := false }) ∧
  (∀ (k : Fin 16) (s : State), s.ledger.office = true → s.ledger.held.contains k = true →
    (s.spn.token && k == s.slotNo) = false → s.ledger.queue = [] →
    exec (.tokenLeaseExpiry k) s = .next { s with ledger.held := s.ledger.held.filter (· != k) }) ∧
  (∀ s : State, s.ledger.office = false → s.spn.token = true → s.spn.st = .align ∨ s.spn.st = .ramp ∨ s.spn.st = .changing →
    exec (.tokenLeaseExpiry s.slotNo) s = .next (State.spinFail { s with spn.token := false, spn.solo := false } raise 3)) ∧
  (∀ s : State, s.ledger.office = true → s.ledger.holdoff = true →
    exec .bossHoldExpiry s = .next (State.grantAll { s with ledger.holdoff := false })) ∧
  (∀ s : State, s.spn.st = .waitToken → s.spn.token = false → (∀ n < 5, (s.port n).st ≠ .up) → s.spn.before = none →
    ∃ t, exec .soloWaitExpiry s = .next t ∧ t.spn.st = .align ∧ t.spn.token = true ∧ t.spn.solo = true) ∧
  (∀ (src : BitVec 12) (shelf : Byte) (k : Fin 16) (h : Byte) (s : State), s.inShelf src = true →
    shelf.toNat = s.fab.addr.toNat / 16 → s.ledger.office = true → s.ledger.queue.contains k = false →
    s.ledger.held.contains k = false →
    (s.ledger.holdoff = true ∨ s.fld 0x1C1C 0 5 ≤ s.ledger.held.length →
      exec (.tokenReq src shelf k h) s = .next { s with ledger.queue := s.ledger.queue ++ [k] }) ∧
    (s.ledger.holdoff = false → s.ledger.held.length < s.fld 0x1C1C 0 5 → s.ledger.queue = [] → k ≠ s.slotNo →
      exec (.tokenReq src shelf k h) s = .next (State.e2eSend { s with ledger.held := s.ledger.held ++ [k] }
        (BitVec.ofNat 12 (s.fab.addr.toNat / 16 * 16 + k.val)) 0x14 s.tokenBytes))) ∧
  (∀ (src : BitVec 12) (s : State), s.inShelf src = true → s.spn.st = .waitToken → s.spn.token = false → s.spn.before = none →
    ∃ t, exec (.tokenGrant src) s = .next t ∧ t.spn.st = .align ∧ t.spn.token = true ∧ t.spn.solo = false) ∧
  (∀ (src : BitVec 12) (s : State), s.inShelf src = true → s.spn.st = .changing → s.spn.ramping = false →
    s.spn.token = false →
    exec (.tokenGrant src) s = .next { s with spn.token := true, spn.solo := false, spn.ramping := true }) ∧
  (∀ (src : BitVec 12) (shelf : Byte) (k : Fin 16) (h : Byte) (s : State), s.inShelf src = true →
    shelf.toNat = s.fab.addr.toNat / 16 → s.ledger.office = true → s.ledger.queue = [] →
    exec (.tokenReturn src shelf k h) s = .next { s with ledger.held := s.ledger.held.filter (· != k) }) ∧
  (∀ (src : BitVec 12) (s : State), s.inShelf src = true →
    exec (.ledgerQuery src) s = .next (State.e2eSend { s with spn.boss := if s.spn.token then src else s.spn.boss }
      src 0x17 s.tokenBytes)) ∧
  (∀ (src : BitVec 12) (k : Fin 16) (h : Byte) (s : State), s.inShelf src = true → s.ledger.office = true → h ≠ 0 →
    s.ledger.held.contains k = false →
    exec (.ledgerHeld src k h) s = .next { s with
      ledger.held := s.ledger.held ++ [k], ledger.queue := s.ledger.queue.filter (· != k) })

/-- Speed lock and its loss, phase lock to the boss, and power failure with its recovery.  SPEED_LOCK in RAMP
answers LOCKED with part 11 ready. SPEED_LOCK_LOSS after sixteen revolutions off speed raises source 10 and then
spins up again, from RAMP above half speed and from a stop below it. BRAKE_DONE ends in OFF. SPEED_CHANGE_DONE
takes the new speed and locks. The boss broadcasts PHASE_REF; a member at the same speed moves its phase error,
its count and its lock, with a trim between −40 and +40 whose value is free (log 11). PFAIL_ASSERT stops the
journal, parks, floods LEAVING and raises source 115; the deassertion and the recovery bring the spindle back to
what it was before.  Cites: R104, R106, R111, R114, R115, R116, R350, log 11, log 27. -/
def Obligations.SpeedLockPhaseAndPowerFailure : Prop :=
  (∀ (p : Nat) (s : State), s.spn.st = .ramp → ∃ t, exec (.speedLock p) s = .next t ∧
    t.spn.st = .locked ∧ t.ready 11 = true ∧ t.spn.period = p ∧ t.spn.attempts = 0) ∧
  (∀ s : State, s.spn.st = .locked → 16 ≤ s.spn.offCnt →
    let z := raise 10 (s.draw.lockEnds raise)
    ∃ t, exec .speedLockLoss s = .next t ∧ (z.spn.st ≠ .locked → t = z) ∧
      (z.spn.st = .locked → s.spn.period * s.lastFld 0x1C00 0 13 ≤ 120000000000 →
        t = State.spinMode { z with spn.st := .ramp, spn.wanted := true } 1) ∧
      (z.spn.st = .locked → 120000000000 < s.spn.period * s.lastFld 0x1C00 0 13 →
        t = { z.spinStop raise with spn.wanted := true })) ∧
  (∀ s : State, s.spn.st = .stopping → s.mdl.mode = 3 → s.spn.wanted = false →
    exec .brakeDone s = .next (State.spinMode { s with spn.st := .off } 0)) ∧
  (∀ (n : Nat) (s : State), s.spn.st = .changing → s.spn.ramping = true → s.spn.newRpm = some n →
    ∃ t, exec .speedChangeDone s = .next t ∧ t = (s.putFld 0x1C00 0 13 n).lockBegins ∧ t.spn.st = .locked) ∧
  (∀ s : State, s.ledger.office = true → s.spn.st = .locked → s.atb.st = .locked →
    exec .phaseRefSend s = .next (s.broadcast 0x12 (leBytes 2 (s.lastFld 0x1C00 0 13) ++ leBytes 2 0 ++ leBytes 4 0))) ∧
  (∀ (src : BitVec 12) (rpm : BitVec 16) (a : BitVec 22) (s : State), s.inShelf src = true → s.flag 0x1C00 30 = true →
    s.spn.st = .locked → s.atb.st = .locked → rpm.toNat = s.lastFld 0x1C00 0 13 →
    let e := angDiff a.toNat ((s.slotNo.val * s.fld 0x1C10 0 22) % 4194304)
    let n := if e.natAbs ≤ 16384 then s.spn.phaseGood + 1 else 0
    ∃ trim : Int, -40 ≤ trim ∧ trim ≤ 40 ∧ exec (.phaseRef src rpm a) s = .next { s.draw with
      spn.phaseErr := e, spn.phaseGood := n, spn.phaseLocked := s.spn.phaseLocked || decide (4 ≤ n), spn.trim := trim }) ∧
  (∀ s : State, exec .phaseRefLoss s = .next { s with spn.phaseLocked := false, spn.phaseGood := 0, spn.trim := 0 }) ∧
  (∀ s : State, s.spn.pfailLow = false →
    let z := State.actPfail { s with spn.pfailLow := true, zon.jstop := true } raise
    exec .pfailAssert s = .next (raise 115 (State.floodLsa { z with fab.leaving := true }))) ∧
  (∀ s : State, exec .pfailDeassert s = .next { s with
    spn.pfailLow := false, fab.leaving := s.svc.removal == .safe || s.svc.removal == .surprise }) ∧
  (∀ s : State, s.spn.st = .pfail → s.spn.pfailLow = false → s.allParked = true → s.svc.removal ≠ .surprise →
    (s.spn.fenced = true → exec .pfailRecover s = .next { s with
      spn.st := .fault, zon.jstop := bitOf s.flt.fenced.toNat 61 }) ∧
    (s.spn.fenced = false → s.spn.before = some .off ∨ s.spn.before = some .stopping →
      exec .pfailRecover s = .next { s with
        spn.st := .off, spn.before := none, zon.jstop := bitOf s.flt.fenced.toNat 61 }) ∧
    (s.spn.fenced = false → s.spn.before = some .locked → exec .pfailRecover s = .next (State.requestSpin { s with
        spn.st := .off, zon.jstop := bitOf s.flt.fenced.toNat 61 })))

/-- PES samples, loop updates, off-track heads, seeks, shock, unpark retries and servo writing.  A PES sample of an
active head of a tracking, calibrated actuator computes the position and PES of R73 and the validity of R74 and
counts them; a sample of another head changes nothing. VCM_UPDATE sends one VCM frame whose command lies within
the 18-bit range (value free, log 11). A head that coasts beyond STRIPE_COAST goes off track and drops its
slots, and the actuator re-acquires when every head has. SEEK_ARRIVAL enters SETTLING on TRK + TPOS. SHOCK_N,
when obeyed, cuts every gate, sets SHOCK_SEEN, records event 0x2005 and raises source 13. A load that times out
parks and is tried three times in all. SSW_DONE of a seed check ends the operation as stopped, failed or done.
Cites: R73, R74, R75, R76, R81, R87, R88, R96, 03_stripe_servo_and_head_sets.md (servo writing), log 11, log 26. -/
def Obligations.ServoSamplesAndLoops : Prop :=
  (∀ (h : Fin 64) (a1 a2 : BitVec 16) (s : State) (c : Calib) (x : CalHead),
    (s.act (h.val / 16)).heads.contains h = true → (s.act (h.val / 16)).st.tracks = true →
    s.calib (h.val / 16) = some c → s.calHead h.val = some x →
    let sum := a1.toNat + a2.toNat
    let diff : Int := (a1.toNat : Int) - a2.toNat
    let pos := if sum = 0 then 0 else roundDiv (x.pesGain * diff) sum
    let pes := satSigned 16 (pos - s.headTarget c x h.val)
    let followed := s.headTrack (h.val / 16)
    let ok := decide (x.ampNom ≤ 2 * sum) && decide (20 * diff.natAbs ≤ 19 * sum) && decide (0 < sum) &&
      (decide ((s.head h.val).lastTrack.toNat ≤ followed + 1) && decide (followed ≤ (s.head h.val).lastTrack.toNat + 1))
    exec (.pesSample h a1 a2) s = .next
      (((((s.countSample h.val pes ok).maUpdate h.val ok).liveSample h.val ok).gateCheck h.val).settleDone (h.val / 16))) ∧
  (∀ (h : Fin 64) (a1 a2 : BitVec 16) (s : State), (s.act (h.val / 16)).heads.contains h = false →
    exec (.pesSample h a1 a2) s = .next s) ∧
  (∀ (n : Fin 4) (s : State), (s.act n.val).st.tracks = true → ∃ (v i : Int) (f : Int × Int), -131072 ≤ v ∧ v ≤ 131071 ∧
    exec (.vcmUpdate n) s = .next ((s.draw.draw.draw.draw.modAct n.val (fun x => { x with
      vcm := v, integ := i, notches := f })).mdlSend 1 (n.val * 2 ^ 38 + toTwos 18 v * 2 ^ 20))) ∧
  (∀ (h : Fin 64) (s : State), (s.act (h.val / 16)).heads.contains h = true → (s.head h.val).offTrack = false →
    (s.act (h.val / 16)).st.tracks = true → s.fld 0x1800 12 4 < (s.head h.val).coast →
    let z := (s.modHead h.val (fun x => { x with
      offTrack := true, rdSettled := false, wrSettled := false, rdCnt := 0, wrCnt := 0 })).dropHead h.val
    ∃ t, exec (.offTrack h) s = .next t ∧
      ((z.act (h.val / 16)).heads.all (fun k => (z.head k.val).offTrack) = false → t = z) ∧
      ((z.act (h.val / 16)).heads.all (fun k => (z.head k.val).offTrack) = true →
        t = (z.actReadyOff (h.val / 16)).modAct (h.val / 16) (fun x => { x with st := .acquiring, seek := none }))) ∧
  (∀ (n : Fin 4) (s : State) (k : BitVec 6) (t : BitVec 24) (p : BitVec 5),
    (s.act n.val).st = .seeking → (s.act n.val).seek = some (k, t, p) →
    exec (.seekArrival n) s = .next (s.modAct n.val (fun x => { x with
      st := .settling, seek := none, track := BitVec.ofNat 24 (t.toNat + p.toNat) }))) ∧
  (∀ s : State, s.flag 0x1800 31 = true → s.srv.shock = false →
    exec .shockAssert s = .next (raise 13 (State.event { (s.cutGates 0 16).setW1c 0x180C 20 with srv.shock := true } 0x2005 2
      [bitsUpto 4 (fun a => (List.range 4).any (fun p => (s.ch (4 * a + p)).gate))]))) ∧
  (∀ s : State, exec .shockHoldExpiry s = .next { s with srv.shock := false }) ∧
  (∀ (n : Fin 4) (s : State), (s.act n.val).st = .loading →
    let z := (s.modAct n.val (fun x => { x with st := .unloading, tries := x.tries + 1, retryWait := true })).sendPark
      (2 ^ n.val) 1
    ((s.act n.val).tries < 2 → exec (.unparkTimeout n) s = .next z) ∧
    (2 ≤ (s.act n.val).tries →
      exec (.unparkTimeout n) s = .next (raise (4 + n.val) (z.event 0x2008 3 [n.val, ActState.loading.code])))) ∧
  (∀ (n : Fin 4) (s : State), (s.act n.val).retryWait = true → (s.act n.val).st = .parked →
    let z := s.modAct n.val (fun x => { x with retryWait := false })
    ((s.act n.val).tries < 3 → exec (.unparkRetry n) s = .next (z.unpark n.val)) ∧
    (3 ≤ (s.act n.val).tries → exec (.unparkRetry n) s = .next z)) ∧
  (∀ (ok : Bool) (rec : List Byte) (skips : List (Fin 64 × Nat × Nat)) (s : State), s.srv.sswBusy = true →
    s.srv.sswOp = 1 →
    (s.srv.sswStop = 15 → exec (.sswDone ok rec skips) s = .next (s.sswEnd 3)) ∧
    (s.srv.sswStop = 0 → ok = false → exec (.sswDone ok rec skips) s = .next (s.sswEnd 2)) ∧
    (s.srv.sswStop = 0 → ok = true →
      exec (.sswDone ok rec skips) s = .next (State.sswEnd { s with srv.sswTrack := 15 } 1)))

/-- NOP, BR, JMP, CALL, RET, LOOP, LDC, SETF, CLRF, EVT and HALT do what their micro-words say.  For a context that
runs no harvest and stands on the micro-word named: NOP advances; BR goes to its address when its flag has the
wanted value and else advances; JMP goes; CALL pushes the return address onto a stack of four and, with the
stack full, sets the overflow bit and halts the context; RET pops, and with an empty stack outside a trap ends
the routine; LOOP decrements its counter and goes until it is 0; LDC loads a counter; SETF and CLRF write a
flag; EVT records an event and advances; HALT halts. Every other field keeps its value.  Cites: R154, R156,
R157. -/
def Obligations.MicroOpsBranchCountAndFlag : Prop :=
  ∀ (k : Fin 5) (s : State), (s.ctx k.val).harvest = none →
    let n := k.val
    let c := s.ctx n
    let w := s.uword n
    let goto : State := s.modCtx n (fun c => { c with upc := BitVec.ofNat 13 (bitsOf w.toNat 0 16) })
    let pass : State := s.modCtx n (fun c => { c with upc := c.upc + 1 })
    let flagMet := s.flagVal n (bitsOf w.toNat 16 6) = bitOf w.toNat 27
    let one := bitOf w.toNat 16
    (s.atOp n 0 = true → exec (.nop k) s = .next pass) ∧
    (s.atOp n 5 = true → (flagMet → exec (.br k) s = .next goto) ∧ (¬flagMet → exec (.br k) s = .next pass)) ∧
    (s.atOp n 6 = true → exec (.jmp k) s = .next goto) ∧
    (s.atOp n 7 = true → c.stack.length < 4 → exec (.callOp k) s = .next (s.modCtx n (fun c => { c with
      stack := (c.upc + 1) :: c.stack, upc := BitVec.ofNat 13 (bitsOf w.toNat 0 16) }))) ∧
    (s.atOp n 7 = true → 4 ≤ c.stack.length → exec (.callOp k) s = .next ((s.setW1c 0x1404 (9 + n)).haltCtx n)) ∧
    (∀ a t, s.atOp n 8 = true → c.stack = a :: t →
      exec (.ret k) s = .next (s.modCtx n (fun c => { c with upc := a, stack := t }))) ∧
    (s.atOp n 8 = true → c.stack = [] → c.frame = none → exec (.ret k) s = .next (s.modCtx n (fun c => { c with
      st := .idle, running := false, stack := [], wait := .none, group := none, late := false }))) ∧
    (s.atOp n 9 = true → ∃ t, exec (.loopOp k) s = .next t ∧
      (t.ctx n).lc0 = (if one then c.lc0 else c.lc0 - 1) ∧ (t.ctx n).lc1 = (if one then c.lc1 - 1 else c.lc1) ∧
      (t.ctx n).upc = (if (if one then c.lc1 - 1 else c.lc0 - 1) ≠ 0
        then BitVec.ofNat 13 (bitsOf w.toNat 0 16) else c.upc + 1)) ∧
    (s.atOp n 10 = true → bitsOf w.toNat 24 2 = 0 → exec (.ldc k) s = .next (s.modCtx n (fun c => { c with
      lc0 := if one then c.lc0 else BitVec.ofNat 16 (bitsOf w.toNat 0 16)
      lc1 := if one then BitVec.ofNat 16 (bitsOf w.toNat 0 16) else c.lc1, upc := c.upc + 1 }))) ∧
    (s.atOp n 11 = true → exec (.setf k) s = .next (s.modCtx n (fun c => { c.putFlag (bitsOf w.toNat 16 6) true with
      upc := c.upc + 1 }))) ∧
    (s.atOp n 12 = true → exec (.clrf k) s = .next (s.modCtx n (fun c => { c.putFlag (bitsOf w.toNat 16 6) false with
      upc := c.upc + 1 }))) ∧
    (s.atOp n 13 = true → c.group = none → exec (.evt k) s = .next ((s.event (0x4800 + bitsOf w.toNat 16 11)
      (min 4 (bitsOf w.toNat 0 3)) [n * 2 ^ 29 + c.upc.toNat, 0, 0, 0, 0]).modCtx n (fun c => { c with upc := c.upc + 1 }))) ∧
    (s.atOp n 15 = true → exec (.halt k) s = .next (s.haltCtx n))

/-- ISSUE, ISSUEW, WAITA and WAITC issue nano-words and wait for an acknowledgement, an angle or a flag.  For a
context that runs no harvest: ISSUE and ISSUEW with no hold left carry out the nano-word and load its hold,
ISSUE advancing and ISSUEW waiting for the acknowledgement; a nano-word with a reserved code on a channel
context halts it; with a hold left ISSUE waits. The hold expires to 0. The acknowledgement, the angle reached
and the flag met resume at the next word; a time-out does so and sets the time-out flag. WAITA whose angle has
passed drops the group as late and runs vector 6. The angle event moves the shaft to the awaited angle (log 3).
Cites: R152, R153, R154, R155, log 3, log 28. -/
def Obligations.NanoWordsAndWaits : Prop :=
  ∀ (k : Fin 5) (s : State), (s.ctx k.val).harvest = none →
    let n := k.val
    let c := s.ctx n
    let w := s.uword n
    let v := tget 0 s.seq.nano (bitsOf w.toNat 16 11)
    let sent := (s.nano n v).modCtx n (fun c => { c with hold := BitVec.ofNat 8 (bitsOf v.toNat 104 8) })
    let resumed := s.modCtx n (fun c => { c with
      wait := .none, upc := c.upc + 1, st := if c.frame.isSome then .trap else .run })
    (s.atOp n 1 = true → c.hold = 0 → n = 4 ∨ bitsOf v.toNat 96 8 = 0 →
      exec (.issue k) s = .next (sent.modCtx n (fun c => { c with upc := c.upc + 1 }))) ∧
    (s.atOp n 2 = true → c.hold = 0 → n = 4 ∨ bitsOf v.toNat 96 8 = 0 →
      exec (.issuew k) s = .next (sent.modCtx n (fun c => { c with
        wait := .ack, st := if c.frame.isSome then .trap else .wait }))) ∧
    (s.atOp n 1 = true → c.hold = 0 → n < 4 → bitsOf v.toNat 96 8 ≠ 0 → exec (.issue k) s = .next (s.haltCtx n)) ∧
    (s.atOp n 1 = true → c.hold ≠ 0 → exec (.issue k) s = .next s) ∧
    exec (.holdExpiry k) s = .next (s.modCtx n (fun c => { c with hold := 0 })) ∧
    (c.wait = .ack → exec (.issuewAck k) s = .next resumed) ∧
    (c.wait = .ack → bitsOf w.toNat 0 16 ≠ 0 →
      exec (.issuewTimeout k) s = .next (resumed.modCtx n (fun c => { c with timeout := true }))) ∧
    (∀ g, s.atOp n 3 = true → c.group = some g →
      let t := s.waitTarget n g (bitsOf w.toNat 26 2) (bitsOf w.toNat 0 16)
      ((s.posn : Int) ≤ t → exec (.waita k) s = .next (s.modCtx n (fun c => { c with
        wait := .angle t.toNat, st := if c.frame.isSome then .trap else .wait }))) ∧
      (t < (s.posn : Int) → exec (.waita k) s = .next ((s.dropLate n g).runVector n 6 (fun c => { c with
        group := some g, late := true, frame := none })))) ∧
    (∀ t, c.wait = .angle t → t ≤ s.posn → exec (.waitaReached k) s = .next resumed) ∧
    (∀ t, c.wait = .angle t → s.posn < t → s.spinning = true → t / 4194304 = s.atb.rev.toNat →
      ∃ z, exec (.waitaReached k) s = .next z ∧ z.posn = t ∧ (z.ctx n).wait = .none ∧ (z.ctx n).upc = c.upc + 1) ∧
    (s.atOp n 4 = true → s.flagVal n (bitsOf w.toNat 16 6) = bitOf w.toNat 27 →
      exec (.waitc k) s = .next (s.modCtx n (fun c => { c with upc := c.upc + 1 }))) ∧
    (s.atOp n 4 = true → s.flagVal n (bitsOf w.toNat 16 6) ≠ bitOf w.toNat 27 →
      exec (.waitc k) s = .next (s.modCtx n (fun c => { c with
        wait := .flag (BitVec.ofNat 6 (bitsOf w.toNat 16 6)) (bitOf w.toNat 27)
        st := if c.frame.isSome then .trap else .wait }))) ∧
    (∀ f b, c.wait = .flag f b → s.flagVal n f.toNat = b → exec (.waitcMet k) s = .next resumed) ∧
    (∀ f b, c.wait = .flag f b → bitsOf w.toNat 0 16 ≠ 0 →
      exec (.waitcTimeout k) s = .next (resumed.modCtx n (fun c => { c with timeout := true })))

/-- Group dispatch, harvest, traps and the loading of microcode.  GROUP_DISPATCH of the next group runs the vector
of its kind with cleared flags and stack. HARVEST begins at vector 5 when a result waits and no group is due,
and its RET ends it. TRAP saves the frame and runs the vector of the highest pending cause; TRAPRET restores the
frame, and without one only advances. MICROCODE_BOOT installs the primary image, else the alternate, and with
neither valid records event 0x4000 with both causes. MICROCODE_INSTALL at a quiet index installs the waiting
image and completes its command with success.  Cites: R149, R158, R159, R160, R161, R162, R165, R166, R167, log
28. -/
def Obligations.DispatchHarvestTrapsAndMicrocode : Prop :=
  (∀ (k : Fin 5) (s : State) (g : Group), (s.ctx k.val).alive = true → (s.ctx k.val).running = false →
    (s.ctx k.val).trapDue = false → (s.ctx k.val).harvest = none → s.nextGroup k.val = some (g, true) →
    ∃ t, exec (.groupDispatch k) s = .next t ∧ (t.ctx k.val).group = some g ∧ (t.ctx k.val).running = true ∧
      (t.ctx k.val).upc = BitVec.ofNat 13 ((if k.val < 4 then 0x10 else 0x20) + g.kind.toNat) ∧
      (t.ctx k.val).timeout = false ∧ (t.ctx k.val).abortSlot = false ∧ (t.ctx k.val).stack = []) ∧
  (∀ (k : Fin 5) (s : State), k.val < 4 → (s.ctx k.val).alive = true → (s.ctx k.val).running = false →
    (s.ctx k.val).trapDue = false → (s.ctx k.val).frame = none → (s.ctx k.val).harvest = none →
    (s.harvestHead k.val).isSome = true → s.nextGroup k.val = none →
    exec (.harvest k) s = .next (s.modCtx k.val (fun c => { c with
      harvest := some (c.upc, c.wait, false), upc := 5, wait := .none, running := true, st := .run, hcount := 0 }))) ∧
  (∀ (k : Fin 5) (s : State), (s.ctx k.val).harvest.isSome = true → s.atOp k.val 8 = true → (s.ctx k.val).hcount < 32 →
    exec (.ret k) s = .next ((s.modCtx k.val (fun c => { c with hcount := c.hcount + 1 })).endHarvest k.val)) ∧
  (∀ (k : Fin 5) (s : State), (s.ctx k.val).trapDue = true →
    let c := s.ctx k.val
    let cause := if bitOf c.traps.toNat 0 then 0 else if bitOf c.traps.toNat 1 then 1
      else if bitOf c.traps.toNat 2 then 2 else 3
    let vector := if cause = 0 then 2 else if cause = 1 then 3 else if cause = 2 then 1 else 4
    exec (.trap k) s = .next (s.modCtx k.val (fun c => { c with
      frame := some ⟨c.upc, c.lc0, c.lc1, s.flagWord k.val, c.stack, c.hold, c.wait, c.running⟩
      traps := c.traps &&& ~~~(1#4 <<< cause), lastTrap := BitVec.ofNat 3 vector, upc := BitVec.ofNat 13 vector
      stack := [], hold := 0, wait := .none, running := true, st := .trap }))) ∧
  (∀ (k : Fin 5) (s : State) (f : Frame), (s.ctx k.val).harvest = none → s.atOp k.val 14 = true →
    (s.ctx k.val).frame = some f → exec (.trapret k) s = .next (s.modCtx k.val (fun c => { c with
      frame := none, upc := f.upc, lc0 := f.lc0, lc1 := f.lc1, stack := f.stack, hold := f.hold, wait := .none
      timeout := bitOf f.flags.toNat 6, u := BitVec.ofNat 14 (bitsOf f.flags.toNat 18 14), running := f.running
      st := if f.running then .run else .idle }))) ∧
  (∀ (k : Fin 5) (s : State), (s.ctx k.val).harvest = none → s.atOp k.val 14 = true → (s.ctx k.val).frame = none →
    exec (.trapret k) s = .next (s.modCtx k.val (fun c => { c with upc := c.upc + 1 }))) ∧
  (∀ (p a : List Byte) (s : State), s.ready 3 = false → s.domainCore = true →
    let z := s.setReady 4 true
    exec (.microcodeBoot p a) s = .next (if z.imageCause p = 0 then (z.installImage p).setReady 3 true
      else if z.imageCause a = 0 then (z.installImage a).setReady 3 true
      else z.event 0x4000 4 [z.imageCause p, z.imageCause a])) ∧
  (∀ (b : List Byte) (tag : BitVec 16) (s : State), s.seq.pendImg = some (b, tag) → s.seqQuiet = true →
    s.spinning = true → s.atb.ac = 0 →
    exec .microcodeInstall s = .next ((s.installImage b).finish 0 tag stSuccess 0))

/-- Read and verify results enter the result queue, level-1 results are judged, self-tests end, preamplifier frames
are acknowledged.  A read block that finds its sync mark within the window, converges and passes its checks
stores its information block in buffer memory and queues a good result; a verify that matches queues a good
verify result without storing. L1_DONE of the first queued retry ends the block as read or as lost. A channel
self-test records pass, or fail with cause 3 and event 0x3001. A preamplifier frame with a bad check changes
nothing, an ACK removes the frame it answers, STATUS is stored, and an unanswered frame is repeated once and
then raises the fault of its link.  Cites: R127, R133, R134, R137, R138, R139, R143, R465, R466, log 12, log 25. -/
def Obligations.ChannelResultsAndPreamplifierLinks : Prop :=
  (∀ (c : Fin 16) (b : Bool) (i : Fin 1536) (r : ReadRes) (sl : Slot) (s : State) (p1 : Nat),
    s.slotAt (bankKey c.val b) i.val = some sl → isReadKind sl.e.kind.toNat = true → sl.e.kind.toNat ≠ 4 → sl.e.sys = false →
    sl.res = false → sl.st = .executing → r.sm1 = some p1 → p1 ≤ 192 + s.fld (chReg c.val 0xC) 16 8 →
    192 ≤ p1 + s.fld (chReg c.val 0xC) 16 8 → r.converged = true → r.iter ≤ s.fld (chReg c.val 8) 16 4 →
    r.info.length = 4128 → infoOk r.info = true →
    infoTgn r.info = tgnOf (c.val / 4) sl.e.hs.toNat sl.e.trk.toNat → sl.dma = 1 → (s.ch c.val).rq.length < 16 →
    ∃ t, exec (.readBlockEnd c b i r) s = .next t ∧
      (t.ch c.val).rq = (s.ch c.val).rq ++
        [⟨b, i.val, false, true, false, false, c, s.seq.arr, sl.work, sl.e.bufref.toNat⟩] ∧
      (t.ch c.val).flags.decOk = true ∧ (t.ch c.val).flags.decFail = false ∧ (t.ch c.val).flags.sync1 = true ∧
      t.buf = (s.store (mediaBuf sl.e.bufref.toNat) r.info).buf ∧ t.pending = s.pending ∧ t.nv = s.nv) ∧
  (∀ (c : Fin 16) (b : Bool) (i : Fin 1536) (r : VerifyRes) (sl : Slot) (s : State),
    (b, i.val, false) ∈ (s.ch c.val).vfy → (∀ v ∈ (s.ch c.val).vfy, v.1 = b → v.2.1 = i.val → v = (b, i.val, false)) →
    s.slotAt (bankKey c.val b) i.val = some sl → r.marks = true → r.converged = true →
    r.iter ≤ s.fld (chReg c.val 0x10) 16 4 → r.equal = true → r.corrected ≤ s.fld (chReg c.val 0x10) 0 10 →
    (s.ch c.val).rq.length < 16 →
    ∃ t, exec (.verifyResult c b i r) s = .next t ∧
      (t.ch c.val).rq = (s.ch c.val).rq ++
        [⟨b, i.val, true, true, false, false, c, s.seq.arr, sl.work, sl.e.bufref.toNat⟩] ∧
      (t.ch c.val).flags.vfyOk = true ∧ (t.ch c.val).flags.vfyFail = false ∧ t.buf = s.buf ∧ t.nv = s.nv) ∧
  (∀ (a : Fin 4) (ok : Bool) (info : List Byte) (s : State) (q : Fin 16) (n : Nat) (x : Bool) (t : List (Fin 16 × Nat × Bool))
    (w : Work), tget [] s.rcv.l1 a.val = (q, n, x) :: t → s.workOf n = some w →
    let y : State := { s with rcv.l1 := tset s.rcv.l1 a.val t }
    let z := if y.keepsSamples w then y else y.release w.head.val w.track.toNat w.pos.toNat
    (ok = true → info.length = 4128 → infoOk info = true → infoTgn info = w.tgn.toNat →
      exec (.l1Done a ok info) s = .next (z.blockRead w info).settle) ∧
    (ok = false → exec (.l1Done a ok info) s = .next (z.blockLost w).settle)) ∧
  (∀ (c : Fin 16) (f : BitVec 4) (s : State), (s.ch c.val).bist = true → (s.ch c.val).testReq = false →
    let seen : BitVec 4 := if (s.ch c.val).bistTest = 15 then f else f &&& (1#4 <<< ((s.ch c.val).bistTest.toNat - 1))
    (seen = 0 → exec (.chBistDone c f) s = .next (s.modCh c.val (fun x => { x with
      bist := false, bistFailed := 0, bistRes := 1 }))) ∧
    (seen ≠ 0 → exec (.chBistDone c f) s = .next ((s.modCh c.val (fun x => { x with
      bist := false, bistFailed := seen, bistRes := 2, cause := 3 })).event 0x3001 3 [c.val, seen.toNat, 3]))) ∧
  (∀ (a : Fin 4) (f : BitVec 48) (s : State), palOk f = false →
    exec (.palAck a f) s = .next s ∧ exec (.palStatus a f) s = .next s) ∧
  (∀ (a : Fin 4) (f : BitVec 48) (s : State), palOk f = true → palCmd f = 9 →
    exec (.palAck a f) s = .next (s.modAct a.val (fun x => { x with
      palWait := x.palWait.eraseP (fun w => w.1 == palPos f && palSeqOf w.2.1 == palSeqOf f &&
        palCmd w.2.1 == bitsOf (palData f) 20 4) }))) ∧
  (∀ (a : Fin 4) (f : BitVec 48) (s : State), palOk f = true → palCmd f = 8 →
    exec (.palStatus a f) s = .next (s.modAct a.val (fun x => { x with palStatus := BitVec.ofNat 24 (palData f) }))) ∧
  (∀ (a p : Fin 4) (f : BitVec 48) (m : Nat) (s : State),
    (s.act a.val).palWait.find? (fun w => w.1 == p.val) = some (p.val, f, m) →
    (m < 2 → exec (.palAckTimeout a p) s = .next ((s.modAct a.val (fun x => { x with
      palWait := x.palWait.map (fun v => if v = (p.val, f, m) then (p.val, f, 2) else v) })).send (.pal a f))) ∧
    (2 ≤ m → exec (.palAckTimeout a p) s = .next (raise (16 + 2 * (4 * a.val + p.val)) (s.modAct a.val (fun x => { x with
      palWait := x.palWait.eraseP (fun v => v.1 == p.val) })))))

/-- The cut-off freezes the work list, a commit is taken, refused or overruns, and a deadline samples READY.  CUTOFF
moves the shaft to its angle, classes age and the work list is frozen for the next revolution. A commit at or
after its index sets OVERRUN and is counted; a commit whose plan keeps R21 (the plan is the command's operand:
log 7) fills the four pending banks and marks its work placed. At its deadline a seek slot or a ready slot is
kept, a write not ready is dropped as starved front and a read as starved back. A buffer grant and a DMA
completion pulse make a slot ready unless its deadline has passed.  Cites: R19, R20, R21, R24, R25, R148, R240,
log 3, log 7. -/
def Obligations.PlannerAndSlotTimes : Prop :=
  (∀ s : State, s.spinning = true → s.rpl.planning ≠ some (s.atb.rev + 1) →
    s.atb.ac.toNat ≤ 4194304 - s.fld 0x1708 0 21 →
    let z := ((((s.toAngle (4194304 - s.fld 0x1708 0 21)).noPlans).testSets).settle).pumpParity.ageClasses
    exec .cutoff s = .next { z with
      rpl.planning := some (z.atb.rev + 1), rpl.frozen := (z.rpl.work.filter (fun w => !w.placed)).map (·.num) }) ∧
  (∀ (a : Fin 4) (plan : List PlanSlot) (s : State), s.spinning = true → s.rpl.planning = some s.atb.rev →
    exec (.rplCommit a plan) s = .next ((s.setW1c 0x170C a.val).count (138 + a.val) 1)) ∧
  (∀ (a : Fin 4) (plan : List PlanSlot) (s : State), s.spinning = true → s.rpl.planning = some (s.atb.rev + 1) →
    (∀ q < 4, tget false s.seq.committed (4 * a.val + q) = false) → s.planOk a.val plan = true →
    let z := ((List.range 4).foldl (fun (z : State) q =>
      z.putBank (4 * a.val + q) (plan.filter (fun p => p.ch.val == 4 * a.val + q))) s).countRevs plan
    exec (.rplCommit a plan) s = .next { z with
      rpl.lastCommit := z.atb.ac
      rpl.work := z.rpl.work.map (fun w =>
        if ((plan.filter (fun p => p.entry.kind.toNat != 3)).map (·.work)).contains w.num then { w with placed := true }
        else w) }) ∧
  (∀ (a : Fin 4) (st : BitVec 22) (s : State) (k i : Nat) (sl : Slot), s.spinning = true → s.dueSlots a.val st = [(k, i)] →
    s.slotAt k i = some sl → sl.e.kind.toNat = 3 → sl.ready = true →
    exec (.slotDeadline a st) s = .next ((s.toAngle (st.toNat - s.fld 0x1410 0 17)).modSlot k i
      (fun x => { x with due := true }))) ∧
  (∀ (a : Fin 4) (st : BitVec 22) (s : State) (k i : Nat) (sl : Slot), s.spinning = true → s.dueSlots a.val st = [(k, i)] →
    s.slotAt k i = some sl → isWriteKind sl.e.kind.toNat = true → sl.ready = false →
    exec (.slotDeadline a st) s = .next ((((s.toAngle (st.toNat - s.fld 0x1410 0 17)).modSlot k i
      (fun x => { x with due := true })).loadSet k sl.e).dropSlot k i .starvedFront false)) ∧
  (∀ (a : Fin 4) (st : BitVec 22) (s : State) (k i : Nat) (sl : Slot), s.spinning = true → s.dueSlots a.val st = [(k, i)] →
    s.slotAt k i = some sl → isReadKind sl.e.kind.toNat = true → sl.ready = false →
    exec (.slotDeadline a st) s = .next ((((s.toAngle (st.toNat - s.fld 0x1410 0 17)).modSlot k i
      (fun x => { x with due := true })).loadSet k sl.e).dropSlot k i .starvedBack false)) ∧
  (∀ (c : Fin 16) (b : Bool) (i : Fin 1536) (s : State) (sl : Slot), s.slotAt (bankKey c.val b) i.val = some sl →
    s.rpl.waiting.contains (c.val, b, i.val) = true → s.bufFree sl.e.bufref.toNat (bankKey c.val b) i.val = true →
    let z : State := { s with rpl.waiting := s.rpl.waiting.filter (· != (c.val, b, i.val)) }
    exec (.bufferGrant c b i) s = .next (if sl.due || sl.isOver then z
      else z.modSlot (bankKey c.val b) i.val (fun x => { x with ready := true }))) ∧
  (∀ (n : Fin 32) (s : State), (s.dmaCh n.val).busy = true → (s.dmaCh n.val).remain = 0 → (s.dmaCh n.val).dst = .none →
    exec (.completionPulse n) s = .next (s.modDma n.val (fun _ => DmaCh.init))) ∧
  (∀ (n : Fin 32) (s : State) (c i : Nat) (b : Bool) (sl : Slot), (s.dmaCh n.val).busy = true → (s.dmaCh n.val).remain = 0 →
    (s.dmaCh n.val).dst = .slot c b i → s.slotAt (bankKey c b) i = some sl → (s.dmaCh n.val).poison = false →
    isReadKind sl.e.kind.toNat = true → (∀ w, s.workOf sl.work = some w → w.kind = sl.e.kind) → sl.due = false →
    sl.isOver = false →
    exec (.completionPulse n) s = .next ((s.modDma n.val (fun _ => DmaCh.init)).modSlot (bankKey c b) i
      (fun x => { x with ready := true })))

/-- At its start angle a slot seeks, reads, writes or is dropped, and at its end it is retired.  At a slot's start
angle: a slot not armed is dropped as late (WASTED and LATE); an armed seek starts and is retired; a read or
write whose head is not settled is dropped as WASTED; a read executes with cleared result flags; a write whose
gate conditions hold turns the gate on and one block is written at its head, track and position; a write whose
gate is held off writes nothing and raises WUS. At its end angle within the revolution an executing slot is
retired and the gate goes off.  Cites: R28, R30, R81, R84, R86, R153, R423, log 3, log 29. -/
def Obligations.SlotsStartAndEnd : Prop :=
  (∀ (c : Fin 16) (i : Fin 1536) (s : State) (sl : Slot), s.slotAt (s.activeKey c.val) i.val = some sl →
    s.spinning = true → sl.st = .planned →
    exec (.slotStart c i) s = .next ((s.toAngle sl.e.startAc.toNat).dropSlot (s.activeKey c.val) i.val .wasted true)) ∧
  (∀ (c : Fin 16) (i : Fin 1536) (s : State) (sl : Slot), s.slotAt (s.activeKey c.val) i.val = some sl →
    s.spinning = true → sl.st = .armed → sl.e.kind.toNat = 3 → (s.act (c.val / 4)).st = .following →
    exec (.slotStart c i) s = .next (((s.toAngle sl.e.startAc.toNat).startSeek (c.val / 4) sl.e.hs sl.e.trk sl.e.tpos).endSlot
      (s.activeKey c.val) i.val .retired false)) ∧
  (∀ (c : Fin 16) (i : Fin 1536) (s : State) (sl : Slot), s.slotAt (s.activeKey c.val) i.val = some sl →
    s.spinning = true → sl.st = .armed → sl.e.kind.toNat ≠ 3 →
    (s.toAngle sl.e.startAc.toNat).settledFor (c.val / 4) sl.e = false →
    exec (.slotStart c i) s = .next (((s.toAngle sl.e.startAc.toNat).dropSlot (s.activeKey c.val) i.val .wasted
      false).notSettled (c.val / 4))) ∧
  (∀ (c : Fin 16) (i : Fin 1536) (s : State) (sl : Slot), s.slotAt (s.activeKey c.val) i.val = some sl →
    s.spinning = true → sl.st = .armed → isReadKind sl.e.kind.toNat = true →
    (s.toAngle sl.e.startAc.toNat).settledFor (c.val / 4) sl.e = true →
    exec (.slotStart c i) s = .next ((((s.toAngle sl.e.startAc.toNat).modSlot (s.activeKey c.val) i.val (fun x => { x with
        st := .executing })).modCh c.val (fun x => { x with flags := { x.flags with
          sync1 := false, sync2 := false, decOk := false, decFail := false } })).retain c.val
      (slotHead sl.e (c.val / 4)) (slotTrack sl.e) sl.e.pos.toNat (sl.e.kind.toNat == 6))) ∧
  (∀ (c : Fin 16) (i : Fin 1536) (s : State) (sl : Slot), s.slotAt (s.activeKey c.val) i.val = some sl →
    s.spinning = true → sl.st = .armed → isWriteKind sl.e.kind.toNat = true →
    (s.toAngle sl.e.startAc.toNat).settledFor (c.val / 4) sl.e = true →
    ((s.toAngle sl.e.startAc.toNat).modSlot (s.activeKey c.val) i.val (fun x => { x with
      st := .executing })).mayWrite (slotHead sl.e (c.val / 4)) = false →
    ∃ t, exec (.slotStart c i) s = .next t ∧ t.sent = s.sent ∧ (t.ch c.val).gate = false ∧
      (t.ch c.val).flags.wus = true) ∧
  (∀ (c : Fin 16) (i : Fin 1536) (s : State) (sl : Slot), s.slotAt (s.activeKey c.val) i.val = some sl →
    s.spinning = true → sl.st = .armed → isWriteKind sl.e.kind.toNat = true →
    (s.toAngle sl.e.startAc.toNat).settledFor (c.val / 4) sl.e = true →
    ((s.toAngle sl.e.startAc.toNat).modSlot (s.activeKey c.val) i.val (fun x => { x with
      st := .executing })).mayWrite (slotHead sl.e (c.val / 4)) = true →
    ∃ t, exec (.slotStart c i) s = .next t ∧ (t.ch c.val).gate = true ∧ t.buf = s.buf ∧
      ∃ bytes, t.sent = .write (fin64 (slotHead sl.e (c.val / 4))) (BitVec.ofNat 24 (slotTrack sl.e)) sl.e.pos bytes :: s.sent) ∧
  (∀ (c : Fin 16) (i : Fin 1536) (s : State) (sl : Slot), s.slotAt (s.pendKey c.val) i.val = none →
    s.slotAt (s.activeKey c.val) i.val = some sl → sl.st = .executing →
    let e := sl.e.startAc.toNat + endSpan (s.slotBpr (c.val / 4) sl.e)
    let y := s.toAngle e
    let z := if isWriteKind sl.e.kind.toNat then y.modCh c.val (fun x => { x with gate := false }) else y
    e < 4194304 → exec (.slotEnd c i) s = .next ((z.endSlot (s.activeKey c.val) i.val .retired false).lateStaged c.val))

/-- A refused action write changes only the ignored-write record.  Outside DARK, a park, unpark, channel self-test
or map maintenance write by a writer with no installer session, a SAVE, CLEAR or part-reset write with neither
an installer nor an operator session, and a servo-writing command of a decommissioned part: each is ignored and
counted with the offset of its register and cause 1, and nothing else changes.  Cites: R6, R380, R453, R454. -/
def Obligations.RoleRefusedWritesChangeNothing : Prop :=
  ∀ (w : Writer) (s : State), s.pwr.st ≠ .dark →
    let refused : Nat → Result := fun off => .next (s.denyWrite.ignoreWrite w off 1)
    (s.sessionFor w [.installer] = none →
      (∀ a : Fin 4, exec (.actParkCmd w a) s = refused (0x181C + 16 * a.val) ∧
        exec (.actUnparkCmd w a) s = refused (0x181C + 16 * a.val)) ∧
      (∀ c : Fin 16, let o := 0x2014 + 0x80 * c.val
        exec (.chBistMemory w c) s = refused o ∧ exec (.chBistAdc w c) s = refused o ∧
        exec (.chBistLoopback w c) s = refused o ∧ exec (.chBistDecoder w c) s = refused o ∧
        exec (.chBistAll w c) s = refused o ∧ exec (.chBistAbort w c) s = refused o) ∧
      exec (.mapClean w) s = refused 0x3008 ∧ exec (.mapCleanInv w) s = refused 0x3008 ∧
      exec (.mapZero w) s = refused 0x3008 ∧ exec (.mapLockFill w) s = refused 0x3008 ∧
      exec (.mapCleanAll w) s = refused 0x3008 ∧ exec (.mapCleanInvAll w) s = refused 0x3008 ∧
      (s.sessionFor w [.operator] = none → exec (.genSave w) s = refused 0x0010 ∧ exec (.genClear w) s = refused 0x0010 ∧
        exec (.partResetWrite w) s = refused 0x500C)) ∧
    (s.nv.life = .decommissioned → ∀ a : Fin 4,
      exec (.sswSeedCheck w a) s = refused 0x1860 ∧ exec (.sswPropagate w a) s = refused 0x1860 ∧
      exec (.sswVerify w a) s = refused 0x1860 ∧ exec (.sswCalibrate w a) s = refused 0x1860 ∧
      exec (.sswPause w a) s = refused 0x1860 ∧ exec (.sswAbort w a) s = refused 0x1860)

/-- An action write by the holder of its role is recorded in the audit log and acts.  Outside DARK and with room in
the audit log, with the role named: park, unpark, servo-writing start and stop, channel self-test start and
abort, map maintenance, SAVE, CLEAR, part reset and the counter preset each write the audit record 0xA005 with
offset, value, role and session and then have their effect and no other.  Cites: R78, R98, R143, R248, R376,
R398, R428, R432, R453, R457. -/
def Obligations.AcceptedActionWritesAct : Prop :=
  ∀ (w : Writer) (s : State) (x : Session), s.pwr.st ≠ .dark → s.auditBlocked = false →
    let written : Nat → Nat → State := fun off v => s.audit 0xA005 0 [off, v, x.role.code, x.num.val]
    (s.sessionFor w [.installer] = some x →
      (∀ a : Fin 4,
        exec (.actParkCmd w a) s = .next ((written (0x181C + 16 * a.val) 1).modAct a.val (fun y => { y with
          reqPark := true, parkPend := y.st != .parked && y.st != .unloading && y.st != .fenced, retryWait := false })) ∧
        exec (.actUnparkCmd w a) s = .next (((written (0x181C + 16 * a.val) 2).modAct a.val (fun y => { y with
          reqPark := false, parkPend := false, retryWait := false, tries := 0 })).unpark a.val)) ∧
      (s.nv.life = .integration → s.srv.sswBusy = false → ∀ a : Fin 4,
        exec (.sswVerify w a) s = .next ((written 0x1860 (16 * a.val + 3)).sswStart a 3) ∧
        exec (.sswCalibrate w a) s = .next ((written 0x1860 (16 * a.val + 4)).sswStart a 4) ∧
        (s.lastFld 0x1864 24 6 / 16 = a.val →
          exec (.sswSeedCheck w a) s = .next ((written 0x1860 (16 * a.val + 1)).sswStart a 1) ∧
          exec (.sswPropagate w a) s = .next ((written 0x1860 (16 * a.val + 2)).sswStart a 2))) ∧
      (s.nv.life = .integration → s.srv.sswBusy = true → ∀ a : Fin 4,
        exec (.sswPause w a) s = .next { written 0x1860 (16 * a.val + 14) with srv.sswStop := 14 } ∧
        exec (.sswAbort w a) s = .next { written 0x1860 (16 * a.val + 15) with srv.sswStop := 15 }) ∧
      (∀ c : Fin 16, (s.ch c.val).fenced = true → (s.ch c.val).bist = false →
        let o := 0x2014 + 0x80 * c.val
        let started : Nat → State := fun t => (written o t).modCh c.val (fun y => { y with
          bist := true, bistTest := BitVec.ofNat 4 t })
        exec (.chBistMemory w c) s = .next (started 1) ∧ exec (.chBistAdc w c) s = .next (started 2) ∧
        exec (.chBistLoopback w c) s = .next (started 3) ∧ exec (.chBistDecoder w c) s = .next (started 4) ∧
        exec (.chBistAll w c) s = .next (started 15)) ∧
      (∀ c : Fin 16, (s.ch c.val).fenced = true → (s.ch c.val).bist = true →
        exec (.chBistAbort w c) s = .next ((written (0x2014 + 0x80 * c.val) 14).modCh c.val (fun y => { y with
          bist := false, bistRes := 3 }))) ∧
      (s.map.maint = none → s.map.disabling = false →
        let line := s.lastFld 0x300C 0 24
        let busy : Nat → State := fun op => { written 0x3008 op with
          map.maint := some (BitVec.ofNat 4 op, BitVec.ofNat 24 line) }
        exec (.mapClean w) s = .next (busy 1) ∧ exec (.mapCleanInv w) s = .next (busy 2) ∧
        exec (.mapZero w) s = .next (busy 3) ∧ exec (.mapCleanAll w) s = .next (busy 8) ∧
        exec (.mapCleanInvAll w) s = .next (busy 9) ∧
        ((s.mapFind line).isSome = true →
          (List.range 8).any (fun k => s.wayLocked k && (s.mapWay (mapSet line) k).isNone) = true →
          exec (.mapLockFill w) s = .next (busy 4)) ∧
        ((s.mapFind line) = none → s.map.fills = [] →
          (List.range 8).any (fun k => s.wayLocked k && (s.mapWay (mapSet line) k).isNone) = true →
          exec (.mapLockFill w) s = .next { busy 4 with map.fills := [(line, false)] }))) ∧
    (s.sessionFor w [.installer, .operator] = some x →
      (s.gen.saving = none →
        exec (.genSave w) s = .next ((written 0x0010 0x80000000).saveClear true false ((s.sessionsOf w).map (·.role))) ∧
        exec (.genClear w) s = .next ((written 0x0010 0x40000000).saveClear false true ((s.sessionsOf w).map (·.role)))) ∧
      exec (.partResetWrite w) s = .next (State.resetParked { (written 0x500C 1).pfail with pwr.rstPend := true })) ∧
    (s.sessionFor w [.operator] = some x → ∀ v : Word, s.presetOk v.toNat = true →
      let z := (written 0x4810 v.toNat).putFld 0x4810 0 16 (bitsOf v.toNat 0 16)
      exec (.pmcPreset w v) s = .next (z.preset (bitsOf v.toNat 0 16)))

/-- DARK wake, the counter snapshot, clearing fault status and the mailbox need no role.  In DARK a wake write
leaves DARK, and outside it is ignored with cause 2. Outside DARK: a snapshot copies the counters and overflow
bits and counts; a non-zero write to FLT_STATUS clears those causes; MAILBOX GO and RELEASE by another than the
claimer are ignored with cause 6, and by the claimer GO starts the message and RELEASE drops the claim, or keeps
it while busy.  Cites: R402, R413, R427, R440, R447, R453, log 65. -/
def Obligations.ActionWritesWithoutARole : Prop :=
  ∀ (w : Writer) (s : State),
    (s.pwr.st = .dark → exec (.darkWake w) s = .next (s.leaveDark.applyLatched raise)) ∧
    (s.pwr.st ≠ .dark → exec (.darkWake w) s = .next (s.ignoreWrite w 0x5004 2)) ∧
    (s.pwr.st ≠ .dark →
      exec (.pmcSnapTake w) s = .next { s with
        pmc.snap := s.pmc.ctr, pmc.snapOvf := s.pmc.ovf, pmc.seq := s.pmc.seq + 1 } ∧
      (∀ (k : Fin 4) (v : Word), v ≠ 0 → exec (.fltStatusClear w k v) s =
        .next ((s.clearStatus (BitVec.ofNat 128 (v.toNat * 2 ^ (32 * k.val)))).wakeUnits)) ∧
      (s.mboxOther w = true → exec (.mailboxGo w) s = .next (s.ignoreWrite w 0x3824 6) ∧
        exec (.mailboxRelease w) s = .next (s.ignoreWrite w 0x3824 6)) ∧
      (s.mboxOther w = false → s.sec.mbox.busy = false →
        exec (.mailboxGo w) s = .next (State.mboxGo { s with sec.mbox.claim := some (origin w) }) ∧
        exec (.mailboxRelease w) s = .next { s with sec.mbox.claim := none }) ∧
      (s.mboxOther w = false → s.sec.mbox.busy = true →
        exec (.mailboxRelease w) s = .next { s with sec.mbox.claim := some (origin w) }))

/-- A setting write by the holder of its role changes its field and what the field governs.  Outside DARK: fence
requests of channels, the recovery unit, compression engines, crypto lanes and ports, DMA pauses, disabling the
map cache, the buffer diagnostic write and YIELD, by the session the field names and with room in the audit log,
are audited, change their field, are mirrored to the partner where the register is, and act; the four bits of
HQI_CTL need no role, change their field and start or stop the queues or the gateway.  Cites: R6, R142, R202,
R242, R250, R263, R275, R339, R373, R398, R453, log 65. -/
def Obligations.AcceptedSettingWritesAct : Prop :=
  ∀ (w : Writer) (s : State), s.pwr.st ≠ .dark →
    let mirrored : Nat → State → State := fun off z => z.mirror 6 (leBytes 4 off ++ leBytes 4 (z.lastWord off).toNat)
    let dword : Nat → Nat → Nat → Nat → Nat := fun off lsb n v => (putField (s.lastWord off) lsb n v).toNat
    (∀ x : Session, s.sessionFor w [.installer] = some x → s.auditBlocked = false →
      let written : Nat → Nat → State := fun off v => s.audit 0xA005 0 [off, v, x.role.code, x.num.val]
      (∀ (c : Fin 16) (on : Bool), let o := 0x2000 + 0x80 * c.val
        let v := dword o 31 1 (b2n on)
        exec (.chFenceReq w c on) s = .next (mirrored o
          (((written o v).putFld o 31 1 (b2n on)).putFld o 30 1 (s.lastFld o 30 1)))) ∧
      (s.sessionFor w [.operator] = none →
        (∀ on : Bool, exec (.xtpFenceReq w on) s = .next (mirrored 0x3C00
          ((written 0x3C00 (dword 0x3C00 0 1 (b2n on))).putFld 0x3C00 0 1 (b2n on))).xtpFence) ∧
        (∀ m : BitVec 4, exec (.cmpFenceReq w m) s = .next (mirrored 0x3400
          ((written 0x3400 (dword 0x3400 4 4 m.toNat)).putFld 0x3400 4 4 m.toNat)).cmpFences)) ∧
      (∀ m : BitVec 4, exec (.cryFenceReq w m) s = .next (mirrored 0x3800
        ((written 0x3800 (dword 0x3800 0 4 m.toNat)).putFld 0x3800 0 4 m.toNat)).cryFences) ∧
      (∀ m : Word, exec (.dmaPauseWrite w m) s = .next (mirrored 0x2C00
        ((written 0x2C00 m.toNat).putFld 0x2C00 0 32 m.toNat)).dmaResume) ∧
      (s.lastFld 0x3000 8 8 ≠ 255 → bitOf (s.lastWord 0x3000).toNat 0 = true →
        ∃ t, exec (.mapDisable w) s = .next t ∧
        t.map.disabling = true ∧ t.flag 0x3000 0 = true ∧ t.map.lines = s.map.lines) ∧
      (∀ (p : Fin 5) (on : Bool), let o := 0x0810 + 16 * p.val
        let z := ((written o (dword o 0 1 (b2n on))).putFld o 1 1 (s.lastFld o 1 1)).putFld o 0 1 (b2n on)
        exec (.portFenceReq w p on) s = .next (if (z.lastWord o).toNat = (s.lastWord o).toNat then z else z.portCtl p))) ∧
    (∀ (x : Session) (v : Word), s.sessionFor w [.maker, .installer] = some x → s.auditBlocked = false →
      exec (.bufDiagWrite w v) s = .next (mirrored 0x2830
        ((((s.audit 0xA005 0 [0x2830, v.toNat, x.role.code, x.num.val]).putFld 0x2830 31 1 (bitsOf v.toNat 31 1)).putFld
          0x2830 30 1 (bitsOf v.toNat 30 1)).putFld 0x2830 0 8 (bitsOf v.toNat 0 8)))) ∧
    (∀ x : Session, s.sessionFor w [.operator] = some x → s.sessionFor w [.installer] = none → s.auditBlocked = false →
      s.mayYield = true → exec (.yield w) s = .next { (s.audit 0xA005 0 [0x0C00, dword 0x0C00 0 1 1, x.role.code,
        x.num.val]).putFld 0x0C00 1 1 (s.lastFld 0x0C00 1 1) with pair.yielding := true }) ∧
    (s.lastFld 0x0428 0 4 ≠ 0 → exec (.hqiEnable w) s = .next ((mirrored 0x0400
      ((s.putFld 0x0400 1 1 (s.lastFld 0x0400 1 1)).putFld 0x0400 0 1 1)).hqiCtl (s.lastWord 0x0400).toNat)) ∧
    exec (.hqiDisable w) s = .next ((mirrored 0x0400
      ((s.putFld 0x0400 1 1 (s.lastFld 0x0400 1 1)).putFld 0x0400 0 1 0)).hqiCtl (s.lastWord 0x0400).toNat) ∧
    exec (.gwEnable w) s = .next ((mirrored 0x0400
      ((s.putFld 0x0400 1 1 1).putFld 0x0400 0 1 (s.lastFld 0x0400 0 1))).hqiCtl (s.lastWord 0x0400).toNat) ∧
    exec (.gwDisable w) s = .next ((mirrored 0x0400
      ((s.putFld 0x0400 1 1 0).putFld 0x0400 0 1 (s.lastFld 0x0400 0 1))).hqiCtl (s.lastWord 0x0400).toNat)

/-- Register writes are judged by length, address and index, and SMBus transfers by their check byte.  In DARK a
write to a register that DARK does not serve has no effect. Outside DARK: a wrong length is ignored with cause 5
and an unmapped offset with cause 4; a single dword to a register is judged field by field. An SMBus write with
a bad check is ignored with cause 8 and status 5, and a good one performs the request and keeps its status.
SET_READ with a good check names the next read; READ answers status 2 without one or with a length that is not a
multiple of 4, else performs the read and answers status and data; STATUS answers the kept status.  Cites: R450,
R451, R453, R454, R458, log 66. -/
def Obligations.RegisterRequestsAndSmbus : Prop :=
  (∀ (w : Writer) (off : BitVec 16) (data : List Word) (s : State), s.pwr.st = .dark → darkReg off.toNat = false →
    exec (.registerWrite w off data) s = .next s) ∧
  (∀ (w : Writer) (off : BitVec 16) (data : List Word) (s : State), s.pwr.st ≠ .dark →
    data = [] ∨ maxDwords w.chan < data.length →
    exec (.registerWrite w off data) s = .next (s.ignoreWrite w off.toNat 5)) ∧
  (∀ (w : Writer) (off : BitVec 16) (v : Word) (s : State), s.pwr.st ≠ .dark → off.toNat % 4 = 0 →
    (indexRow off.toNat).isSome = true → isMapped off.toNat = false → off.toNat ≠ 0x3824 →
    exec (.registerWrite w off [v]) s = .next (s.ignoreWrite w off.toNat 4)) ∧
  (∀ (w : Writer) (off : BitVec 16) (v : Word) (s : State) (d : RegDef), s.pwr.st ≠ .dark → off.toNat % 4 = 0 →
    (indexRow off.toNat).isSome = true → isMailbox off.toNat = false → off.toNat ≠ 0x3824 → regAt off.toNat = some d →
    exec (.registerWrite w off [v]) s = .next (s.writeReg w d off.toNat v.toNat).1) ∧
  (∀ (off : BitVec 16) (data : List Word) (s : State), exec (.smbWrite off data false) s =
    .next { s.ignoreWrite smbus off.toNat 8 with gen.smbStatus := 5 }) ∧
  (∀ (off : BitVec 16) (data : List Word) (s : State),
    let r := s.writeReq smbus off.toNat data
    exec (.smbWrite off data true) s = .next { r.1 with gen.smbStatus := BitVec.ofNat 8 r.2 }) ∧
  (∀ (off : BitVec 16) (len : Byte) (s : State),
    exec (.smbSetRead off len true) s = .next { s with gen.smbNext := some (off, len) } ∧
    exec (.smbSetRead off len false) s = .next s) ∧
  (∀ s : State, s.gen.smbNext = none → exec (.smbRead true) s = .next { s with gen.smbOut := [2] }) ∧
  (∀ (off : BitVec 16) (len : Byte) (s : State), s.gen.smbNext = some (off, len) → len.toNat % 4 ≠ 0 →
    exec (.smbRead true) s = .next { s with gen.smbOut := 2 :: List.replicate len.toNat 0 }) ∧
  (∀ (off : BitVec 16) (len : Byte) (s : State), s.gen.smbNext = some (off, len) → len.toNat % 4 = 0 →
    let r := s.readReq .smbus off.toNat (len.toNat / 4)
    ∃ t, exec (.smbRead true) s = .next t ∧ t = { r.2.2 with gen.smbOut := t.gen.smbOut } ∧
      t.gen.smbOut.head? = some (BitVec.ofNat 8 r.1) ∧ t.gen.smbOut.length = len.toNat + 1) ∧
  (∀ s : State, exec (.smbStatus true) s = .next { s with gen.smbOut := [s.gen.smbStatus] })

/-- Compression, decompression, encryption and reconstruction units finish their jobs.  A compression engine whose
DMA channel is busy stalls; else its chunk takes its padded length when that is shorter than the raw chunk, and
is stored raw otherwise, each with its counter. The padded length is the least multiple of 256 bytes that holds
the data. CMP_OUTPUT_RESUME ends a stall. A decompressed chunk ends as its locator and stored bytes say. A
crypto lane whose DMA channel is free counts its unit, encrypts or decrypts it and takes new work; with the
channel busy it waits. A reconstruction runs unless XTP is fenced.  Cites: R182, R198, R201, R204, R205, R212,
R213, log 35. -/
def Obligations.ChunkPathUnits : Prop :=
  (∀ (k : Fin 4) (n z c : Nat) (cs : Word) (j : ChunkJob) (s : State), (s.engine k.val).job = .compress z c cs →
    (s.engine k.val).fenced = false → (s.engine k.val).stalled = false →
    ((s.dmaCh (16 + k.val)).busy = true → exec (.chunkCompressDone k n) s =
      .next (s.modEngine k.val (fun e => { e with stalled := true }))) ∧
    ((s.dmaCh (16 + k.val)).busy = false →
      s.cmp.jobs.find? (fun j => j.zone == z && j.chunk == c && j.csec == cs) = some j →
      let put : ChunkJob → State := fun x => { s with cmp.jobs := s.cmp.jobs.map (fun y =>
        if y.zone = z ∧ y.chunk = c ∧ y.csec = cs then x else y) }
      (paddedLen n < 4096 * j.nblk → exec (.chunkCompressDone k n) s =
        .next (((put { j with slen := some (paddedLen n) }).count (152 + k.val) 1).engineFree k.val)) ∧
      (4096 * j.nblk ≤ paddedLen n → exec (.chunkCompressDone k n) s =
        .next (((put (rawJob j)).count (156 + k.val) 1).engineFree k.val)))) ∧
  (∀ n : Nat, 256 ∣ paddedLen n ∧ n ≤ paddedLen n ∧ paddedLen n < n + 256) ∧
  (∀ (k : Fin 4) (s : State), exec (.cmpOutputResume k) s =
    .next (s.modEngine k.val (fun e => { e with stalled := false }))) ∧
  (∀ (k : Fin 4) (z c : Nat) (q : Fin 128) (t : BitVec 16) (cmd : Cmd) (l : Locator) (s : State),
    (s.engine k.val).job = .inflate z c q t → (s.engine k.val).fenced = false → s.cmd? q.val t = some cmd →
    s.locator z c = some l → exec (.decompressDone k) s =
      .next ((s.endChunk cmd (z, c) (inflateEnd l (s.storedBytes z l))).engineFree k.val)) ∧
  (∀ (n : Fin 4) (z b : Nat) (dec : Bool) (s : State), (s.dmaCh (20 + n.val)).busy = false →
    s.cry.lane.find? (fun e => e.1 == n.val) = some (n.val, z, b, dec) →
    let y : State := State.count { s with cry.lane := s.cry.lane.filter (fun e => e.1 != n.val) } (161 + n.val) 1
    let x := if dec then y.decryptUnit z b else y.encryptUnit z b
    exec (.cryUnitDone n) s =
      .next ((((x.cryRequested n.val).startLanes).pumpWrites (some (20 + n.val))).pumpParity.settle)) ∧
  (∀ (n : Fin 4) (s : State), (s.dmaCh (20 + n.val)).busy = true → exec (.cryUnitDone n) s = .next s) ∧
  (∀ (a : Fin 4) (e : RecEnt) (s : State), s.xtp.fenced = false → s.readyL6 a.val = some e →
    exec (.reconstructDone a) s = .next (s.reconstruct e).settle) ∧
  (∀ (a : Fin 4) (s : State), s.xtp.fenced = true → exec (.reconstructDone a) s = .next s)

/-- Commit records, checkpoints, copies in place and index builds take effect when written.  A commit record that
may be written fails its unit when the journal is stopped, waits for a free slot when there is none, and else is
tried and commits or fails its unit by the outcome of its two copies; after PFAIL_N falls it has no effect. A
finished checkpoint becomes the checkpoint and a type-4 record is written. A finished copy in place of the
oldest committed conventional unit writes its type-3 record and drops the staging. A locator index build merges
its locators, or on failure raises source 68, drops the zone index and ends the waiting commands with INTERNAL
(log 38).  Cites: R115, R215, R216, R217, R218, R219, R220, R254, log 37, log 38. -/
def Obligations.CommitsCheckpointsAndCopies : Prop :=
  (∀ (cs : Word) (ok1 ok2 : Bool) (u : CUnit) (s : State), s.unit? cs = some u → s.mayCommit u = true →
    s.spn.pfailLow = false →
    (s.zon.jstop = true → exec (.commitRecordWrite cs ok1 ok2) s = .next (s.failCommit u)) ∧
    (s.zon.jstop = false → s.slotFree = false → exec (.commitRecordWrite cs ok1 ok2) s = .next s.jwait) ∧
    (s.zon.jstop = false → s.slotFree = true → ∃ z ok, s.tryRec (s.unitRec u) ok1 ok2 = (z, ok) ∧
      exec (.commitRecordWrite cs ok1 ok2) s = .next (if ok then z.commitUnit u else z.failCommit u))) ∧
  (∀ (cs : Word) (ok1 ok2 : Bool) (s : State), s.spn.pfailLow = true → exec (.commitRecordWrite cs ok1 ok2) s = .next s) ∧
  (∀ (c : Ckpt) (s : State), s.zon.ckptBusy = some c → s.zon.jstop = false →
    let z : State := { s with
      nv.ckpt := some c, zon.ckptBusy := none, recs.gen := s.recs.gen + 1, rcv.clean := []
      zon.unchk := (s.jrecs.filter (fun r => decide (c.jseq.toNat < r.jseq.toNat))).length }
    exec .checkpointDone s = .next ((z.putRec { JRec.of 4 0 with firstSbi := c.jseq }).pumpWrites none)) ∧
  (∀ (cs : Word) (u : CUnit) (s : State), s.unit? cs = some u → u.conv = true → u.committed = true →
    (∀ x ∈ s.zon.staged, cs.toNat ≤ x.toNat) → s.copiesDone u = true → s.zon.jstop = false → s.slotFree = true →
    let j := ((s.jrecs.find? (fun r => r.jtype == 2 && r.csec == cs)).map (·.jseq)).getD 0
    let y := s.putRec { JRec.of 3 u.zone with csec := cs, firstSbi := j }
    let z : State := { y with
      zon.staged := y.zon.staged.filter (· != cs), cmp.units := y.cmp.units.filter (fun v => v.csec != cs)
      cmp.blks := y.cmp.blks.filter (fun b => b.csec != cs)
      nv2.descs := y.nv2.descs.filter (fun e => e.1 != cs.toNat) }
    exec (.copyInPlaceDone cs) s = .next ((z.pumpWrites none).wakeWaiters.wakeData.settle)) ∧
  (∀ (z : Nat) (ls : List Locator) (s : State), s.zon.builds.contains z = true →
    exec (.locatorIndexBuildDone z true ls) s = .next (State.modZone { s with
      zon.builds := s.zon.builds.filter (· != z) } z (fun x => { x with locs := mergeLocs ls x.locs })).settle) ∧
  (∀ (z : Nat) (ls : List Locator) (s : State), s.zon.builds.contains z = true →
    let y := (raise 68 s).modZone z (fun x => { x with idx := none, locs := [] })
    let x : State := { y with zon.builds := y.zon.builds.filter (· != z), zon.used := y.zon.used.filter (· != z) }
    let waiting := s.hqi.cmds.filter (fun c => (s.readBlocks c).any (fun p => p.1 == z && s.srcOf c p == .wait))
    exec (.locatorIndexBuildDone z false ls) s =
      .next (waiting.foldl (fun (v : State) c => v.endCmd c stInternal 0) x).settle)

/-- Buffer scrubbing, initialisation, DMA bursts and map cache operations.  A scrub step reads one 64-byte unit and
moves on, wrapping at the end of memory, and rewrites a line whose corrected count reached the threshold.
Initialisation clears memory and makes parts 2 and 10 ready. A DMA burst outside its permitted regions ends the
channel with its bit and source 60; one inside moves at most 512 bytes, and one that does not read memory leaves
it alone. A drained pause is reported. A fill enters its line; clean, clean and invalidate, zero and the all-
lines forms do what MAP_CMD says, zero writing 64 zero bytes and no other; disabling ends with every line empty
and the enable bit 0.  Cites: R229, R233, R235, R238, R239, R242, R246, R248, R250, log 36. -/
def Obligations.BufferDmaAndMapCache : Prop :=
  (∀ (syn : List Byte) (ok : Bool) (s : State), s.flag 0x2804 0 = true → s.ready 2 = true → s.buf.selfRefresh = false →
    s.pwr.st ≠ .dark → ∃ t, exec (.sheepdogStep syn ok) s = .next t ∧
      t.buf.mem = (s.eccReads (8 * s.buf.pos) ok bufUnit (syn.take 8)).buf.mem ∧
      t.buf.pos = (if memTop / 64 ≤ s.buf.pos + 1 then 0 else s.buf.pos + 1)) ∧
  (∀ (i : Fin 64) (x : CeEnt) (s : State), s.buf.ce.find? (fun e => e.1 == i.val) = some (i.val, x) → x.rewritten = false →
    s.fld 0x2800 0 8 ≤ x.count → s.buf.selfRefresh = false →
    exec (.sheepdogRewrite i) s = .next ((State.rewriteGranule { s with buf.ce := s.buf.ce.map (fun e =>
      if e.1 = i.val then (e.1, { e.2 with rewritten := true }) else e) } (x.word / 8)).event 0x5000 1
        [x.word, x.count, x.syn.toNat])) ∧
  (∀ s : State, s.ready 2 = false → s.buf.selfRefresh = false → s.pwr.bufActive = true → ∃ t, exec .bufInitDone s = .next t ∧
    t.buf.mem = [] ∧ t.buf.poison = [] ∧ t.ready 2 = true ∧ t.ready 10 = true ∧ (∀ a, t.load a 1 = [0])) ∧
  (∀ (syn : List Byte) (n : Nat) (g : Bool) (s : State), s.dmaNext = some (n, g) →
    dmaAllowed n (s.dmaCh n).addr (s.dmaCh n).remain = false →
    exec (.dmaBurst syn) s = .next (raise 60 ((s.modDma n (fun c => { c with
      busy := false, remain := 0, dst := .none })).setW1c 0x2C10 n))) ∧
  (∀ (syn : List Byte) (n : Nat) (g : Bool) (s : State), s.dmaNext = some (n, g) → (s.dmaCh n).reads = false →
    dmaAllowed n (s.dmaCh n).addr (s.dmaCh n).remain = true → ∃ t, exec (.dmaBurst syn) s = .next t ∧
      (t.dmaCh n).addr = (s.dmaCh n).addr + min 512 (s.dmaCh n).remain ∧
      (t.dmaCh n).remain = (s.dmaCh n).remain - min 512 (s.dmaCh n).remain ∧ (t.dmaCh n).waited = 0 ∧ t.buf = s.buf) ∧
  (∀ (n : Fin 32) (s : State), s.flag 0x2C00 n.val = true →
    exec (.dmaPauseDrained n) s = .next { s with dma.paused := s.dma.paused ||| (1#32 <<< n.val) }) ∧
  (∀ (l : BitVec 24) (syn : List Byte) (wr : Bool) (s : State), s.map.fills.find? (fun f => f.1 == l.toNat) = some (l.toNat, wr) →
    s.map.maint = none → exec (.mapFillDone l syn) s = .next ((State.eccReads { s with
      map.fills := s.map.fills.filter (fun f => f.1 != l.toNat) } (8 * l.toNat) false 34 (syn.take 8)).mapAlloc l.toNat wr)) ∧
  (∀ (l : BitVec 24) (s : State), s.map.fills = [] →
    (s.map.maint = some (1, l) → exec .mapMaintDone s = .next (State.mapClean { s with map.maint := none } l.toNat false)) ∧
    (s.map.maint = some (2, l) → exec .mapMaintDone s = .next (State.mapClean { s with map.maint := none } l.toNat true)) ∧
    (s.map.maint = some (8, l) → exec .mapMaintDone s = .next (State.cleanMap { s with map.maint := none })) ∧
    (s.map.maint = some (3, l) → ∃ t, exec .mapMaintDone s = .next t ∧ t.load (64 * l.toNat) 64 = List.replicate 64 0 ∧
      ∀ a, a < 64 * l.toNat ∨ 64 * l.toNat + 64 ≤ a → t.load a 1 = s.load a 1)) ∧
  (∀ s : State, s.map.disabling = true → s.map.fills = [] → ∃ t, exec .mapDisableDone s = .next t ∧ t.map.disabling = false ∧
    (∀ e ∈ t.map.lines, e.2 = none) ∧ t.flag 0x3000 0 = false ∧ t.buf = s.buf)

/-- PCIe resets, link changes and the gateway poll of the summary words.  PERST_N, function-level reset and hot
reset disable every queue pair, turn the gateway off, restore HQI_CTL and (the two last) end PCIe sessions. The
link coming up records event 0x7000 and starts gateway polling when enabled; going down records event 0x7001,
ends polling and raises source 104 while the rings are enabled. A poll reads the 512-byte summary; an all-zero
one goes back to waiting; a word that is not zero is swapped with 0, each set bit sends its hint, and a swap
that times out raises source 106 with event 0x7003 and stops the gateway.  Cites: R258, R261, R274, R275, R276,
R277, R290, log 33, log 52. -/
def Obligations.FunctionResetsAndGatewayPolling : Prop :=
  (∀ s : State, s.hqi.perst = false → ∃ t, exec .perstAssert s = .next t ∧ t.hqi.perst = true ∧ t.ready 5 = false ∧
    (∀ q, (t.qp q).st = .disabled) ∧ t.hqi.gw = .off ∧ t.lastWord 0x0400 = regReset 0x0400) ∧
  (∀ s : State, s.domainOn 5 = true → exec .perstDeassert s = .next (State.setReady { s with hqi.perst := false } 5 true)) ∧
  (∀ s : State, s.domainOn 5 = false → exec .perstDeassert s = .next { s with hqi.perst := false }) ∧
  (∀ s : State, ∃ t u, exec .functionLevelReset s = .next t ∧ exec .hotReset s = .next u ∧
    t = s.functionReset 1 ∧ u = s.functionReset 2 ∧
    (∀ q, (t.qp q).st = .disabled) ∧ (∀ q, (u.qp q).st = .disabled) ∧ t.hqi.gw = .off ∧ u.hqi.gw = .off ∧
    t.lastWord 0x0400 = regReset 0x0400 ∧ u.lastWord 0x0400 = regReset 0x0400 ∧
    t.sec.sessions = s.sec.sessions.filter (fun x => x.chan != .pcie) ∧
    u.sec.sessions = s.sec.sessions.filter (fun x => x.chan != .pcie)) ∧
  (∀ (g w : BitVec 4) (s : State), s.flag 0x0400 1 = false → exec (.pcieLinkUp g w) s =
    .next (State.event { s with hqi.link := (g, w) } 0x7000 1 [g.toNat, w.toNat])) ∧
  (∀ (g w : BitVec 4) (s : State), g ≠ 0 → s.flag 0x0400 1 = true → s.hqi.swapFail = false → s.hqi.fenced = false →
    s.hqi.gw = .off → exec (.pcieLinkUp g w) s = .next { State.event { s with hqi.link := (g, w) } 0x7000 1 [g.toNat, w.toNat]
      with hqi.gw := .waiting, hqi.seen := s.pwr.ticks }) ∧
  (∀ s : State,
    let z : State := State.event { s with hqi.link := (0, 0), hqi.gw := .off, hqi.words := [], hqi.active := false } 0x7001 2
      [(s.hqi.cmds.filter (fun c => !c.peer)).length]
    (s.flag 0x0400 0 = false → exec .pcieLinkDown s = .next z) ∧
    (s.flag 0x0400 0 = true → exec .pcieLinkDown s = .next (raise 104 z))) ∧
  (∀ s : State, s.hqi.gw = .waiting → ∃ t, exec .gwPollPass s = .next t ∧ t.hqi.gw = .reading ∧ t.hqi.found = false ∧
    t.sent = .hostRead (BitVec.ofNat 64 s.sumBase) 512 :: s.sent) ∧
  (∀ (l : List (BitVec 64)) (s : State), s.hqi.gw = .reading → (∀ w ∈ l, w = 0) → ∃ t,
    exec (.summaryReadDone (some l)) s = .next t ∧ t.hqi.gw = .waiting ∧ t.hqi.words = [] ∧ t.sent = s.sent) ∧
  (∀ (l : List (BitVec 64)) (s : State) (w : Fin 64) (r : List (Fin 64)), s.hqi.gw = .reading →
    (List.finRange 64).filter (fun w => (l[w.val]?).getD 0 != 0) = w :: r → exec (.summaryReadDone (some l)) s =
      .next (State.send { s with hqi.words := w :: r, hqi.gw := .swapping }
        (.swap (BitVec.ofNat 64 (s.sumBase + 8 * w.val))))) ∧
  (∀ (w : Fin 64) (r : List (Fin 64)) (old : BitVec 64) (s : State), s.hqi.gw = .swapping → s.hqi.words = w :: r →
    exec (.summarySwapDone w old) s = .next (((setBits 64 old.toNat).foldl (fun (z : State) b => z.hintFor (64 * w.val + b))
      { s with hqi.words := r, hqi.found := s.hqi.found || old != 0 }).nextSwap)) ∧
  (∀ (w : Fin 64) (r : List (Fin 64)) (st : Byte) (s : State), s.hqi.gw = .swapping → s.hqi.words = w :: r →
    exec (.swapTimeout st) s = .next (raise 106 ((State.setW1c { s with
      hqi.gw := .off, hqi.words := [], hqi.active := false, hqi.swapFail := true } 0x0404 7).event 0x7003 3 [st.toNat, w.val])))

/-- Doorbell, descriptor and data reads, and the posting of completions.  A doorbell page moves tail and completion
head of every active queue pair, an index out of range putting the pair in error. Descriptors read are counted
and taken in order; a failed read puts the pair in error cause 3 and raises source 107. Host data of the right
length is handed to its command; a failed read ends it. The next completion is written, or first mirrored to the
partner in a pair, or held while the HQI is fenced. CQ_FULL_POLL reads the doorbell page only while a completion
has no room.  Cites: R271, R278, R279, R281, R282, R283, R369, log 34, log 39. -/
def Obligations.RingReadsAndCompletions : Prop :=
  (∀ (page : List (BitVec 16 × BitVec 16)) (s : State), s.hqi.dbRead = true → s.hqi.dbAgain = false →
    exec (.doorbellPageReadDone (some page)) s = .next ((List.range 128).foldl (fun (z : State) q => match page[q]? with
      | some e => z.takeDoorbell q e.1.toNat e.2.toNat
      | none => z) { s with hqi.dbRead := false }).fetchAll) ∧
  (∀ (q tail head : Nat) (s : State), (s.qp q).st = .active →
    (tail < (s.qp q).depth → head < (s.qp q).depth →
      s.takeDoorbell q tail head = s.modQp q (fun x => { x with tail := tail, cqHead := head })) ∧
    ((s.qp q).depth ≤ tail → ((s.takeDoorbell q tail head).qp q).st = .error)) ∧
  (∀ (q : Fin 128) (l : List (List Byte)) (s : State), (s.qp q.val).reading = some l.length → (s.qp q.val).st = .active →
    let z := (s.modQp q.val (fun x => { x with reading := none })).modQp q.val (fun x => { x with
      fetch := (x.fetch + l.length) % x.depth })
    exec (.descriptorReadDone q (some l)) s =
      .next ((l.foldl (fun (v : State) b => v.fetchEntry q b) (z.count 165 l.length)).mirrorQ.fetchAll)) ∧
  (∀ (q : Fin 128) (n : Nat) (s : State), (s.qp q.val).reading = some n → (s.qp q.val).st = .active →
    exec (.descriptorReadDone q none) s =
      .next (raise 107 ((s.modQp q.val (fun x => { x with reading := none })).qpError q.val 3 0))) ∧
  (∀ (q : Fin 128) (tag : BitVec 16) (c : Cmd) (l : List Byte) (s : State), s.cmd? q.val tag = some c → c.need = 2 →
    l.length = c.len → exec (.hostDataReadDone q tag (some l)) s = .next (s.dataDone c l)) ∧
  (∀ (q : Fin 128) (tag : BitVec 16) (c : Cmd) (s : State), s.cmd? q.val tag = some c → c.need = 2 →
    exec (.hostDataReadDone q tag none) s = .next (s.hostFail c)) ∧
  (∀ (p : Post) (s : State), s.nextPost = some p → s.hqi.fenced = false → s.mirroring = false →
    exec .completionPost s = .next (s.writePost p)) ∧
  (∀ (p : Post) (s : State), s.nextPost = some p → s.hqi.fenced = false → s.mirroring = true → p.told = false →
    exec .completionPost s = .next { s.mirrorQ with
      hqi.posts := s.mirrorQ.hqi.posts.map (fun x => if x = p then { x with need := some s.pfr.pseq, told := true } else x) }) ∧
  (∀ (p : Post) (s : State), s.nextPost = some p → s.hqi.fenced = true → exec .completionPost s = .next s) ∧
  (∀ s : State, s.nextPost = none → exec .completionPost s = .next s) ∧
  (∀ s : State, s.hqi.posts.any (fun p => !s.cqRoom p.qp.val) = true → exec .cqFullPoll s = .next s.readPage) ∧
  (∀ s : State, s.hqi.posts.any (fun p => !s.cqRoom p.qp.val) = false → exec .cqFullPoll s = .next s)

/-- Every media command passes the tests of R293 in order and ends with the first that fails.  For each of the
fourteen media commands whose turn it is: a decommissioned part ends it with SECURITY_ERROR 5; then the first
bad field ends it with INVALID_FIELD and its offset; then a locked range with RANGE_LOCKED; then the power state
ends it or holds it; then a fence ends it with FENCED; and otherwise it is taken as its own rule says.  Cites:
R293, R294, R295, R377, R434, log 38. -/
def Obligations.HostCommandsAreTestedInOrder : Prop :=
  ∀ (s : State) (q : Fin 128) (t : BitVec 16) (c : Cmd), s.cmd? q.val t = some c → s.shadow = false →
    c.unadmitted = true → c.fin = none → s.turn c = true →
    ∀ x : Instr × Nat × Nat, x ∈ [(.readBlocks q t, 0x20, 0), (.zoneWrite q t, 0x21, 0), (.zoneAppend q t, 0x22, 0),
        (.zoneOpen q t, 0x23, 1), (.zoneClose q t, 0x23, 2), (.zoneFinish q t, 0x23, 3), (.zoneReset q t, 0x23, 4),
        (.zoneOffline q t, 0x23, 5), (.zoneReport q t, 0x24, 0), (.flush q t, 0x25, 0), (.verifyBlocks q t, 0x26, 0),
        (.peerMove q t, 0x27, 0), (.convRead q t, 0x28, 0), (.convWrite q t, 0x29, 0)] →
      c.opc.toNat = x.2.1 → (x.2.2 ≠ 0 → c.pf 2 0 4 = x.2.2) →
      let ends : Nat → Nat → Prop := fun st r => exec x.1 s = .next (s.finish q t st r)
      (s.retired c = true → ends 0x70 5) ∧
      (s.retired c = false →
        (∀ ofs, s.fieldTest c = some ofs → ends 0x21 ofs) ∧
        (s.fieldTest c = none →
          (s.lockTest c = true → ends 0x71 0) ∧
          (s.lockTest c = false →
            (∀ st r, s.powerTest c = .stop st r → ends st r) ∧
            (s.powerTest c = .hold → ∃ z, exec x.1 s = .next z ∧
              (s.needsOff c = false → s.autoWake = false → z = s.modCmd q.val t (fun y => { y with st := .held }))) ∧
            (s.powerTest c = .pass → s.fenceTest c = true → ends 0x52 0) ∧
            (s.powerTest c = .pass → s.fenceTest c = false → exec x.1 s = .next (s.admitted c)))))

/-- An admitted media command answers its zone state or runs.  For a command that passes the tests: READ, VERIFY and
PEER MOVE of an offline zone end ZONE_STATE and else look up every chunk; CONV READ and CONV WRITE start; ZONE
WRITE and APPEND answer FULL, ZONE_STATE, the write pointer, the open limit or the lack of space in that order,
and else reserve and take their data; ZONE MANAGE opens, or closes, finishes, resets or takes offline in its
turn; FLUSH waits for what it covers; ZONE REPORT writes its header and the entries that fit.  Cites: R299,
R300, R301, R302, R303, R304, R306, R307, R308, R309, R310, R311. -/
def Obligations.AdmittedCommandsRun : Prop :=
  ∀ (s : State) (q : Fin 128) (t : BitVec 16) (c : Cmd), s.cmd? q.val t = some c → s.shadow = false →
    c.unadmitted = true → c.fin = none → s.turn c = true → s.admitTest c = .pass →
    let z := s.zone c.zone
    let ends : Instr → Nat → Nat → Prop := fun x st r => exec x s = .next (s.finish c.qp c.tag st r)
    (∀ x : Instr, (x, c.opc) ∈ [(.readBlocks q t, 0x20#8), (.verifyBlocks q t, 0x26#8), (.peerMove q t, 0x27#8)] →
      (z.st = .offline → ends x 0x30 0) ∧
      (z.st ≠ .offline →
        let z0 := s.modCmd c.qp.val c.tag (fun y => { y with st := .running, top := z.awp })
        let z1 := if z.locHead.isSome then z0.needIdx c.zone else z0
        let chunks := ((List.range c.count.toNat).map (fun i => (c.blk + i) / 16)).eraseDups
        exec x s = .next (chunks.foldl (fun (y : State) k => y.locAccess c.zone k false) (z1.zoneAccess c.zone false)).pumpReads)) ∧
    (c.opc = 0x28 → exec (.convRead q t) s =
      .next (s.modCmd c.qp.val c.tag (fun y => { y with st := .running })).pumpReads) ∧
    (c.opc = 0x29 → exec (.convWrite q t) s = .next ((s.takeConv c).startData c.qp c.tag)) ∧
    (∀ x : Instr, (x, c.opc) ∈ [(.zoneWrite q t, 0x21#8), (.zoneAppend q t, 0x22#8)] →
      (z.st = .full → ends x 0x31 0) ∧ (z.st = .readOnly ∨ z.st = .offline → ends x 0x30 0) ∧
      (z.st ∈ [ZState.empty, .opened, .closed] →
        (c.opc = 0x21 → c.blk ≠ z.awp → ends x 0x32 (lbaOf c.zone z.awp)) ∧
        ((c.opc = 0x21 → c.blk = z.awp) →
          (524288 < z.awp + c.count.toNat → ends x 0x31 0) ∧
          (z.awp + c.count.toNat ≤ 524288 →
            (z.st = .closed → s.openMax z.act.val ≤ s.openCount z.act.val → ends x 0x33 0) ∧
            (z.st = .opened ∨ (z.st = .closed ∧ s.openCount z.act.val < s.openMax z.act.val) →
              (s.spaceFor z.act.val (s.needOf c.zone c.count.toNat) = false → ends x 0x31 (2 ^ 63)) ∧
              (s.spaceFor z.act.val (s.needOf c.zone c.count.toNat) = true → c.peer = false →
                exec x s = .next ((s.takeWrite c z.act.val).startData c.qp c.tag))))))) ∧
    (c.opc = 0x23 →
      (c.pf 2 0 4 = 1 →
        (z.st = .opened → ends (.zoneOpen q t) 0 0) ∧
        (z.st = .closed → s.openMax z.act.val ≤ s.openCount z.act.val → ends (.zoneOpen q t) 0x33 0) ∧
        (z.st = .closed → s.openCount z.act.val < s.openMax z.act.val → exec (.zoneOpen q t) s =
          .next ((s.openZone c.zone (fin4 z.act.val) z.key).finish c.qp c.tag 0 1)) ∧
        (z.st ∈ [ZState.full, .readOnly, .offline] → ends (.zoneOpen q t) 0x30 0)) ∧
      (∀ x : Instr, (x, c.pf 2 0 4) ∈ [(.zoneClose q t, 2), (.zoneFinish q t, 3), (.zoneReset q t, 4), (.zoneOffline q t, 5)] →
        exec x s = .next (s.manageTry c))) ∧
    (c.opc = 0x25 → exec (.flush q t) s = .next (s.flushTry c)) ∧
    (c.opc = 0x24 →
      let l := (List.range (262144 - c.zone)).filter (fun i => c.pf 0 0 3 = 0 ∨ (s.zone (c.zone + i)).st.code = c.pf 0 0 3 - 1)
      let n := min l.length ((c.count.toNat - 32) / 32)
      exec (.zoneReport q t) s = .next (s.reply c 0 n (leBytes 4 l.length ++ leBytes 4 n ++ leBytes 24 0 ++
        ((l.take n).map (fun i => s.reportEntry (c.zone + i))).flatten)))

/-- IDENTIFY, CREATE QP, DELETE QP, GET LOG, GET COUNTERS, SET RIGHTS, ABORT, SELF-TEST, MICROCODE LOAD and FABRIC
QUERY.  For a command of queue pair 0 on a part that is not decommissioned: each of these answers INVALID_FIELD
with the byte offset of the first bad field in the order of its rule, NO_RIGHT or SECURITY_ERROR where its
session or the audit log stops it, and otherwise has its effect: the page written, the pair created with the
rights its creator has, the pair deleted, the log part written, the counters written, the rights set and
audited, the target ended or waited for, the self-test started or stopped, the image checked and held for
installing.  Cites: R167, R264, R288, R295, R313, R314, R315, R316, R317, R318, R319, R355. -/
def Obligations.AdminCommandsAnswer : Prop :=
  ∀ (s : State) (t : BitVec 16) (c : Cmd), s.cmd? 0 t = some c → s.shadow = false → c.fin = none → c.st ≠ .running →
    s.retired c = false →
    let done : State → Nat → Nat → State := fun z st r => z.finish 0 t st r
    let n := c.count.toNat
    (c.opc = 0x01 → (c.pf 0 0 8 ≠ 0 → exec (.identify t) s = .next (done s 0x21 36)) ∧
      (c.pf 0 0 8 = 0 → exec (.identify t) s = .next (s.reply c 0 0 s.modulePage))) ∧
    (c.opc = 0x02 →
      let k := c.pf 3 0 7
      let d := c.pf 2 0 4
      let cq := BitVec.ofNat 64 (c.p 0 + c.p 1 * 2 ^ 32)
      (k = 0 ∨ (s.qp k).st ≠ .disabled → exec (.createQp t) s = .next (done s 0x21 48)) ∧
      (k ≠ 0 → (s.qp k).st = .disabled →
        (c.addr.toNat % 4096 ≠ 0 → exec (.createQp t) s = .next (done s 0x21 24)) ∧
        (c.addr.toNat % 4096 = 0 →
          (cq.toNat % 4096 ≠ 0 → exec (.createQp t) s = .next (done s 0x21 36)) ∧
          (cq.toNat % 4096 = 0 →
            (d < 1 ∨ 12 < d → exec (.createQp t) s = .next (done s 0x21 44)) ∧
            (1 ≤ d → d ≤ 12 →
              let rights := BitVec.ofNat 6 (c.pf 2 24 6) &&& (s.qp 0).rights
              exec (.createQp t) s = .next (done (s.modQp k (fun _ => { Qp.init with
                st := .active, log2 := BitVec.ofNat 4 d, sq := c.addr, cq := cq, vector := BitVec.ofNat 8 (c.pf 2 8 8)
                ien := c.pf 2 16 1 == 1, rights := rights, phase := true })) 0 rights.toNat).mirrorQ))))) ∧
    (c.opc = 0x03 →
      let k := c.pf 3 0 7
      (k = 0 ∨ (s.qp k).st = .disabled ∨ (s.qp k).st = .deleting → exec (.deleteQp t) s = .next (done s 0x21 48)) ∧
      (k ≠ 0 → (s.qp k).st = .active →
        let z0 := s.modQp k (fun x => { x with st := .deleting, delTag := some t, reading := none })
        let z1 := (z0.modCmd 0 t (fun x => { x with st := .running })).endCmds (fun x => x.qp.val == k) 0x10
        ∀ f : Fin 128, f.val = k → exec (.deleteQp t) s = .next (z1.endDelete f).mirrorQ)) ∧
    (c.opc = 0x04 → (c.pf 0 0 8 = 2 → s.anySession (.pcie, 0) = none → exec (.getLog t) s = .next (done s 0x23 0)) ∧
      (c.pf 0 0 8 = 0 ∨ 5 < c.pf 0 0 8 → exec (.getLog t) s = .next (done s 0x21 36)) ∧
      (∀ l, (c.pf 0 0 8 = 1 ∧ l = (s.nv.log.map evBytes).flatten) ∨
          (c.pf 0 0 8 = 2 ∧ s.anySession (.pcie, 0) ≠ none ∧ l = (s.nv.audit.map (fun e => evBytes e.1)).flatten) ∨
          (c.pf 0 0 8 = 4 ∧ l = (s.nv2.retired.map (fun w => leBytes 4 w.toNat)).flatten) →
        (c.addr.toNat % 4 ≠ 0 → exec (.getLog t) s = .next (done s 0x21 24)) ∧
        (c.addr.toNat % 4 = 0 → n % 4 ≠ 0 ∨ n < 4 ∨ 4194304 < n → exec (.getLog t) s = .next (done s 0x21 32)) ∧
        (c.addr.toNat % 4 = 0 → n % 4 = 0 → 4 ≤ n → n ≤ 4194304 →
          exec (.getLog t) s = .next (s.reply c 0 l.length (pagePart l c.addr.toNat n))))) ∧
    (c.opc = 0x05 → (255 < c.addr.toNat → exec (.getCounters t) s = .next (done s 0x21 24)) ∧
      (c.addr.toNat ≤ 255 → n < 1 ∨ 256 < c.addr.toNat + n → exec (.getCounters t) s = .next (done s 0x21 32)) ∧
      (c.addr.toNat ≤ 255 → 1 ≤ n → c.addr.toNat + n ≤ 256 → exec (.getCounters t) s = .next (s.reply c 0 0
        ((List.range n).map (fun i => leBytes 8 (s.ctr (c.addr.toNat + i) +
          2 ^ 63 * b2n (bitOf s.pmc.ovf.toNat (c.addr.toNat + i))))).flatten))) ∧
    (c.opc = 0x06 → (s.session (.pcie, 0) .operator = none → exec (.setRights t) s = .next (done s 0x23 0)) ∧
      (∀ x, s.session (.pcie, 0) .operator = some x →
        (s.auditBlocked = true → exec (.setRights t) s = .next (done s 0x70 8)) ∧
        (s.auditBlocked = false →
          let k := c.pf 3 0 7
          let m := BitVec.ofNat 6 (c.pf 0 0 6)
          exec (.setRights t) s = .next (done ((s.audit 0xA006 1 [k, (s.qp k).rights.toNat, m.toNat, x.num.val]).setRights k m) 0 0)))) ∧
    (c.opc = 0x0F → c.pf 0 0 8 ≠ 1 → exec (.fabricQuery t) s = .next (s.pageCmd c (s.fabPage (c.pf 0 0 8)))) ∧
    (c.opc = 0x0F → c.pf 0 0 8 = 1 → exec (.fabricQuery t) s = .next (s.draw.draw.draw.draw.draw.pageCmd c (s.fabPage 1))) ∧
    (c.opc = 0x08 → s.gen.selfTest = none →
      (∀ e : Bool, c.pf 0 0 4 = (if e then 2 else 1) →
        exec (if e then .selfTestExtended t else .selfTestShort t) s = .next (State.testNext
          { s.modCmd 0 t (fun x => { x with st := .running }) with
            gen.selfTest := some (t, e), gen.testRes := 0, gen.testAt := 0 })) ∧
      (c.pf 0 0 4 = 15 → exec (.selfTestAbort t) s = .next (done s 0x21 36))) ∧
    (c.opc = 0x08 → ∀ u e, s.gen.selfTest = some (u, e) →
      (c.pf 0 0 4 = 1 → exec (.selfTestShort t) s = .next (done s 0x21 36)) ∧
      (c.pf 0 0 4 = 2 → exec (.selfTestExtended t) s = .next (done s 0x21 36)) ∧
      (c.pf 0 0 4 = 15 → exec (.selfTestAbort t) s = .next (done (s.testStop.finish 0 u 0x10 s.gen.testRes.toNat) 0 0))) ∧
    (c.opc = 0x07 →
      let k := c.pf 3 0 7
      let u := BitVec.ofNat 16 (c.pf 0 0 16)
      (s.cmd? k u = none → c.st ≠ .waiting →
        exec (.abortCmd t) s = .next (done s
          (if s.hqi.posts.any (fun p => p.qp.val == k && p.tag == u) then 0x11 else 0x12) 0)) ∧
      (∀ x, s.cmd? k u = some x → x.peer = false →
        (x.qp.val = 0 → x.opc = 0x07 → exec (.abortCmd t) s = .next (done s 0x21 36)) ∧
        (x.qp.val ≠ 0 ∨ x.opc ≠ 0x07 →
          (s.runsOn x = true → exec (.abortCmd t) s = .next (s.modCmd 0 t (fun y => { y with st := .waiting }))) ∧
          (s.runsOn x = false → exec (.abortCmd t) s = .next (done (s.abortOne x) 0 0).wakeWaiters)))) ∧
    (c.opc = 0x0D → ∀ image : List Byte,
      ((s.loader (.pcie, 0)).toOption = none → exec (.microcodeLoad t image) s = .next (done s 0x23 0)) ∧
      ((s.loader (.pcie, 0)).toOption ≠ none →
        (n < 436 ∨ 73888 < n → exec (.microcodeLoad t image) s = .next (done s 0x21 32)) ∧
        (436 ≤ n → n ≤ 73888 → s.readyCode [2, 3] = 0 → c.need = 0 → c.data = image → s.seq.pendImg = none →
          (s.auditBlocked = true → exec (.microcodeLoad t image) s = .next (done s 0x70 8)) ∧
          (s.auditBlocked = false →
            let cause := s.imageCause image
            let z := s.audit 0xA007 1 [1, imgSvn image, leAt image 24 1, cause]
            exec (.microcodeLoad t image) s = .next (if cause ≠ 0 then done z 0x70 cause
              else State.modCmd { z with seq.pendImg := some (image, t) } 0 t (fun x => { x with st := .running }))))))

/-- Sessions open by challenge and signature, end on request, and public keys are replaced the same way.  On a part
that is no error state and not decommissioned, by mailbox or by QP0: AUTH CHALLENGE answers a nonce of the
random generator (opaque, log 10) with a new challenge number; AUTH RESPONSE with bad fields, during refusal,
without the challenge, for the maker of a fielded part without consent, with a bad signature, with no free
session or while the caller already has the role fails in that order with its cause, and else opens the session,
clears the failure count and is audited; AUTH END ends the session of its sender; SET KEY replaces a public key
for whom R381 permits, else is refused with its cause and audited.  Cites: R379, R381, R382, R383, R384, R399,
log 10, log 32, log 59. -/
def Obligations.SessionsByChallengeAndSignature : Prop :=
  ∀ (v : Via) (s : State), s.nv.life ≠ .decommissioned → s.sec.error = false → s.ready 1 = true →
    let w := s.who v
    let d := s.viaData v
    (s.msgIs v false 1 1 = true →
      (∀ tag, v = .qp0 tag → s.viaLen v ≠ 64 → exec (.authChallenge v) s = .next (s.secBad v 32)) ∧
      ((∀ tag, v = .qp0 tag → s.viaLen v = 64) →
        let z := ({ s with sec.nextCid := s.sec.nextCid + 1 } : State).draw.dropChallenge w
        exec (.authChallenge v) s = .next (State.secEnd { z with
            sec.challenges := z.sec.challenges ++ [⟨w.1, w.2, Config.drbg s.free, s.sec.nextCid⟩] } v 0 0
          (leBytes 48 (Config.drbg s.free).toNat ++ leBytes 4 s.sec.nextCid.toNat ++ leBytes 8 s.nv.nodeId.toNat ++
            leBytes 4 s.nv.life.code)))) ∧
    (∀ (role : Byte) (cid : Word) (sig : List Byte), s.msgIs v true 1 2 = true → leAt d 0 1 = role.toNat →
      leAt d 4 4 = cid.toNat → d.drop 8 = sig →
      let run := exec (.authResponse v role cid sig) s
      (roleOf role.toNat = none ∨ d.length ≠ 104 ∨ zeros d 1 3 = false → run = .next (s.secBad v 32)) ∧
      (∀ r, roleOf role.toNat = some r → d.length = 104 → zeros d 1 3 = true →
        (tget 0 s.sec.refuse (r.code - 1) ≠ 0 → run = .next (s.authFail v r 4)) ∧
        (tget 0 s.sec.refuse (r.code - 1) = 0 →
          (s.challenge w cid = none → run = .next (s.authFail v r 2)) ∧
          (∀ c, s.challenge w cid = some c →
            let z := s.dropChallenge w
            let key := tget [] s.nv.keys (r.code - 1)
            let good := key ≠ [] ∧ Config.sigOk key (s.authMsg c.nonce r.code w cid) sig
            (r = .maker → s.nv.life = .fielded → s.sec.consent = false → run = .next (z.authFail v r 3)) ∧
            (¬ (r = .maker ∧ s.nv.life = .fielded ∧ s.sec.consent = false) →
              (s.freeSession = none ∨ (s.session w r).isSome = true →
                run = .next (if good then z.authFail v r 7 else z.authFail v r 1)) ∧
              (∀ n, s.freeSession = some n → s.session w r = none →
                let a := z.audit 0xA000 1 [r.code, n.val, chanCode w.1, w.2.toNat]
                run = .next (if good then
                    State.secOk { a with
                      sec.sessions := a.sec.sessions ++ [⟨n, r, w.1, w.2⟩]
                      sec.fails := tset a.sec.fails (r.code - 1) 0, sec.period := tset a.sec.period (r.code - 1) 0 } v n.val
                  else z.authFail v r 1))))))) ∧
    (∀ (x : Session), s.msgIs v true 1 3 = true →
      (s.anySession w = none → ∀ n, exec (.authEnd v n) s = .next (s.secFail v 3)) ∧
      (s.anySession w = some x →
        exec (.authEnd v x.num) s = .next ((s.endSessions (fun y => y.num == x.num) 1).secOk v 0))) ∧
    (∀ (role : Byte) (r : Role) (cid : Word) (key sig : List Byte), s.msgIs v true 1 4 = true → leAt d 0 1 = role.toNat →
      leAt d 4 4 = cid.toNat → (d.drop 8).take 96 = key → d.drop 104 = sig → roleOf role.toNat = some r → d.length = 200 →
      zeros d 1 3 = true →
      let run := exec (.authSetKey v role cid key sig) s
      let refused : State → Nat → State := fun z c => (z.audit 0xA002 2 [r.code, chanCode w.1, w.2.toNat, c]).secFail v c
      let may := (r = .installer ∧ (s.session w .installer).isSome = true) ∨ (r ≠ .maker ∧ (s.session w .operator).isSome = true)
      (s.auditBlocked = true → run = .next (s.secFail v 8)) ∧
      (s.auditBlocked = false → ¬ may → run = .next (refused s 3)) ∧
      (s.auditBlocked = false → may →
        (s.challenge w cid = none → run = .next (refused s 2)) ∧
        (∀ c, s.challenge w cid = some c →
          let z := s.dropChallenge w
          let a := z.auditFree
          run = .next (if key ≠ [] ∧ Config.sigOk key (s.authMsg c.nonce r.code w cid) sig then
              State.secOk { a with nv.keys := tset z.nv.keys (r.code - 1) key } v 0
            else refused z 1))))

/-- Session, challenge, consent, lockout and mailbox timers end what they time.  An idle session ends; a challenge
ends and no other does; consent ends with every maker session; a lockout ends for its role; an idle mailbox
claim ends and a busy one stays. Nothing else changes where the statement gives the whole state.  Cites: R382,
R383, R384, R402, log 6. -/
def Obligations.SessionTimersAndMailbox : Prop :=
  ∀ (s : State),
    (∀ n, exec (.sessionIdleTimeout n) s = .next (s.endSessions (fun x => x.num == n) 2)) ∧
    (∀ ch src, ∃ t, exec (.challengeExpiry ch src) s = .next t ∧
      (∀ c ∈ t.sec.challenges, c.chan = ch → c.src ≠ src) ∧
      (∀ c ∈ s.sec.challenges, c.chan ≠ ch ∨ c.src ≠ src → c ∈ t.sec.challenges) ∧
      ({ t with sec.challenges := s.sec.challenges } : State) = s) ∧
    (s.sec.consent = false → exec .consentExpiry s = .next s) ∧
    (s.sec.consent = true → ∃ t, exec .consentExpiry s = .next t ∧ t.sec.consent = false ∧
      (∀ x ∈ t.sec.sessions, x ∈ s.sec.sessions ∧ x.role ≠ .maker) ∧
      (∀ x ∈ s.sec.sessions, x.role ≠ .maker → x ∈ t.sec.sessions)) ∧
    (∀ r : Fin 4, r.val ≠ 0 → exec (.lockoutExpiry r) s =
      .next { s with sec.refuse := tset s.sec.refuse (r.val - 1) 0 }) ∧
    (s.sec.mbox.busy = true → exec .mailboxTimeout s = .next s) ∧
    (s.sec.mbox.busy = false → exec .mailboxTimeout s = .next { s with sec.mbox.claim := none })

/-- Key ranges are queried, created, locked, unlocked, destroyed and chosen only by the operator.  KEYS QUERY
answers one byte for each of the 256 ranges. The other five messages fail with cause 8 when the audit log is
full, with cause 3 and an audit record for another role, with cause 6 when the range has not the state the
message needs, wait while commands use the range, and otherwise change the range and load or unload its key.
Cites: R379, R381, R386, R387, R398, R399, log 59. -/
def Obligations.KeyRangeMessages : Prop :=
  ∀ (v : Via) (rg : Byte) (s : State), s.nv.life ≠ .decommissioned → s.sec.error = false → s.ready 1 = true →
    let r := rg.toNat
    let e := (s.range r).st
    (s.msgIs v false 3 6 = true → (∀ tag, v = .qp0 tag → s.viaLen v = 256) →
      exec (.keysQuery v) s = .next (s.secEnd v 0 0 ((List.range 256).map (fun i =>
        BitVec.ofNat 8 ((s.range i).st.toNat + 4 * b2n (s.range i).auto +
          8 * b2n (s.nv.convRange == some (BitVec.ofNat 8 i))))))) ∧
    (s.viaCp v 2 % 256 = r →
      let auto := bitOf (s.viaCp v 2) 8
      let rows : List (Instr × Nat) :=
        [(.keysCreate v rg auto, 1), (.keysLock v rg, 2), (.keysUnlock v rg, 3), (.keysDestroy v rg, 4), (.keysSetConv v rg, 5)]
      (s.auditBlocked = true → ∀ x ∈ rows, s.msgIs v true 3 x.2 = true → exec x.1 s = .next (s.secFail v 8)) ∧
      (s.auditBlocked = false → s.session (s.who v) .operator = none → ∀ x ∈ rows, s.msgIs v true 3 x.2 = true →
        let role := ((s.anySession (s.who v)).map (·.role.code)).getD 0
        role ≠ 3 → exec x.1 s = .next ((s.audit 0xA004 1 [r, x.2, role, 3]).secFail v 3)) ∧
      (s.auditBlocked = false → (s.session (s.who v) .operator).isSome = true →
        let kept : Nat → Nat → State := fun act cause => s.audit 0xA004 1 [r, act, 3, cause]
        (s.msgIs v true 3 1 = true →
          (e ≠ 0 → exec (.keysCreate v rg auto) s = .next ((kept 1 6).secFail v 6)) ∧
          (e = 0 → exec (.keysCreate v rg auto) s =
            .next ((((kept 1 0).modRange r (fun _ => ⟨2, auto, 0⟩)).newKey r).secOk v 0))) ∧
        (e = 0 → ∀ x ∈ rows.tail, s.msgIs v true 3 x.2 = true → exec x.1 s = .next ((kept x.2 6).secFail v 6)) ∧
        (e ≠ 0 →
          (s.msgIs v true 3 2 = true →
            (s.rangeBusy r (s.viaOrd v) = true → exec (.keysLock v rg) s = .next (s.secWait v .waiting)) ∧
            (s.rangeBusy r (s.viaOrd v) = false → exec (.keysLock v rg) s =
              .next ((((kept 2 0).modRange r (fun x => { x with st := 1 })).unloadKey r).secOk v 0))) ∧
          (s.msgIs v true 3 3 = true → exec (.keysUnlock v rg) s = .next (((kept 3 0).loadKey r).secOk v 0)) ∧
          (s.msgIs v true 3 4 = true →
            (s.nv.convRange = some rg ∨ s.zonesOf r ≠ 0 → exec (.keysDestroy v rg) s = .next ((kept 4 6).secFail v 6)) ∧
            (s.nv.convRange ≠ some rg → s.zonesOf r = 0 →
              (s.rangeBusy r (s.viaOrd v) = true → exec (.keysDestroy v rg) s = .next (s.secWait v .waiting)) ∧
              (s.rangeBusy r (s.viaOrd v) = false → exec (.keysDestroy v rg) s =
                .next ((((kept 4 0).modRange r (fun _ => KeyRange.init)).unloadKey r).secOk v 0)))) ∧
          (s.msgIs v true 3 5 = true → exec (.keysSetConv v rg) s =
            .next (State.secOk { kept 5 0 with nv.convRange := some rg } v 0)))))

/-- Lifecycle actions need their state, role and length, and move the lifecycle, keys and sessions.  INTEGRATE,
CLAIM, RETURN and DECOMMISSION with a wrong length fail as a bad field, with a full audit log with cause 8, in
another lifecycle state with cause 5 and without their role with cause 3, each audited. Accepted, INTEGRATE
installs the installer key and the integration range; CLAIM needs its challenge and a good signature of the new
operator key, empties the zones and raises the key generation; RETURN replaces the keys, drops the operator key
and starts its checkpoint; DECOMMISSION wipes every key, the images and the fuse. Each ends every session.
Cites: R376, R378, R379, R381, R385, R397, R398, R399, log 60. -/
def Obligations.LifecycleMessages : Prop :=
  ∀ (v : Via) (s : State), s.nv.life ≠ .decommissioned → s.sec.error = false → s.ready 1 = true →
    let w := s.who v
    let d := s.viaData v
    let code := s.nv.life.code
    let rows : List (Instr × Nat × Nat × List Life × Role) :=
      [(.integrate v d, 1, 96, [.blank], .maker),
       (.claim v (d.take 96) (BitVec.ofNat 32 (leAt d 96 4)) (d.drop 100), 2, 196, [.integration], .installer),
       (.returnLifecycle v, 3, d.length, [.fielded], .operator),
       (.decommission v, 4, d.length, [.integration, .fielded], if s.nv.life = .fielded then .operator else .installer)]
    (∀ x ∈ rows, s.msgIs v true 2 x.2.1 = true →
      (d.length ≠ x.2.2.1 → exec x.1 s = .next (s.secBad v 32)) ∧
      (d.length = x.2.2.1 → s.auditBlocked = true → exec x.1 s = .next (s.secFail v 8)) ∧
      (d.length = x.2.2.1 → s.auditBlocked = false →
        let no : Nat → State := fun c => (s.audit 0xA003 1 [code, code, ((s.anySession w).map (·.role.code)).getD 0,
          ((s.anySession w).map (·.num.val)).getD 0]).secFail v c
        (s.nv.life ∉ x.2.2.2.1 → exec x.1 s = .next (no 5)) ∧
        (s.nv.life ∈ x.2.2.2.1 → s.session w x.2.2.2.2 = none → exec x.1 s = .next (no 3)))) ∧
    (s.auditBlocked = false →
      let moved : State → Life → Session → State := fun z l x => z.audit 0xA003 1 [z.nv.life.code, l.code, x.role.code, x.num.val]
      let ends : State → Life → State := fun z l => (State.endSessions { z with nv.life := l } (fun _ => true) 4).secOk v 0
      (s.msgIs v true 2 1 = true → s.nv.life = .blank → d.length = 96 → ∀ x, s.session w .maker = some x →
        let z := moved s .integration x
        exec (.integrate v d) s = .next (ends (State.integrationRange { z with
          nv.devKey := true, nv.keys := tset z.nv.keys 1 d }) .integration)) ∧
      (s.msgIs v true 2 2 = true → s.nv.life = .integration → d.length = 196 → ∀ x, s.session w .installer = some x →
        let key := d.take 96
        let cid := BitVec.ofNat 32 (leAt d 96 4)
        let run := exec (.claim v key cid (d.drop 100)) s
        let refused : State → Nat → State := fun z c => (z.audit 0xA002 2 [3, chanCode w.1, w.2.toNat, c]).secFail v c
        (s.challenge (x.chan, x.src) cid = none → run = .next (refused s 2)) ∧
        (∀ c, s.challenge (x.chan, x.src) cid = some c →
          let z := s.dropChallenge (x.chan, x.src)
          let y := ((moved z .fielded x).emptyZones (fun _ _ => true)).wipeKeys
          run = .next (if key ≠ [] ∧ Config.sigOk key (s.authMsg c.nonce 3 (x.chan, x.src) cid) (d.drop 100)
            then ends { y with nv.keys := tset y.nv.keys 2 key, nv.kekGen := y.nv.kekGen + 1 } .fielded
            else refused z 1))) ∧
      (s.msgIs v true 2 3 = true → s.nv.life = .fielded → ∀ x, s.session w .operator = some x →
        let y := (((moved s .integration x).replaceKeys 1 0).1.sanZones 1 0).startCkpt.wipeKeys
        exec (.returnLifecycle v) s = .next (ends (State.integrationRange { y with
          nv.image := dropKeys [.operator] y.nv.image, nv.keys := tset y.nv.keys 2 [], nv.kekGen := y.nv.kekGen + 1 }) .integration)) ∧
      (s.msgIs v true 2 4 = true → ∀ x, (s.nv.life = .fielded ∧ s.session w .operator = some x) ∨
          (s.nv.life = .integration ∧ s.session w .installer = some x) →
        let y := (moved s .decommissioned x).wipeKeys
        exec (.decommission v) s = .next (ends { y with
          nv.devKey := false, nv.keys := tset (tset y.nv.keys 1 []) 2 [], nv.anchor := [], nv.cert := []
          nv.image := [], nv.imageCls := [], nv.imageBad := true
          nv.drkFuse := true, sec.challenges := [], fab.pm := [] } .decommissioned)))

/-- CONSENT and COMMIT SVN need the right role and never lower a minimum version.  CONSENT beyond 86,400 s is a bad
field; with a full audit log it fails with cause 8, without an operator session with cause 3 and a record;
accepted, it starts or (with 0) ends consent. COMMIT SVN fails with cause 8, 5 (BLANK) or 3 likewise, and
accepted raises the minimum version of the microcode or firmware to that of the running image, or leaves it when
it is already higher.  Cites: R376, R379, R381, R383, R390, R391, R398, R399. -/
def Obligations.ConsentAndMinimumVersions : Prop :=
  ∀ (v : Via) (s : State), s.nv.life ≠ .decommissioned → s.sec.error = false → s.ready 1 = true →
    let w := s.who v
    (∀ n : Word, s.msgIs v true 2 5 = true → s.viaCp v 2 = n.toNat →
      (86400 < n.toNat → exec (.consent v n) s = .next (s.secBad v 44)) ∧
      (n.toNat ≤ 86400 →
        (s.auditBlocked = true → exec (.consent v n) s = .next (s.secFail v 8)) ∧
        (s.auditBlocked = false →
          (s.session w .operator = none → exec (.consent v n) s = .next ((s.audit 0xA009 1 [n.toNat, 0, 0, 0]).secFail v 3)) ∧
          (∀ x, s.session w .operator = some x →
            let z := s.audit 0xA009 1 [n.toNat, x.num.val, 0, 0]
            exec (.consent v n) s = .next (if n = 0 then z.endConsent.secOk v 0
              else State.secOk { z with sec.consent := true } v 0))))) ∧
    (∀ fw : Bool, s.msgIs v true 2 6 = true → bitOf (s.viaCp v 2) 0 = fw →
      let old := if fw then s.nv.fsvnMin else s.nv.isvnMin
      let img := if fw then s.nv.fsvn else s.seq.isvn
      let kept : Word → Nat → State := fun new n => s.audit 0xA008 1 [if fw then 2 else 1, old.toNat, new.toNat, n]
      let none_ := ((s.anySession w).map (·.num.val)).getD 0
      (s.auditBlocked = true → exec (.commitSvn v fw) s = .next (s.secFail v 8)) ∧
      (s.auditBlocked = false →
        (s.nv.life = .blank → exec (.commitSvn v fw) s = .next ((kept old none_).secFail v 5)) ∧
        (s.nv.life ≠ .blank →
          let who := s.session w (if s.nv.life = .fielded then .operator else .installer)
          (who = none → exec (.commitSvn v fw) s = .next ((kept old none_).secFail v 3)) ∧
          (∀ x, who = some x →
            let new := if img.toNat < old.toNat then old else img
            let z := kept new x.num.val
            (fw = true → exec (.commitSvn v fw) s = .next (State.secOk { z with nv.fsvnMin := new } v 0)) ∧
            (fw = false → exec (.commitSvn v fw) s = .next (State.secOk { z with nv.isvnMin := new } v 0))))))

/-- Certificate, firmware and system record messages check their fields and role and store what they carry.
PEERCERT DEVICE KEY answers the node id and the device public key. PEERCERT ANCHOR and CERT need an operator
session and store their data. FIRMWARE CHUNK and FINISH need a loader role; FINISH with a bad signature, no
data, a revoked key or too low a version fails with cause 1 and else selects the new image for the next power-
up. SYSREC STAGE within 2 MiB fills the staging area; SYSREC COMMIT checks its type, length, role and content in
that order, waits for an earlier commit and otherwise starts its write; SYSREC READ answers the stored bytes,
those past the end free (log 60).  Cites: R72, R123, R379, R381, R389, R390, R391, R398, R399, log 60. -/
def Obligations.CertificatesFirmwareAndSystemRecords : Prop :=
  ∀ (v : Via) (s : State), s.nv.life ≠ .decommissioned → s.sec.error = false → s.ready 1 = true →
    let w := s.who v
    let d := s.viaData v
    (s.msgIs v false 4 2 = true → (∀ tag, v = .qp0 tag → s.viaLen v = 104) →
      exec (.peercertDeviceKey v) s = .next (s.secEnd v 0 0
        (leBytes 8 s.nv.nodeId.toNat ++ padTo 96 (Config.devicePub s.nv.nodeId.toNat)))) ∧
    (s.auditBlocked = false →
      (s.msgIs v true 4 1 = true → d.length = 96 →
        (s.session w .operator = none → exec (.peercertAnchor v d) s =
          .next ((s.audit 0xA00C 1 [1, anchorId d, 0, 0]).secFail v 3)) ∧
        (∀ x, s.session w .operator = some x → exec (.peercertAnchor v d) s =
          .next (State.secOk { s.audit 0xA00C 1 [1, anchorId d, x.num.val, 0] with nv.anchor := d } v 0))) ∧
      (s.msgIs v true 4 3 = true →
        (d.length ≠ 216 ∨ leAt d 0 1 ≠ 1 ∨ zeros d 1 7 = false → exec (.peercertCert v d) s = .next (s.secBad v 32)) ∧
        (d.length = 216 → leAt d 0 1 = 1 → zeros d 1 7 = true → ∀ x, s.session w .operator = some x →
          exec (.peercertCert v d) s =
            .next (State.secOk { s.audit 0xA00C 1 [2, leAt d 112 4, x.num.val, 0] with nv.cert := d } v 0))) ∧
      (∀ (x : Session), s.loader w = .ok x →
        (∀ ofs : Word, s.msgIs v true 5 1 = true → s.viaCp v 2 = ofs.toNat → exec (.firmwareChunk v ofs d) s =
          .next (State.secOk { s.auditFree with nv.fwAlt := (d.foldl (fun (p : Tab Byte × Nat) b => (tset p.1 p.2 b, p.2 + 1))
            (s.nv.fwAlt, ofs.toNat)).1 } v 0)) ∧
        (∀ (good : Bool) (n : Word) (k : Fin 4), s.msgIs v true 5 2 = true →
          let rec_ : Nat → State := fun c => s.audit 0xA007 1 [2, n.toNat, k.val, c]
          let bad := good = false ∨ s.nv.fwAlt = [] ∨ bitOf s.nv.revoked.toNat (4 + k.val) = true ∨ n.toNat < s.nv.fsvnMin.toNat
          (bad → exec (.firmwareFinish v good n k) s = .next ((rec_ 1).secFail v 1)) ∧
          (¬ bad → exec (.firmwareFinish v good n k) s = .next (State.secOk { rec_ 0 with
            nv.fwNext := some n, nv.fwSel := (!s.nv.fwSel.1, s.nv.fwSel.2 + 1), nv.fwAlt := [] } v 0)))) ∧
      (∀ c, s.loader w = .error c →
        (∀ ofs : Word, s.msgIs v true 5 1 = true → s.viaCp v 2 = ofs.toNat → exec (.firmwareChunk v ofs d) s =
          .next (s.auditFree.secFail v c)) ∧
        (∀ (good : Bool) (n : Word) (k : Fin 4), s.msgIs v true 5 2 = true → exec (.firmwareFinish v good n k) s =
          .next ((s.audit 0xA007 1 [2, n.toNat, k.val, c]).secFail v c)))) ∧
    (∀ ofs : Word, s.msgIs v true 6 1 = true → s.viaCp v 2 = ofs.toNat →
      (2097152 < ofs.toNat + d.length → exec (.sysrecStage v ofs d) s = .next (s.secBad v 44)) ∧
      (ofs.toNat + d.length ≤ 2097152 → s.auditBlocked = false →
        let z := s.auditFree
        let c := s.sysrecCause w 0
        (c ≠ 0 → exec (.sysrecStage v ofs d) s = .next (z.secFail v c)) ∧
        (c = 0 → exec (.sysrecStage v ofs d) s = .next (State.secOk { z with
          recs.area := (d.foldl (fun (p : Tab Byte × Nat) b => (tset p.1 p.2 b, p.2 + 1))
            (if ofs = 0 then [] else s.recs.area, ofs.toNat)).1 } v 0)))) ∧
    (∀ cp2 len : Word, s.msgIs v true 6 2 = true → s.viaCp v 2 = cp2.toNat → s.viaCp v 3 = len.toNat →
      (∀ c, s.viaCmd v = some c → c.st ≠ .running) → (v = .mbox → ∀ x, s.recs.commit = some x → x.1 ≠ .mbox) →
      let ty := bitsOf cp2.toNat 0 16
      let a := if ty = 1 then 0 else bitsOf cp2.toNat 16 2
      let b := s.areaBytes len.toNat
      (ty ∉ [1, 2, 3, 7] → exec (.sysrecCommit v cp2 len) s = .next (s.secBad v 44)) ∧
      (ty ∈ [1, 2, 3, 7] →
        (2097152 < len.toNat → exec (.sysrecCommit v cp2 len) s = .next (s.secBad v 48)) ∧
        (len.toNat ≤ 2097152 → s.auditBlocked = false →
          let z := s.auditFree
          let c := s.sysrecCause w ty
          (c ≠ 0 → exec (.sysrecCommit v cp2 len) s = .next (z.secFail v c)) ∧
          (c = 0 →
            (∀ o, s.checkRec ty a b = some o → exec (.sysrecCommit v cp2 len) s = .next ((if ty = 7 then
                z.event 0x3000 2 [a, o] else if ty ≤ 2 then z.event 0x200A 2 [ty, a, o] else z).secBad v o)) ∧
            (s.checkRec ty a b = none →
              (ty = 3 → s.nv.life = .fielded → s.fieldedRltOk a b = false →
                exec (.sysrecCommit v cp2 len) s = .next (z.secFail v 5)) ∧
              (¬ (ty = 3 ∧ s.nv.life = .fielded ∧ s.fieldedRltOk a b = false) →
                (s.recs.commit.isSome = true → exec (.sysrecCommit v cp2 len) s = .next (s.secWait v .waiting)) ∧
                (s.recs.commit = none → exec (.sysrecCommit v cp2 len) s =
                  .next (State.secWait { z with recs.commit := some (v, ty, fin4 a, b) } v .running)))))))) ∧
    (∀ cp2 ofs n : Word, s.msgIs v false 6 3 = true → s.viaCp v 2 = cp2.toNat → s.viaCp v 3 = ofs.toNat → s.viaLen v = n.toNat →
      let ty := bitsOf cp2.toNat 0 16
      let a := if ty = 1 then 0 else bitsOf cp2.toNat 16 2
      (ty ∉ [1, 2, 3, 7] → exec (.sysrecRead v cp2 ofs n) s = .next (s.secBad v 44)) ∧
      (ty ∈ [1, 2, 3, 7] →
        let b := if ty = 3 then s.rltBytes a else tget [] s.recs.bytes (4 * ty + a)
        let out := (b.drop ofs.toNat).take n.toNat
        exec (.sysrecRead v cp2 ofs n) s = .next (s.draw.secEnd v 0 0 (out ++ padTo (n.toNat - out.length)
          (Config.freeBytes (n.toNat - out.length) s.free)))))

/-- Loading the system directory and ending a system record write.  SYSTEM_DIRECTORY_LOAD with no Geometry Table in
force takes the records found; with none it records event 0x2009, whose count of heads tried is free (log 60),
and with one it takes the other records of every actuator and makes ready the actuators that can be.
SYSREC_WRITTEN with no commit waiting does nothing; a failed one ends the message with cause 0xFF; a good one
puts the record in force and answers success.  Cites: R67, R68, R69, R381, R433, 02_media_format.md (system
area), log 60. -/
def Obligations.SystemRecordsLoadedAndWritten : Prop :=
  ∀ (s : State),
    (s.recs.geom = none → ((List.range 4).any (fun a => (s.act a).st.tracks)) = true → ∀ found,
      let z := s.foundRec found 1 0
      (z.recs.geom = none → exec (.systemDirectoryLoad found) s =
        .next (({ z with recs.noGeom := true } : State).draw.event 0x2009 3 [Config.freeNat z.free % 65])) ∧
      (z.recs.geom ≠ none →
        let y := upto 4 (fun a (s : State) => ((s.foundRec found 2 a).foundRec found 3 a).foundRec found 7 a) z
        exec (.systemDirectoryLoad found) s = .next (upto 4 (fun a (s : State) => s.actReady a) y))) ∧
    (s.recs.geom ≠ none → ∀ found, exec (.systemDirectoryLoad found) s = .next s) ∧
    (s.recs.commit = none → ∀ ok, exec (.sysrecWritten ok) s = .next s) ∧
    (∀ v ty a b, s.recs.commit = some (v, ty, a, b) →
      let z : State := { s with recs.commit := none }
      exec (.sysrecWritten false) s = .next (z.secEnd v 0xFF 0 []) ∧
      exec (.sysrecWritten true) s = .next ((upto 4 (fun a (s : State) => s.actReady a)
        (State.enforce { z with recs.gen := z.recs.gen + 1 } ty a.val b)).secOk v 0))

/-- SANITIZE is tested, waits for earlier commands, replaces keys, empties zones and completes after its checkpoint.
For each of the three actions: a running one completes with its zone count when its checkpoint is written and
waits till then; a new one ends with SECURITY_ERROR 5 on a decommissioned part, NO_RIGHT without an operator
session, SECURITY_ERROR 6 for an unconfigured range, 8 with a full audit log, waits for readiness and every
earlier command, and then is audited, replaces keys, sanitizes the zones, starts the checkpoint and runs.
Cites: R377, R394, R395, R396, R398, R399, log 61. -/
def Obligations.SanitizeStepsInOrder : Prop :=
  ∀ (s : State) (t : BitVec 16) (c : Cmd), s.cmd? 0 t = some c → c.opc = 0x0E →
    ∀ x : Instr × BitVec 4, x ∈ [(.sanitizeCryptoEraseAll t, 1#4), (.sanitizeCryptoEraseRange t, 2#4), (.sanitizeOverwrite t, 3#4)] →
      c.pf 0 0 4 = x.2.toNat →
      let rg := BitVec.ofNat 8 (c.pf 1 0 8)
      let answers : Nat → Nat → Prop := fun st r => exec x.1 s = .next (s.finish 0 t st r)
      (c.st = .running → s.zon.ckptBusy = none →
        let n := (c.fin.map (·.2)).getD 0
        exec x.1 s = .next (State.finish { s.audit 0xA00B 1 [x.2.toNat, n, 0, 0] with
          nv2.sanitize := none, sec.sanAction := 0 } 0 t 0 n)) ∧
      (c.st = .running → s.zon.ckptBusy ≠ none → exec x.1 s = .next s) ∧
      (c.st ≠ .running →
        (s.nv.life = .decommissioned → answers 0x70 5) ∧
        (s.nv.life ≠ .decommissioned →
          (s.session (.pcie, 0) .operator = none → answers 0x23 0) ∧
          (∀ y, s.session (.pcie, 0) .operator = some y →
            (x.2 = 2 → (s.range rg.toNat).st = 0 → answers 0x70 6) ∧
            (¬ (x.2 = 2 ∧ (s.range rg.toNat).st = 0) →
              (s.auditBlocked = true → answers 0x70 8) ∧
              (s.auditBlocked = false →
                let earlier := s.hqi.cmds.any (fun z => decide (z.ord < c.ord)) ||
                  s.cmp.units.any (fun u => !u.committed && u.dead.isNone && decide (u.ord < c.ord))
                (s.ready 9 = false ∨ s.ready 21 = false ∨ earlier = true →
                  exec x.1 s = .next (s.modCmd 0 t (fun z => { z with st := .waiting }))) ∧
                (s.ready 9 = true → s.ready 21 = true → earlier = false → s.zon.ckptBusy = none →
                    bitsOf s.pwr.ready.toNat 12 4 ≠ 0 →
                  let z := ({ s.audit 0xA00A 1 [x.2.toNat, rg.toNat, y.num.val, 0] with
                    nv2.sanitize := some (x.2, rg), sec.sanAction := x.2 } : State).replaceKeys x.2 rg
                  exec x.1 s = .next ((z.1.sanZones x.2 rg).startCkpt.modCmd 0 t
                    (fun q => { q with st := .running, fin := some (0, z.2) }))))))))

/-- Power-up self-tests and the entropy health test lead to readiness or to the error state.  In the error state the
entropy failure and the self-tests change nothing. Otherwise an entropy failure enters the error state and
empties the crypto lanes; self-tests run only before bit 1 is ready: failed firmware tests leave it unready, a
failed CRY test enters the error state, and a pass sets bit 1, locks the ranges with auto-lock and loads the
others, fences every lane that failed with its source and sets bit 9.  Cites: R386, R391, R392, R393, R401. -/
def Obligations.SelfTestsAndErrorState : Prop :=
  ∀ (s : State),
    (s.sec.error = true → exec .entropyHealthFail s = .next s ∧
      ∀ f k l, exec (.powerUpSelfTests f k l) s = .next s) ∧
    (s.sec.error = false →
      exec .entropyHealthFail s = .next s.toError ∧ s.toError.sec.lanes = [] ∧
      (s.ready 1 = true → ∀ f k l, exec (.powerUpSelfTests f k l) s = .next s) ∧
      (s.ready 1 = false →
        (∀ k l, exec (.powerUpSelfTests false k l) s = .next s) ∧
        (∀ l, exec (.powerUpSelfTests true false l) s = .next s.toError) ∧
        (∀ l : BitVec 4,
          let z := s.setReady 1 true
          let y := z.configured.foldl (fun (a : State) r =>
            if (a.range r).auto then a.modRange r (fun x => { x with st := 1 }) else a.loadKey r) z
          exec (.powerUpSelfTests true true l) s = .next (((List.range 4).foldl (fun (a : State) k =>
            if bitOf l.toNat k || bitOf a.cry.fenced.toNat k then a else raise (80 + k) (a.fenceLane k)) y).setReady 9 true))))

/-- POWER CONTROL actions are taken one at a time and begin as R436 to R439 say.  For each of the seven actions: a
waiting one lets the change under way proceed; while a change runs or an earlier POWER CONTROL command is
outstanding it waits; otherwise setting the state already in force completes at once and another begins the
change; domains off is a bad field while servo writing uses a named actuator or the gateway is in use, completes
at once with no domain named, and else parks what it names; domains on, park, unpark, spin up and spin down
begin. Readings of completion: log 63.  Cites: R319, R435, R436, R437, R439, log 63. -/
def Obligations.PowerControlBegins : Prop :=
  ∀ (s : State) (t : BitVec 16) (c : Cmd), s.cmd? 0 t = some c → c.opc = 0x0B → s.shadow = false →
    let a := c.pf 0 0 4
    let m := c.pf 1 0 14
    let rows : List (Instr × Nat) := [(.setPowerState t, 1), (.domainsOff t, 2), (.domainsOn t, 3), (.powerPark t, 4),
      (.powerUnpark t, 5), (.spinUp t, 6), (.spinDown t, 7)]
    (c.st = .waiting → ∀ x ∈ rows, a = x.2 → exec x.1 s = .next s.powerStep) ∧
    (c.st ≠ .waiting → (s.pwr.req.isSome = true ∨ ∃ y ∈ s.hqi.cmds, y.opc = 0x0B ∧ y.ord < c.ord) →
      ∀ x ∈ rows, a = x.2 → exec x.1 s = .next s) ∧
    (c.st ≠ .waiting → s.pwr.req = none → (∀ y ∈ s.hqi.cmds, y.opc = 0x0B → c.ord ≤ y.ord) →
      let z := s.modCmd 0 t (fun x => { x with st := .waiting })
      (a = 1 → ∀ dest, (c.pf 1 0 2, dest) ∈ [(0, PwrSt.active), (1, .activeIdle), (2, .spunDown), (3, .dark)] →
        (s.pwr.st = dest → exec (.setPowerState t) s = .next (z.finish 0 t 0 0).powerStep) ∧
        (s.pwr.st ≠ dest → exec (.setPowerState t) s = .next (z.beginState (some t) dest).powerStep)) ∧
      (a = 2 →
        let ssw := ∃ n < 4, bitOf m n = true ∧ (s.act n).st = .ssw
        let gw := bitOf m 5 = true ∧ (s.flag 0x0400 1 = true ∨ s.selfGw = true)
        (ssw ∨ gw → exec (.domainsOff t) s = .next (z.badField 0 t 40).powerStep) ∧
        (¬ ssw → ¬ gw → m = 0 → exec (.domainsOff t) s = .next (z.finish 0 t 0 0).powerStep) ∧
        (¬ ssw → ¬ gw → m ≠ 0 → exec (.domainsOff t) s = .next ((List.range 4).foldl
          (fun (y : State) n => if bitOf m n then y.requestPark n else y)
          (State.dropFor { z with pwr.req := some ⟨some t, BitVec.ofNat 14 m, 0, none, 0⟩ } m)).powerStep)) ∧
      (a = 3 → exec (.domainsOn t) s = .next (State.powerStep { z with
        pwr.req := some ⟨some t, 0, BitVec.ofNat 14 m, none, 0⟩ })) ∧
      (a = 4 → exec (.powerPark t) s = .next ((List.range 4).foldl
        (fun (y : State) n => if bitOf (c.pf 1 0 4) n then y.requestPark n else y) z).powerStep) ∧
      (a = 5 → exec (.powerUnpark t) s = .next ((List.range 4).foldl
        (fun (y : State) n => if bitOf (c.pf 1 0 4) n then y.requestUnpark n else y) z).powerStep) ∧
      (a = 6 → exec (.spinUp t) s = .next (State.requestSpin { z with
        spn.attempts := 0, spn.retryWait := false
        spn.st := if s.spn.st = .fault ∧ s.spn.fenced = false then .off else s.spn.st }).powerStep) ∧
      (a = 7 → exec (.spinDown t) s = .next (z.spinStop raise).powerStep))

/-- Domain switching, idle, DARK entry and the hold time-out take their steps in order.  Domains switch off once
quiet and complete their command; domains on switch, then complete when ready, or with NOT_READY. A change to
SPUN_DOWN or DARK waits for units and checkpoint, halts planning, writes a checkpoint, parks and stops the
spindle. The idle time-out enters ACTIVE_IDLE. DARK entry, once everything sent is acknowledged, turns the core
off and the buffer to self-refresh, unless STOP is in force. A held command ends NOT_READY when its hold runs
out.  Cites: R434, R436, R437, R438, R439, R441, R295, log 63. -/
def Obligations.PowerChangesStep : Prop :=
  ∀ (s : State),
    (∀ (t : BitVec 16) (off : BitVec 14) (k : Nat), off ≠ 0 → s.pwr.req = some ⟨some t, off, 0, none, k⟩ →
      (s.quiet off.toNat = false → exec .domainSwitchDone s = .next s) ∧
      (s.quiet off.toNat = true →
        let z := (s.domainsOff off.toNat).event 0x1002 1 [0, off.toNat]
        exec .domainSwitchDone s = .next (State.finish { z with pwr.req := none } 0 t 0 0))) ∧
    (∀ (t : BitVec 16) (on : BitVec 14),
      (s.pwr.req = some ⟨some t, 0, on, none, 0⟩ →
        let z := (s.domainsOn on.toNat).event 0x1002 1 [on.toNat, 0]
        exec .domainSwitchDone s = .next { z with pwr.req := some ⟨some t, 0, on, none, 1⟩ }) ∧
      (s.pwr.req = some ⟨some t, 0, on, none, 1⟩ →
        let z : State := { s with pwr.req := none }
        let code := s.readyCode (maskBits on.toNat)
        exec .domainSwitchDone s = .next (if code = 0 then z.finish 0 t 0 0 else if code = 2 then z.finish 0 t 0x50 0 else s))) ∧
    (∀ r, s.pwr.req = some r → r.target = some .spunDown ∨ r.target = some .dark →
      (r.step = 0 → s.cmp.units.any (fun u => !u.committed && u.dead.isNone) = true ∨ s.zon.ckptBusy.isSome = true →
        exec .domainSwitchDone s = .next s) ∧
      (r.step = 0 → s.cmp.units.any (fun u => !u.committed && u.dead.isNone) = false → s.zon.ckptBusy = none →
        exec .domainSwitchDone s = .next (if (List.range 4).all s.actQuiet then
            { ({ s with rpl.halt := true } : State).startCkpt with pwr.req := some { r with step := 1 } }
          else { s with rpl.halt := true })) ∧
      (r.step = 1 → s.zon.ckptBusy = none →
        exec .domainSwitchDone s = .next { s.parkAll.spinStop raise with pwr.req := some { r with step := 2 } })) ∧
    (s.pwr.st = .active → s.fld 0x5000 0 16 ≠ 0 → s.pwr.req = none → (List.range 4).all s.actQuiet = true →
      exec .idleTimeout s = .next (s.beginState none .activeIdle).powerStep) ∧
    (s.pwr.st ≠ .active ∨ s.fld 0x5000 0 16 = 0 → exec .idleTimeout s = .next s) ∧
    (s.pwr.darkPend = false → exec .darkEntry s = .next s) ∧
    (s.pwr.darkPend = true → s.allSent = true →
      let z : State := { s with pwr.darkPend := false, pwr.req := none }
      (s.flt.stop = false →
        let y := z.setPower .dark 1
        exec .darkEntry s = .next { y with
          pwr.core := false, pwr.on := y.pwr.on &&& ~~~(0x20#14), pwr.bufActive := false, buf.selfRefresh := true
          pwr.darkReady := y.pwr.ready &&& 0x200E3A, pwr.ready := y.pwr.ready &&& ~~~0x200E3A }) ∧
      (s.flt.stop = true →
        let y : State := { z with hqi.noFetch := false }
        exec .darkEntry s = .next (if s.pwr.st = .spunDown then y.event 0x1000 1 [2, 2, 1] else y.setPower .spunDown 1))) ∧
    (∀ (q : Fin 128) (t : BitVec 16),
      (∀ c, s.cmd? q.val t = some c → c.st = .held → exec (.holdTimeout q t) s = .next (s.endCmd c 0x50 0)) ∧
      ((∀ c, s.cmd? q.val t = some c → c.st ≠ .held) → exec (.holdTimeout q t) s = .next s))

/-- Raising a fault reacts by its class, and event and audit records are written where they belong.  FAULT_RAISE
runs the shared reaction for every source (source 64 first loses a line, which one is free: log 62; source 65
sets its status bit). The fault pin pulse and the mask window end. The head of the event queue goes to the log,
on a failed write degrades the recorder, and then goes to the ring; with the core off or an empty queue nothing
happens. Audit and reserve copies are written to media when an actuator is ready, event 0xB102 coming once.
Cites: R251, R403, R411, R412, R416, R417, R418, R419, R421, log 62. -/
def Obligations.FaultsEventsAndLogs : Prop :=
  ∀ (s : State),
    (∀ n : Fin 128, n.val ≠ 64 → n.val ≠ 65 → exec (.faultRaise n) s = .next (raise n.val s).wakeUnits) ∧
    (exec (.faultRaise 65) s = .next (raise 65 (s.setW1c 0x3004 30)).wakeUnits) ∧
    (exec (.faultRaise 64) s = .next (raise 64 s.loseLine).wakeUnits) ∧
    (s.flt.pulsing = true → exec .faultPinPulseEnd s = .next (State.setPin { s with flt.pulsing := false })) ∧
    (s.flt.pulsing = false → exec .faultPinPulseEnd s = .next s) ∧
    (∀ u : Fin 64, ∃ t, exec (.maskWindowEnd u) s = .next t ∧
      (∀ k < 64, t.flt.masking.getLsbD k = (s.flt.masking.getLsbD k && decide (k ≠ u.val))) ∧
      ({ t with flt.masking := s.flt.masking } : State) = s) ∧
    (s.domainCore = false ∨ s.evr.queue = [] → ∀ ok, exec (.evrRecordWritten ok) s = .next s) ∧
    (s.domainCore = true → ∀ e l, s.evr.queue = e :: l →
      (s.evr.degraded = true → ∀ ok, exec (.evrRecordWritten ok) s = .next (s.toRing e).leaveQueue) ∧
      (s.evr.degraded = false → exec (.evrRecordWritten true) s = .next (s.toLog e).leaveQueue ∧
        exec (.evrRecordWritten false) s = .next (s.degrade e).leaveQueue)) ∧
    (let l := (s.nv.audit.filter (fun x => !x.2)).map (·.1);
      (l = [] ∨ bitsOf s.pwr.ready.toNat 12 4 = 0 → exec .auditCopyDone s = .next s) ∧
      (l ≠ [] → bitsOf s.pwr.ready.toNat 12 4 ≠ 0 → exec .auditCopyDone s = .next
        (State.toMedia { s with nv.audit := s.nv.audit.map (fun x => (x.1, true)) } l))) ∧
    ((∀ x ∈ s.evr.ring, x.2 = true) ∨ bitsOf s.pwr.ready.toNat 12 4 = 0 → exec .reserveCopyDone s = .next s) ∧
    (∀ x, s.evr.ring.find? (fun x => !x.2) = some x → bitsOf s.pwr.ready.toNat 12 4 ≠ 0 →
      let z := State.toMedia { s with evr.ring := markCopied s.evr.ring } [x.1]
      exec .reserveCopyDone s = .next (if z.evr.copied102 then z else ({ z with evr.copied102 := true } : State).event 0xB102 1 [1]))

/-- A fabric port trains, greets, measures its delay, comes up and goes down.  TRAINING ends in HELLO or starts
over. In HELLO a tick sends HELLO with node id, address, port, pair state and boot number (layout of the pair
state: log 42); a HELLO of another node is taken and answered by two delay requests, one of the own node is a
self-loop with event 0x8001 (once: log 49); the second delay answer brings the port up. UP ports take
heartbeats, NAKs, acknowledgement time-outs, LSAs and delay answers; others ignore them. The four causes of R339
take a port down, the sixteenth replay among them.  Cites: R321, R324, R326, R334, R335, R339, log 42, log 49. -/
def Obligations.PortsComeUpAndGoDown : Prop :=
  ∀ (n : Fin 5) (s : State),
    let q := s.port n.val
    let set : (Port → Port) → State := s.modPort n.val
    (q.st = .training → exec (.portTrained n) s = .next (set (fun x => { x with st := .hello })) ∧
      exec (.trainingTimeout n) s = .next (set (fun _ => { Port.init with st := .training }))) ∧
    (q.st = .hello →
      exec (.helloTick n) s = .next (s.ctlSend n 1 false [s.nv.nodeId, BitVec.ofNat 64 (s.fab.addr.toNat + 2 ^ 16 * n.val +
        2 ^ 24 * s.pairCode + 2 ^ 32 * s.fab.inst.toNat)]) ∧
      (∀ id ad np ps ins,
        let z := set (fun x => { x with nodeId := id, nbr := ad, nport := np })
        (id ≠ s.nv.nodeId → exec (.hello n id ad np ps ins) s =
          .next ((z.ctlSend n 3 false [s.nsNow]).ctlSend n 3 false [s.nsNow])) ∧
        (id = s.nv.nodeId → q.nodeId = id ∧ q.nport = np → exec (.hello n id ad np ps ins) s = .next s) ∧
        (id = s.nv.nodeId → ¬ (q.nodeId = id ∧ q.nport = np) → exec (.hello n id ad np ps ins) s =
          .next (z.event 0x8001 2 [n.val, 6, ad.toNat]))) ∧
      (∀ t1 t2 t3 t4, q.nodeId ≠ s.nv.nodeId →
        let z := set (fun x => { x with delays := (((t4 - t1) - (t3 - t2)).toNat / 2 :: x.delays).take 8 })
        (q.delays = [] → exec (.delayResp n t1 t2 t3 t4) s = .next z) ∧
        (q.delays ≠ [] → exec (.delayResp n t1 t2 t3 t4) s = .next (z.portUp n)))) ∧
    (q.st = .up ∨ q.st = .hello → ∀ t1 t2, exec (.delayReq n t1 t2) s = .next (s.ctlSend n 4 false [t1, t2, s.nsNow])) ∧
    (q.st = .up →
      (∀ h, exec (.heartbeat n h) s = .next (s.takeHdr n h) ∧ exec (.linkNak n h) s = .next ((s.takeHdr n h).replayAll n)) ∧
      exec (.ackTimeout n) s = .next (s.replayAll n) ∧
      exec (.upHoldExpiry n) s = .next (set (fun x => { x with ready := true })) ∧
      (∀ l, exec (.lsa n l) s = .next (s.gotLsa l)) ∧
      (∀ t1 t2 t3 t4, q.nodeId ≠ s.nv.nodeId → exec (.delayResp n t1 t2 t3 t4) s =
        .next (set (fun x => { x with delays := (((t4 - t1) - (t3 - t2)).toNat / 2 :: x.delays).take 8 })))) ∧
    (q.st ≠ .up → ∀ h l, exec (.heartbeat n h) s = .next s ∧ exec (.linkNak n h) s = .next s ∧ exec (.ackTimeout n) s = .next s ∧
      exec (.upHoldExpiry n) s = .next s ∧ exec (.lsa n l) s = .next s) ∧
    (∀ c, c = .symbols ∨ c = .heartbeats ∨ (c = .replays ∧ 16 ≤ q.again) ∨ (c = .fence ∧ s.restartSt n.val = .fenced) ∨
        (c = .laneOff ∧ s.portEnabled n.val = false) →
      exec (.portDown n c) s = .next (s.portDown raise n c)) ∧
    (q.again < 16 → exec (.portDown n .replays) s = .next s)

/-- Heartbeats and delay requests go out on every port that is up.  HEARTBEAT_TICK sends a HEARTBEAT on every port
that is UP and clears its NAK mark; DELAY_TICK sends a delay request with the present time; with no port UP both
change nothing. The lanes of the partner link share a tick (log 49).  Cites: R321, R326, log 5, log 49. -/
def Obligations.LanesTickTogether : Prop :=
  ∀ s : State,
    exec .heartbeatTick s = .next ((List.finRange 5).foldl (fun (z : State) n => if (z.port n.val).st = PortSt.up
      then (z.modPort n.val (fun q => { q with naked := false })).ctlSend n 2 false [] else z) s) ∧
    exec .delayTick s = .next ((List.finRange 5).foldl (fun (z : State) n => if (z.port n.val).st = PortSt.up
      then z.ctlSend n 3 false [z.nsNow] else z) s) ∧
    ((∀ n : Fin 5, (s.port n.val).st ≠ .up) → exec .heartbeatTick s = .next s ∧ exec .delayTick s = .next s)

/-- Link-state ageing and flooding, route computation and installation, and takeover notices.  LSA_TICK ages the own
address and floods; an LSA that expires is removed and routes are computed again; an unknown one changes
nothing. ROUTE_COMPUTE keeps a table, ROUTE_INSTALL_DONE installs it with the repairs of ports that have gone
down meanwhile, records event 0x8004, and sets bit 7 or ends a wake. The partner wait ends by discarding the
waiting packets. A TAKEOVER for an own address changes nothing, another is followed.  Cites: R334, R335, R336,
R337, R340, R348, R358, log 50. -/
def Obligations.LinkStateAndRoutes : Prop :=
  ∀ s : State,
    exec .partnerWaitExpiry s = .next { s with
      fab.discards := s.fab.discards + s.fab.partnerWait.length, fab.partnerWait := [] } ∧
    (s.fab.noaddr = true → exec .lsaTick s = .next (State.floodLsa { s with fab.age := 0 })) ∧
    (s.fab.noaddr = false → exec .lsaTick s = .next (State.floodLsa { s with fab.age := satInc s.fab.age })) ∧
    (∀ ad id, (∃ l ∈ s.fab.lsas, l.origin = ad ∧ l.nodeId = id) → exec (.lsaExpiry ad id) s = .next (State.routeWake { s with
      fab.lsas := s.fab.lsas.filter (fun l => !(l.origin == ad && l.nodeId == id)) })) ∧
    (∀ ad id, (∀ l ∈ s.fab.lsas, ¬ (l.origin = ad ∧ l.nodeId = id)) → exec (.lsaExpiry ad id) s = .next s) ∧
    (s.domainCore = true ∨ s.pwr.routeWake = true →
      exec .routeCompute s = .next { s with fab.computed := some s.computeRoutes }) ∧
    (s.fab.computed = none → exec .routeInstallDone s = .next s) ∧
    (∀ t, s.fab.computed = some t →
      let r := ((List.range 5).filter (fun n => (s.port n).st != .up)).foldl (fun y n => repair n y) t
      let z := ({ s with fab.routes := r, fab.computed := none } : State).event 0x8004 1
        [(r.filter (fun e => e.2.valid)).length, (r.filter (fun e => e.2.altValid)).length]
      (z.pwr.routeWake = true → exec .routeInstallDone s = .next { z with
        pwr.routeWake := false, pwr.core := z.pwr.st != .dark }) ∧
      (z.pwr.routeWake = false → exec .routeInstallDone s = .next (z.setReady 7 true).findBoss)) ∧
    (∀ a b, s.isMine a = true → exec (.takeover a b) s = .next s) ∧
    (∀ a b, s.isMine a = false → exec (.takeover a b) s = .next (s.gotTakeover a b))

/-- Side B takes over at its time-out, conflicts release OWN_N, and a takeover runs its steps.  Side B takes
ownership when OWN_PEER_N has stayed high; an owner on side B that sees both owning releases, with source 101
and event 0x9003. The handover pull ends. TAKEOVER_SEND_AS_DRIVE counts what the dead owner posted, reads the
doorbells and fetches; TAKEOVER_REBUILD_DONE replaces the mirrored data, rebuilds accumulators and lets reads
and writes go on. YIELD first aligns and mirrors, waits for every acknowledgement and then pulls the handover.
Cites: R362, R363, R365, R371, R373, log 54. -/
def Obligations.OwnershipChangesHands : Prop :=
  ∀ s : State,
    (s.pair.paired = true → s.pair.sideB = true → s.pair.peerLow = false →
      exec .sideBPowerupTimeout s = .next (s.takeOwner 1)) ∧
    (s.pair.paired = false ∨ s.pair.sideB = false ∨ s.pair.peerLow = true → exec .sideBPowerupTimeout s = .next s) ∧
    (∀ low : Bool, s.pair.paired = true →
      let z : State := { s with pair.peerLow := low, pair.peerSeen := s.pair.peerSeen || low }
      (s.pair.owner = true → low = true → s.pair.sideB = true → exec (.ownCheck low) s =
        .next (raise 101 ((z.releaseOwn.setW1c 0x0C04 23).event 0x9003 3 [1]))) ∧
      (s.pair.owner = false ∨ low = false ∨ s.pair.sideB = false → exec (.ownCheck low) s = .next z)) ∧
    (s.pair.pulling = true → exec .handoverPullRelease s = .next { s with pair.pulling := false, pair.handoverLow := false }) ∧
    (s.pair.pulling = false → exec .handoverPullRelease s = .next s) ∧
    (s.pfr.takeStep = 1 → ∀ l,
      let z := (l.filter (fun p => s.hqi.posting.contains p)).foldl (fun (y : State) p => y.countPosted p.1 p.2) s
      exec (.takeoverSendAsDrive l) s = .next (State.readPage { z with
        pfr.takeStep := 2, hqi.noFetch := false, hqi.posting := [] }).fetchAll) ∧
    (s.pfr.takeStep ≠ 1 → ∀ l, exec (.takeoverSendAsDrive l) s = .next s) ∧
    (s.pfr.takeStep ≠ 0 → s.pair.owner = true →
      let z : State := { s.mirroredData with pfr.takeStep := 0, rpl.halt := false }
      let y := (z.zon.zones.foldl (fun (a : State) e => (a.zone e.1).groups.foldl (fun (b : State) g =>
        if g.isOpen && g.acc.isNone then b.startRebuild e.1 g else b) a) z).rebuildAll
      let x := y.hqi.cmds.foldl (fun (a : State) c => if isReadOpc c.opc.toNat && c.st == .running then a.goRead c else a) y
      exec .takeoverRebuildDone s = .next ((x.pumpWrites none).wakeData.pumpReads).wakeWaiters) ∧
    (s.pair.yielding = true → s.seq.banks.all (fun e => e.2.all (·.isOver)) = true →
      (s.pfr.takeStep ≠ 5 → exec .yieldHandover s = .next { (s.pairSend 1 s.alignBytes).mirrorQ with pfr.takeStep := 5 }) ∧
      (s.pfr.takeStep = 5 → s.pfr.unacked = [] → exec .yieldHandover s = .next s.pullHandover) ∧
      (s.pfr.takeStep = 5 → s.pfr.unacked ≠ [] → exec .yieldHandover s = .next s))

/-- Canaries are sent on the partner link and judged on each lane, eight misses meaning a lost partner.  With the
partner link up CANARY_TICK sends one canary with the number, the owner, aligned and yielding bits and the check
byte. A window in which either lane brought a good canary takes its bits and counts towards 1,000; one with none
counts a miss; at the eighth an owner loses its partner, an aligned shadow that may fail over pulls the handover
and another records event 0x9001. The window that is the thousandth good one is not covered here.  Cites: R364,
R365, R425, log 54. -/
def Obligations.CanariesCrossTheBridge : Prop :=
  ∀ s : State,
    (s.pair.paired = true → (s.port 4).st = .up →
      let d2 := BitVec.ofNat 8 (b2n s.pair.owner + 2 * b2n s.pair.aligned + 4 * b2n s.pair.yielding)
      ∃ t, exec .canaryTick s = .next t ∧ t.pair.canary = s.pair.canary + 1 ∧
        t.sent = .canary s.pair.canary d2 (s.pair.canary ^^^ d2 ^^^ 0xA5) :: s.sent ∧
        ({ t with pair.canary := s.pair.canary, sent := s.sent } : State) = s) ∧
    (s.pair.paired = true → ∀ l0 l1,
      (∀ d2 : Nat, (canaryOf l0).or (canaryOf l1) = some d2 →
        let z : State := { s with
          pair.missRun := 0, pair.goodRun := s.pair.goodRun + 1, pair.canaryOk := true, pair.peerAligned := bitOf d2 1
          pair.peerYield := bitOf d2 2, pair.peerLow := bitOf d2 0, pair.peerSeen := s.pair.peerSeen || bitOf d2 0 }
        s.pair.goodRun + 1 ≠ 1000 → exec (.canaryWindow l0 l1) s = .next z) ∧
      ((canaryOf l0).or (canaryOf l1) = none →
        let z : State := { s.count 185 1 with
          pair.missRun := s.pair.missRun + 1, pair.goodRun := 0, pair.canaryOk := false, pair.missed := satInc s.pair.missed }
        (s.pair.missRun ≠ 7 → exec (.canaryWindow l0 l1) s = .next z) ∧
        (s.pair.missRun = 7 → s.pair.owner = true → exec (.canaryWindow l0 l1) s = .next (z.partnerLost raise 1)) ∧
        (s.pair.missRun = 7 → s.pair.owner = false →
          (s.flag 0x0C00 1 = true → s.pair.aligned = true → s.pair.noPull = false →
            exec (.canaryWindow l0 l1) s = .next z.pullHandover) ∧
          (s.flag 0x0C00 1 = false ∨ s.pair.aligned = false ∨ s.pair.noPull = true →
            exec (.canaryWindow l0 l1) s = .next (z.event 0x9001 2 [1])))))

/-- Pair frames are taken in sequence, repeated ones acknowledged again, and mirrored state follows.  PAIR_ACK
removes what it covers and releases the completions that waited for it. A retry repeats every unacknowledged
frame four times and then raises source 102 and loses the partner. A late ALIGN ends alignment at the shadow
only. Each frame kind in sequence at the shadow is acknowledged after its effect: SELECT, CFG, QSTATE, SNAPSHOT,
JRNL (a record with a bad check has none), DATA and ALIGN; the owner acknowledges, and takes nothing but what a
CFG frame sets; a frame out of sequence is dropped and an old one acknowledged again. Payload layouts: log 21;
immediate acknowledgement: log 55.  Cites: R366, R367, R368, R369, R375, log 21, log 55. -/
def Obligations.PairFramesInSequence : Prop :=
  ∀ (s : State), s.pair.paired = true →
    (∀ pack : BitVec 16,
      let done := fun (q : BitVec 16) => decide ((pack - q).toNat < 32768)
      ∃ t, exec (.pairAck pack) s = .next t ∧
        (s.pfr.snap = none → t.pfr.unacked = s.pfr.unacked.filter (fun f => !done f.1) ∧
          (∀ p ∈ t.hqi.posts, ∀ q, p.need = some q → done q = false) ∧ t.hqi.posts.length = s.hqi.posts.length ∧
          (t.pfr.reps = if s.pfr.unacked.any (fun f => done f.1) then 0 else s.pfr.reps))) ∧
    (s.pfr.unacked = [] → exec .pairFrameRetry s = .next s) ∧
    (s.pfr.unacked ≠ [] →
      (s.pfr.reps < 4 →
        let z : State := { s with pfr.reps := s.pfr.reps + 1 }
        exec .pairFrameRetry s = .next (z.pfr.unacked.foldl (fun (y : State) f => (y.count 184 1).send (.pair f.1 f.2.1 f.2.2)) z)) ∧
      (4 ≤ s.pfr.reps → exec .pairFrameRetry s =
        .next (raise 102 (State.partnerLost { s with pfr.reps := 0, pfr.unacked := [] } raise 2)))) ∧
    (s.pair.owner = false → exec .alignLate s = .next (s.alignLost 0 0)) ∧
    (s.pair.owner = true → exec .alignLate s = .next s) ∧
    (s.pair.owner = true → (∃ n < 4, (s.act n).st ≠ .parked) → exec .alignSend s = .next (s.pairSend 1 s.alignBytes)) ∧
    (∀ q : BitVec 16,
      let expected := s.pfr.pack + 1
      let z : State := { s with pfr.pack := expected }
      let past := s.pfr.fenced = true ∨ (q ≠ expected ∧ 32768 ≤ (s.pfr.pack - q).toNat)
      let again := s.pfr.fenced = false ∧ q ≠ expected ∧ (s.pfr.pack - q).toNat < 32768
      (∀ (x : Instr), (∃ r l, x = .alignFrame q r l) ∨ (∃ a h k p l, x = .selectFrame q a h k p l) ∨ (∃ r, x = .jrnl q r) ∨
          (∃ c, x = .qstate q c) ∨ (∃ m, x = .snapshotFrame q m) ∨ (∃ o v, x = .cfgFrame q o v) ∨
          (∃ a b, x = .pairData q a b ∧ a.toNat + b.length ≤ memTop) →
        (past → exec x s = .next s) ∧ (again → exec x s = .next (s.pairSend 0 [])) ∧
        (s.pfr.fenced = false → q = expected → s.pair.owner = true → ∃ t, exec x s = .next (t.pairSend 0 []) ∧
          ((∀ o v, x ≠ .cfgFrame q o v) → t = z))) ∧
      (s.pfr.fenced = false → s.pair.owner = false → q = expected →
        (∀ a h k p l, exec (.selectFrame q a h k p l) s = .next ((z.modAct a.val (fun y => { y with
          lastSet := some h, heads := l, track := k + p.setWidth 24 })).pairSend 0 [])) ∧
        (∀ o v, exec (.cfgFrame q o v) s = .next ((z.takeCfg o.toNat v.toNat).pairSend 0 [])) ∧
        (∀ c, exec (.qstate q c) s = .next ((z.takeQ c).pairSend 0 [])) ∧
        (∀ m, exec (.snapshotFrame q m) s = .next (State.pairSend { z with pfr.snapIn := m == 1 } 0 [])) ∧
        (∀ r, recOk r = false → exec (.jrnl q r) s = .next (z.pairSend 0 [])) ∧
        (∀ r, recOk r = true →
          let j : JRec := { parseRec r with flags := (parseRec r).flags ||| 4 }
          let y := State.replayRec { z with
            nv.journal := tset s.nv.journal s.nv.jslot (some j), nv.jslot := (s.nv.jslot + 1) % 1024, nv.jseq := j.jseq + 1
            zon.unchk := s.zon.unchk + 1 } j
          exec (.jrnl q r) s = .next (State.pairSend { y with
            cmp.units := y.cmp.units.filter (fun u => !(u.csec == j.csec && (j.jtype == 1 || j.jtype == 2))) } 0 [])) ∧
        (∀ a b, a.toNat + b.length ≤ memTop → exec (.pairData q a b) s = .next ((z.store a.toNat b).pairSend 0 [])) ∧
        (∀ r l,
          let y := l.foldl (fun (w : State) a => w.alignAct a) ({ z with atb.rev := r, pfr.aligns := 0 } : State)
          let all := (List.range 4).all (fun n => (y.act n).st == .parked || (y.act n).st == .fenced ||
            decide (2 ≤ tget 0 y.pfr.agree n))
          exec (.alignFrame q r l) s = .next ((if all && y.pfr.apart = 0 && !y.pair.aligned then
            ({ y with pair.aligned := true, pair.noPull := false } : State).setReady 20 true else y).pairSend 0 []))))

/-- Power-up, readiness bounds, part reset, SAVE and journal replay.  AON_READY samples the straps, draws the boot
number (free, log 13), gives the domains power and begins the first ownership and spin-up. A readiness bound
that runs out before its bit records event 0x1001 and raises source 117. PART_RESET and the delayed reset of a
register write reset the part with cause 1 or 2. A finished SAVE or CLEAR installs the image and its generation,
a failed one raises source 122. JOURNAL_REPLAY runs once BUF and the Geometry Table are ready and ends a
sanitize record.  Cites: R221, R332, R359, R432, R433, R455, R457, log 13, log 15, log 45. -/
def Obligations.PowerUpAndReset : Prop :=
  ∀ s : State,
    (s.pwr.aon = true → ∀ l p b o, exec (.aonReady l p b o) s = .next s) ∧
    (s.pwr.aon = false → ∀ (l : BitVec 12) (p b o : Bool),
      let z : State := { s.draw with
        pwr.aon := true, pwr.core := true, pwr.bufActive := true, pwr.on := if p then 0x0FFF else 0x3FFF
        pair.paired := !p, pair.sideB := b, pair.peerLow := !o, pair.peerSeen := !o
        fab.loc := l, fab.inst := BitVec.ofNat 16 (Config.freeNat s.free), svc.seated := true }
      let y := ((z.setReady 0 true).setReady 8 true).firstOwner.portEnables
      exec (.aonReady l p b o) s = .next ((if p then y else y.restartPort 4).setPin).powerUpSpin) ∧
    (∀ k : Fin 22,
      (readyBound k.val = none ∨ s.ready k.val = true → exec (.readyBoundExpiry k) s = .next s) ∧
      (∀ ms, readyBound k.val = some ms → s.ready k.val = false → exec (.readyBoundExpiry k) s =
        .next (raise 117 ((State.setW1c { s with pwr.missed := s.pwr.missed ||| (1#22 <<< k.val) } 0x0008 30).event
          0x1001 2 [k.val, ms])))) ∧
    exec .partReset s = .next (s.partReset 1) ∧
    (s.pwr.rstPend = true → exec .partResetDelayExpiry s = .next (s.partReset 2)) ∧
    (s.pwr.rstPend = false → exec .partResetDelayExpiry s = .next s) ∧
    (s.gen.saving = none → ∀ ok, exec (.saveDone ok) s = .next s) ∧
    (∀ i c, s.gen.saving = some (i, c) →
      exec (.saveDone true) s = .next { s with
        gen.saving := none, gen.result := 1, nv.image := i, nv.imageCls := c, nv.imageBad := false
        nv.imageGen := s.nv.imageGen + 1 } ∧
      exec (.saveDone false) s = .next (raise 122 { s with gen.saving := none, gen.result := 2 })) ∧
    (∀ l, s.ready 2 = false ∨ s.recs.geom = none ∨ s.ready 21 = true → exec (.journalReplay l) s = .next s) ∧
    (∀ l, s.ready 2 = true → s.recs.geom.isSome = true → s.ready 21 = false → ∃ t, exec (.journalReplay l) s = .next t ∧
      t.nv2.sanitize = none)

/-- The button, the locate light, SERVICE and both kinds of removal.  A short press toggles the locate light under
policy 1 or 2 and is ignored and recorded otherwise; a long press under policy 2 starts safe removal. The locate
time-out turns the light off when it is set. SERVICE actions 1 to 4 set the light, start and cancel removal and
complete at once (log 46). The preparation time-out ends the removal with event 0xC004. Opening the latch or
pulling the sled is a surprise removal unless the module is SAFE, and SURPRISE ends back to normal with event
0xC008. Step numbers and single counting: log 64.  Cites: R319, R442, R443, R444, R445, R446, R448, log 46, log
64. -/
def Obligations.ButtonLocateAndRemoval : Prop :=
  ∀ s : State,
    (∀ ms : Nat,
      (s.svc.longDone = true → exec (.attnRelease ms) s = .next { s with svc.longDone := false }) ∧
      (s.svc.longDone = false → ms < 1000 → s.policy = 1 ∨ s.policy = 2 →
        exec (.attnRelease ms) s = .next (s.setLocate (!s.svc.locate) 1)) ∧
      (s.svc.longDone = false → 1000 ≤ ms ∨ (s.policy ≠ 1 ∧ s.policy ≠ 2) →
        exec (.attnRelease ms) s = .next (s.ignorePress ms))) ∧
    (s.policy = 2 → s.svc.longDone = false →
      let z : State := { s with svc.longDone := true }
      (s.svc.removal = .normal → exec .attnLongPress s = .next (z.startRemoval 1)) ∧
      (s.svc.removal ≠ .normal → exec .attnLongPress s = .next (z.ignorePress 3000))) ∧
    (s.policy ≠ 2 ∨ s.svc.longDone = true → exec .attnLongPress s = .next s) ∧
    (s.fld 0x5400 16 8 ≠ 0 → exec .locateTimeout s = .next (s.setLocate false 3)) ∧
    (s.fld 0x5400 16 8 = 0 → exec .locateTimeout s = .next s) ∧
    (∀ (t : BitVec 16) (c : Cmd), s.cmd? 0 t = some c → c.opc = 0x0C → s.shadow = false → c.fin = none → c.st ≠ .running →
      s.retired c = false →
      (c.pf 0 0 4 = 1 → exec (.locateOn t) s = .next ((s.setLocate true 2).finish 0 t 0 0)) ∧
      (c.pf 0 0 4 = 2 → exec (.locateOff t) s = .next ((s.setLocate false 2).finish 0 t 0 0)) ∧
      (c.pf 0 0 4 = 3 → exec (.safeRemovalRequest t) s =
        .next ((if s.svc.removal = .normal then s.startRemoval 2 else s).finish 0 t 0 0)) ∧
      (c.pf 0 0 4 = 4 →
        (s.svc.removal = .preparing → exec (.safeRemovalCancel t) s =
          .next ((s.endRemoval.floodLsa.event 0xC005 1 [Removal.preparing.code]).finish 0 t 0 0)) ∧
        (s.svc.removal = .safe → exec (.safeRemovalCancel t) s =
          .next ((s.endRemoval.event 0xC005 1 [Removal.safe.code]).finish 0 t 0 0)) ∧
        (s.svc.removal = .normal ∨ s.svc.removal = .surprise → exec (.safeRemovalCancel t) s = .next (s.finish 0 t 0 0)))) ∧
    exec .removalSafe s = .next s.removalStep.removalStep.removalStep ∧
    (s.svc.removal = .preparing → exec .prepTimeout s =
      .next ((s.setW1c 0x5404 25).event 0xC004 3 [if s.svc.step = 2 then 4 else 3]).endRemoval) ∧
    (s.svc.removal ≠ .preparing → exec .prepTimeout s = .next s) ∧
    (let z : State := { s with svc.latchOpen := true };
      (s.svc.removal = .safe → exec .latchRise s = .next (z.event 0xC006 0 [])) ∧
      (s.svc.removal = .surprise → exec .latchRise s = .next z) ∧
      (s.svc.removal = .normal ∨ s.svc.removal = .preparing → exec .latchRise s = .next (z.surprise 1))) ∧
    (let z : State := { s with svc.seated := false };
      (s.svc.removal = .safe ∨ s.svc.removal = .surprise → exec .prsntRise s = .next z) ∧
      (s.svc.removal = .normal ∨ s.svc.removal = .preparing → exec .prsntRise s = .next (z.surprise 2))) ∧
    (s.svc.removal = .surprise → exec .surpriseEnd s = .next ((State.pfailEnds { s with
      svc.removal := .normal, svc.latchOpen := false, svc.seated := true, hqi.noFetch := false
      fab.leaving := s.spn.pfailLow }).floodLsa.event 0xC008 1 [])) ∧
    (s.svc.removal ≠ .surprise → exec .surpriseEnd s = .next s)

/-- The gateway answers remote reads, writes and interrupts, and a module takes its read data in order.  A remote
read with the gateway off is answered status 6 and outside its window status 5, else a host read is issued;
writes and interrupts likewise reach the host or are dropped, a write outside its window with event 0x8008. A
failed host read is answered with its status. RDATA for an unknown tag, from another than the gateway, after the
last or out of place changes nothing; in place it is collected and, complete, handed to what asked. A doorbell
hint reads the doorbell page, or wakes from DARK when enabled. MGMT_RD and MGMT_WR perform a register request
and answer; MGMT_RSP is kept (payload layout: log 53).  Cites: R277, R345, R346, R354, R440, R459, log 52, log
53. -/
def Obligations.GatewayServesRemoteModules : Prop :=
  ∀ (s : State) (src : BitVec 12),
    let ans : State → BitVec 16 → Nat → Bool → Nat → List Byte → State :=
      fun z tag st last ofs l => z.e2eSend src 0x24 (rdataBytes tag st last ofs l)
    (∀ (a : BitVec 64) (n : Word) (tag : BitVec 16),
      (s.flag 0x0400 1 = false → exec (.rmaRead src a n tag) s = .next (ans s tag 6 true 0 [])) ∧
      (s.flag 0x0400 1 = true → s.rmaWithin a.toNat n.toNat = false → exec (.rmaRead src a n tag) s = .next (ans s tag 5 true 0 [])) ∧
      (s.flag 0x0400 1 = true → s.rmaWithin a.toNat n.toNat = true → ∃ t, exec (.rmaRead src a n tag) s = .next t ∧
        t.fab.serving = s.fab.serving ++ [(src, tag, a, n)] ∧ t.sent = .hostRead a n.toNat :: s.sent ∧
        ({ t with fab.serving := s.fab.serving, sent := s.sent } : State) = s)) ∧
    (∀ (a : BitVec 64) (l : List Byte),
      (s.flag 0x0400 1 = false → exec (.rmaWrite src a l) s = .next s) ∧
      (s.flag 0x0400 1 = true → s.rmaWithin a.toNat l.length = false → exec (.rmaWrite src a l) s =
        .next (s.event 0x8008 2 [src.toNat, a.toNat % 2 ^ 32, a.toNat / 2 ^ 32])) ∧
      (s.flag 0x0400 1 = true → s.rmaWithin a.toNat l.length = true → exec (.rmaWrite src a l) s = .next (s.send (.hostWrite a l)))) ∧
    (∀ v : Byte, exec (.rmaIrq src v) s = .next (if s.flag 0x0400 1 then s.send (.msix v) else s)) ∧
    (∀ (tag : BitVec 16) (st : Byte) (ofs : Word) (last : Bool) (l : List Byte),
      (s.fab.serving.find? (fun x => x.1 == src && x.2.1 == tag) = none →
        exec (.gwPcieReadDone src tag st ofs last l) s = .next s) ∧
      (∀ x, s.fab.serving.find? (fun x => x.1 == src && x.2.1 == tag) = some x → st ≠ 0 →
        exec (.gwPcieReadDone src tag st ofs last l) s =
          .next (ans { s with fab.serving := s.fab.serving.erase x } tag st.toNat true 0 []))) ∧
    (∀ (tag : BitVec 16) (st : Byte) (last : Bool) (ofs : Word) (l : List Byte),
      (s.fab.rtags.find? (fun x => x.1 == tag) = none → exec (.rmaRdata src tag st last ofs l) s = .next s) ∧
      (∀ x, s.fab.rtags.find? (fun x => x.1 == tag) = some x →
        (src ≠ s.gw ∨ x.2.2.2 = true → exec (.rmaRdata src tag st last ofs l) s = .next s) ∧
        (src = s.gw → x.2.2.2 = false →
          (st ≠ 0 → exec (.rmaRdata src tag st last ofs l) s = .next (s.purposeFailed x.2.1)) ∧
          (st = 0 → ofs.toNat ≠ x.2.2.1.length → exec (.rmaRdata src tag st last ofs l) s = .next s) ∧
          (st = 0 → ofs.toNat = x.2.2.1.length →
            let z : State := { s with fab.rtags := s.fab.rtags.map (fun y =>
              if y.1 = tag then (y.1, y.2.1, y.2.2.1 ++ l, last) else y) }
            let mine := z.fab.rtags.filter (fun y => y.2.1 == x.2.1)
            exec (.rmaRdata src tag st last ofs l) s = .next (if mine.all (fun y => y.2.2.2) then
              State.purposeDone { z with fab.rtags := z.fab.rtags.filter (fun y => y.2.1 != x.2.1) } x.2.1
                (some (mine.map (fun y => y.2.2.1)).flatten) else z))))) ∧
    (s.pwr.st ≠ .dark → exec (.dbHint src) s = .next s.readPage) ∧
    (s.pwr.st = .dark → s.flag 0x5000 30 = true → exec (.dbHint src) s = .next (s.leaveDark.applyLatched raise)) ∧
    (s.pwr.st = .dark → s.flag 0x5000 30 = false → exec (.dbHint src) s = .next s) ∧
    (∀ (off : BitVec 16) (len : Byte),
      (len.toNat % 4 ≠ 0 → exec (.mgmtRd src off len) s = .next (s.mgmtAnswer src 0 2 [])) ∧
      (len.toNat % 4 = 0 →
        let r := s.readReq .fabric off.toNat (len.toNat / 4)
        exec (.mgmtRd src off len) s = .next (r.2.2.mgmtAnswer src 0 r.1 (if r.1 = 0 then r.2.1 else [])))) ∧
    (∀ (k : Byte) (off : BitVec 16) (l : List Word),
      let r := s.writeReq ⟨.fabric, src, k⟩ off.toNat l
      exec (.mgmtWr src k off l) s = .next (r.1.mgmtAnswer src k r.2 [])) ∧
    (∀ (st : Byte) (l : List Word), exec (.mgmtRsp src st l) s = .next { s with fab.mgmtRsp := (st, l) })

/-- A PEER MOVE session opens, is keyed, carries its packets and ends on both sides.  PM_OPEN is refused for a ninth
session with status 0xFF and for a bad certificate or signature with 0x61 (log 51), else keyed and accepted.
PM_ACCEPT of a waiting session with a good signature keys it and starts the data, else fails it. PM_DATA is
opened with the session key; a bad tag, a wrong packet number or too much data refuses the session. PM_DONE
completes the source command, with the peer's status in RESULT when it failed, or starts the target's append.
PM_REFUSE and the session time-out end theirs. Layouts: log 42; cryptography opaque: log 10.  Cites: R312, R352,
R353, R389, log 10, log 41, log 42, log 51. -/
def Obligations.PeerMoveSessions : Prop :=
  ∀ (s : State) (src : BitVec 12) (num : Word),
    let peer := (s.nodeOf src).getD 0
    let own := s.nv.nodeId
    (∀ (cp1 cp2 : Word) (fl : Byte) (pub cert sig : List Byte),
      let run := exec (.pmOpen src num cp1 cp2 fl pub cert sig) s
      (8 ≤ (s.fab.pm.filter (fun x => !x.isSrc)).length → run = .next (s.pmRefuse src num 0xFF)) ∧
      ((s.fab.pm.filter (fun x => !x.isSrc)).length < 8 →
        let key := Config.ecdhKey s.free pub (leBytes 8 peer.toNat ++ leBytes 8 own.toNat ++ pub ++ Config.ephPub s.free)
        run = .next (if s.pmGood src num pub cert sig peer own then
            State.e2eSend { s.draw with
              fab.pm := s.fab.pm ++ [⟨num, src, false, 3, none, [], key, Config.ephPub s.free, cp1, cp2, fl, 0⟩] } src 0x41
              (leBytes 4 num.toNat ++ Config.ephPub s.free ++ s.nv.cert ++
                Config.deviceSign own.toNat (pmMsg (Config.ephPub s.free) num peer own))
          else s.pmRefuse src num 0x61))) ∧
    (∀ (pub cert sig : List Byte),
      (s.pmFind true src num = none → exec (.pmAccept src num pub cert sig) s = .next s) ∧
      (∀ x, s.pmFind true src num = some x →
        (x.step ≠ 1 → exec (.pmAccept src num pub cert sig) s = .next s) ∧
        (x.step = 1 →
          let key := Config.ecdhKey x.keyNo pub (pmInfo own peer x.pub pub)
          exec (.pmAccept src num pub cert sig) s = .next (if s.pmGood src num pub cert sig own peer then
              State.pmSend { s with fab.pm := s.fab.pm.map (fun y => if y = x then { y with step := 3, keyNo := key, data := [] } else y) }
                x key
            else s.pmFail x 0x61)))) ∧
    (∀ (pno : BitVec 64) (ct tag : List Byte),
      (s.pmFind false src num = none → exec (.pmData src num pno ct tag) s = .next s) ∧
      (∀ x, s.pmFind false src num = some x →
        (x.step ≠ 3 → exec (.pmData src num pno ct tag) s = .next s) ∧
        (x.step = 3 →
          let from_ := ((tget E2eRx.init s.fab.rx src.toNat).inst).getD 0
          exec (.pmData src num pno ct tag) s = .next
            (match Config.gcmOpen x.keyNo (pmIv num pno.toNat) (pmAad s.fab.addr src from_ (ct.length + 28)) ct tag with
             | none => s.pmRefuse src num 0x61
             | some d => if pno.toNat ≠ x.pno ∨ 4194304 < x.data.length + d.length then s.pmRefuse src num 0x61
                else { s with fab.pm := s.fab.pm.map (fun y => if y = x then { y with data := y.data ++ d, pno := y.pno + 1 } else y) })))) ∧
    (∀ (blocks : Nat) (st : BitVec 16) (lba : BitVec 64),
      let run := exec (.pmDone src num blocks st lba) s
      (∀ x q t c, s.pmFind true src num = some x → x.cmd = some (q, t) → s.cmd? q.val t = some c →
        (st = 0 → run = .next ((s.pmDrop x).finish q t (rankStatus c.rank) lba.toNat)) ∧
        (st ≠ 0 → run = .next ((s.pmDrop x).finish q t 0x61 (st.toNat + 131072)))) ∧
      (s.pmFind true src num = none → s.pmFind false src num = none → run = .next s) ∧
      (∀ x, s.pmFind true src num = none → s.pmFind false src num = some x →
        run = .next (if x.step = 3 ∧ x.data.length = 4096 * blocks then s.pmAppend x else s))) ∧
    (∀ st : BitVec 16,
      (∀ x, s.pmFind true src num = some x → exec (.pmRefuse src num st) s = .next (s.pmFail x st.toNat)) ∧
      (s.pmFind true src num = none → exec (.pmRefuse src num st) s = .next s)) ∧
    (∀ x, s.fab.pm.find? (fun x => !x.isSrc && x.num == num && x.step != 4) = some x →
      exec (.pmSessionTimeout num) s = .next (s.pmRefuse x.peer x.num 0x61)) ∧
    (s.fab.pm.find? (fun x => !x.isSrc && x.num == num && x.step != 4) = none →
      exec (.pmSessionTimeout num) s = .next s)

/-- End-to-end acknowledgement and repetition, gateway loss, link packets and the handover pins.  E2E_ACK frees what
it covers and sends what waited; the retransmission time-out repeats with its flag or, after the limit, makes
the destination unreachable. A gateway lost is tried again and, when the hold ends, its commands end silently
with event 0x8009 and source 98. A link packet in order with a good check is taken; one with an inverted check
is dropped and a bad or misnumbered one is answered by NAK. HANDOVER_N and the release of OWN_PEER_N make an
owner release and a shadow take over with the cause of log 54.  Cites: R323, R324, R342, R344, R347, R348, R362,
R363, R365, R425, log 49, log 54. -/
def Obligations.DeliveryEndToEndAndLinks : Prop :=
  ∀ (s : State),
    (∀ (src : BitVec 12) (q : Word),
      let old := (s.tx src.toNat).unacked
      let rest := old.filter (fun p => decide (2 ^ 31 ≤ (q - p.seq).toNat))
      (rest = old → exec (.e2eAck src q) s = .next s) ∧
      (rest ≠ old →
        let z := s.modTx src.toNat (fun x => { x with unacked := rest, tries := 0 })
        let y := z.pumpTx src.toNat (z.tx src.toNat).queue.length
        (y.fab.gwDown = false ∨ src ≠ y.gw → exec (.e2eAck src q) s = .next y) ∧
        (y.fab.gwDown = true → src = y.gw → exec (.e2eAck src q) s = .next (State.flushGw { y with fab.gwDown := false })))) ∧
    (∀ d : BitVec 12,
      let x := s.tx d.toNat
      (x.unacked = [] → exec (.e2eRetxTimeout d) s = .next s) ∧
      (x.unacked ≠ [] → s.fld 0x0860 0 4 ≤ x.tries → exec (.e2eRetxTimeout d) s = .next (s.unreachable d)) ∧
      (x.unacked ≠ [] → x.tries < s.fld 0x0860 0 4 →
        let z := (s.modTx d.toNat (fun y => { y with tries := y.tries + 1 })).count 181 x.unacked.length
        exec (.e2eRetxTimeout d) s = .next (x.unacked.foldl (fun (y : State) p => y.forward none { p with flags := p.flags ||| 4 }) z))) ∧
    (s.fab.gwDown = false → exec .gwRetryTick s = .next s ∧ exec .gwHoldExpiry s = .next s) ∧
    (s.fab.gwDown = true →
      ((s.tx s.gw.toNat).unacked = [] → exec .gwRetryTick s = .next s.flushGw) ∧
      ((s.tx s.gw.toNat).unacked ≠ [] → exec .gwRetryTick s = .next s) ∧
      (let n := (s.hqi.cmds.filter (fun c => !c.peer)).length + s.hqi.posts.length;
        let z := ({ s.endSilently with fab.gwHeld := [], fab.rtags := [] } : State)
        let y := z.modTx z.gw.toNat (fun x => { x with unacked := [], queue := [], tries := 0, resync := true })
        exec .gwHoldExpiry s = .next (raise 98 (y.eventSrc 0x8009 3 98 [y.gw.toNat, n])))) ∧
    (∀ (n : Fin 5) (h : LinkHdr) (p : Pkt),
      ((s.port n.val).st ≠ .up → ∀ c, exec (.linkPacket n h c p) s = .next s) ∧
      ((s.port n.val).st = .up →
        exec (.linkPacket n h .inverted p) s = .next s ∧ exec (.linkPacket n h .bad p) s = .next (s.nak n) ∧
        (let z := s.takeHdr n h;
          (h.lseq ≠ (z.port n.val).rxSeq → exec (.linkPacket n h .good p) s = .next (z.nak n)) ∧
          (h.lseq = (z.port n.val).rxSeq → exec (.linkPacket n h .good p) s = .next ((z.modPort n.val (fun q => { q with
            rxSeq := q.rxSeq + 1, naked := false, freed := tset q.freed h.vc.toNat (tget 0 q.freed h.vc.toNat + pktUnits p) })).takePkt
              (some n) p))))) ∧
    (s.pair.paired = false → ∀ b, s.fab.takeover = false →
      exec (.handoverNFall b) s = .next s ∧ exec .ownPeerReleaseTimeout s = .next s) ∧
    (s.pair.paired = true →
      let z : State := { s with pair.handoverLow := true }
      (s.pair.owner = true → ∀ b, exec (.handoverNFall b) s = .next z.releaseOwn.takeWaiting) ∧
      (s.pair.owner = false →
        exec (.handoverNFall true) s = .next (({ z with pair.peerLow := false } : State).takeOwner
          (if s.pair.pulling then 2 else 3)).takeWaiting) ∧
      (s.pair.owner = false → s.pair.pulling = false →
        (s.pair.peerLow = true → s.pair.canaryOk = false → exec (.handoverNFall false) s = .next z.takeWaiting) ∧
        (s.pair.peerLow = false ∨ s.pair.canaryOk = true → exec (.handoverNFall false) s =
          .next (({ z with pair.peerLow := false } : State).takeOwner (if s.pair.peerYield then 5 else 6)).takeWaiting)) ∧
      (s.pair.peerSeen = true → s.pair.handoverLow = false → exec .ownPeerReleaseTimeout s =
        .next (({ s with pair.peerLow := false } : State).takeOwner 4).takeWaiting) ∧
      (s.pair.peerSeen = false ∨ s.pair.handoverLow = true → exec .ownPeerReleaseTimeout s = .next s.takeWaiting))

/-- The index counts the revolution, switches banks, applies staged values and starts parks and fences.  While the
ATB is not spinning INDEX changes nothing. Otherwise the angle becomes 0 and the revolution counts, PMC counter
188 counts, the banks switch, staged values due take effect (those of a channel whose slot runs past the index
later), heaters without slots go off, fences, parks and initialisations that were due happen, the period is
measured, live corrections are updated and a paused servo-writing operation asked to abort ends. The order of
these effects within the index is the model's (log 68).  Cites: R9, R29, R31, R33, R92, R96, R106, R142, R425,
log 68. -/
def Obligations.IndexStepsOfARevolution : Prop :=
  ∀ (period : Nat) (s : State),
    (s.spinning = false → exec (.index period) s = .next s) ∧
    (s.spinning = true →
      let past := (List.range 16).filter s.runsPast
      let z := (State.count { s with atb.ac := 0, atb.rev := s.atb.rev + 1 } 188 1).countUnserved.switchBanks
      let y := z.applyStaged (fun g => !past.any (fun n => g.ofCh n))
      let x := (((List.range 16).foldl (fun (a : State) n => a.chIndex n) y.heatersOff).initsDue.parksDue.periodIs period).liveMeans
      exec (.index period) s = .next (if x.srv.sswBusy = true ∧ x.srv.sswStop = 15 then (x.sswEnd 3).recRevs.settle
        else x.recRevs.settle))

/-- A step runs the command at the front of the queue, and on an empty queue the shaft turns.  With a command at the
front, step is exec of that command on the state with the queue's rest. With an empty queue step answers the
tick: the shaft angle advances by one while the ATB is LOCKED or COAST and below its last count, and otherwise
nothing changes (DESIGN CHOICE, log 1). No word spells a command, so withFetchWord changes nothing.  Cites:
INDEX.md, R9, log 1. -/
def Obligations.StepRunsTheFrontCommand : Prop :=
  (∀ (c : Instr) (rest : List Instr) (s : State), s.pending = c :: rest → step s = exec c { s with pending := rest }) ∧
  (∀ s : State, s.pending = [] → step s = .next (tick s)) ∧
  (∀ s : State, s.pending = [] → (s.atb.st = .locked ∨ s.atb.st = .coast) → s.atb.ac.toNat < 4194303 →
    step s = .next { s with atb.ac := s.atb.ac + 1 }) ∧
  (∀ s : State, s.pending = [] → (s.atb.st = .stopped ∨ s.atb.st = .acquire ∨ s.atb.ac.toNat = 4194303) → step s = .next s) ∧
  (∀ (n w : Nat) (s : State), decodeTableWord n w = none ∧ s.withFetchWord n w = s)

/-- Registers and main states at reset.  The named registers read their table values at reset; the queue is empty,
memory lists nothing and reads 0 (DESIGN CHOICE, log 15, before BUF writes zeros), the ATB is stopped, the
spindle off, every actuator parked, every queue pair disabled, no session is open, every counter is 0 and the
part is no owner.  Cites: R18, R23, R83, R87, R117, R168, R237, R289, R356, R374, R447, R455. -/
def Obligations.RegistersAndStateAtReset : Prop :=
  (∀ p ∈ [(0x0000, 0x41600201#32), (0x0004, 0), (0x0008, 0), (0x000C, 0x40404040), (0x0014, 0), (0x0404, 0), (0x042C, 0x37),
      (0x0438, 0x0032000A), (0x0800, 0xF), (0x0804, 0), (0x0860, 0x0A0A0004), (0x0C00, 0x1002), (0x0C04, 0), (0x1000, 0xF840),
      (0x1004, 0), (0x1008, 0), (0x100C, 0), (0x1400, 0x0002001F), (0x1410, 0x2000), (0x1700, 0xE4), (0x1704, 0x40),
      (0x1708, 0x00040000), (0x1740, 0x08204060), (0x1744, 0x20101008), (0x1800, 0x840831EC), (0x1804, 0x040F619A),
      (0x1810, 0x00404040), (0x1814, 0x00404040), (0x1C00, 0xC0001518), (0x1C04, 0), (0x1C08, 0x64384032), (0x1C0C, 0x8000),
      (0x1C10, 0x00040000), (0x1C1C, 0x003C1404), (0x2000, 0x40000000), (0x2004, 0), (0x2008, 0x000C2008), (0x200C, 0x00400806),
      (0x2010, 0x000600F0), (0x2800, 0x110), (0x2804, 0xC01), (0x2808, 0), (0x2C08, 0x40), (0x3000, 1), (0x3400, 3), (0x3804, 0),
      (0x4028, 2), (0x4400, 0), (0x4820, 0xA00), (0x5000, 0x40780000), (0x5004, 0), (0x5008, 0), (0x5400, 0x781E000B),
      (0x5404, 0)], State.reset.regValue p.1 = p.2) ∧
  State.reset.pending = [] ∧ State.reset.memOk ∧ State.reset.tallyOk ∧
  State.reset.atb.st = .stopped ∧ State.reset.spn.st = .off ∧ (∀ a, (State.reset.act a).st = .parked) ∧
  (∀ q, (State.reset.qp q).st = .disabled) ∧ State.reset.sec.sessions = [] ∧ (∀ n, State.reset.ctr n = 0) ∧
  (∀ a, memGet State.reset.buf.mem a = 0) ∧ State.reset.pair.owner = false

/-- Every step keeps the canonical form of buffer memory.  For every state whose memory list is strictly rising,
inside the 14 GiB and free of bytes equal to what an unlisted address reads as: if step answers a next state,
its memory has that form too.  Cites: R225, R229, R230, log 15. -/
def Obligations.StepKeepsMemoryCanonical : Prop :=
  ∀ s t : State, s.memOk → step s = .next t → t.memOk

/-- Every step keeps the slot accounting sum of every channel, live and in the snapshot.  For every state in which,
for every channel, SLOT_RETIRED + SLOT_WASTED + SLOT_STARVED_FRONT + SLOT_STARVED_BACK equals SLOT_PASSED
(modulo 2^48), in the counters and in the snapshot: if step answers a next state, both sums hold there. R424's
bound on LATE is not part of it (log 67).  Cites: R423, R424, R427, log 67. -/
def Obligations.StepKeepsSlotsAccountedFor : Prop :=
  ∀ s t : State, s.tallyOk → step s = .next t → t.tallyOk

/-- No step undoes what is permanent.  If step answers a next state: DECOMMISSIONED stays, neither minimum version
falls, the node id keeps its value, a blown fuse stays blown, what was sent stays sent (log 4), and the queue is
the tail of the queue before.  Cites: R376, R377, R390, R391, R397, log 4. -/
def Obligations.StepUndoesNothingPermanent : Prop :=
  ∀ s t : State, step s = .next t →
    (s.nv.life = .decommissioned → t.nv.life = .decommissioned) ∧
    s.nv.isvnMin.toNat ≤ t.nv.isvnMin.toNat ∧ s.nv.fsvnMin.toNat ≤ t.nv.fsvnMin.toNat ∧ t.nv.nodeId = s.nv.nodeId ∧
    (s.nv.drkFuse = true → t.nv.drkFuse = true) ∧ s.sent <:+ t.sent ∧ t.pending = s.pending.tail

/-- Every command answers a next state in every state, but for a pair frame that stores outside memory.  For every
command but PAIR_DATA and every state exec answers a next state. PAIR_DATA faults exactly when a paired shadow
receives bytes that reach beyond the 14 GiB of memory, an address the spec does not give, and else answers a
next state.  Cites: R230, R369, INDEX.md. -/
def Obligations.CommandsAnswerNextStates : Prop :=
  ∀ (c : Instr) (s : State),
    ((∀ q a l, c ≠ .pairData q a l) → ∃ t, exec c s = .next t) ∧
    (∀ q a l, c = .pairData q a l →
      (s.pair.paired = true → s.pair.owner = false → memTop < a.toNat + l.length → exec c s = .fault .addressOutside) ∧
      (¬ (s.pair.paired = true ∧ s.pair.owner = false ∧ memTop < a.toNat + l.length) → ∃ t, exec c s = .next t))

/-- A pair DATA frame stores its bytes at its address and changes no other byte.  For a shadow whose pair link is
not fenced, a DATA frame in sequence and inside memory: exec answers a next state in which its bytes read back
at its address, every other byte reads as before, the frame number is the one received, memory stays canonical,
registers, zones, chunk path, non-volatile state and pair state are unchanged, and a word is poisoned afterwards
only if it was, or held a chosen check byte (R236), and the frame did not cover it.  Cites: R227, R228, R369,
log 21. -/
def Obligations.PairDataStoresItsBytesAlone : Prop :=
  ∀ (q : BitVec 16) (a : BitVec 64) (l : List Byte) (s : State), s.memOk → s.pair.paired = true → s.pfr.fenced = false →
    s.pair.owner = false → q = s.pfr.pack + 1 → a.toNat + l.length ≤ memTop →
    ∃ t, exec (.pairData q a l) s = .next t ∧ memLoad t.buf.mem a.toNat l.length = l ∧
      (∀ k, k < a.toNat ∨ a.toNat + l.length ≤ k → memGet t.buf.mem k = memGet s.buf.mem k) ∧
      t.pfr.pack = q ∧ t.memOk ∧ t.regs = s.regs ∧ t.zon = s.zon ∧ t.cmp = s.cmp ∧ t.nv = s.nv ∧ t.pair = s.pair ∧
      (∀ w ∈ t.buf.poison, (w ∈ s.buf.poison ∨ s.buf.chk.any (fun e => e.1 == w) = true) ∧ ¬ (a.toNat ≤ 8 * w ∧ 8 * w + 8 ≤ a.toNat + l.length))

/-- DECOMMISSIONED is final: only what R377 names is accepted.  On a decommissioned part: no command leaves the
state; every media command, every other admin command and SANITIZE ends SECURITY_ERROR with RESULT 5; IDENTIFY,
GET LOG of the event log, FABRIC QUERY, the SERVICE actions and domains on still act; every state-changing
security message and the others named fail with cause 5, and fabric packets for other modules are still
forwarded.  Cites: R377. -/
def Obligations.DecommissionedIsFinal : Prop :=
  ∀ s : State, s.nv.life = .decommissioned →
    (∀ (c : Instr) (t : State), exec c s = .next t → t.nv.life = .decommissioned) ∧
    (∀ (q : Fin 128) (tag : BitVec 16) (c : Cmd), s.cmd? q.val tag = some c → s.shadow = false → c.unadmitted = true →
      c.fin = none → s.turn c = true →
      ∀ x : Instr × Nat × Nat, x ∈ [(.readBlocks q tag, 0x20, 0), (.zoneWrite q tag, 0x21, 0), (.zoneAppend q tag, 0x22, 0),
        (.zoneOpen q tag, 0x23, 1), (.zoneClose q tag, 0x23, 2), (.zoneFinish q tag, 0x23, 3), (.zoneReset q tag, 0x23, 4),
        (.zoneOffline q tag, 0x23, 5), (.zoneReport q tag, 0x24, 0), (.flush q tag, 0x25, 0), (.verifyBlocks q tag, 0x26, 0),
        (.peerMove q tag, 0x27, 0), (.convRead q tag, 0x28, 0), (.convWrite q tag, 0x29, 0)] →
      c.opc.toNat = x.2.1 → (x.2.2 ≠ 0 → c.pf 2 0 4 = x.2.2) → exec x.1 s = .next (s.finish q tag 0x70 5)) ∧
    (∀ (tag : BitVec 16) (c : Cmd), s.cmd? 0 tag = some c → s.shadow = false → c.fin = none → c.st ≠ .running →
      (∀ x ∈ [(Instr.createQp tag, 0x02#8), (.deleteQp tag, 0x03), (.getCounters tag, 0x05), (.setRights tag, 0x06),
        (.abortCmd tag, 0x07), (.selfTestShort tag, 0x08), (.selfTestExtended tag, 0x08), (.selfTestAbort tag, 0x08),
        (.microcodeLoad tag c.data, 0x0D)], c.opc = x.2 → exec x.1 s = .next (s.finish 0 tag 0x70 5)) ∧
      (∀ x ∈ [(Instr.sanitizeCryptoEraseAll tag, 1), (.sanitizeCryptoEraseRange tag, 2), (.sanitizeOverwrite tag, 3)],
        c.opc = 0x0E → c.pf 0 0 4 = x.2 → exec x.1 s = .next (s.finish 0 tag 0x70 5)) ∧
      (c.opc = 0x01 → c.pf 0 0 8 = 0 → exec (.identify tag) s = .next (s.reply c 0 0 s.modulePage)) ∧
      (c.opc = 0x04 → c.pf 0 0 8 = 1 → exec (.getLog tag) s = .next (s.pageCmd c (some (s.nv.log.map evBytes).flatten))) ∧
      (c.opc = 0x0F → c.pf 0 0 8 ≠ 1 → exec (.fabricQuery tag) s = .next (s.pageCmd c (s.fabPage (c.pf 0 0 8)))) ∧
      (c.opc = 0x0C → c.pf 0 0 4 = 1 → exec (.locateOn tag) s = .next ((s.setLocate true 2).finish 0 tag 0 0)) ∧
      (c.opc = 0x0C → c.pf 0 0 4 = 2 → exec (.locateOff tag) s = .next ((s.setLocate false 2).finish 0 tag 0 0)) ∧
      (c.opc = 0x0C → c.pf 0 0 4 = 3 → exec (.safeRemovalRequest tag) s =
        .next ((if s.svc.removal = .normal then s.startRemoval 2 else s).finish 0 tag 0 0)) ∧
      (c.opc = 0x0C → c.pf 0 0 4 = 4 → s.svc.removal = .normal ∨ s.svc.removal = .surprise →
        exec (.safeRemovalCancel tag) s = .next (s.finish 0 tag 0 0)) ∧
      (c.opc = 0x0B → c.pf 0 0 4 = 3 → c.st = .fetched → s.pwr.req = none → (∀ y ∈ s.hqi.cmds, y.opc = 0x0B → c.ord ≤ y.ord) →
        exec (.domainsOn tag) s = .next (State.powerStep { s.modCmd 0 tag (fun x => { x with st := .waiting }) with
          pwr.req := some ⟨some tag, 0, BitVec.ofNat 14 (c.pf 1 0 14), none, 0⟩ }))) ∧
    (∀ (v : Via) (n : Fin 16) (good : Bool) (fsvn : Word) (slot : Fin 4),
      let d := s.viaData v
      let w := fun k => BitVec.ofNat 32 (s.viaCp v k)
      let r := BitVec.ofNat 8 (s.viaCp v 2)
      let role := BitVec.ofNat 8 (leAt d 0 1)
      let cid := BitVec.ofNat 32 (leAt d 4 4)
      (∀ x ∈ [(Instr.authResponse v role cid (d.drop 8), 1, 2), (.authEnd v n, 1, 3),
          (.authSetKey v role cid ((d.drop 8).take 96) (d.drop 104), 1, 4), (.integrate v d, 2, 1),
          (.claim v (d.take 96) (BitVec.ofNat 32 (leAt d 96 4)) (d.drop 100), 2, 2), (.returnLifecycle v, 2, 3),
          (.decommission v, 2, 4), (.consent v (w 2), 2, 5), (.commitSvn v (bitOf (s.viaCp v 2) 0), 2, 6),
          (.keysCreate v r (bitOf (s.viaCp v 2) 8), 3, 1), (.keysLock v r, 3, 2), (.keysUnlock v r, 3, 3),
          (.keysDestroy v r, 3, 4), (.keysSetConv v r, 3, 5), (.peercertAnchor v d, 4, 1), (.peercertCert v d, 4, 3),
          (.firmwareChunk v (w 2) d, 5, 1), (.firmwareFinish v good fsvn slot, 5, 2), (.sysrecStage v (w 2) d, 6, 1)],
        s.msgIs v true x.2.1 x.2.2 = true → exec x.1 s = .next (s.secFail v 5)) ∧
      (∀ x ∈ [(Instr.authChallenge v, 1, 1), (.keysQuery v, 3, 6), (.peercertDeviceKey v, 4, 2),
          (.sysrecRead v (w 2) (w 3) (BitVec.ofNat 32 (s.viaLen v)), 6, 3)],
        s.msgIs v false x.2.1 x.2.2 = true → exec x.1 s = .next (s.secFail v 5)) ∧
      (s.msgIs v true 6 2 = true → s.recs.commit = none → (∀ c, s.viaCmd v = some c → c.st ≠ .running) →
        exec (.sysrecCommit v (w 2) (w 3)) s = .next (s.secFail v 5))) ∧
    (∀ (n : Fin 5) (h : LinkHdr) (p : Pkt), (s.port n.val).st = .up →
      let z := s.takeHdr n h
      let y := z.modPort n.val (fun q => { q with
        rxSeq := q.rxSeq + 1, naked := false, freed := tset q.freed h.vc.toNat (tget 0 q.freed h.vc.toNat + pktUnits p) })
      h.lseq = (z.port n.val).rxSeq → knownType p.ptype.toNat = true → bitOf p.flags.toNat 1 = false → y.isMine p.dst = false →
      p.dst ≠ 0 → 1 < p.ttl.toNat → exec (.linkPacket n h .good p) s = .next (y.forward (some n) { p with ttl := p.ttl - 1 }))

/-- GET COUNTERS writes an 8-byte entry for each counter, or names its bad field.  For a GET COUNTERS command in
turn on a part not decommissioned: with a first counter from 0 to 255 and a count of 1 to 256 minus it, the
reply holds 8 bytes for each counter: the 48-bit value, the overflow bit in bit 63 and zeros between. A bad ADDR
ends INVALID_FIELD with offset 24 and a bad COUNT with offset 32.  Cites: R317. -/
def Obligations.GetCountersWritesEntries : Prop :=
  ∀ (s : State) (tag : BitVec 16) (c : Cmd), s.cmd? 0 tag = some c → s.shadow = false → c.fin = none → c.st ≠ .running →
    s.nv.life ≠ .decommissioned → c.opc = 0x05 →
    let a := c.addr.toNat
    let n := c.count.toNat
    (a ≤ 255 → 1 ≤ n → a + n ≤ 256 → ∃ l : List Byte, exec (.getCounters tag) s = .next (s.reply c 0 0 l) ∧ l.length = 8 * n ∧
      ∀ i < n,
        leAt l (8 * i) 8 % 2 ^ 48 = (tget 0 s.pmc.ctr (a + i)).toNat ∧
        bitOf (leAt l (8 * i) 8) 63 = bitOf s.pmc.ovf.toNat (a + i) ∧
        bitsOf (leAt l (8 * i) 8) 48 15 = 0) ∧
    (255 < a → exec (.getCounters tag) s = .next (s.finish 0 tag 0x21 24)) ∧
    (a ≤ 255 → n < 1 ∨ 256 < a + n → exec (.getCounters tag) s = .next (s.finish 0 tag 0x21 32))
end

