-- ==== Sys2Proof/Laws/Format.lean ====
section
/-! SUPPORT. Bytes, checks and the blocks built from them (R45, R50, R52). -/
open Sys2Proof Sys2Proof.Machine
namespace Sys2Proof.Laws

/-- The bytes of a number have the length asked for. -/
@[simp] theorem leBytes_length (n v : Nat) : (leBytes n v).length = n := by
  induction n generalizing v with
  | zero => rfl
  | succ n ih => simp [leBytes, ih]

/-- The bytes of a number spell it, modulo the width. -/
theorem ofLe_leBytes (n v : Nat) : ofLe (leBytes n v) = v % 256 ^ n := by
  induction n generalizing v with
  | zero => simp [leBytes, ofLe, Nat.mod_one]
  | succ n ih =>
    simp only [leBytes, ofLe, ih, BitVec.toNat_ofNat]
    rw [show 256 ^ (n + 1) = 256 * 256 ^ n by rw [Nat.pow_succ, Nat.mul_comm], Nat.mod_mul]

/-- A field read back from where its bytes stand. -/
theorem leAt_append (a b c : List Byte) : leAt (a ++ b ++ c) a.length b.length = ofLe b := by
  unfold leAt; rw [List.append_assoc, List.drop_left, List.take_left]

/-- A CRC step stays within 32 bits. -/
theorem crcStep_lt (c : Nat) (h : c < 2 ^ 32) : crcStep c < 2 ^ 32 := by
  unfold crcStep
  split
  · exact Nat.xor_lt_two_pow (by omega) (by decide)
  · omega

/-- CRC-32C is a 32-bit value. -/
theorem crc32c_lt (l : List Byte) : crc32c l < 2 ^ 32 := by
  unfold crc32c
  refine Nat.xor_lt_two_pow ?_ (by decide)
  generalize hc : 0xFFFFFFFF = c
  have h : c < 2 ^ 32 := by omega
  clear hc
  induction l generalizing c with
  | nil => exact h
  | cons b t ih =>
    refine ih _ ?_
    have hb := b.isLt
    have : c ^^^ b.toNat < 2 ^ 32 := Nat.xor_lt_two_pow h (by omega)
    exact crcStep_lt _ (crcStep_lt _ (crcStep_lt _ (crcStep_lt _ (crcStep_lt _ (crcStep_lt _ (crcStep_lt _ (crcStep_lt _ this)))))))

/-- A block built from a header of VERSION 1 and a payload passes its own check (R45, R52). -/
theorem blockInfo_ok (h p : List Byte) (hl : h.length = 28) (hv : leAt h 0 1 = 1) (hp : p.length = 4096) :
    (blockInfo h p).length = 4128 ∧ infoOk (blockInfo h p) = true := by
  have n : (blockInfo h p).length = 4128 := by simp [blockInfo, hl, hp]
  refine ⟨n, ?_⟩
  have e : leAt (blockInfo h p) 28 4 = crc32c (h ++ p) := by
    have := leAt_append h (leBytes 4 (crc32c (h ++ p))) p
    rw [hl, leBytes_length] at this
    rw [blockInfo, this, ofLe_leBytes, Nat.mod_eq_of_lt (by have := crc32c_lt (h ++ p); omega)]
  have v : leAt (blockInfo h p) 0 1 = 1 := by
    unfold leAt at hv ⊢
    rw [blockInfo, List.append_assoc, List.drop_zero, List.take_append_of_le_length (by omega)]
    exact hv
  have t : (blockInfo h p).take 28 = h := by
    unfold blockInfo; rw [List.append_assoc, ← hl, List.take_left]
  have d : (blockInfo h p).drop 32 = p := by
    unfold blockInfo
    rw [show 32 = (h ++ leBytes 4 (crc32c (h ++ p))).length by simp [hl], List.drop_left]
  simp [infoOk, n, v, e, t, d]

end Sys2Proof.Laws
end

