-- ==== Sys2Proof/Laws/Tab.lean ====
section
/-! SUPPORT. Tables: what is set at a key is read there, and every other key reads as before. -/
namespace Sys2Proof.Machine

open Sys2Proof

@[simp] theorem tget_tset_same {α : Type} (d : α) (t : Tab α) (n : Nat) (v : α) : tget d (tset t n v) n = v := by
  induction t with
  | nil => simp [tset, tget]
  | cons e t ih =>
    unfold tset
    by_cases h1 : n < e.1
    · simp [tget, h1]
    · by_cases h2 : n = e.1
      · simp [tget, h2]
      · simp only [h1, h2, if_false, tget]; exact ih

theorem tget_tset_other {α : Type} (d : α) (t : Tab α) {n m : Nat} (v : α) (h : m ≠ n) : tget d (tset t n v) m = tget d t m := by
  induction t with
  | nil =>
    simp only [tset, tget, h, if_false]
    split <;> rfl
  | cons e t ih =>
    unfold tset
    by_cases h1 : n < e.1
    · simp only [h1, if_true]
      unfold tget
      by_cases h3 : m < n
      · simp only [h3, if_true, (show m < e.1 by omega)]
      · simp only [h3, h, if_false]; rfl
    · by_cases h2 : n = e.1
      · have h4 : m ≠ e.1 := by omega
        simp only [h2, if_true, Nat.lt_irrefl, if_false, tget, h4]
      · simp only [h1, h2, if_false, tget, ih]

@[simp] theorem tget_tmod_same {α : Type} (d : α) (t : Tab α) (n : Nat) (f : α → α) : tget d (tmod d t n f) n = f (tget d t n) :=
  tget_tset_same d t n _

theorem tget_tmod_other {α : Type} (d : α) (t : Tab α) {n m : Nat} (f : α → α) (h : m ≠ n) :
    tget d (tmod d t n f) m = tget d t m :=
  tget_tset_other d t _ h

/-- A table whose keys rise stays so. -/
theorem tset_sorted {α : Type} {t : Tab α} {lo n : Nat} {v : α} (h : tsorted lo t = true) (hn : lo ≤ n) :
    tsorted lo (tset t n v) = true := by
  induction t generalizing lo with
  | nil => simp [tset, tsorted, hn]
  | cons e t ih =>
    simp only [tsorted, Bool.and_eq_true, decide_eq_true_eq] at h
    unfold tset
    by_cases h1 : n < e.1
    · simp only [h1, if_true, tsorted, Bool.and_eq_true, decide_eq_true_eq]
      exact ⟨hn, by omega, h.2⟩
    · by_cases h2 : n = e.1
      · simp only [h2, Nat.lt_irrefl, if_false, if_true, tsorted, Bool.and_eq_true, decide_eq_true_eq]
        exact h
      · simp only [h1, h2, if_false, tsorted, Bool.and_eq_true, decide_eq_true_eq]
        exact ⟨h.1, ih h.2 (by omega)⟩

end Sys2Proof.Machine
end

