-- ==== Sys2Proof/Laws/Kept.lean ====
section
/-! SUPPORT. How `State.Kept` goes through an update, a choice, a fold, a pair: the rules every frame lemma rests on. -/
namespace Sys2Proof.Machine

open Sys2Proof

/-- A result keeps what `State.Kept` says, where it is a next state. -/
structure State.KeptBy (z : State) (r : Result) : Prop where
  /-- The next state. -/
  next : ∀ t, r = .next t → z.Kept t

theorem kept_refl (z : State) : z.Kept z :=
  ⟨rfl, id, id, ⟨id, Nat.le_refl _, Nat.le_refl _, rfl, id⟩, List.suffix_refl _⟩

theorem kept_trans {z s t : State} (h : z.Kept s) (g : s.Kept t) : z.Kept t :=
  ⟨g.queue.trans h.queue, fun a => g.mem (h.mem a), fun a => g.tally (h.tally a),
    ⟨fun a => g.holds.life (h.holds.life a), Nat.le_trans h.holds.isvn g.holds.isvn,
      Nat.le_trans h.holds.fsvn g.holds.fsvn, g.holds.node.trans h.holds.node, fun a => g.holds.fuse (h.holds.fuse a)⟩,
    h.sent.trans g.sent⟩

/-- An update that writes none of the kept parts. -/
theorem kept_upd {z s t : State} (h : z.Kept s) (h1 : t.pending = s.pending) (h2 : t.buf.mem = s.buf.mem)
    (h3 : t.nv.life = s.nv.life) (h4 : t.nv.isvnMin = s.nv.isvnMin) (h5 : t.nv.fsvnMin = s.nv.fsvnMin)
    (h6 : t.nv.nodeId = s.nv.nodeId) (h7 : t.sent = s.sent)
    (h8 : (t.pmc.ctr, t.pmc.snap, t.nv.drkFuse) = (s.pmc.ctr, s.pmc.snap, s.nv.drkFuse)) : z.Kept t := by
  obtain ⟨h9, h10, h11⟩ : t.pmc.ctr = s.pmc.ctr ∧ t.pmc.snap = s.pmc.snap ∧ t.nv.drkFuse = s.nv.drkFuse := by
    simpa using h8
  exact kept_trans h ⟨h1, fun a => by unfold State.memOk at *; rw [h2]; exact a,
    fun a => by unfold State.tallyOk at *; rw [h9, h10]; exact a,
    ⟨fun a => by rw [h3]; exact a, Nat.le_of_eq (by rw [h4]), Nat.le_of_eq (by rw [h5]), h6, fun a => by rw [h11]; exact a⟩,
    h7 ▸ List.suffix_refl _⟩

/-- A record written out keeps, where its queue, memory, tallies and held registers are those of a state that does. -/
theorem kept_mk {z s : State} {x1 : Regs} {x2 : Atb} {x3 : Srv} {x4 : Spn} {x5 : Mdl} {x6 : Ledger} {x7 : Tab ChSt}
    {x8 : Seq} {x9 : Rpl} {x10 : Rcv} {x11 : Xtp} {x12 : Cmp} {x13 : Cry} {x14 : Zon} {x15 : Recs} {x16 : Buf} {x17 : Dma}
    {x18 : MapC} {x19 : Hqi} {x20 : Sec} {x21 : Fab} {x22 : Pair} {x23 : PFrames} {x24 : Flt} {x25 : Evr} {x26 : Pmc} {x27
    : Pwr} {x28 : Svc} {x29 : Gen} {x30 : Nv} {x31 : Nv2} {x32 : List Out} {x33 : Nat}
    (h : z.Kept s) (h2 : x16.mem = s.buf.mem) (h3 : x30.life = s.nv.life) (h4 : x30.isvnMin = s.nv.isvnMin)
    (h5 : x30.fsvnMin = s.nv.fsvnMin) (h6 : x30.nodeId = s.nv.nodeId) (h7 : x32 = s.sent)
    (h8 : (x26.ctr, x26.snap, x30.drkFuse) = (s.pmc.ctr, s.pmc.snap, s.nv.drkFuse)) :
    z.Kept (State.mk s.pending x1 x2 x3 x4 x5 x6 x7 x8 x9 x10 x11 x12 x13 x14 x15 x16 x17 x18 x19 x20 x21 x22 x23 x24
    x25 x26 x27 x28 x29 x30 x31 x32 x33) :=
  kept_upd h rfl h2 h3 h4 h5 h6 h7 h8

theorem kept_life {z s : State} {d : Life} (h : z.Kept s) (hz : z.nv.life ≠ .decommissioned) :
    z.Kept { s with nv.life := d } :=
  ⟨h.queue, h.mem, h.tally, ⟨fun e => absurd e hz, h.holds.isvn, h.holds.fsvn, h.holds.node, h.holds.fuse⟩, h.sent⟩

theorem kept_isvn {z s : State} {b : Word} (h : z.Kept s) (hb : z.nv.isvnMin.toNat ≤ b.toNat) :
    z.Kept { s with nv.isvnMin := b } :=
  ⟨h.queue, h.mem, h.tally, ⟨h.holds.life, hb, h.holds.fsvn, h.holds.node, h.holds.fuse⟩, h.sent⟩

theorem kept_fsvn {z s : State} {b : Word} (h : z.Kept s) (hb : z.nv.fsvnMin.toNat ≤ b.toNat) :
    z.Kept { s with nv.fsvnMin := b } :=
  ⟨h.queue, h.mem, h.tally, ⟨h.holds.life, h.holds.isvn, hb, h.holds.node, h.holds.fuse⟩, h.sent⟩

theorem kept_fuse {z s : State} (h : z.Kept s) : z.Kept { s with nv.drkFuse := true } :=
  ⟨h.queue, h.mem, h.tally, ⟨h.holds.life, h.holds.isvn, h.holds.fsvn, h.holds.node, fun _ => rfl⟩, h.sent⟩

/-- Counters change, the tallies with them. -/
theorem kept_pmc {z s t : State} (h : z.Kept s) (hc : tallied s.pmc.ctr → tallied t.pmc.ctr)
    (hp : tallied s.pmc.ctr → tallied s.pmc.snap → tallied t.pmc.snap) (e1 : t.pending = s.pending) (e2 : t.buf = s.buf)
    (e3 : t.nv = s.nv) (e4 : t.sent = s.sent) : z.Kept t := by
  exact kept_trans h ⟨e1, fun a => by unfold State.memOk at *; rw [e2]; exact a, fun a => ⟨hc a.1, hp a.1 a.2⟩,
    ⟨fun a => by rw [e3]; exact a, Nat.le_of_eq (by rw [e3]), Nat.le_of_eq (by rw [e3]), by rw [e3],
      fun a => by rw [e3]; exact a⟩, e4 ▸ List.suffix_refl _⟩

theorem tallied_tset {c : Tab (BitVec 48)} {n : Nat} {v : BitVec 48} (hn : 64 ≤ n ∧ n < 80 ∨ 96 ≤ n) (h : tallied c) :
    tallied (tset c n v) := by
  intro m hm
  have := h m hm
  rw [tget_tset_other 0 c _ (show 4 * m ≠ n by omega), tget_tset_other 0 c _ (show 4 * m + 1 ≠ n by omega),
    tget_tset_other 0 c _ (show 4 * m + 2 ≠ n by omega), tget_tset_other 0 c _ (show 4 * m + 3 ≠ n by omega),
    tget_tset_other 0 c _ (show 80 + m ≠ n by omega)]
  exact this

/-- A slot of a channel ends in a class, and passes (R423, R424). -/
theorem tallied_pass {t : Tab (BitVec 48)} {ch c : Nat} (hc : ch < 16) (hk : c < 4) (h : tallied t) :
    tallied (tset (tset t (4 * ch + c) (tget 0 t (4 * ch + c) + 1)) (80 + ch) (tget 0 t (80 + ch) + 1)) := by
  intro m hm
  have g := h m hm
  by_cases hch : m = ch
  · subst hch
    rw [tget_tset_other _ _ _ (show 4 * m ≠ 80 + m by omega), tget_tset_other _ _ _ (show 4 * m + 1 ≠ 80 + m by omega),
      tget_tset_other _ _ _ (show 4 * m + 2 ≠ 80 + m by omega), tget_tset_other _ _ _ (show 4 * m + 3 ≠ 80 + m by omega),
      tget_tset_same, ← g]
    have : c = 0 ∨ c = 1 ∨ c = 2 ∨ c = 3 := by omega
    rcases this with rfl | rfl | rfl | rfl
    · rw [Nat.add_zero, tget_tset_same, tget_tset_other _ _ _ (show 4 * m + 1 ≠ 4 * m by omega),
        tget_tset_other _ _ _ (show 4 * m + 2 ≠ 4 * m by omega), tget_tset_other _ _ _ (show 4 * m + 3 ≠ 4 * m by omega)]; ac_rfl
    · rw [tget_tset_same, tget_tset_other _ _ _ (show 4 * m ≠ 4 * m + 1 by omega),
        tget_tset_other _ _ _ (show 4 * m + 2 ≠ 4 * m + 1 by omega), tget_tset_other _ _ _ (show 4 * m + 3 ≠ 4 * m + 1 by omega)]
      ac_rfl
    · rw [tget_tset_same, tget_tset_other _ _ _ (show 4 * m ≠ 4 * m + 2 by omega),
        tget_tset_other _ _ _ (show 4 * m + 1 ≠ 4 * m + 2 by omega), tget_tset_other _ _ _ (show 4 * m + 3 ≠ 4 * m + 2 by omega)]
      ac_rfl
    · rw [tget_tset_same, tget_tset_other _ _ _ (show 4 * m ≠ 4 * m + 3 by omega),
        tget_tset_other _ _ _ (show 4 * m + 1 ≠ 4 * m + 3 by omega), tget_tset_other _ _ _ (show 4 * m + 2 ≠ 4 * m + 3 by omega)]
      ac_rfl
  · rw [tget_tset_other _ _ _ (show 4 * m ≠ 80 + ch by omega), tget_tset_other _ _ _ (show 4 * m + 1 ≠ 80 + ch by omega),
      tget_tset_other _ _ _ (show 4 * m + 2 ≠ 80 + ch by omega), tget_tset_other _ _ _ (show 4 * m + 3 ≠ 80 + ch by omega),
      tget_tset_other _ _ _ (show 80 + m ≠ 80 + ch by omega), tget_tset_other _ _ _ (show 4 * m ≠ 4 * ch + c by omega),
      tget_tset_other _ _ _ (show 4 * m + 1 ≠ 4 * ch + c by omega), tget_tset_other _ _ _ (show 4 * m + 2 ≠ 4 * ch + c by omega),
      tget_tset_other _ _ _ (show 4 * m + 3 ≠ 4 * ch + c by omega), tget_tset_other _ _ _ (show 80 + m ≠ 4 * ch + c by omega)]
    exact g

/-- A preset of a tally zeroes its channel's six (R428). -/
theorem tallied_zero {t : Tab (BitVec 48)} {n : Nat} (hn : n < 16) (h : tallied t) :
    tallied (tset (tset (tset (tset (tset (tset t (4 * n) 0) (4 * n + 1) 0) (4 * n + 2) 0) (4 * n + 3) 0) (64 + n) 0)
      (80 + n) 0) := by
  intro m hm
  have g := h m hm
  by_cases e : m = n
  · subst e
    rw [tget_tset_other _ _ _ (show 4 * m ≠ 80 + m by omega), tget_tset_other _ _ _ (show 4 * m ≠ 64 + m by omega),
      tget_tset_other _ _ _ (show 4 * m ≠ 4 * m + 3 by omega), tget_tset_other _ _ _ (show 4 * m ≠ 4 * m + 2 by omega),
      tget_tset_other _ _ _ (show 4 * m ≠ 4 * m + 1 by omega), tget_tset_same,
      tget_tset_other _ _ _ (show 4 * m + 1 ≠ 80 + m by omega), tget_tset_other _ _ _ (show 4 * m + 1 ≠ 64 + m by omega),
      tget_tset_other _ _ _ (show 4 * m + 1 ≠ 4 * m + 3 by omega), tget_tset_other _ _ _ (show 4 * m + 1 ≠ 4 * m + 2 by omega),
      tget_tset_same, tget_tset_other _ _ _ (show 4 * m + 2 ≠ 80 + m by omega),
      tget_tset_other _ _ _ (show 4 * m + 2 ≠ 64 + m by omega), tget_tset_other _ _ _ (show 4 * m + 2 ≠ 4 * m + 3 by omega),
      tget_tset_same, tget_tset_other _ _ _ (show 4 * m + 3 ≠ 80 + m by omega),
      tget_tset_other _ _ _ (show 4 * m + 3 ≠ 64 + m by omega), tget_tset_same, tget_tset_same]
    rfl
  · have o : ∀ j, j ≠ 80 + n → j ≠ 64 + n → j ≠ 4 * n + 3 → j ≠ 4 * n + 2 → j ≠ 4 * n + 1 → j ≠ 4 * n →
        tget 0 (tset (tset (tset (tset (tset (tset t (4 * n) 0) (4 * n + 1) 0) (4 * n + 2) 0) (4 * n + 3) 0) (64 + n) 0)
          (80 + n) 0) j = tget 0 t j := by
      intro j h1 h2 h3 h4 h5 h6
      rw [tget_tset_other _ _ _ h1, tget_tset_other _ _ _ h2, tget_tset_other _ _ _ h3, tget_tset_other _ _ _ h4,
        tget_tset_other _ _ _ h5, tget_tset_other _ _ _ h6]
    rw [o _ (by omega) (by omega) (by omega) (by omega) (by omega) (by omega),
      o _ (by omega) (by omega) (by omega) (by omega) (by omega) (by omega),
      o _ (by omega) (by omega) (by omega) (by omega) (by omega) (by omega),
      o _ (by omega) (by omega) (by omega) (by omega) (by omega) (by omega),
      o _ (by omega) (by omega) (by omega) (by omega) (by omega) (by omega)]
    exact g

/-- A counter that no sum of R424 holds counts. -/
theorem State.count_kept {z s : State} {n k : Nat} (hs : z.Kept s) (hn : 64 ≤ n ∧ n < 80 ∨ 96 ≤ n) : z.Kept (s.count n k) :=
  kept_pmc hs (tallied_tset hn) (fun _ h => h) rfl rfl rfl rfl

/-- A slot of a channel ends in a class, and passes (R423, R424). -/
theorem State.count_pass {z s : State} {ch c : Nat} (hs : z.Kept s) (hc : ch < 16) (hk : c < 4) :
    z.Kept ((s.count (4 * ch + c) 1).count (80 + ch) 1) := by
  refine kept_pmc hs (fun h => ?_) (fun _ h => h) rfl rfl rfl rfl
  have g := tallied_pass hc hk h
  have e : ∀ (x : BitVec 48), BitVec.ofNat 48 (x.toNat + 1) = x + 1 := fun x => by
    apply BitVec.eq_of_toNat_eq; simp
  simp only [State.count]
  rw [tget_tset_other _ _ _ (show 80 + ch ≠ 4 * ch + c by omega), e, e]
  exact g

/-- A snapshot is taken (R427). -/
theorem State.snapTake_kept {z s : State} (hs : z.Kept s) : z.Kept s.snapTake :=
  kept_pmc hs id (fun h _ => h) rfl rfl rfl rfl

theorem State.loadCtrs (l : List Nat) (s : State) : ∃ o, l.foldl (fun (s : State) k => s.loadCtr k 0) s =
    { s with pmc.ctr := l.foldl (fun c k => tset c k 0) s.pmc.ctr, pmc.ovf := o } := by
  induction l generalizing s with
  | nil => exact ⟨s.pmc.ovf, rfl⟩
  | cons k l ih =>
    obtain ⟨o, h⟩ := ih (s.loadCtr k 0)
    exact ⟨o, h⟩

/-- A preset is made (R428). -/
theorem State.preset_kept {z s : State} {hi : Nat} (hs : z.Kept s) : z.Kept (s.preset hi) := by
  unfold State.preset
  extract_lets c
  split
  · obtain ⟨o, h⟩ := State.loadCtrs (tallyOf c) s
    rw [h]
    refine kept_pmc hs (fun g => ?_) (fun _ h => h) rfl rfl rfl rfl
    have hn : (if c < 64 then c / 4 else (c - 64) % 16) < 16 := by split <;> omega
    exact tallied_zero hn g
  · exact kept_pmc hs (fun h => tallied_tset (.inr (by omega)) h) (fun _ h => h) rfl rfl rfl rfl

theorem tallied_nil : tallied [] := fun _ _ => rfl
theorem State.reset_tallyOk : State.reset.tallyOk := ⟨tallied_nil, tallied_nil⟩

theorem State.reset_memOk : State.reset.memOk := rfl

theorem kept_ite {z a b : State} {c : Prop} [Decidable c] (ha : z.Kept a) (hb : z.Kept b) : z.Kept (if c then a else b) := by
  split <;> assumption

theorem kept_cut {z x t : State} (g : z.Kept x → z.Kept t) (h : z.Kept x) : z.Kept t := g h

theorem kept_foldl {α : Type} {z : State} {f : State → α → State} {l : List α} {s : State} (h : z.Kept s)
    (g : ∀ s x, z.Kept s → z.Kept (f s x)) : z.Kept (l.foldl f s) := by
  induction l generalizing s with
  | nil => exact h
  | cons x l ih => exact ih (g s x h)

theorem kept_upto {z : State} {f : Nat → State → State} {s : State} {n : Nat} (h : z.Kept s)
    (g : ∀ k s, z.Kept s → z.Kept (f k s)) : z.Kept (upto n f s) := by
  induction n with
  | zero => exact h
  | succ n ih => exact g n _ ih

theorem kept_foldl_fst {α β : Type} {z : State} {f : State × β → α → State × β} {l : List α} {p : State × β} (h : z.Kept p.1)
    (g : ∀ p x, z.Kept p.1 → z.Kept (f p x).1) : z.Kept (l.foldl f p).1 := by
  induction l generalizing p with
  | nil => exact h
  | cons x l ih => exact ih (g p x h)

theorem kept_foldl_snd {α β : Type} {z : State} {f : β × State → α → β × State} {l : List α} {p : β × State} (h : z.Kept p.2)
    (g : ∀ p x, z.Kept p.2 → z.Kept (f p x).2) : z.Kept (l.foldl f p).2 := by
  induction l generalizing p with
  | nil => exact h
  | cons x l ih => exact ih (g p x h)

theorem keptBy_next {z s : State} (h : z.Kept s) : z.KeptBy (.next s) :=
  ⟨by intro t e; cases e; exact h⟩

theorem keptBy_fault {z : State} (f : Fault) : z.KeptBy (.fault f) :=
  ⟨by intro t e; cases e⟩

theorem keptBy_ite {z : State} {a b : Result} {c : Prop} [Decidable c] (ha : z.KeptBy a) (hb : z.KeptBy b) :
    z.KeptBy (if c then a else b) := by
  split <;> assumption

theorem keptBy_cut {z x : State} {t : Result} (g : z.Kept x → z.KeptBy t) (h : z.Kept x) : z.KeptBy t := g h

end Sys2Proof.Machine
end

