-- ==== Sys2Proof/Laws/Mem.lean ====
section
/-! SUPPORT. Buffer memory: a byte stored is the byte read, every other byte stays, and the canonical form is kept. -/
namespace Sys2Proof.Machine

open Sys2Proof

/-- The canonical form above a bound holds above every lower one. -/
theorem memWfFrom_mono {m : List Host.Cell} {a b : Nat} (h : memWfFrom b m = true) (hab : a ≤ b) : memWfFrom a m = true := by
  cases m with
  | nil => rfl
  | cons c t =>
    simp only [memWfFrom, Bool.and_eq_true, decide_eq_true_eq] at h ⊢
    exact ⟨⟨by omega, h.1.2⟩, h.2⟩

/-- Below the first address nothing is listed. -/
theorem memGet_below {m : List Host.Cell} {lo a : Nat} (h : memWfFrom lo m = true) (ha : a < lo) : memGet m a = 0 := by
  cases m with
  | nil => rfl
  | cons c t =>
    simp only [memWfFrom, Bool.and_eq_true, decide_eq_true_eq] at h
    have h1 : a < c.1 := by omega
    simp [memGet, h1]

/-- Storing a byte keeps the canonical form. -/
theorem memPut_wfFrom {m : List Host.Cell} {lo a : Nat} {b : Byte} (h : memWfFrom lo m = true) (ha : lo ≤ a) :
    memWfFrom lo (memPut m a b) = true := by
  induction m generalizing lo with
  | nil =>
    by_cases hb : b = 0
    · simp only [memPut, hb, if_true]; rfl
    · simp only [memPut, hb, if_false, memWfFrom, Bool.and_eq_true, decide_eq_true_eq]
      exact ⟨⟨ha, by simpa using hb⟩, trivial⟩
  | cons c t ih =>
    simp only [memWfFrom, Bool.and_eq_true, decide_eq_true_eq] at h
    unfold memPut
    by_cases h1 : a < c.1
    · by_cases hb : b = 0
      · simp only [h1, hb, if_true]
        simp only [memWfFrom, Bool.and_eq_true, decide_eq_true_eq]; exact h
      · simp only [h1, hb, if_true, if_false]
        simp only [memWfFrom, Bool.and_eq_true, decide_eq_true_eq]
        exact ⟨⟨ha, by simpa using hb⟩, ⟨by omega, h.1.2⟩, h.2⟩
    · by_cases h2 : a = c.1
      · by_cases hb : b = 0
        · simp only [h2, hb, if_true, if_false, Nat.lt_irrefl]
          exact memWfFrom_mono h.2 (by omega)
        · simp only [h2, hb, if_true, if_false, Nat.lt_irrefl]
          simp only [memWfFrom, Bool.and_eq_true, decide_eq_true_eq]
          exact ⟨⟨h.1.1, by simpa using hb⟩, h.2⟩
      · simp only [h1, h2, if_false]
        simp only [memWfFrom, Bool.and_eq_true, decide_eq_true_eq]
        exact ⟨h.1, ih h.2 (by omega)⟩

/-- Storing a byte keeps the canonical form. -/
theorem memPut_wf {m : List Host.Cell} {a : Nat} {b : Byte} (h : Memory.wf m = true) : Memory.wf (memPut m a b) = true :=
  memPut_wfFrom h (Nat.zero_le a)

/-- Storing bytes keeps the canonical form. -/
theorem memStore_wf {l : List Byte} {m : List Host.Cell} {a : Nat} (h : Memory.wf m = true) :
    Memory.wf (memStore m a l) = true := by
  induction l generalizing m a with
  | nil => exact h
  | cons b t ih => exact ih (memPut_wf h)

/-- Leaving entries out keeps the canonical form. -/
theorem memFilter_wfFrom {m : List Host.Cell} {lo : Nat} {p : Host.Cell → Bool} (h : memWfFrom lo m = true) :
    memWfFrom lo (m.filter p) = true := by
  induction m generalizing lo with
  | nil => rfl
  | cons c t ih =>
    simp only [memWfFrom, Bool.and_eq_true, decide_eq_true_eq] at h
    by_cases hp : p c = true
    · simp only [List.filter_cons, hp, if_true]
      simp only [memWfFrom, Bool.and_eq_true, decide_eq_true_eq]
      exact ⟨h.1, ih h.2⟩
    · simp only [List.filter_cons, hp]
      exact memWfFrom_mono (ih h.2) (by omega)

/-- Leaving entries out keeps the canonical form. -/
theorem memFilter_wf {m : List Host.Cell} {p : Host.Cell → Bool} (h : Memory.wf m = true) : Memory.wf (m.filter p) = true :=
  memFilter_wfFrom h

/-- A byte stored is the byte read. -/
theorem memGet_memPut_same {m : List Host.Cell} {lo a : Nat} {b : Byte} (h : memWfFrom lo m = true) :
    memGet (memPut m a b) a = b := by
  induction m generalizing lo with
  | nil => by_cases hb : b = 0 <;> simp only [memPut, memGet, hb, if_true, if_false, Nat.lt_irrefl]
  | cons c t ih =>
    simp only [memWfFrom, Bool.and_eq_true, decide_eq_true_eq] at h
    unfold memPut
    by_cases h1 : a < c.1
    · by_cases hb : b = 0 <;> simp only [memGet, h1, hb, if_true, if_false, Nat.lt_irrefl]
    · by_cases h2 : a = c.1
      · by_cases hb : b = 0
        · simp only [h2, hb, if_true, if_false, Nat.lt_irrefl]
          exact memGet_below h.2 (by omega)
        · simp only [memGet, h2, hb, if_true, if_false, Nat.lt_irrefl]
      · simp only [h1, h2, if_false, memGet]
        exact ih h.2

/-- Every other byte stays. -/
theorem memGet_memPut_other {m : List Host.Cell} {lo a k : Nat} {b : Byte} (h : memWfFrom lo m = true) (hk : k ≠ a) :
    memGet (memPut m a b) k = memGet m k := by
  induction m generalizing lo with
  | nil =>
    by_cases hb : b = 0
    · simp only [memPut, memGet, hb, if_true]
    · simp only [memPut, hb, if_false, memGet, hk]
      split <;> rfl
  | cons c t ih =>
    simp only [memWfFrom, Bool.and_eq_true, decide_eq_true_eq] at h
    unfold memPut
    by_cases h1 : a < c.1
    · by_cases hb : b = 0
      · simp only [h1, hb, if_true]
      · simp only [h1, hb, if_true, if_false]
        unfold memGet
        by_cases hka : k < a
        · simp only [hka, if_true, (show k < c.1 by omega)]
        · simp only [hka, hk, if_false]; rfl
    · by_cases h2 : a = c.1
      · have hkc : k ≠ c.1 := by omega
        by_cases hb : b = 0
        · simp only [h2, hb, if_true, if_false, Nat.lt_irrefl]
          unfold memGet
          by_cases hkl : k < c.1
          · simp only [hkl, if_true]
            have := memGet_below h.2 (show k < c.1 + 1 by omega)
            unfold memGet at this; exact this
          · simp only [hkl, hkc, if_false]
            cases t <;> rfl
        · simp only [h2, hb, if_false, if_true, Nat.lt_irrefl, memGet, hkc]
      · simp only [h1, h2, if_false, memGet, ih h.2]

/-- Bytes stored leave every byte outside them as it was. -/
theorem memGet_memStore_other {l : List Byte} {m : List Host.Cell} {a k : Nat} (h : Memory.wf m = true)
    (hk : k < a ∨ a + l.length ≤ k) : memGet (memStore m a l) k = memGet m k := by
  induction l generalizing m a with
  | nil => rfl
  | cons b t ih =>
    simp only [List.length_cons] at hk
    unfold memStore
    rw [ih (memPut_wf h) (by omega)]
    exact memGet_memPut_other (lo := 0) h (by omega)

/-- Bytes stored are the bytes read. -/
theorem memLoad_memStore {l : List Byte} {m : List Host.Cell} {a : Nat} (h : Memory.wf m = true) :
    memLoad (memStore m a l) a l.length = l := by
  induction l generalizing m a with
  | nil => rfl
  | cons b t ih =>
    simp only [List.length_cons, memStore, memLoad]
    rw [memGet_memStore_other (memPut_wf h) (by omega), memGet_memPut_same (lo := 0) h, ih (memPut_wf h)]

end Sys2Proof.Machine
end

