-- ==== Sys2Proof/Laws/KeptOps.lean ====
section
/-! SUPPORT. What each operation and each meaning keeps (`State.Kept`): the shared operations, faults, and the way to the host. One lemma per definition,
from those of the definitions it calls. -/
namespace Sys2Proof.Machine

open Sys2Proof

theorem State.modCtx_kept {z : State} {s : State} {n : Nat} {f : Ctx → Ctx} (hs : z.Kept s) : z.Kept (State.modCtx s n f) := by
  unfold State.modCtx
  repeat' with_reducible first
    | (refine kept_mk (by assumption) ?_ ?_ ?_ ?_ ?_ ?_ ?_ <;> exact rfl)

theorem State.idleCtx_kept {z : State} {s : State} {n : Nat} (hs : z.Kept s) : z.Kept (State.idleCtx s n) := by
  unfold State.idleCtx
  repeat' with_reducible first
    | assumption | apply State.modCtx_kept

theorem State.modCh_kept {z : State} {s : State} {n : Nat} {f : ChSt → ChSt} (hs : z.Kept s) : z.Kept (State.modCh s n f) := by
  unfold State.modCh
  repeat' with_reducible first
    | (refine kept_mk (by assumption) ?_ ?_ ?_ ?_ ?_ ?_ ?_ <;> exact rfl)

theorem State.setBank_kept {z : State} {s : State} {k' : Nat} {l : List Slot} (hs : z.Kept s) : z.Kept (State.setBank s k' l) := by
  unfold State.setBank
  repeat' with_reducible first
    | (refine kept_mk (by assumption) ?_ ?_ ?_ ?_ ?_ ?_ ?_ <;> exact rfl)

theorem State.modSlot_kept {z : State} {s : State} {k' : Nat} {i : Nat} {f : Slot → Slot} (hs : z.Kept s) : z.Kept (State.modSlot s k' i f) := by
  unfold State.modSlot
  repeat' with_reducible first
    | assumption | apply State.setBank_kept | split

theorem State.setW1c_kept {z : State} {s : State} {off : Nat} {b : Nat} (hs : z.Kept s) : z.Kept (State.setW1c s off b) := by
  unfold State.setW1c
  repeat' with_reducible first
    | (refine kept_mk (by assumption) ?_ ?_ ?_ ?_ ?_ ?_ ?_ <;> exact rfl)

theorem State.cutGate_kept {z : State} {s : State} {ch : Nat} (hs : z.Kept s) : z.Kept (State.cutGate s ch) := by
  unfold State.cutGate
  repeat' with_reducible first
    | assumption | apply State.modCh_kept | apply State.modSlot_kept | refine State.count_kept ?_ (by omega)
    | apply State.setW1c_kept | split

theorem State.capture_kept {z : State} {s : State} {e' : SlotEntry} {skid : Nat} (hs : z.Kept s) : z.Kept (State.capture s e' skid) := by
  unfold State.capture
  repeat' with_reducible first
    | apply State.setW1c_kept | (refine kept_mk (by assumption) ?_ ?_ ?_ ?_ ?_ ?_ ?_ <;> exact rfl)

theorem State.draw_kept {z : State} {s : State} (hs : z.Kept s) : z.Kept (State.draw s) := by
  unfold State.draw
  repeat' with_reducible first
    | (refine kept_mk (by assumption) ?_ ?_ ?_ ?_ ?_ ?_ ?_ <;> exact rfl)

theorem State.sample_kept {z : State} {s : State} {ch : Nat} {e' : SlotEntry} (hs : z.Kept s) : z.Kept (State.sample s ch e') := by
  unfold State.sample
  repeat' with_reducible first
    | split
    | (refine kept_mk ?_ ?_ ?_ ?_ ?_ ?_ ?_ ?_ <;> first | exact rfl | (refine kept_mk (by assumption) ?_ ?_ ?_ ?_ ?_ ?_ ?_ <;> exact rfl) | apply State.capture_kept | apply State.draw_kept | apply kept_ite)

theorem State.returnWork_kept {z : State} {s : State} {w : Nat} (hs : z.Kept s) : z.Kept (State.returnWork s w) := by
  unfold State.returnWork
  repeat' with_reducible first
    | (refine kept_mk (by assumption) ?_ ?_ ?_ ?_ ?_ ?_ ?_ <;> exact rfl)

theorem State.endSlot_kept {z s : State} {k i : Nat} {c : EndClass} {late : Bool} (hs : z.Kept s) :
    z.Kept (s.endSlot k i c late) := by
  unfold State.endSlot
  split
  · exact hs
  · rename_i sl _
    split
    · exact hs
    · extract_lets -underBinder ch x y w v
      have hch : ch < 16 := by
        dsimp only [ch]; unfold slotCh
        split
        · omega
        · have := sl.e.hs.isLt; omega
      have hc : c.ctr < 4 := by cases c <;> decide
      have h1 : z.Kept x := State.modSlot_kept hs
      have h2 : z.Kept w := State.count_pass h1 hch hc
      clear_value w
      have h3 : z.Kept v := kept_ite (State.count_kept h2 (by omega)) h2
      clear_value v
      split
      · exact State.sample_kept (kept_ite (State.count_kept h3 (by omega)) h3)
      · exact kept_ite (State.modCtx_kept h3) (State.returnWork_kept (State.modCtx_kept h3))

theorem State.endWhere_kept {z : State} {s : State} {k' : Nat} {p : Slot → Bool} {c : EndClass} (hs : z.Kept s) : z.Kept (State.endWhere s k' p c) := by
  unfold State.endWhere
  repeat' with_reducible first
    | assumption | intro _ | apply State.endSlot_kept | refine kept_foldl ?_ ?_ | split

theorem State.wasteBank_kept {z : State} {s : State} {k' : Nat} (hs : z.Kept s) : z.Kept (State.wasteBank s k') := by
  unfold State.wasteBank
  repeat' with_reducible first
    | assumption | apply State.endWhere_kept

theorem State.abandonCh_kept {z : State} {s : State} {ch : Nat} (hs : z.Kept s) : z.Kept (State.abandonCh s ch) := by
  unfold State.abandonCh
  repeat' with_reducible first
    | assumption | apply State.cutGate_kept | apply State.wasteBank_kept | apply State.setBank_kept
    | (extract_lets +onlyGivenNames -underBinder x; first | (refine kept_cut (x := x) ?_ ?_; intro hx; clear_value x; rotate_left; dsimp only [x]) | skip)
    | (refine kept_mk (by assumption) ?_ ?_ ?_ ?_ ?_ ?_ ?_ <;> exact rfl)

theorem State.abandonAct_kept {z : State} {s : State} {n : Nat} (hs : z.Kept s) : z.Kept (State.abandonAct s n) := by
  unfold State.abandonAct
  repeat' with_reducible first
    | assumption | intro _ | apply State.idleCtx_kept | apply State.abandonCh_kept | refine kept_foldl ?_ ?_

theorem State.abandonMaint_kept {z : State} {s : State} (hs : z.Kept s) : z.Kept (State.abandonMaint s) := by
  unfold State.abandonMaint
  repeat' with_reducible first
    | assumption | apply State.wasteBank_kept | apply State.idleCtx_kept | apply State.setBank_kept

theorem State.abandonAll_kept {z : State} {s : State} (hs : z.Kept s) : z.Kept (State.abandonAll s) := by
  unfold State.abandonAll
  repeat' with_reducible first
    | assumption | apply State.abandonMaint_kept | apply State.abandonAct_kept | refine kept_foldl ?_ ?_

theorem State.withdraw_kept {z : State} {s : State} {k' : Nat} {p : Slot → Bool} (hs : z.Kept s) : z.Kept (State.withdraw s k' p) := by
  unfold State.withdraw
  repeat' with_reducible first
    | assumption | apply State.endWhere_kept | apply State.modCtx_kept | apply kept_ite

theorem State.withdrawWork_kept {z : State} {s : State} {ws : List Nat} (hs : z.Kept s) : z.Kept (State.withdrawWork s ws) := by
  unfold State.withdrawWork
  repeat' with_reducible first
    | assumption | intro _ | apply State.withdraw_kept | refine kept_foldl ?_ ?_

theorem State.setRecList_kept {z : State} {s : State} {n : Nat} {l : List RecEnt} (hs : z.Kept s) : z.Kept (State.setRecList s n l) := by
  unfold State.setRecList
  repeat' with_reducible first
    | (refine kept_mk (by assumption) ?_ ?_ ?_ ?_ ?_ ?_ ?_ <;> exact rfl)

theorem State.modTx_kept {z : State} {s : State} {d : Nat} {f : E2eTx → E2eTx} (hs : z.Kept s) : z.Kept (State.modTx s d f) := by
  unfold State.modTx
  repeat' with_reducible first
    | (refine kept_mk (by assumption) ?_ ?_ ?_ ?_ ?_ ?_ ?_ <;> exact rfl)

theorem State.discard_kept {z : State} {s : State} (hs : z.Kept s) : z.Kept (State.discard s) := by
  unfold State.discard
  repeat' with_reducible first
    | (refine kept_mk (by assumption) ?_ ?_ ?_ ?_ ?_ ?_ ?_ <;> exact rfl)

theorem State.modPort_kept {z : State} {s : State} {p : Nat} {f : Port → Port} (hs : z.Kept s) : z.Kept (State.modPort s p f) := by
  unfold State.modPort
  repeat' with_reducible first
    | (refine kept_mk (by assumption) ?_ ?_ ?_ ?_ ?_ ?_ ?_ <;> exact rfl)

theorem State.send_kept {z s : State} {o : Out} (hs : z.Kept s) : z.Kept (s.send o) :=
  kept_trans hs ⟨rfl, id, id, ⟨id, Nat.le_refl _, Nat.le_refl _, rfl, id⟩, List.suffix_cons _ _⟩

theorem State.emit_kept {z : State} {s : State} {n : Fin 5} {p : Pkt} (hs : z.Kept s) : z.Kept (State.emit s n p) := by
  unfold State.emit
  repeat' with_reducible first
    | assumption | apply State.modPort_kept | apply State.send_kept | refine State.count_kept ?_ (by omega)

theorem State.drainVc_kept {z : State} {s : State} {n : Fin 5} {v : Nat} {a3 : Nat} (hs : z.Kept s) : z.Kept (State.drainVc s n v a3) := by
  induction a3 generalizing s 
  case' succ => rename_i n ih
  all_goals unfold State.drainVc
  all_goals repeat' with_reducible first
    | assumption | apply State.modPort_kept | apply State.emit_kept | apply ih | apply kept_ite | split

theorem State.drainRound_kept {z : State} {s : State} {n : Fin 5} (hs : z.Kept s) : z.Kept (State.drainRound s n) := by
  unfold State.drainRound
  repeat' with_reducible first
    | assumption | intro _ | apply State.drainVc_kept | apply State.modPort_kept | refine kept_foldl ?_ ?_
    | (extract_lets +onlyGivenNames -underBinder x; first | (refine kept_cut (x := x) ?_ ?_; intro hx; clear_value x; rotate_left; dsimp only [x]) | skip)
    | split

theorem State.drainPort_kept {z : State} {s : State} {n : Fin 5} (hs : z.Kept s) : z.Kept (State.drainPort s n) := by
  unfold State.drainPort
  repeat' with_reducible first
    | assumption | intro _ | apply State.drainRound_kept | apply kept_ite | refine kept_upto ?_ ?_

theorem State.sendOn_kept {z : State} {s : State} {n : Fin 5} {p : Pkt} (hs : z.Kept s) : z.Kept (State.sendOn s n p) := by
  unfold State.sendOn
  repeat' with_reducible first
    | assumption | apply State.drainPort_kept | apply State.modPort_kept

theorem State.forward_kept {z : State} {s : State} {inp : Option (Fin 5)} {p : Pkt} (hs : z.Kept s) : z.Kept (State.forward s inp p) := by
  unfold State.forward
  repeat' with_reducible first
    | apply State.discard_kept | apply State.sendOn_kept | apply kept_ite | split
    | (refine kept_mk (by assumption) ?_ ?_ ?_ ?_ ?_ ?_ ?_ <;> exact rfl)

theorem State.pumpTx_kept {z : State} {s : State} {d : Nat} {a2 : Nat} (hs : z.Kept s) : z.Kept (State.pumpTx s d a2) := by
  induction a2 generalizing s 
  case' succ => rename_i n ih
  all_goals unfold State.pumpTx
  all_goals repeat' with_reducible first
    | assumption | apply State.modTx_kept | apply State.forward_kept | apply ih | split

theorem State.e2eSendSess_kept {z : State} {s : State} {dst : BitVec 12} {ty : Nat} {sess : Byte} {payload : List Byte} (hs : z.Kept s) : z.Kept (State.e2eSendSess s dst ty sess payload) := by
  unfold State.e2eSendSess
  repeat' with_reducible first
    | assumption | apply State.modTx_kept | apply State.pumpTx_kept

theorem State.e2eSend_kept {z : State} {s : State} {dst : BitVec 12} {ty : Nat} {payload : List Byte} (hs : z.Kept s) : z.Kept (State.e2eSend s dst ty payload) := by
  unfold State.e2eSend
  repeat' with_reducible first
    | assumption | apply State.e2eSendSess_kept

theorem State.pmEnd_kept {z : State} {s : State} {t' : BitVec 16} {status : Nat} {result : Nat} (hs : z.Kept s) : z.Kept (State.pmEnd s t' status result) := by
  unfold State.pmEnd
  repeat' with_reducible first
    | apply State.e2eSend_kept | split | (refine kept_mk (by assumption) ?_ ?_ ?_ ?_ ?_ ?_ ?_ <;> exact rfl)

theorem State.finish_kept {z : State} {s : State} {q : Fin 128} {t' : BitVec 16} {status : Nat} {result : Nat} (hs : z.Kept s) : z.Kept (State.finish s q t' status result) := by
  unfold State.finish
  repeat' with_reducible first
    | split
    | (refine kept_mk ?_ ?_ ?_ ?_ ?_ ?_ ?_ ?_ <;> first | exact rfl | (refine kept_mk (by assumption) ?_ ?_ ?_ ?_ ?_ ?_ ?_ <;> exact rfl) | apply State.pmEnd_kept | apply kept_ite)

theorem State.store_kept {z s : State} {a : Nat} {l : List Byte} (hs : z.Kept s) : z.Kept (s.store a l) :=
  kept_trans hs ⟨rfl, fun h => memStore_wf h, id, ⟨id, Nat.le_refl _, Nat.le_refl _, rfl, id⟩, List.suffix_refl _⟩

theorem State.accAdd_kept {z : State} {s : State} {k' : Nat} {j : Nat} {m : Nat} {payload : List Byte} (hs : z.Kept s) : z.Kept (State.accAdd s k' j m payload) := by
  unfold State.accAdd
  repeat' with_reducible first
    | assumption | apply State.store_kept

theorem State.xtpToggle_kept {z : State} {s : State} {z' : Nat} {sbi : Nat} {payload : List Byte} (hs : z.Kept s) : z.Kept (State.xtpToggle s z' sbi payload) := by
  unfold State.xtpToggle
  repeat' with_reducible first
    | assumption | apply State.accAdd_kept
    | (extract_lets +onlyGivenNames -underBinder x; first | (refine kept_cut (x := x) ?_ ?_; intro hx; clear_value x; rotate_left; dsimp only [x]) | skip)
    | split | (refine kept_mk (by assumption) ?_ ?_ ?_ ?_ ?_ ?_ ?_ <;> exact rfl)

theorem State.modZone_kept {z : State} {s : State} {z' : Nat} {f : Zone → Zone} (hs : z.Kept s) : z.Kept (State.modZone s z' f) := by
  unfold State.modZone
  repeat' with_reducible first
    | (refine kept_mk (by assumption) ?_ ?_ ?_ ?_ ?_ ?_ ?_ <;> exact rfl)

theorem State.unlay_kept {z : State} {s : State} {u : CUnit} (hs : z.Kept s) : z.Kept (State.unlay s u) := by
  unfold State.unlay
  repeat' with_reducible first
    | intro _
    | (refine kept_mk ?_ ?_ ?_ ?_ ?_ ?_ ?_ ?_ <;> first | exact rfl | (refine kept_mk (by assumption) ?_ ?_ ?_ ?_ ?_ ?_ ?_ <;> exact rfl) | apply State.xtpToggle_kept | apply State.modZone_kept | apply kept_ite | refine kept_foldl ?_ ?_ | (refine kept_mk ?_ ?_ ?_ ?_ ?_ ?_ ?_ ?_ <;> first | exact rfl | (refine kept_mk (by assumption) ?_ ?_ ?_ ?_ ?_ ?_ ?_ <;> exact rfl) | apply State.xtpToggle_kept | apply State.modZone_kept | apply kept_ite | refine kept_foldl ?_ ?_))

theorem State.withdrawUnit_kept {z : State} {s : State} {cs : Word} (hs : z.Kept s) : z.Kept (State.withdrawUnit s cs) := by
  unfold State.withdrawUnit
  repeat' with_reducible first
    | split
    | (refine kept_mk ?_ ?_ ?_ ?_ ?_ ?_ ?_ ?_ <;> first | exact rfl | (refine kept_mk (by assumption) ?_ ?_ ?_ ?_ ?_ ?_ ?_ <;> exact rfl) | apply State.withdrawWork_kept | apply State.unlay_kept | apply State.modZone_kept | apply kept_ite | (refine kept_mk ?_ ?_ ?_ ?_ ?_ ?_ ?_ ?_ <;> first | exact rfl | (refine kept_mk (by assumption) ?_ ?_ ?_ ?_ ?_ ?_ ?_ <;> exact rfl) | apply State.withdrawWork_kept | apply State.unlay_kept | apply State.modZone_kept | apply kept_ite))

theorem State.dropCmdUnit_kept {z : State} {s : State} {c : Cmd} (hs : z.Kept s) : z.Kept (State.dropCmdUnit s c) := by
  unfold State.dropCmdUnit
  repeat' with_reducible first
    | assumption | apply State.withdrawUnit_kept | split

theorem State.endCmd_kept {z : State} {s : State} {c : Cmd} {status : Nat} {result : Nat} (hs : z.Kept s) : z.Kept (State.endCmd s c status result) := by
  unfold State.endCmd
  repeat' with_reducible first
    | assumption | apply State.finish_kept | apply State.dropCmdUnit_kept

theorem State.accClear_kept {z s : State} {k : Nat} (hs : z.Kept s) : z.Kept (s.accClear k) :=
  kept_trans hs ⟨rfl, fun h => memFilter_wf h, id, ⟨id, Nat.le_refl _, Nat.le_refl _, rfl, id⟩, List.suffix_refl _⟩

theorem State.cutGates_kept {z : State} {s : State} {m : Nat} {n : Nat} (hs : z.Kept s) : z.Kept (State.cutGates s m n) := by
  unfold State.cutGates
  repeat' with_reducible first
    | assumption | intro _ | apply State.cutGate_kept | refine kept_foldl ?_ ?_

theorem State.setReady_kept {z : State} {s : State} {b : Nat} {v : Bool} (hs : z.Kept s) : z.Kept (State.setReady s b v) := by
  unfold State.setReady
  repeat' with_reducible first
    | apply kept_ite | (refine kept_mk (by assumption) ?_ ?_ ?_ ?_ ?_ ?_ ?_ <;> exact rfl)

theorem State.actReadyOff_kept {z : State} {s : State} {n : Nat} (hs : z.Kept s) : z.Kept (State.actReadyOff s n) := by
  unfold State.actReadyOff
  repeat' with_reducible first
    | assumption | apply State.setReady_kept

theorem State.modAct_kept {z : State} {s : State} {n : Nat} {f : ActSt → ActSt} (hs : z.Kept s) : z.Kept (State.modAct s n f) := by
  unfold State.modAct
  repeat' with_reducible first
    | (refine kept_mk (by assumption) ?_ ?_ ?_ ?_ ?_ ?_ ?_ <;> exact rfl)

theorem State.mdlSend_kept {z : State} {s : State} {ty : Nat} {payload : Nat} (hs : z.Kept s) : z.Kept (State.mdlSend s ty payload) := by
  unfold State.mdlSend
  repeat' with_reducible first
    | assumption | apply State.send_kept | apply kept_ite
    | (extract_lets +onlyGivenNames -underBinder x; first | (refine kept_cut (x := x) ?_ ?_; intro hx; clear_value x; rotate_left; dsimp only [x]) | skip)
    | (refine kept_mk (by assumption) ?_ ?_ ?_ ?_ ?_ ?_ ?_ <;> exact rfl)

theorem State.sendPark_kept {z : State} {s : State} {mask : Nat} {kind : Nat} (hs : z.Kept s) : z.Kept (State.sendPark s mask kind) := by
  unfold State.sendPark
  repeat' with_reducible first
    | assumption | apply State.mdlSend_kept

theorem State.parkNow_kept {z : State} {s : State} {n : Nat} (hs : z.Kept s) : z.Kept (State.parkNow s n) := by
  unfold State.parkNow
  repeat' with_reducible first
    | (refine kept_mk ?_ ?_ ?_ ?_ ?_ ?_ ?_ ?_ <;> first | exact rfl | (refine kept_mk (by assumption) ?_ ?_ ?_ ?_ ?_ ?_ ?_ <;> exact rfl) | apply State.actReadyOff_kept | apply State.abandonAct_kept | apply State.modAct_kept | apply State.sendPark_kept | apply kept_ite)

theorem State.parkAll_kept {z : State} {s : State} (hs : z.Kept s) : z.Kept (State.parkAll s) := by
  unfold State.parkAll
  repeat' with_reducible first
    | assumption | apply State.parkNow_kept | refine kept_foldl ?_ ?_

theorem State.spinMode_kept {z : State} {s : State} {mode : Nat} (hs : z.Kept s) : z.Kept (State.spinMode s mode) := by
  unfold State.spinMode
  repeat' with_reducible first
    | apply State.mdlSend_kept | apply State.draw_kept | (refine kept_mk (by assumption) ?_ ?_ ?_ ?_ ?_ ?_ ?_ <;> exact rfl)

theorem State.tokenGot_kept {z s : State} {solo : Bool} (hs : z.Kept s) : z.Kept (s.tokenGot solo) := by
  unfold State.tokenGot
  have h1 : z.Kept { s with spn.token := true, spn.solo := solo } := kept_upd hs rfl rfl rfl rfl rfl rfl rfl rfl
  generalize ({ s with spn.token := true, spn.solo := solo } : State) = x at h1
  exact kept_ite (kept_upd h1 rfl rfl rfl rfl rfl rfl rfl rfl) (kept_ite
    (State.spinMode_kept (kept_upd (State.draw_kept h1) rfl rfl rfl rfl rfl rfl rfl rfl))
    (State.spinMode_kept (kept_upd (State.draw_kept h1) rfl rfl rfl rfl rfl rfl rfl rfl)))

theorem State.ledgerGrant_kept {z : State} {s : State} {a1 : Nat} (hs : z.Kept s) : z.Kept (State.ledgerGrant s a1) := by
  induction a1 generalizing s 
  case' succ => rename_i n ih
  all_goals unfold State.ledgerGrant
  all_goals repeat' with_reducible first
    | split
    | (refine kept_mk ?_ ?_ ?_ ?_ ?_ ?_ ?_ ?_ <;> first | exact rfl | (refine kept_mk (by assumption) ?_ ?_ ?_ ?_ ?_ ?_ ?_ <;> exact rfl) | apply State.tokenGot_kept | apply State.e2eSend_kept | apply ih | apply kept_ite | (refine kept_mk ?_ ?_ ?_ ?_ ?_ ?_ ?_ ?_ <;> first | exact rfl | (refine kept_mk (by assumption) ?_ ?_ ?_ ?_ ?_ ?_ ?_ <;> exact rfl) | apply State.tokenGot_kept | apply State.e2eSend_kept | apply ih | apply kept_ite))

theorem State.grantAll_kept {z : State} {s : State} (hs : z.Kept s) : z.Kept (State.grantAll s) := by
  unfold State.grantAll
  repeat' with_reducible first
    | assumption | apply State.ledgerGrant_kept

theorem State.ledgerReturn_kept {z : State} {s : State} {k' : Fin 16} (hs : z.Kept s) : z.Kept (State.ledgerReturn s k') := by
  unfold State.ledgerReturn
  repeat' with_reducible first
    | apply State.grantAll_kept | (refine kept_mk (by assumption) ?_ ?_ ?_ ?_ ?_ ?_ ?_ <;> exact rfl)

theorem State.giveToken_kept {z : State} {s : State} (hs : z.Kept s) : z.Kept (State.giveToken s) := by
  unfold State.giveToken
  repeat' with_reducible first
    | apply State.ledgerReturn_kept | apply State.e2eSend_kept | apply kept_ite
    | (refine kept_mk (by assumption) ?_ ?_ ?_ ?_ ?_ ?_ ?_ <;> exact rfl)

theorem State.atbTo_kept {z : State} {s : State} {r : Raise} {dest : AtbSt} (hs : z.Kept s) (hr : ∀ n s, z.Kept s → z.Kept (r n s)) : z.Kept (State.atbTo s r dest) := by
  unfold State.atbTo
  repeat' with_reducible first
    | (refine kept_mk ?_ ?_ ?_ ?_ ?_ ?_ ?_ ?_ <;> first | exact rfl | (refine kept_mk (by assumption) ?_ ?_ ?_ ?_ ?_ ?_ ?_ <;> exact rfl) | apply State.abandonAll_kept | apply State.cutGates_kept | apply State.setW1c_kept | apply State.parkAll_kept | apply hr | apply kept_ite)

theorem State.lockEnds_kept {z : State} {s : State} {r : Raise} (hs : z.Kept s) (hr : ∀ n s, z.Kept s → z.Kept (r n s)) : z.Kept (State.lockEnds s r) := by
  unfold State.lockEnds
  repeat' with_reducible first
    | assumption | apply State.atbTo_kept | apply State.setReady_kept
    | (refine kept_mk (by assumption) ?_ ?_ ?_ ?_ ?_ ?_ ?_ <;> exact rfl)

theorem State.actPfail_kept {z : State} {s : State} {r : Raise} (hs : z.Kept s) (hr : ∀ n s, z.Kept s → z.Kept (r n s)) : z.Kept (State.actPfail s r) := by
  unfold State.actPfail
  repeat' with_reducible first
    | assumption
    | (refine kept_mk ?_ ?_ ?_ ?_ ?_ ?_ ?_ ?_ <;> first | exact rfl | (refine kept_mk (by assumption) ?_ ?_ ?_ ?_ ?_ ?_ ?_ <;> exact rfl) | apply State.abandonAll_kept | apply State.cutGates_kept | apply State.parkAll_kept | apply State.giveToken_kept | apply State.sendPark_kept | apply State.lockEnds_kept | apply State.spinMode_kept | apply State.setW1c_kept | apply hr | apply kept_ite)

theorem State.modEngine_kept {z : State} {s : State} {k' : Nat} {f : Engine → Engine} (hs : z.Kept s) : z.Kept (State.modEngine s k' f) := by
  unfold State.modEngine
  repeat' with_reducible first
    | (refine kept_mk (by assumption) ?_ ?_ ?_ ?_ ?_ ?_ ?_ <;> exact rfl)

theorem State.takeAcc_kept {z : State} {s : State} {k' : Fin 256} (hs : z.Kept s) : z.Kept (State.takeAcc s k') := by
  unfold State.takeAcc
  repeat' with_reducible first
    | apply State.accClear_kept | (refine kept_mk (by assumption) ?_ ?_ ?_ ?_ ?_ ?_ ?_ <;> exact rfl)

theorem State.pairSend_kept {z : State} {s : State} {kind : Nat} {payload : List Byte} (hs : z.Kept s) : z.Kept (State.pairSend s kind payload) := by
  unfold State.pairSend
  repeat' with_reducible first
    | apply State.send_kept | refine State.count_kept ?_ (by omega) | apply kept_ite
    | (refine kept_mk (by assumption) ?_ ?_ ?_ ?_ ?_ ?_ ?_ <;> exact rfl)

theorem State.mirror_kept {z : State} {s : State} {kind : Nat} {payload : List Byte} (hs : z.Kept s) : z.Kept (State.mirror s kind payload) := by
  unfold State.mirror
  repeat' with_reducible first
    | assumption | apply State.pairSend_kept | apply kept_ite

theorem State.lostEvent_kept {z : State} {s : State} {e' : Ev} (hs : z.Kept s) : z.Kept (State.lostEvent s e') := by
  unfold State.lostEvent
  repeat' with_reducible first
    | refine State.count_kept ?_ (by omega) | (refine kept_mk (by assumption) ?_ ?_ ?_ ?_ ?_ ?_ ?_ <;> exact rfl)

theorem State.enqueue_kept {z : State} {s : State} {e' : Ev} (hs : z.Kept s) : z.Kept (State.enqueue s e') := by
  unfold State.enqueue
  repeat' with_reducible first
    | apply State.lostEvent_kept | apply kept_ite | (refine kept_mk (by assumption) ?_ ?_ ?_ ?_ ?_ ?_ ?_ <;> exact rfl)

theorem State.eventSrc_kept {z : State} {s : State} {code : Nat} {sev : Nat} {src : Nat} {par : List Nat} (hs : z.Kept s) : z.Kept (State.eventSrc s code sev src par) := by
  unfold State.eventSrc
  repeat' with_reducible first
    | assumption | apply State.enqueue_kept

theorem State.event_kept {z : State} {s : State} {code : Nat} {sev : Nat} {par : List Nat} (hs : z.Kept s) : z.Kept (State.event s code sev par) := by
  unfold State.event
  repeat' with_reducible first
    | assumption | apply State.eventSrc_kept

theorem State.flood_kept {z : State} {s : State} {inp : Option (Fin 5)} {p : Pkt} (hs : z.Kept s) : z.Kept (State.flood s inp p) := by
  unfold State.flood
  repeat' with_reducible first
    | assumption | intro _ | apply State.sendOn_kept | apply kept_ite | refine kept_foldl ?_ ?_

theorem State.broadcast_kept {z : State} {s : State} {ty : Nat} {payload : List Byte} (hs : z.Kept s) : z.Kept (State.broadcast s ty payload) := by
  unfold State.broadcast
  repeat' with_reducible first
    | apply State.flood_kept | (refine kept_mk (by assumption) ?_ ?_ ?_ ?_ ?_ ?_ ?_ <;> exact rfl)

theorem State.floodLsa_kept {z : State} {s : State} (hs : z.Kept s) : z.Kept (State.floodLsa s) := by
  unfold State.floodLsa
  repeat' with_reducible first
    | apply State.broadcast_kept | (refine kept_mk (by assumption) ?_ ?_ ?_ ?_ ?_ ?_ ?_ <;> exact rfl)

theorem State.modDma_kept {z : State} {s : State} {n : Nat} {f : DmaCh → DmaCh} (hs : z.Kept s) : z.Kept (State.modDma s n f) := by
  unfold State.modDma
  repeat' with_reducible first
    | (refine kept_mk (by assumption) ?_ ?_ ?_ ?_ ?_ ?_ ?_ <;> exact rfl)

theorem State.modCmd_kept {z : State} {s : State} {q : Nat} {t' : BitVec 16} {f : Cmd → Cmd} (hs : z.Kept s) : z.Kept (State.modCmd s q t' f) := by
  unfold State.modCmd
  repeat' with_reducible first
    | (refine kept_mk (by assumption) ?_ ?_ ?_ ?_ ?_ ?_ ?_ <;> exact rfl)

theorem State.hostRead_kept {z : State} {s : State} {p : RPurpose} {a2 : Nat} {n : Nat} (hs : z.Kept s) : z.Kept (State.hostRead s p a2 n) := by
  unfold State.hostRead
  repeat' with_reducible first
    | intro _ | apply State.send_kept | apply State.e2eSend_kept | apply kept_ite | refine kept_foldl ?_ ?_
    | (refine kept_mk (by assumption) ?_ ?_ ?_ ?_ ?_ ?_ ?_ <;> exact rfl)

theorem State.startData_kept {z : State} {s : State} {q : Fin 128} {t' : BitVec 16} (hs : z.Kept s) : z.Kept (State.startData s q t') := by
  unfold State.startData
  repeat' with_reducible first
    | intro _ | apply State.modCmd_kept | apply State.hostRead_kept | refine kept_foldl ?_ ?_ | split
    | (refine kept_mk (by assumption) ?_ ?_ ?_ ?_ ?_ ?_ ?_ <;> exact rfl)

theorem State.touchWay_kept {z : State} {s : State} {st : Nat} {w : Nat} (hs : z.Kept s) : z.Kept (State.touchWay s st w) := by
  unfold State.touchWay
  repeat' with_reducible first
    | (refine kept_mk (by assumption) ?_ ?_ ?_ ?_ ?_ ?_ ?_ <;> exact rfl)

theorem State.setWay_kept {z : State} {s : State} {st : Nat} {w : Nat} {l : Option MapLine} (hs : z.Kept s) : z.Kept (State.setWay s st w l) := by
  unfold State.setWay
  repeat' with_reducible first
    | (refine kept_mk (by assumption) ?_ ?_ ?_ ?_ ?_ ?_ ?_ <;> exact rfl)

theorem State.tableAccess_kept {z : State} {s : State} {a1 : Nat} {wr : Bool} (hs : z.Kept s) : z.Kept (State.tableAccess s a1 wr) := by
  unfold State.tableAccess
  repeat' with_reducible first
    | assumption | apply State.touchWay_kept | refine State.count_kept ?_ (by omega) | apply State.setWay_kept
    | (extract_lets +onlyGivenNames -underBinder x; first | (refine kept_cut (x := x) ?_ ?_; intro hx; clear_value x; rotate_left; dsimp only [x]) | skip)
    | split | (refine kept_mk (by assumption) ?_ ?_ ?_ ?_ ?_ ?_ ?_ <;> exact rfl)

theorem State.zoneAccess_kept {z : State} {s : State} {z' : Nat} {wr : Bool} (hs : z.Kept s) : z.Kept (State.zoneAccess s z' wr) := by
  unfold State.zoneAccess
  repeat' with_reducible first
    | assumption | apply State.tableAccess_kept

theorem State.dropAcc_kept {z : State} {s : State} {k' : Option (Fin 256)} (hs : z.Kept s) : z.Kept (State.dropAcc s k') := by
  unfold State.dropAcc
  repeat' with_reducible first
    | split | (refine kept_mk (by assumption) ?_ ?_ ?_ ?_ ?_ ?_ ?_ <;> exact rfl)

theorem State.toGw_kept {z : State} {s : State} {ty : Nat} {payload : List Byte} (hs : z.Kept s) : z.Kept (State.toGw s ty payload) := by
  unfold State.toGw
  repeat' with_reducible first
    | apply State.e2eSend_kept | apply kept_ite | (refine kept_mk (by assumption) ?_ ?_ ?_ ?_ ?_ ?_ ?_ <;> exact rfl)

theorem State.hostWrite_kept {z : State} {s : State} {a1 : Nat} {l : List Byte} (hs : z.Kept s) : z.Kept (State.hostWrite s a1 l) := by
  unfold State.hostWrite
  repeat' with_reducible first
    | assumption | intro _ | apply State.send_kept | apply State.toGw_kept | apply kept_ite | refine kept_foldl_fst ?_ ?_

theorem State.writeSegs_kept {z s : State} {g : List (BitVec 64 × Nat)} {l : List Byte} (hs : z.Kept s) : z.Kept (s.writeSegs g l) := by
  induction g generalizing s l with
  | nil => exact hs
  | cons p g ih =>
    unfold State.writeSegs
    split
    · exact hs
    · exact ih (State.hostWrite_kept hs)

theorem State.reply_kept {z : State} {s : State} {c : Cmd} {status : Nat} {result : Nat} {data : List Byte} (hs : z.Kept s) : z.Kept (State.reply s c status result data) := by
  unfold State.reply
  repeat' with_reducible first
    | assumption | apply State.modCmd_kept | apply State.finish_kept | apply State.writeSegs_kept | split

theorem State.locAccess_kept {z : State} {s : State} {z' : Nat} {c : Nat} {wr : Bool} (hs : z.Kept s) : z.Kept (State.locAccess s z' c wr) := by
  unfold State.locAccess
  repeat' with_reducible first
    | assumption | apply State.tableAccess_kept | split

theorem State.modHead_kept {z : State} {s : State} {h' : Nat} {f : HeadSt → HeadSt} (hs : z.Kept s) : z.Kept (State.modHead s h' f) := by
  unfold State.modHead
  repeat' with_reducible first
    | (refine kept_mk (by assumption) ?_ ?_ ?_ ?_ ?_ ?_ ?_ <;> exact rfl)

theorem State.markFault_kept {z : State} {s : State} {n : Nat} (hs : z.Kept s) : z.Kept (State.markFault s n) := by
  unfold State.markFault
  repeat' with_reducible first
    | (refine kept_mk (by assumption) ?_ ?_ ?_ ?_ ?_ ?_ ?_ <;> exact rfl)

theorem State.setPin_kept {z : State} {s : State} (hs : z.Kept s) : z.Kept (State.setPin s) := by
  unfold State.setPin
  repeat' with_reducible first
    | apply kept_ite | (refine kept_mk (by assumption) ?_ ?_ ?_ ?_ ?_ ?_ ?_ <;> exact rfl)

theorem State.maskUnit_kept {z : State} {s : State} {u : Nat} (hs : z.Kept s) : z.Kept (State.maskUnit s u) := by
  unfold State.maskUnit
  repeat' with_reducible first
    | apply kept_ite | (refine kept_mk (by assumption) ?_ ?_ ?_ ?_ ?_ ?_ ?_ <;> exact rfl)

theorem State.endCmds_kept {z : State} {s : State} {p : Cmd → Bool} {status : Nat} (hs : z.Kept s) : z.Kept (State.endCmds s p status) := by
  unfold State.endCmds
  repeat' with_reducible first
    | assumption | intro _ | apply State.endCmd_kept | refine kept_foldl ?_ ?_

theorem State.doStop_kept {z : State} {s : State} (hs : z.Kept s) : z.Kept (State.doStop s) := by
  unfold State.doStop
  repeat' with_reducible first
    | (refine kept_mk ?_ ?_ ?_ ?_ ?_ ?_ ?_ ?_ <;> first | exact rfl | (refine kept_mk (by assumption) ?_ ?_ ?_ ?_ ?_ ?_ ?_ <;> exact rfl) | apply State.parkAll_kept | apply State.abandonAll_kept | apply State.endCmds_kept)

theorem State.dropStream_kept {z : State} {s : State} {k' : Nat} {e' : SlotEntry} {zone : Option Nat} {c : EndClass} (hs : z.Kept s) : z.Kept (State.dropStream s k' e' zone c) := by
  unfold State.dropStream
  repeat' with_reducible first
    | assumption | intro _ | apply State.endWhere_kept | apply kept_ite | refine kept_foldl ?_ ?_

theorem State.dropSlot_kept {z : State} {s : State} {k' : Nat} {i : Nat} {c : EndClass} {late : Bool} (hs : z.Kept s) : z.Kept (State.dropSlot s k' i c late) := by
  unfold State.dropSlot
  repeat' with_reducible first
    | assumption | apply State.dropStream_kept | apply State.endSlot_kept | split

theorem State.fenceCh_kept {z : State} {s : State} {n : Nat} {cause : Nat} (hs : z.Kept s) : z.Kept (State.fenceCh s n cause) := by
  unfold State.fenceCh
  repeat' with_reducible first
    | intro _
    | (refine kept_mk ?_ ?_ ?_ ?_ ?_ ?_ ?_ ?_ <;> first | exact rfl | (refine kept_mk (by assumption) ?_ ?_ ?_ ?_ ?_ ?_ ?_ <;> exact rfl) | apply State.dropSlot_kept | apply State.cutGate_kept | apply State.setBank_kept | apply State.modCh_kept | apply State.modCtx_kept | refine kept_foldl ?_ ?_)

theorem State.fenceCtx_kept {z : State} {s : State} {n : Nat} (hs : z.Kept s) : z.Kept (State.fenceCtx s n) := by
  unfold State.fenceCtx
  repeat' with_reducible first
    | (refine kept_mk ?_ ?_ ?_ ?_ ?_ ?_ ?_ ?_ <;> first | exact rfl | (refine kept_mk (by assumption) ?_ ?_ ?_ ?_ ?_ ?_ ?_ <;> exact rfl) | apply State.abandonAct_kept | apply State.abandonMaint_kept | apply State.modCtx_kept | apply kept_ite)

theorem State.cleanMap_kept {z : State} {s : State} (hs : z.Kept s) : z.Kept (State.cleanMap s) := by
  unfold State.cleanMap
  repeat' with_reducible first
    | refine State.count_kept ?_ (by omega) | (refine kept_mk (by assumption) ?_ ?_ ?_ ?_ ?_ ?_ ?_ <;> exact rfl)

theorem State.cmpAllFenced_kept {z : State} {s : State} (hs : z.Kept s) : z.Kept (State.cmpAllFenced s) := by
  unfold State.cmpAllFenced
  repeat' with_reducible first
    | intro _ | split
    | (refine kept_mk ?_ ?_ ?_ ?_ ?_ ?_ ?_ ?_ <;> first | exact rfl | (refine kept_mk (by assumption) ?_ ?_ ?_ ?_ ?_ ?_ ?_ <;> exact rfl) | apply State.event_kept | apply State.endCmd_kept | apply kept_ite | refine kept_foldl ?_ ?_ | refine kept_foldl_fst ?_ ?_ | refine kept_foldl_snd ?_ ?_)

theorem State.fenceCmp_kept {z : State} {s : State} {k' : Nat} (hs : z.Kept s) : z.Kept (State.fenceCmp s k') := by
  unfold State.fenceCmp
  repeat' with_reducible first
    | apply State.cmpAllFenced_kept | apply State.modEngine_kept | split
    | (refine kept_mk (by assumption) ?_ ?_ ?_ ?_ ?_ ?_ ?_ <;> exact rfl)

theorem State.fenceLane_kept {z : State} {s : State} {k' : Nat} (hs : z.Kept s) : z.Kept (State.fenceLane s k') := by
  unfold State.fenceLane
  repeat' with_reducible first
    | apply State.endCmds_kept | apply kept_ite | (refine kept_mk (by assumption) ?_ ?_ ?_ ?_ ?_ ?_ ?_ <;> exact rfl)

theorem State.fenceXtp_kept {z : State} {s : State} (hs : z.Kept s) : z.Kept (State.fenceXtp s) := by
  unfold State.fenceXtp
  repeat' with_reducible first
    | (refine kept_mk (by assumption) ?_ ?_ ?_ ?_ ?_ ?_ ?_ <;> exact rfl)

theorem State.portDown_kept {z : State} {s : State} {r : Nat → State → State} {n : Fin 5} {c : DownCause} (hs : z.Kept s) (hr : ∀ n s, z.Kept s → z.Kept (r n s)) : z.Kept (State.portDown s r n c) := by
  unfold State.portDown
  repeat' with_reducible first
    | intro _
    | (refine kept_mk ?_ ?_ ?_ ?_ ?_ ?_ ?_ ?_ <;> first | exact rfl | (refine kept_mk (by assumption) ?_ ?_ ?_ ?_ ?_ ?_ ?_ <;> exact rfl) | apply State.event_kept | apply State.modPort_kept | apply State.forward_kept | apply State.floodLsa_kept | apply hr | apply kept_ite | refine kept_foldl ?_ ?_ | refine kept_foldl_fst ?_ ?_ | refine kept_foldl_snd ?_ ?_)

theorem State.endSilently_kept {z : State} {s : State} (hs : z.Kept s) : z.Kept (State.endSilently s) := by
  unfold State.endSilently
  repeat' with_reducible first
    | assumption | apply State.dropCmdUnit_kept | refine kept_foldl ?_ ?_
    | (extract_lets +onlyGivenNames -underBinder x; first | (refine kept_cut (x := x) ?_ ?_; intro hx; clear_value x; rotate_left; dsimp only [x]) | skip)
    | (refine kept_mk (by assumption) ?_ ?_ ?_ ?_ ?_ ?_ ?_ <;> exact rfl)

theorem State.disableQps_kept {z : State} {s : State} (hs : z.Kept s) : z.Kept (State.disableQps s) := by
  unfold State.disableQps
  repeat' with_reducible first
    | assumption | apply State.endSilently_kept
    | (extract_lets +onlyGivenNames -underBinder x; first | (refine kept_cut (x := x) ?_ ?_; intro hx; clear_value x; rotate_left; dsimp only [x]) | skip)
    | (refine kept_mk (by assumption) ?_ ?_ ?_ ?_ ?_ ?_ ?_ <;> exact rfl)

theorem State.fenceHqi_kept {z : State} {s : State} (hs : z.Kept s) : z.Kept (State.fenceHqi s) := by
  unfold State.fenceHqi
  repeat' with_reducible first
    | (refine kept_mk ?_ ?_ ?_ ?_ ?_ ?_ ?_ ?_ <;> first | exact rfl | (refine kept_mk (by assumption) ?_ ?_ ?_ ?_ ?_ ?_ ?_ <;> exact rfl) | apply State.disableQps_kept | apply State.event_kept)

theorem State.fenceUnit_kept {z s : State} {r : Raise} {u : Nat} (hs : z.Kept s)
    (hr : ∀ n s, z.Kept s → z.Kept (r n s)) : z.Kept (s.fenceUnit r u) := by
  unfold State.fenceUnit
  refine kept_ite hs (kept_ite (State.doStop_kept hs) ?_)
  have h1 : z.Kept { s with flt.fenced := s.flt.fenced ||| (1#64 <<< u) } := kept_upd hs rfl rfl rfl rfl rfl rfl rfl rfl
  generalize ({ s with flt.fenced := s.flt.fenced ||| (1#64 <<< u) } : State) = x at h1
  dsimp only
  refine kept_ite (State.modCtx_kept (State.modAct_kept (State.parkNow_kept h1))) (kept_ite (State.atbTo_kept (State.spinMode_kept
    (State.setReady_kept (kept_upd h1 rfl rfl rfl rfl rfl rfl rfl rfl))) hr) (kept_ite (State.atbTo_kept
    (kept_upd h1 rfl rfl rfl rfl rfl rfl rfl rfl) hr) (kept_ite (State.fenceCh_kept h1) (kept_ite (State.fenceCtx_kept h1)
    (kept_ite (kept_upd (State.cleanMap_kept h1) rfl rfl rfl rfl rfl rfl rfl rfl) (kept_ite (State.fenceCmp_kept h1) (kept_ite
    (kept_foldl h1 fun s k hs => State.fenceLane_kept hs) (kept_ite (State.fenceLane_kept h1) (kept_ite
    (State.fenceXtp_kept h1) (kept_ite ?_ (kept_ite (kept_foldl (kept_upd h1 rfl rfl rfl rfl rfl rfl rfl rfl)
    fun s k hs => State.portDown_kept hs hr) (kept_ite (kept_upd h1 rfl rfl rfl rfl rfl rfl rfl rfl) (kept_ite
    (State.fenceHqi_kept h1) (kept_ite (kept_upd h1 rfl rfl rfl rfl rfl rfl rfl rfl) h1))))))))))))))
  split
  · exact State.portDown_kept h1 hr
  · exact h1

theorem State.pullHandover_kept {z : State} {s : State} (hs : z.Kept s) : z.Kept (State.pullHandover s) := by
  unfold State.pullHandover
  repeat' with_reducible first
    | (refine kept_mk (by assumption) ?_ ?_ ?_ ?_ ?_ ?_ ?_ <;> exact rfl)

theorem State.applyClass_kept {z : State} {s : State} {r : Raise} {u : Nat} {c : Nat} (hs : z.Kept s) (hr : ∀ n s, z.Kept s → z.Kept (r n s)) : z.Kept (State.applyClass s r u c) := by
  unfold State.applyClass
  repeat' with_reducible first
    | assumption
    | (refine kept_mk ?_ ?_ ?_ ?_ ?_ ?_ ?_ ?_ <;> first | exact rfl | (refine kept_mk (by assumption) ?_ ?_ ?_ ?_ ?_ ?_ ?_ <;> exact rfl) | apply State.maskUnit_kept | apply State.fenceUnit_kept | apply State.pullHandover_kept | apply State.doStop_kept | apply hr | apply kept_ite)

theorem State.mergeRec_kept {z : State} {s : State} {r : Raise} {i : Nat} {n : Nat} {c : Nat} {rc : FRec} (hs : z.Kept s) (hr : ∀ n s, z.Kept s → z.Kept (r n s)) : z.Kept (State.mergeRec s r i n c rc) := by
  unfold State.mergeRec
  repeat' with_reducible first
    | assumption | apply State.applyClass_kept | apply State.eventSrc_kept | apply kept_ite
    | (refine kept_mk (by assumption) ?_ ?_ ?_ ?_ ?_ ?_ ?_ <;> exact rfl)

theorem State.openRec_kept {z : State} {s : State} {r : Raise} {i : Nat} {n : Nat} {c : Nat} (hs : z.Kept s) (hr : ∀ n s, z.Kept s → z.Kept (r n s)) : z.Kept (State.openRec s r i n c) := by
  unfold State.openRec
  repeat' with_reducible first
    | assumption | apply State.applyClass_kept | apply State.eventSrc_kept
    | (refine kept_mk (by assumption) ?_ ?_ ?_ ?_ ?_ ?_ ?_ <;> exact rfl)

theorem State.raiseOn_kept {z : State} {s : State} {r : Raise} {n : Nat} (hs : z.Kept s) (hr : ∀ n s, z.Kept s → z.Kept (r n s)) : z.Kept (State.raiseOn s r n) := by
  unfold State.raiseOn
  repeat' with_reducible first
    | assumption | apply State.markFault_kept | apply State.setPin_kept | apply State.mergeRec_kept
    | apply State.openRec_kept
    | (extract_lets +onlyGivenNames -underBinder x; first | (refine kept_cut (x := x) ?_ ?_; intro hx; clear_value x; rotate_left; dsimp only [x]) | skip)
    | split | (refine kept_mk (by assumption) ?_ ?_ ?_ ?_ ?_ ?_ ?_ <;> exact rfl)

theorem State.applyLatched_kept {z : State} {s : State} {r : Raise} (hs : z.Kept s) (hr : ∀ n s, z.Kept s → z.Kept (r n s)) : z.Kept (State.applyLatched s r) := by
  unfold State.applyLatched
  repeat' with_reducible first
    | intro _ | apply hr | refine kept_foldl ?_ ?_ | (refine kept_mk (by assumption) ?_ ?_ ?_ ?_ ?_ ?_ ?_ <;> exact rfl)

theorem State.readPage_kept {z : State} {s : State} (hs : z.Kept s) : z.Kept (State.readPage s) := by
  unfold State.readPage
  repeat' with_reducible first
    | apply State.hostRead_kept | apply kept_ite | (refine kept_mk (by assumption) ?_ ?_ ?_ ?_ ?_ ?_ ?_ <;> exact rfl)

theorem State.leaveDark_kept {z : State} {s : State} (hs : z.Kept s) : z.Kept (State.leaveDark s) := by
  unfold State.leaveDark
  repeat' with_reducible first
    | apply State.setReady_kept | apply State.readPage_kept | apply State.event_kept | apply kept_ite
    | (refine kept_mk (by assumption) ?_ ?_ ?_ ?_ ?_ ?_ ?_ <;> exact rfl)

theorem State.raise1_kept {z : State} {r : Raise} {n : Nat} {s : State} (hr : ∀ n s, z.Kept s → z.Kept (r n s)) (hs : z.Kept s) : z.Kept (State.raise1 r n s) := by
  unfold State.raise1
  repeat' with_reducible first
    | assumption
    | (refine kept_mk ?_ ?_ ?_ ?_ ?_ ?_ ?_ ?_ <;> first | exact rfl | (refine kept_mk (by assumption) ?_ ?_ ?_ ?_ ?_ ?_ ?_ <;> exact rfl) | apply State.raiseOn_kept | apply State.applyLatched_kept | apply State.leaveDark_kept | apply hr | apply kept_ite)

theorem raiseN_kept {z : State} {k n : Nat} {s : State} (hs : z.Kept s) : z.Kept (raiseN k n s) := by
  induction k generalizing n s with
  | zero => exact hs
  | succ k ih => exact State.raise1_kept (fun _ _ h => ih h) hs

theorem raise_kept {z : State} {a0 : Nat} {a1 : State} (ha1 : z.Kept a1) : z.Kept (raise a0 a1) := by
  unfold raise
  repeat' with_reducible first
    | assumption | apply raiseN_kept

theorem State.putFld_kept {z : State} {s : State} {off : Nat} {lsb : Nat} {w : Nat} {x' : Nat} (hs : z.Kept s) : z.Kept (State.putFld s off lsb w x') := by
  unfold State.putFld
  repeat' with_reducible first
    | (refine kept_mk (by assumption) ?_ ?_ ?_ ?_ ?_ ?_ ?_ <;> exact rfl)

theorem State.ledgerReq_kept {z : State} {s : State} {k' : Fin 16} (hs : z.Kept s) : z.Kept (State.ledgerReq s k') := by
  unfold State.ledgerReq
  repeat' with_reducible first
    | apply State.grantAll_kept | apply kept_ite | (refine kept_mk (by assumption) ?_ ?_ ?_ ?_ ?_ ?_ ?_ <;> exact rfl)

theorem State.askToken_kept {z : State} {s : State} (hs : z.Kept s) : z.Kept (State.askToken s) := by
  unfold State.askToken
  repeat' with_reducible first
    | apply State.ledgerReq_kept | apply State.e2eSend_kept | apply kept_ite
    | (refine kept_mk (by assumption) ?_ ?_ ?_ ?_ ?_ ?_ ?_ <;> exact rfl)

theorem State.dropped_kept {z : State} {s : State} {sev : Nat} (hs : z.Kept s) : z.Kept (State.dropped s sev) := by
  unfold State.dropped
  repeat' with_reducible first
    | refine State.count_kept ?_ (by omega) | (refine kept_mk (by assumption) ?_ ?_ ?_ ?_ ?_ ?_ ?_ <;> exact rfl)

theorem State.toRing_kept {z : State} {s : State} {e' : Ev} (hs : z.Kept s) : z.Kept (State.toRing s e') := by
  unfold State.toRing
  repeat' with_reducible first
    | apply State.dropped_kept | apply kept_ite | split
    | (refine kept_mk (by assumption) ?_ ?_ ?_ ?_ ?_ ?_ ?_ <;> exact rfl)

theorem State.auditSrc_kept {z : State} {s : State} {code : Nat} {sev : Nat} {src : Nat} {par : List Nat} (hs : z.Kept s) : z.Kept (State.auditSrc s code sev src par) := by
  unfold State.auditSrc
  repeat' with_reducible first
    | split
    | (refine kept_mk ?_ ?_ ?_ ?_ ?_ ?_ ?_ ?_ <;> first | exact rfl | (refine kept_mk (by assumption) ?_ ?_ ?_ ?_ ?_ ?_ ?_ <;> exact rfl) | apply State.toRing_kept | apply kept_ite)

theorem State.audit_kept {z : State} {s : State} {code : Nat} {sev : Nat} {par : List Nat} (hs : z.Kept s) : z.Kept (State.audit s code sev par) := by
  unfold State.audit
  repeat' with_reducible first
    | assumption | apply State.auditSrc_kept

theorem State.badField_kept {z : State} {s : State} {q : Fin 128} {t' : BitVec 16} {ofs : Nat} (hs : z.Kept s) : z.Kept (State.badField s q t' ofs) := by
  unfold State.badField
  repeat' with_reducible first
    | assumption | apply State.finish_kept

theorem State.toWaitToken_kept {z : State} {s : State} (hs : z.Kept s) : z.Kept (State.toWaitToken s) := by
  unfold State.toWaitToken
  repeat' with_reducible first
    | apply State.askToken_kept | apply State.spinMode_kept
    | (refine kept_mk (by assumption) ?_ ?_ ?_ ?_ ?_ ?_ ?_ <;> exact rfl)

theorem State.requestSpin_kept {z : State} {s : State} (hs : z.Kept s) : z.Kept (State.requestSpin s) := by
  unfold State.requestSpin
  repeat' with_reducible first
    | (refine kept_mk ?_ ?_ ?_ ?_ ?_ ?_ ?_ ?_ <;> first | exact rfl | (refine kept_mk (by assumption) ?_ ?_ ?_ ?_ ?_ ?_ ?_ <;> exact rfl) | apply State.spinMode_kept | apply State.toWaitToken_kept | apply kept_ite)

theorem State.dropWork_kept {z : State} {s : State} {w : Nat} (hs : z.Kept s) : z.Kept (State.dropWork s w) := by
  unfold State.dropWork
  repeat' with_reducible first
    | (refine kept_mk (by assumption) ?_ ?_ ?_ ?_ ?_ ?_ ?_ <;> exact rfl)

theorem State.brakeIfParked_kept {z : State} {s : State} (hs : z.Kept s) : z.Kept (State.brakeIfParked s) := by
  unfold State.brakeIfParked
  repeat' with_reducible first
    | assumption | apply State.spinMode_kept | apply kept_ite

theorem State.clearSpinReady_kept {z : State} {s : State} (hs : z.Kept s) : z.Kept (State.clearSpinReady s) := by
  unfold State.clearSpinReady
  repeat' with_reducible first
    | assumption | intro _ | apply State.setReady_kept | refine kept_foldl ?_ ?_

theorem State.closeRec_kept {z : State} {s : State} {i : Nat} (hs : z.Kept s) : z.Kept (State.closeRec s i) := by
  unfold State.closeRec
  repeat' with_reducible first
    | apply State.event_kept | split | (refine kept_mk (by assumption) ?_ ?_ ?_ ?_ ?_ ?_ ?_ <;> exact rfl)

theorem State.unpark_kept {z : State} {s : State} {n : Nat} (hs : z.Kept s) : z.Kept (State.unpark s n) := by
  unfold State.unpark
  repeat' with_reducible first
    | assumption | apply State.sendPark_kept | apply State.modAct_kept | apply kept_ite

theorem State.unparkFree_kept {z : State} {s : State} {n : Nat} (hs : z.Kept s) : z.Kept (State.unparkFree s n) := by
  unfold State.unparkFree
  repeat' with_reducible first
    | assumption | apply State.unpark_kept | apply State.modAct_kept | apply kept_ite

theorem State.restartPort_kept {z : State} {s : State} {n : Nat} (hs : z.Kept s) : z.Kept (State.restartPort s n) := by
  unfold State.restartPort
  repeat' with_reducible first
    | assumption | apply State.modPort_kept | apply kept_ite

theorem State.startSnapshot_kept {z : State} {s : State} (hs : z.Kept s) : z.Kept (State.startSnapshot s) := by
  unfold State.startSnapshot
  repeat' with_reducible first
    | intro _
    | (refine kept_mk ?_ ?_ ?_ ?_ ?_ ?_ ?_ ?_ <;> first | exact rfl | (refine kept_mk (by assumption) ?_ ?_ ?_ ?_ ?_ ?_ ?_ <;> exact rfl) | apply State.pairSend_kept | apply State.draw_kept | apply kept_ite | refine kept_foldl ?_ ?_ | refine kept_foldl_fst ?_ ?_ | refine kept_foldl_snd ?_ ?_)

theorem State.releaseUnit_kept {z : State} {s : State} {u : Nat} (hs : z.Kept s) : z.Kept (State.releaseUnit s u) := by
  unfold State.releaseUnit
  repeat' with_reducible first
    | intro _
    | (refine kept_mk ?_ ?_ ?_ ?_ ?_ ?_ ?_ ?_ <;> first | exact rfl | (refine kept_mk (by assumption) ?_ ?_ ?_ ?_ ?_ ?_ ?_ <;> exact rfl) | apply State.modAct_kept | apply State.unparkFree_kept | apply State.requestSpin_kept | apply State.modCtx_kept | apply State.cmpAllFenced_kept | apply State.modEngine_kept | apply State.restartPort_kept | apply State.startSnapshot_kept | apply kept_ite | refine kept_foldl ?_ ?_ | refine kept_foldl_fst ?_ ?_ | refine kept_foldl_snd ?_ ?_)

theorem State.endStop_kept {z : State} {s : State} (hs : z.Kept s) : z.Kept (State.endStop s) := by
  unfold State.endStop
  repeat' with_reducible first
    | apply State.unparkFree_kept | apply kept_ite | refine kept_foldl ?_ ?_
    | (refine kept_mk (by assumption) ?_ ?_ ?_ ?_ ?_ ?_ ?_ <;> exact rfl)

theorem State.clearStatus_kept {z : State} {s : State} {v : BitVec 128} (hs : z.Kept s) : z.Kept (State.clearStatus s v) := by
  unfold State.clearStatus
  repeat' with_reducible first
    | intro _ | apply State.closeRec_kept | apply raise_kept | apply State.releaseUnit_kept | apply State.setPin_kept
    | apply State.endStop_kept | apply kept_ite | refine kept_foldl ?_ ?_
    | (refine kept_mk (by assumption) ?_ ?_ ?_ ?_ ?_ ?_ ?_ <;> exact rfl)

theorem State.wakeData_kept {z : State} {s : State} (hs : z.Kept s) : z.Kept (State.wakeData s) := by
  unfold State.wakeData
  repeat' with_reducible first
    | assumption | intro _ | apply State.startData_kept | apply kept_ite | refine kept_foldl ?_ ?_

theorem State.hostFail_kept {z : State} {s : State} {c : Cmd} (hs : z.Kept s) : z.Kept (State.hostFail s c) := by
  unfold State.hostFail
  repeat' with_reducible first
    | assumption | apply State.eventSrc_kept | apply State.setW1c_kept | apply raise_kept | apply State.wakeData_kept
    | apply State.endCmd_kept

theorem State.modQp_kept {z : State} {s : State} {q : Nat} {f : Qp → Qp} (hs : z.Kept s) : z.Kept (State.modQp s q f) := by
  unfold State.modQp
  repeat' with_reducible first
    | (refine kept_mk (by assumption) ?_ ?_ ?_ ?_ ?_ ?_ ?_ <;> exact rfl)

theorem State.qpError_kept {z : State} {s : State} {q : Nat} {cause : Nat} {v : Nat} (hs : z.Kept s) : z.Kept (State.qpError s q cause v) := by
  unfold State.qpError
  repeat' with_reducible first
    | (refine kept_mk ?_ ?_ ?_ ?_ ?_ ?_ ?_ ?_ <;> first | exact rfl | (refine kept_mk (by assumption) ?_ ?_ ?_ ?_ ?_ ?_ ?_ <;> exact rfl) | apply State.modQp_kept | apply State.event_kept | apply State.setW1c_kept)

theorem State.fetchQp_kept {z : State} {s : State} {q : Fin 128} (hs : z.Kept s) : z.Kept (State.fetchQp s q) := by
  unfold State.fetchQp
  repeat' with_reducible first
    | (refine kept_mk ?_ ?_ ?_ ?_ ?_ ?_ ?_ ?_ <;> first | exact rfl | (refine kept_mk (by assumption) ?_ ?_ ?_ ?_ ?_ ?_ ?_ <;> exact rfl) | apply State.modQp_kept | apply State.hostRead_kept | apply kept_ite)

theorem State.fetchAll_kept {z : State} {s : State} (hs : z.Kept s) : z.Kept (State.fetchAll s) := by
  unfold State.fetchAll
  repeat' with_reducible first
    | assumption | intro _ | apply State.fetchQp_kept | refine kept_foldl ?_ ?_ | split

theorem State.endSessions_kept {z : State} {s : State} {p : Session → Bool} {cause : Nat} (hs : z.Kept s) : z.Kept (State.endSessions s p cause) := by
  unfold State.endSessions
  repeat' with_reducible first
    | assumption | intro _ | apply State.audit_kept | refine kept_foldl ?_ ?_
    | (extract_lets +onlyGivenNames -underBinder x; first | (refine kept_cut (x := x) ?_ ?_; intro hx; clear_value x; rotate_left; dsimp only [x]) | skip)
    | (refine kept_mk (by assumption) ?_ ?_ ?_ ?_ ?_ ?_ ?_ <;> exact rfl)

theorem State.spinStop_kept {z : State} {s : State} {r : Raise} (hs : z.Kept s) (hr : ∀ n s, z.Kept s → z.Kept (r n s)) : z.Kept (State.spinStop s r) := by
  unfold State.spinStop
  repeat' with_reducible first
    | assumption
    | (refine kept_mk ?_ ?_ ?_ ?_ ?_ ?_ ?_ ?_ <;> first | exact rfl | (refine kept_mk (by assumption) ?_ ?_ ?_ ?_ ?_ ?_ ?_ <;> exact rfl) | apply State.spinMode_kept | apply State.lockEnds_kept | apply State.parkAll_kept | apply State.giveToken_kept | apply State.brakeIfParked_kept | apply hr | apply kept_ite)

theorem State.fillWay_kept {z : State} {s : State} {line : Nat} {w : Nat} {dirty : Bool} (hs : z.Kept s) : z.Kept (State.fillWay s line w dirty) := by
  unfold State.fillWay
  repeat' with_reducible first
    | assumption | refine State.count_kept ?_ (by omega) | apply State.touchWay_kept | apply State.setWay_kept | split

theorem State.modRange_kept {z : State} {s : State} {r : Nat} {f : KeyRange → KeyRange} (hs : z.Kept s) : z.Kept (State.modRange s r f) := by
  unfold State.modRange
  repeat' with_reducible first
    | (refine kept_mk (by assumption) ?_ ?_ ?_ ?_ ?_ ?_ ?_ <;> exact rfl)

theorem State.interrupt_kept {z : State} {s : State} {v : Byte} (hs : z.Kept s) : z.Kept (State.interrupt s v) := by
  unfold State.interrupt
  repeat' with_reducible first
    | assumption | apply State.send_kept | apply State.toGw_kept | apply kept_ite

theorem State.mapAlloc_kept {z : State} {s : State} {line : Nat} {dirty : Bool} (hs : z.Kept s) : z.Kept (State.mapAlloc s line dirty) := by
  unfold State.mapAlloc
  repeat' with_reducible first
    | assumption | apply State.fillWay_kept | split

theorem State.mapClean_kept {z : State} {s : State} {line : Nat} {inv : Bool} (hs : z.Kept s) : z.Kept (State.mapClean s line inv) := by
  unfold State.mapClean
  repeat' with_reducible first
    | assumption | refine State.count_kept ?_ (by omega) | apply State.setWay_kept | split

theorem State.partnerLost_kept {z : State} {s : State} {r : Raise} {cause : Nat} (hs : z.Kept s) (hr : ∀ n s, z.Kept s → z.Kept (r n s)) : z.Kept (State.partnerLost s r cause) := by
  unfold State.partnerLost
  repeat' with_reducible first
    | apply State.event_kept | apply State.setW1c_kept | apply hr | apply kept_ite
    | (refine kept_mk (by assumption) ?_ ?_ ?_ ?_ ?_ ?_ ?_ <;> exact rfl)

theorem State.spinFail_kept {z : State} {s : State} {r : Raise} {cause : Nat} (hs : z.Kept s) (hr : ∀ n s, z.Kept s → z.Kept (r n s)) : z.Kept (State.spinFail s r cause) := by
  unfold State.spinFail
  repeat' with_reducible first
    | assumption | apply State.spinStop_kept
    | (extract_lets +onlyGivenNames -underBinder x; first | (refine kept_cut (x := x) ?_ ?_; intro hx; clear_value x; rotate_left; dsimp only [x]) | skip)
    | (refine kept_mk (by assumption) ?_ ?_ ?_ ?_ ?_ ?_ ?_ <;> exact rfl)

theorem State.toAngle_kept {z : State} {s : State} {a1 : Nat} (hs : z.Kept s) : z.Kept (State.toAngle s a1) := by
  unfold State.toAngle
  repeat' with_reducible first
    | (refine kept_mk (by assumption) ?_ ?_ ?_ ?_ ?_ ?_ ?_ <;> exact rfl)

theorem State.toLog_kept {z : State} {s : State} {e' : Ev} (hs : z.Kept s) : z.Kept (State.toLog s e') := by
  unfold State.toLog
  repeat' with_reducible first
    | apply State.dropped_kept | split | (refine kept_mk (by assumption) ?_ ?_ ?_ ?_ ?_ ?_ ?_ <;> exact rfl)

end Sys2Proof.Machine
end

