-- ==== Sys2Proof/Laws/KeptStream.lean ====
section
/-! SUPPORT. What each operation and each meaning keeps (`State.Kept`): the journal, zone streams, commits, reads and recovery. One lemma per definition,
from those of the definitions it calls. -/
namespace Sys2Proof.Machine

open Sys2Proof

theorem State.startLanes_kept {z : State} {s : State} (hs : z.Kept s) : z.Kept (State.startLanes s) := by
  unfold State.startLanes
  repeat' with_reducible first
    | intro _ | refine kept_foldl ?_ ?_ | split | (refine kept_mk (by assumption) ?_ ?_ ?_ ?_ ?_ ?_ ?_ <;> exact rfl)

theorem State.queueUnit_kept {z : State} {s : State} {z' : Nat} {sbi : Nat} {dec : Bool} (hs : z.Kept s) : z.Kept (State.queueUnit s z' sbi dec) := by
  unfold State.queueUnit
  repeat' with_reducible first
    | apply State.startLanes_kept | (refine kept_mk (by assumption) ?_ ?_ ?_ ?_ ?_ ?_ ?_ <;> exact rfl)

theorem State.fillData_kept {z : State} {s : State} {u : CUnit} {l : List Byte} (hs : z.Kept s) : z.Kept (State.fillData s u l) := by
  unfold State.fillData
  repeat' with_reducible first
    | apply State.queueUnit_kept
    | (extract_lets +onlyGivenNames -underBinder x; first | (refine kept_cut (x := x) ?_ ?_; intro hx; clear_value x; rotate_left; dsimp only [x]) | clear_value x | skip)
    | split | (refine kept_mk (by assumption) ?_ ?_ ?_ ?_ ?_ ?_ ?_ <;> exact rfl)

theorem State.newBlk_kept {z : State} {s : State} {u : CUnit} {loc : Bool} {link : Option Nat} {raw : Bool} {chunk : Nat} {data : List Byte} (hs : z.Kept s) : z.Kept (State.newBlk s u loc link raw chunk data) := by
  unfold State.newBlk
  repeat' with_reducible first
    | apply State.modZone_kept | (refine kept_mk (by assumption) ?_ ?_ ?_ ?_ ?_ ?_ ?_ <;> exact rfl)

theorem State.modUnit_kept {z : State} {s : State} {cs : Word} {f : CUnit → CUnit} (hs : z.Kept s) : z.Kept (State.modUnit s cs f) := by
  unfold State.modUnit
  repeat' with_reducible first
    | (refine kept_mk (by assumption) ?_ ?_ ?_ ?_ ?_ ?_ ?_ <;> exact rfl)

theorem State.putLocator_kept {z : State} {s : State} {u : CUnit} (hs : z.Kept s) : z.Kept (State.putLocator s u) := by
  unfold State.putLocator
  repeat' with_reducible first
    | assumption | apply State.newBlk_kept | apply State.modUnit_kept | apply State.queueUnit_kept

theorem State.endLayout_kept {z : State} {s : State} {u : CUnit} (hs : z.Kept s) : z.Kept (State.endLayout s u) := by
  unfold State.endLayout
  repeat' with_reducible first
    | assumption | apply State.modZone_kept | apply State.fillData_kept | apply State.putLocator_kept
    | apply State.modUnit_kept | split

theorem State.putBytes_kept {z : State} {s : State} {u : CUnit} {chunk : Nat} {raw : Bool} {a4 : Nat} {a5 : List Byte} (hs : z.Kept s) : z.Kept (State.putBytes s u chunk raw a4 a5) := by
  induction a4 generalizing s a5
  case' succ => rename_i n ih
  all_goals unfold State.putBytes
  all_goals repeat' with_reducible first
    | assumption | apply State.fillData_kept | apply State.newBlk_kept | apply State.modZone_kept | apply ih
    | apply kept_ite

theorem State.packUnit_kept {z : State} {s : State} {cs : Word} {a2 : Nat} (hs : z.Kept s) : z.Kept (State.packUnit s cs a2) := by
  induction a2 generalizing s 
  case' succ => rename_i n ih
  all_goals unfold State.packUnit
  all_goals repeat' with_reducible first
    | split
    | (refine kept_mk ?_ ?_ ?_ ?_ ?_ ?_ ?_ ?_ <;> first | exact rfl | (refine kept_mk (by assumption) ?_ ?_ ?_ ?_ ?_ ?_ ?_ <;> exact rfl) | apply State.endLayout_kept | apply State.modUnit_kept | apply State.putBytes_kept | apply State.putLocator_kept | apply ih | apply kept_ite)

theorem State.packAll_kept {z : State} {s : State} (hs : z.Kept s) : z.Kept (State.packAll s) := by
  unfold State.packAll
  repeat' with_reducible first
    | assumption | intro _ | apply State.packUnit_kept | apply kept_ite | refine kept_foldl ?_ ?_

theorem State.rltFree_kept {z : State} {s : State} {tgn : Nat} (hs : z.Kept s) : z.Kept (State.rltFree s tgn) := by
  unfold State.rltFree
  repeat' with_reducible first
    | apply kept_ite | split | (refine kept_mk (by assumption) ?_ ?_ ?_ ?_ ?_ ?_ ?_ <;> exact rfl)

theorem State.rltWrite_kept {z : State} {s : State} {act : Nat} (hs : z.Kept s) : z.Kept (State.rltWrite s act) := by
  unfold State.rltWrite
  repeat' with_reducible first
    | (refine kept_mk (by assumption) ?_ ?_ ?_ ?_ ?_ ?_ ?_ <;> exact rfl)

theorem State.enterStage_kept {z : State} {s : State} {a1 : Nat} {c : Nat} {n : Nat} (hs : z.Kept s) : z.Kept (State.enterStage s a1 c n) := by
  unfold State.enterStage
  repeat' with_reducible first
    | assumption | intro _ | apply State.rltFree_kept | apply State.rltWrite_kept | refine kept_foldl ?_ ?_
    | (extract_lets +onlyGivenNames -underBinder x; first | (refine kept_cut (x := x) ?_ ?_; intro hx; clear_value x; rotate_left; dsimp only [x]) | skip)
    | split

theorem State.unitDone_kept {z : State} {s : State} {cs : Word} (hs : z.Kept s) : z.Kept (State.unitDone s cs) := by
  unfold State.unitDone
  repeat' with_reducible first
    | assumption | apply State.finish_kept | split

theorem State.formConv_kept {z : State} {s : State} {u : CUnit} (hs : z.Kept s) : z.Kept (State.formConv s u) := by
  unfold State.formConv
  repeat' with_reducible first
    | intro _
    | (refine kept_mk ?_ ?_ ?_ ?_ ?_ ?_ ?_ ?_ <;> first | exact rfl | (refine kept_mk (by assumption) ?_ ?_ ?_ ?_ ?_ ?_ ?_ <;> exact rfl) | apply State.modUnit_kept | apply State.enterStage_kept | refine State.count_kept ?_ (by omega) | apply State.queueUnit_kept | apply State.unitDone_kept | apply kept_ite | refine kept_foldl ?_ ?_)

theorem State.startEngines_kept {z : State} {s : State} (hs : z.Kept s) : z.Kept (State.startEngines s) := by
  unfold State.startEngines
  repeat' with_reducible first
    | intro _ | apply State.modEngine_kept | apply kept_ite | refine kept_foldl ?_ ?_ | split
    | (refine kept_mk (by assumption) ?_ ?_ ?_ ?_ ?_ ?_ ?_ <;> exact rfl)

theorem State.forceRaw_kept {z : State} {s : State} (hs : z.Kept s) : z.Kept (State.forceRaw s) := by
  unfold State.forceRaw
  repeat' with_reducible first
    | refine State.count_kept ?_ (by omega) | apply State.setW1c_kept | apply kept_ite
    | (refine kept_mk (by assumption) ?_ ?_ ?_ ?_ ?_ ?_ ?_ <;> exact rfl)

theorem State.formZone_kept {z : State} {s : State} {u : CUnit} (hs : z.Kept s) : z.Kept (State.formZone s u) := by
  unfold State.formZone
  repeat' with_reducible first
    | apply State.modUnit_kept | apply State.modZone_kept | refine State.count_kept ?_ (by omega)
    | apply State.startEngines_kept | apply State.forceRaw_kept | apply State.unitDone_kept | split
    | (refine kept_mk (by assumption) ?_ ?_ ?_ ?_ ?_ ?_ ?_ <;> exact rfl)

theorem State.formUnits_kept {z : State} {s : State} (hs : z.Kept s) : z.Kept (State.formUnits s) := by
  unfold State.formUnits
  repeat' with_reducible first
    | assumption | intro _ | apply State.formConv_kept | apply State.formZone_kept | apply kept_ite
    | refine kept_foldl ?_ ?_

theorem State.modGroup_kept {z : State} {s : State} {z' : Nat} {tgn : Word} {f : ZGroup → ZGroup} (hs : z.Kept s) : z.Kept (State.modGroup s z' tgn f) := by
  unfold State.modGroup
  repeat' with_reducible first
    | assumption | apply State.modZone_kept

theorem State.closeGroup_kept {z : State} {s : State} {z' : Nat} (hs : z.Kept s) : z.Kept (State.closeGroup s z') := by
  unfold State.closeGroup
  repeat' with_reducible first
    | intro _ | split
    | (refine kept_mk ?_ ?_ ?_ ?_ ?_ ?_ ?_ ?_ <;> first | exact rfl | (refine kept_mk (by assumption) ?_ ?_ ?_ ?_ ?_ ?_ ?_ <;> exact rfl) | apply State.xtpToggle_kept | apply State.modGroup_kept | apply kept_ite | refine kept_foldl ?_ ?_)

theorem State.startCkpt_kept {z : State} {s : State} (hs : z.Kept s) : z.Kept (State.startCkpt s) := by
  unfold State.startCkpt
  repeat' with_reducible first
    | apply kept_ite | (refine kept_mk (by assumption) ?_ ?_ ?_ ?_ ?_ ?_ ?_ <;> exact rfl)

theorem State.putRec_kept {z : State} {s : State} {r : JRec} (hs : z.Kept s) : z.Kept (State.putRec s r) := by
  unfold State.putRec
  repeat' with_reducible first
    | apply State.mirror_kept | refine State.count_kept ?_ (by omega) | apply State.startCkpt_kept | apply kept_ite
    | (refine kept_mk (by assumption) ?_ ?_ ?_ ?_ ?_ ?_ ?_ <;> exact rfl)

theorem State.takeGroup_kept {z s : State} {v first : Nat} (hs : z.Kept s) : ∀ t, s.takeGroup v first = some t → z.Kept t := by
  intro t e
  unfold State.takeGroup at e
  dsimp only at e
  split at e
  · cases e
  · obtain ⟨_, e⟩ := Option.ite_none_left_eq_some.mp e
    · obtain ⟨_, e⟩ := Option.ite_none_left_eq_some.mp e
      · have h1 : ∀ x : State, z.Kept x → ∀ f y r, z.Kept (State.putRec { x.modZone v f with zon.fill := y } r) :=
          fun x h f y r => State.putRec_kept (kept_upd (s := x.modZone v f) (State.modZone_kept h) rfl rfl rfl rfl rfl rfl rfl rfl)
        rw [← Option.some.inj e]
        refine kept_ite (State.event_kept (State.setW1c_kept (h1 _ ?_ _ _ _))) (h1 _ ?_ _ _ _) <;>
          (split; exact State.takeAcc_kept hs; exact hs)

theorem State.layStream_kept {z : State} {s : State} {z' : Nat} {a2 : Nat} (hs : z.Kept s) : z.Kept (State.layStream s z' a2) := by
  induction a2 generalizing s 
  case' succ => rename_i n ih
  all_goals unfold State.layStream
  all_goals repeat' with_reducible first
    | assumption | apply State.closeGroup_kept | refine State.takeGroup_kept ?_ _ (by assumption) | apply ih
    | apply kept_ite | split

theorem State.wakeIdle_kept {z : State} {s : State} (hs : z.Kept s) : z.Kept (State.wakeIdle s) := by
  unfold State.wakeIdle
  repeat' with_reducible first
    | apply State.floodLsa_kept | apply State.setReady_kept | apply State.event_kept | apply kept_ite
    | (refine kept_mk (by assumption) ?_ ?_ ?_ ?_ ?_ ?_ ?_ <;> exact rfl)

theorem State.addWork_kept {z : State} {s : State} {w : Work} (hs : z.Kept s) : z.Kept (State.addWork s w) := by
  unfold State.addWork
  repeat' with_reducible first
    | apply State.wakeIdle_kept | (refine kept_mk (by assumption) ?_ ?_ ?_ ?_ ?_ ?_ ?_ <;> exact rfl)

theorem State.makeWorks_kept {z : State} {s : State} (hs : z.Kept s) : z.Kept (State.makeWorks s) := by
  unfold State.makeWorks
  repeat' with_reducible first
    | assumption | intro _ | apply State.addWork_kept | refine kept_foldl ?_ ?_ | split

theorem State.finalise_kept {z : State} {s : State} {ch : Option Nat} (hs : z.Kept s) : z.Kept (State.finalise s ch) := by
  unfold State.finalise
  repeat' with_reducible first
    | assumption | intro _ | apply State.xtpToggle_kept | apply State.modDma_kept | refine kept_foldl ?_ ?_
    | (extract_lets +onlyGivenNames -underBinder x; first | (refine kept_cut (x := x) ?_ ?_; intro hx; clear_value x; rotate_left; dsimp only [x]) | skip)
    | split | (refine kept_mk (by assumption) ?_ ?_ ?_ ?_ ?_ ?_ ?_ <;> exact rfl)

theorem State.pumpWrites_kept {z : State} {s : State} {ch : Option Nat} (hs : z.Kept s) : z.Kept (State.pumpWrites s ch) := by
  unfold State.pumpWrites
  repeat' with_reducible first
    | assumption | intro _ | apply State.packAll_kept | apply State.formUnits_kept | apply State.layStream_kept
    | apply State.startEngines_kept | apply State.makeWorks_kept | apply State.finalise_kept | refine kept_foldl ?_ ?_

theorem State.addCopy_kept {z : State} {s : State} {b : Blk} (hs : z.Kept s) : z.Kept (State.addCopy s b) := by
  unfold State.addCopy
  repeat' with_reducible first
    | apply State.pumpWrites_kept | apply State.modZone_kept
    | (refine kept_mk (by assumption) ?_ ?_ ?_ ?_ ?_ ?_ ?_ <;> exact rfl)

theorem State.addRecRead_kept {z : State} {s : State} {e' : RecEnt} (hs : z.Kept s) : z.Kept (State.addRecRead s e') := by
  unfold State.addRecRead
  repeat' with_reducible first
    | assumption | apply State.addWork_kept

theorem State.touchIdx_kept {z : State} {s : State} {z' : Nat} (hs : z.Kept s) : z.Kept (State.touchIdx s z') := by
  unfold State.touchIdx
  repeat' with_reducible first
    | (refine kept_mk (by assumption) ?_ ?_ ?_ ?_ ?_ ?_ ?_ <;> exact rfl)

theorem State.takeIdx_kept {z s : State} {v : Nat} (hs : z.Kept s) : z.Kept (s.takeIdx v) := by
  unfold State.takeIdx
  dsimp only
  split
  · exact State.touchIdx_kept hs
  · split
    · exact State.touchIdx_kept (State.modZone_kept hs)
    · split
      · exact hs
      · rename_i w _
        have h1 := State.modZone_kept (z' := w) (f := fun x => { x with idx := none, locs := [] }) hs
        exact State.touchIdx_kept (State.modZone_kept (kept_upd h1 rfl rfl rfl rfl rfl rfl rfl rfl))

theorem State.needIdx_kept {z : State} {s : State} {z' : Nat} (hs : z.Kept s) : z.Kept (State.needIdx s z') := by
  unfold State.needIdx
  repeat' with_reducible first
    | (refine kept_mk ?_ ?_ ?_ ?_ ?_ ?_ ?_ ?_ <;> first | exact rfl | (refine kept_mk (by assumption) ?_ ?_ ?_ ?_ ?_ ?_ ?_ <;> exact rfl) | apply State.touchIdx_kept | apply State.takeIdx_kept | apply kept_ite)

theorem State.openZone_kept {z : State} {s : State} {z' : Nat} {a2 : Fin 4} {key : Byte} (hs : z.Kept s) : z.Kept (State.openZone s z' a2 key) := by
  unfold State.openZone
  repeat' with_reducible first
    | assumption | apply State.needIdx_kept | apply State.zoneAccess_kept | apply State.modZone_kept

theorem State.emptyZone_kept {z : State} {s : State} {z' : Nat} {dest : ZState} (hs : z.Kept s) : z.Kept (State.emptyZone s z' dest) := by
  unfold State.emptyZone
  repeat' with_reducible first
    | intro _
    | (refine kept_mk ?_ ?_ ?_ ?_ ?_ ?_ ?_ ?_ <;> first | exact rfl | (refine kept_mk (by assumption) ?_ ?_ ?_ ?_ ?_ ?_ ?_ <;> exact rfl) | apply State.dropAcc_kept | apply State.zoneAccess_kept | apply State.modZone_kept | apply State.rltFree_kept | apply State.rltWrite_kept | refine kept_foldl ?_ ?_ | refine kept_foldl_fst ?_ ?_ | refine kept_foldl_snd ?_ ?_)

theorem State.pumpParity_kept {z : State} {s : State} (hs : z.Kept s) : z.Kept (State.pumpParity s) := by
  unfold State.pumpParity
  repeat' with_reducible first
    | intro _ | apply State.addWork_kept | apply State.dropAcc_kept | apply State.modGroup_kept | apply kept_ite
    | refine kept_foldl ?_ ?_ | (refine kept_mk (by assumption) ?_ ?_ ?_ ?_ ?_ ?_ ?_ <;> exact rfl)

theorem State.leaveOpen_kept {z : State} {s : State} {z' : Nat} {dest : ZState} (hs : z.Kept s) : z.Kept (State.leaveOpen s z' dest) := by
  unfold State.leaveOpen
  repeat' with_reducible first
    | assumption | apply State.closeGroup_kept | apply State.pumpParity_kept | apply State.zoneAccess_kept
    | apply State.modZone_kept

theorem State.manageOne_kept {z : State} {s : State} {act : Nat} {z' : Nat} (hs : z.Kept s) : z.Kept (State.manageOne s act z') := by
  unfold State.manageOne
  repeat' with_reducible first
    | assumption | apply State.emptyZone_kept | apply State.leaveOpen_kept | apply State.modZone_kept | split

theorem State.manageTry_kept {z : State} {s : State} {c : Cmd} (hs : z.Kept s) : z.Kept (State.manageTry s c) := by
  unfold State.manageTry
  repeat' with_reducible first
    | assumption | intro _ | apply State.modCmd_kept | apply State.manageOne_kept | apply State.finish_kept | apply kept_ite
    | refine kept_foldl ?_ ?_

theorem State.flushTry_kept {z : State} {s : State} {c : Cmd} (hs : z.Kept s) : z.Kept (State.flushTry s c) := by
  unfold State.flushTry
  repeat' with_reducible first
    | assumption | apply State.finish_kept | apply State.modCmd_kept | apply kept_ite | split

theorem State.wakeWaiters_kept {z : State} {s : State} (hs : z.Kept s) : z.Kept (State.wakeWaiters s) := by
  unfold State.wakeWaiters
  repeat' with_reducible first
    | assumption | intro _ | apply State.flushTry_kept | apply State.manageTry_kept | apply kept_ite
    | refine kept_foldl ?_ ?_

theorem State.rltFull_kept {z : State} {s : State} (hs : z.Kept s) : z.Kept (State.rltFull s) := by
  unfold State.rltFull
  repeat' with_reducible first
    | assumption | apply State.event_kept | apply State.setW1c_kept

theorem State.rltAdd_kept {z : State} {s : State} {e' : RltEnt} (hs : z.Kept s) : z.Kept (State.rltAdd s e').1 := by
  unfold State.rltAdd
  repeat' with_reducible first
    | assumption | apply State.rltFull_kept | apply State.event_kept | apply State.setW1c_kept
    | (extract_lets +onlyGivenNames -underBinder x; first | (refine kept_cut (x := x) ?_ ?_; intro hx; clear_value x; rotate_left; dsimp only [x]) | clear_value x | skip)
    | split | (refine kept_mk (by assumption) ?_ ?_ ?_ ?_ ?_ ?_ ?_ <;> exact rfl)
theorem State.rltAdd_keptE {z : State} {s : State} {e' : RltEnt} {t : State} {o : Bool} (e : State.rltAdd s e' = (t, o)) (hs : z.Kept s) : z.Kept t := by
  have k := State.rltAdd_kept (z := z) (s := s) (e' := e') hs
  rw [e] at k; exact k

theorem State.rebuiltPass_kept {z : State} {s : State} {ps : List (Nat × Nat)} (hs : z.Kept s) : z.Kept (State.rebuiltPass s ps) := by
  unfold State.rebuiltPass
  repeat' with_reducible first
    | intro _ | apply State.event_kept | apply State.rltAdd_kept | apply kept_ite | refine kept_foldl ?_ ?_
    | (refine kept_mk (by assumption) ?_ ?_ ?_ ?_ ?_ ?_ ?_ <;> exact rfl)

theorem State.failChunk_kept {z : State} {s : State} {c : Cmd} {k' : Nat × Nat} {rank : Nat} (hs : z.Kept s) : z.Kept (State.failChunk s c k' rank) := by
  unfold State.failChunk
  repeat' with_reducible first
    | assumption | apply State.modCmd_kept

theorem State.endChunk_kept {z : State} {s : State} {c : Cmd} {k' : Nat × Nat} {e' : ChunkEnd} (hs : z.Kept s) : z.Kept (State.endChunk s c k' e') := by
  unfold State.endChunk
  repeat' with_reducible first
    | assumption | apply State.rebuiltPass_kept | apply State.modCmd_kept | apply State.event_kept
    | apply State.failChunk_kept | apply State.setW1c_kept
    | (extract_lets +onlyGivenNames -underBinder x; first | (refine kept_cut (x := x) ?_ ?_; intro hx; clear_value x; rotate_left; dsimp only [x]) | skip)
    | split | (refine kept_mk (by assumption) ?_ ?_ ?_ ?_ ?_ ?_ ?_ <;> exact rfl)

theorem State.pumpChunk_kept {z : State} {s : State} {c : Cmd} {k' : Nat × Nat} (hs : z.Kept s) : z.Kept (State.pumpChunk s c k') := by
  unfold State.pumpChunk
  repeat' with_reducible first
    | intro _ | apply State.addWork_kept | apply State.endChunk_kept | apply State.endCmd_kept
    | apply State.startEngines_kept | apply kept_ite | refine kept_foldl ?_ ?_ | split
    | (refine kept_mk (by assumption) ?_ ?_ ?_ ?_ ?_ ?_ ?_ <;> exact rfl)

theorem State.tidyPlain_kept {z : State} {s : State} (hs : z.Kept s) : z.Kept (State.tidyPlain s) := by
  unfold State.tidyPlain
  repeat' with_reducible first
    | (refine kept_mk (by assumption) ?_ ?_ ?_ ?_ ?_ ?_ ?_ <;> exact rfl)

theorem State.endRead_kept {z : State} {s : State} {c : Cmd} (hs : z.Kept s) : z.Kept (State.endRead s c) := by
  unfold State.endRead
  repeat' with_reducible first
    | split
    | (refine kept_mk ?_ ?_ ?_ ?_ ?_ ?_ ?_ ?_ <;> first | exact rfl | (refine kept_mk (by assumption) ?_ ?_ ?_ ?_ ?_ ?_ ?_ <;> exact rfl) | apply State.tidyPlain_kept | apply State.draw_kept | apply State.reply_kept | refine State.count_kept ?_ (by omega) | apply State.finish_kept | apply State.modCmd_kept | apply State.e2eSend_kept | apply State.wakeWaiters_kept | apply State.withdrawUnit_kept | apply State.pumpWrites_kept | apply State.modZone_kept | apply kept_ite)

theorem State.pumpRead_kept {z s : State} {q : Fin 128} {t : BitVec 16} (hs : z.Kept s) : z.Kept (s.pumpRead q t) := by
  unfold State.pumpRead
  split
  · exact hs
  · rename_i c _
    refine kept_ite hs (kept_ite hs (kept_ite ?_ ?_))
    · split
      · exact State.wakeWaiters_kept (State.event_kept (State.finish_kept (State.withdrawUnit_kept hs)))
      · exact hs
    · have h1 : z.Kept ((s.mediaChunks c).foldl (fun s k => match s.cmd? q.val t with
          | some c => s.pumpChunk c k
          | none => s) s) := by
        refine kept_foldl hs fun s k hs => ?_
        split
        · exact State.pumpChunk_kept hs
        · exact hs
      generalize (s.mediaChunks c).foldl (fun s k => match s.cmd? q.val t with
        | some c => s.pumpChunk c k
        | none => s) s = x at h1
      dsimp only
      split
      · exact h1
      · exact kept_ite (State.endRead_kept h1) h1

theorem State.pumpReads_kept {z : State} {s : State} (hs : z.Kept s) : z.Kept (State.pumpReads s) := by
  unfold State.pumpReads
  repeat' with_reducible first
    | assumption | intro _ | apply State.pumpRead_kept | refine kept_foldl ?_ ?_

theorem State.applyConv_kept {z : State} {s : State} {u : CUnit} (hs : z.Kept s) : z.Kept (State.applyConv s u) := by
  unfold State.applyConv
  repeat' with_reducible first
    | (refine kept_mk ?_ ?_ ?_ ?_ ?_ ?_ ?_ ?_ <;> first | exact rfl | (refine kept_mk (by assumption) ?_ ?_ ?_ ?_ ?_ ?_ ?_ <;> exact rfl) | apply State.withdrawWork_kept | apply State.makeWorks_kept | apply State.modUnit_kept)

theorem State.applyZone_kept {z : State} {s : State} {u : CUnit} {r : JRec} (hs : z.Kept s) : z.Kept (State.applyZone s u r) := by
  unfold State.applyZone
  repeat' with_reducible first
    | intro _
    | (refine kept_mk ?_ ?_ ?_ ?_ ?_ ?_ ?_ ?_ <;> first | exact rfl | (refine kept_mk (by assumption) ?_ ?_ ?_ ?_ ?_ ?_ ?_ <;> exact rfl) | apply State.modZone_kept | apply State.locAccess_kept | apply State.zoneAccess_kept | apply State.leaveOpen_kept | apply kept_ite | refine kept_foldl ?_ ?_)

theorem State.arrive_kept {z : State} {s : State} {z' : Nat} {sbi : Nat} {payload : List Byte} (hs : z.Kept s) : z.Kept (State.arrive s z' sbi payload) := by
  unfold State.arrive
  repeat' with_reducible first
    | split
    | (refine kept_mk ?_ ?_ ?_ ?_ ?_ ?_ ?_ ?_ <;> first | exact rfl | (refine kept_mk (by assumption) ?_ ?_ ?_ ?_ ?_ ?_ ?_ <;> exact rfl) | apply State.makeWorks_kept | apply State.queueUnit_kept | apply kept_ite)

theorem State.release_kept {z : State} {s : State} {h' : Nat} {t' : Nat} {p : Nat} (hs : z.Kept s) : z.Kept (State.release s h' t' p) := by
  unfold State.release
  repeat' with_reducible first
    | assumption | intro _ | apply State.modCh_kept | refine kept_foldl ?_ ?_

theorem State.rebuildEnd_kept {z : State} {s : State} {z' : Nat} {g : ZGroup} (hs : z.Kept s) : z.Kept (State.rebuildEnd s z' g) := by
  unfold State.rebuildEnd
  repeat' with_reducible first
    | (refine kept_mk ?_ ?_ ?_ ?_ ?_ ?_ ?_ ?_ <;> first | exact rfl | (refine kept_mk (by assumption) ?_ ?_ ?_ ?_ ?_ ?_ ?_ <;> exact rfl) | apply State.event_kept | apply State.modGroup_kept | apply State.dropAcc_kept | apply kept_ite | refine kept_foldl ?_ ?_ | refine kept_foldl_fst ?_ ?_ | refine kept_foldl_snd ?_ ?_)

theorem State.rebuildAll_kept {z : State} {s : State} (hs : z.Kept s) : z.Kept (State.rebuildAll s) := by
  unfold State.rebuildAll
  repeat' with_reducible first
    | assumption | intro _ | apply State.pumpParity_kept | apply State.rebuildEnd_kept | refine kept_foldl ?_ ?_

theorem State.modRec_kept {z : State} {s : State} {a1 : Nat} {n : Nat} {f : RecEnt → RecEnt} (hs : z.Kept s) : z.Kept (State.modRec s a1 n f) := by
  unfold State.modRec
  repeat' with_reducible first
    | assumption | apply State.setRecList_kept

theorem State.ladderEnd_kept {z : State} {s : State} {e' : RecEnt} {l : Nat} (hs : z.Kept s) : z.Kept (State.ladderEnd s e' l) := by
  unfold State.ladderEnd
  repeat' with_reducible first
    | (refine kept_mk ?_ ?_ ?_ ?_ ?_ ?_ ?_ ?_ <;> first | exact rfl | (refine kept_mk (by assumption) ?_ ?_ ?_ ?_ ?_ ?_ ?_ <;> exact rfl) | refine State.count_kept ?_ (by omega) | apply kept_ite)

theorem State.loseBlock_kept {z : State} {s : State} {z' : Nat} {sbi : Nat} {p : Cmd → Bool} (hs : z.Kept s) : z.Kept (State.loseBlock s z' sbi p) := by
  unfold State.loseBlock
  repeat' with_reducible first
    | assumption | intro _ | apply State.failChunk_kept | refine kept_foldl ?_ ?_ | split

theorem State.spareNext_kept {z s : State} {a : Nat} (hs : z.Kept s) : ∀ p, s.spareNext a = some p → z.Kept p.1 := by
  intro p e
  unfold State.spareNext at e
  split at e
  · cases e
  · dsimp only at e
    obtain ⟨x, hx, e⟩ := Option.bind_eq_some_iff.mp e
    have h1 : z.Kept x := by
      split at hx
      · cases hx; exact hs
      · obtain ⟨q, _, e⟩ := Option.map_eq_some_iff.mp hx
        rw [← e]; exact kept_upd hs rfl rfl rfl rfl rfl rfl rfl rfl
    obtain ⟨q, _, e⟩ := Option.map_eq_some_iff.mp e
    rw [← e]; exact kept_upd h1 rfl rfl rfl rfl rfl rfl rfl rfl

theorem State.remap_kept {z : State} {s : State} {e' : RecEnt} {payload : Option (List Byte)} (hs : z.Kept s) : z.Kept (State.remap s e' payload) := by
  unfold State.remap
  repeat' with_reducible first
    | split
    | (refine kept_mk ?_ ?_ ?_ ?_ ?_ ?_ ?_ ?_ <;> first | exact rfl | (refine kept_mk (by assumption) ?_ ?_ ?_ ?_ ?_ ?_ ?_ <;> exact rfl) | refine State.spareNext_kept ?_ _ (by assumption) | apply State.rltAdd_kept | refine State.rltAdd_keptE (by assumption) ?_ | apply State.makeWorks_kept | apply kept_ite)

theorem State.recDrop_kept {z : State} {s : State} {e' : RecEnt} (hs : z.Kept s) : z.Kept (State.recDrop s e') := by
  unfold State.recDrop
  repeat' with_reducible first
    | (refine kept_mk ?_ ?_ ?_ ?_ ?_ ?_ ?_ ?_ <;> first | exact rfl | (refine kept_mk (by assumption) ?_ ?_ ?_ ?_ ?_ ?_ ?_ <;> exact rfl) | apply State.withdrawWork_kept | apply State.release_kept | apply State.setRecList_kept)

theorem State.ladderLost_kept {z : State} {s : State} {e' : RecEnt} {top : Nat} (hs : z.Kept s) : z.Kept (State.ladderLost s e' top) := by
  unfold State.ladderLost
  repeat' with_reducible first
    | assumption | apply State.event_kept | apply State.ladderEnd_kept | apply State.loseBlock_kept | apply State.remap_kept
    | apply State.recDrop_kept | split

theorem State.startL6_kept {z : State} {s : State} {e' : RecEnt} (hs : z.Kept s) : z.Kept (State.startL6 s e') := by
  unfold State.startL6
  repeat' with_reducible first
    | assumption | intro _ | apply State.modRec_kept | apply State.addWork_kept | refine kept_foldl ?_ ?_ | split

theorem State.toLevel_kept {z : State} {s : State} {e' : RecEnt} {l : Nat} {top : Nat} (hs : z.Kept s) : z.Kept (State.toLevel s e' l top) := by
  unfold State.toLevel
  repeat' with_reducible first
    | assumption | apply State.ladderLost_kept | apply State.modRec_kept | apply State.release_kept
    | apply State.startL6_kept | apply State.addRecRead_kept | apply kept_ite

theorem State.levelFail_kept {z : State} {s : State} {e' : RecEnt} (hs : z.Kept s) : z.Kept (State.levelFail s e') := by
  unfold State.levelFail
  repeat' with_reducible first
    | split
    | (refine kept_mk ?_ ?_ ?_ ?_ ?_ ?_ ?_ ?_ <;> first | exact rfl | (refine kept_mk (by assumption) ?_ ?_ ?_ ?_ ?_ ?_ ?_ <;> exact rfl) | apply State.withdrawWork_kept | apply State.ladderLost_kept | apply State.toLevel_kept | apply State.loseBlock_kept | apply kept_ite)

theorem State.l6Fail_kept {z : State} {s : State} {e' : RecEnt} (hs : z.Kept s) : z.Kept (State.l6Fail s e') := by
  unfold State.l6Fail
  repeat' with_reducible first
    | assumption | apply State.levelFail_kept | apply State.event_kept

theorem State.memberFail_kept {z : State} {s : State} {w : Work} {n : Nat} {m : Nat} {f : Nat} (hs : z.Kept s) : z.Kept (State.memberFail s w n m f) := by
  unfold State.memberFail
  repeat' with_reducible first
    | apply State.release_kept | apply State.dropWork_kept | apply State.rebuildAll_kept | apply State.modRec_kept
    | apply State.l6Fail_kept | apply kept_ite | split | (refine kept_mk (by assumption) ?_ ?_ ?_ ?_ ?_ ?_ ?_ <;> exact rfl)

theorem State.enterList_kept {z : State} {s : State} {w : Work} (hs : z.Kept s) : z.Kept (State.enterList s w) := by
  unfold State.enterList
  repeat' with_reducible first
    | assumption | apply State.returnWork_kept | apply State.setW1c_kept | apply State.dropWork_kept
    | apply State.setRecList_kept | apply State.addRecRead_kept | apply State.recDrop_kept | apply kept_ite
    | (extract_lets +onlyGivenNames -underBinder x; first | (refine kept_cut (x := x) ?_ ?_; intro hx; clear_value x; rotate_left; dsimp only [x]) | skip)
    | (refine kept_mk (by assumption) ?_ ?_ ?_ ?_ ?_ ?_ ?_ <;> exact rfl)

theorem State.blockLost_kept {z : State} {s : State} {w : Work} (hs : z.Kept s) : z.Kept (State.blockLost s w) := by
  unfold State.blockLost
  repeat' with_reducible first
    | assumption | apply State.memberFail_kept | apply State.dropWork_kept | apply State.modRec_kept
    | apply State.levelFail_kept | apply State.addRecRead_kept | apply State.enterList_kept | apply kept_ite | split

theorem State.rankBlock_kept {z : State} {s : State} {e' : RecEnt} {rank : Nat} (hs : z.Kept s) : z.Kept (State.rankBlock s e' rank) := by
  unfold State.rankBlock
  repeat' with_reducible first
    | assumption | intro _ | apply State.modCmd_kept | refine kept_foldl ?_ ?_ | split

theorem State.ladderWon_kept {z : State} {s : State} {e' : RecEnt} {payload : List Byte} (hs : z.Kept s) : z.Kept (State.ladderWon s e' payload) := by
  unfold State.ladderWon
  repeat' with_reducible first
    | assumption | apply State.ladderEnd_kept | apply State.rankBlock_kept | apply State.event_kept
    | apply State.rltAdd_kept | apply State.remap_kept | apply State.recDrop_kept | apply State.arrive_kept | split

theorem State.blockRead_kept {z : State} {s : State} {w : Work} {info : List Byte} (hs : z.Kept s) : z.Kept (State.blockRead s w info) := by
  unfold State.blockRead
  repeat' with_reducible first
    | assumption | apply State.release_kept | apply State.dropWork_kept | apply State.rebuildAll_kept
    | apply State.xtpToggle_kept | apply State.modRec_kept | apply State.ladderWon_kept | apply State.arrive_kept
    | (extract_lets +onlyGivenNames -underBinder x; first | (refine kept_cut (x := x) ?_ ?_; intro hx; clear_value x; rotate_left; dsimp only [x]) | skip)
    | split

theorem State.budgetEnd_kept {z : State} {s : State} {e' : RecEnt} (hs : z.Kept s) : z.Kept (State.budgetEnd s e') := by
  unfold State.budgetEnd
  repeat' with_reducible first
    | assumption | apply State.l6Fail_kept | apply State.levelFail_kept | apply kept_ite

theorem State.pruneReads_kept {z : State} {s : State} (hs : z.Kept s) : z.Kept (State.pruneReads s) := by
  unfold State.pruneReads
  repeat' with_reducible first
    | assumption | intro _ | apply State.recDrop_kept | apply State.withdrawWork_kept | apply kept_ite
    | refine kept_foldl ?_ ?_
    | (extract_lets +onlyGivenNames -underBinder x; first | (refine kept_cut (x := x) ?_ ?_; intro hx; clear_value x; rotate_left; dsimp only [x]) | skip)
    | (refine kept_mk (by assumption) ?_ ?_ ?_ ?_ ?_ ?_ ?_ <;> exact rfl)

theorem State.settle_kept {z : State} {s : State} (hs : z.Kept s) : z.Kept (State.settle s) := by
  unfold State.settle
  repeat' with_reducible first
    | assumption | apply State.wakeData_kept | apply State.pruneReads_kept | apply State.pumpReads_kept

theorem State.wakeUnits_kept {z : State} {s : State} (hs : z.Kept s) : z.Kept (State.wakeUnits s) := by
  unfold State.wakeUnits
  repeat' with_reducible first
    | assumption | apply State.settle_kept | apply State.pumpParity_kept | apply State.pumpWrites_kept
    | apply State.forceRaw_kept | apply State.startEngines_kept | apply State.startLanes_kept

theorem State.commitUnit_kept {z : State} {s : State} {u : CUnit} (hs : z.Kept s) : z.Kept (State.commitUnit s u) := by
  unfold State.commitUnit
  repeat' with_reducible first
    | assumption | apply State.applyConv_kept | apply State.applyZone_kept | apply State.unitDone_kept
    | apply State.wakeData_kept | apply State.wakeWaiters_kept | apply State.pumpParity_kept | apply State.pumpWrites_kept
    | apply kept_ite

theorem State.killUnit_kept {z : State} {s : State} {cs : Word} {status : Nat} (hs : z.Kept s) : z.Kept (State.killUnit s cs status) := by
  unfold State.killUnit
  repeat' with_reducible first
    | assumption | apply State.withdrawUnit_kept | apply State.finish_kept
    | (extract_lets +onlyGivenNames -underBinder x; first | (refine kept_cut (x := x) ?_ ?_; intro hx; clear_value x; rotate_left; dsimp only [x]) | clear_value x | skip)
    | split | (refine kept_mk (by assumption) ?_ ?_ ?_ ?_ ?_ ?_ ?_ <;> exact rfl)

theorem State.failCommit_kept {z : State} {s : State} {u : CUnit} (hs : z.Kept s) : z.Kept (State.failCommit s u) := by
  unfold State.failCommit
  repeat' with_reducible first
    | assumption | apply State.wakeWaiters_kept | apply State.killUnit_kept

theorem State.verifyOk_kept {z : State} {s : State} {w : Work} (hs : z.Kept s) : z.Kept (State.verifyOk s w) := by
  unfold State.verifyOk
  repeat' with_reducible first
    | assumption
    | (extract_lets +onlyGivenNames -underBinder x; first | (refine kept_cut (x := x) ?_ ?_; intro hx; clear_value x; rotate_left; dsimp only [x]) | skip)
    | split
    | (refine kept_mk ?_ ?_ ?_ ?_ ?_ ?_ ?_ ?_ <;> first | exact rfl | (refine kept_mk (by assumption) ?_ ?_ ?_ ?_ ?_ ?_ ?_ <;> exact rfl) | apply State.dropWork_kept | apply State.pumpParity_kept | apply kept_ite)

theorem State.toReadOnly_kept {z : State} {s : State} {z' : Nat} {cs : Word} {status : Nat} (hs : z.Kept s) : z.Kept (State.toReadOnly s z' cs status) := by
  unfold State.toReadOnly
  repeat' with_reducible first
    | assumption | intro _ | apply State.modZone_kept | apply State.killUnit_kept | apply State.leaveOpen_kept
    | refine kept_foldl ?_ ?_

theorem State.verifyFail_kept {z : State} {s : State} {w : Work} {wus : Bool} (hs : z.Kept s) : z.Kept (State.verifyFail s w wus) := by
  unfold State.verifyFail
  repeat' with_reducible first
    | apply State.pumpParity_kept | apply State.dropWork_kept | apply State.rltAdd_kept | apply State.returnWork_kept
    | apply State.event_kept | apply raise_kept | apply State.wakeWaiters_kept | apply State.toReadOnly_kept
    | apply State.addCopy_kept | apply kept_ite | split
    | (refine kept_mk (by assumption) ?_ ?_ ?_ ?_ ?_ ?_ ?_ <;> exact rfl)

theorem State.jwait_kept {z : State} {s : State} (hs : z.Kept s) : z.Kept (State.jwait s) := by
  unfold State.jwait
  repeat' with_reducible first
    | assumption | apply State.event_kept | refine State.count_kept ?_ (by omega) | apply State.setW1c_kept | apply kept_ite

theorem State.reconstruct_kept {z : State} {s : State} {e' : RecEnt} (hs : z.Kept s) : z.Kept (State.reconstruct s e') := by
  unfold State.reconstruct
  repeat' with_reducible first
    | split
    | (refine kept_mk ?_ ?_ ?_ ?_ ?_ ?_ ?_ ?_ <;> first | exact rfl | (refine kept_mk (by assumption) ?_ ?_ ?_ ?_ ?_ ?_ ?_ <;> exact rfl) | apply State.rankBlock_kept | apply State.ladderEnd_kept | apply State.arrive_kept | apply State.recDrop_kept)

theorem State.tryRec_kept {z s : State} {r : JRec} {ok1 ok2 : Bool} (hs : z.Kept s) : z.Kept (s.tryRec r ok1 ok2).1 := by
  unfold State.tryRec
  split
  · exact State.putRec_kept hs
  · extract_lets -underBinder k c x
    have h1 : z.Kept x := kept_upd hs rfl rfl rfl rfl rfl rfl rfl rfl
    clear_value x
    split
    · exact State.putRec_kept h1
    · dsimp only
      exact raise_kept (State.event_kept (kept_upd h1 rfl rfl rfl rfl rfl rfl rfl rfl))
theorem State.tryRec_keptE {z s t : State} {r : JRec} {ok1 ok2 o : Bool} (e : s.tryRec r ok1 ok2 = (t, o)) (hs : z.Kept s) : z.Kept t := by
  have k := State.tryRec_kept (r := r) (ok1 := ok1) (ok2 := ok2) hs
  rw [e] at k; exact k

end Sys2Proof.Machine
end

