-- ==== Sys2Proof/Laws/KeptMedia.lean ====
section
/-! SUPPORT. What each operation and each meaning keeps (`State.Kept`): channels, sequencer, planner, servo, spindle, part reset, chunk path and buffer. One lemma per definition,
from those of the definitions it calls. -/
namespace Sys2Proof.Machine

open Sys2Proof

theorem State.abortBist_kept {z : State} {s : State} {n : Nat} (hs : z.Kept s) : z.Kept (State.abortBist s n) := by
  unfold State.abortBist
  repeat' with_reducible first
    | assumption | apply State.modCh_kept | apply kept_ite

theorem State.actReady_kept {z : State} {s : State} {n : Nat} (hs : z.Kept s) : z.Kept (State.actReady s n) := by
  unfold State.actReady
  repeat' with_reducible first
    | assumption | apply State.setReady_kept | apply kept_ite

theorem State.ageClasses_kept {z : State} {s : State} (hs : z.Kept s) : z.Kept (State.ageClasses s) := by
  unfold State.ageClasses
  repeat' with_reducible first
    | (refine kept_mk (by assumption) ?_ ?_ ?_ ?_ ?_ ?_ ?_ <;> exact rfl)

theorem State.applyStaged_kept {z : State} {s : State} {p : Staged → Bool} (hs : z.Kept s) : z.Kept (State.applyStaged s p) := by
  unfold State.applyStaged
  repeat' with_reducible first
    | (refine kept_mk (by assumption) ?_ ?_ ?_ ?_ ?_ ?_ ?_ <;> exact rfl)

theorem State.atbWake_kept {z : State} {s : State} (hs : z.Kept s) : z.Kept (State.atbWake s) := by
  unfold State.atbWake
  repeat' with_reducible first
    | assumption | apply State.atbTo_kept | apply raise_kept | apply kept_ite

theorem State.await_kept {z : State} {s : State} {n : Nat} {w : Wait} (hs : z.Kept s) : z.Kept (State.await s n w) := by
  unfold State.await
  repeat' with_reducible first
    | assumption | apply State.modCtx_kept

theorem State.chFenceNow_kept {z : State} {s : State} {n : Nat} (hs : z.Kept s) : z.Kept (State.chFenceNow s n) := by
  unfold State.chFenceNow
  repeat' with_reducible first
    | assumption | apply State.modCh_kept

theorem State.chIndex_kept {z : State} {s : State} {n : Nat} (hs : z.Kept s) : z.Kept (State.chIndex s n) := by
  unfold State.chIndex
  repeat' with_reducible first
    | assumption | apply State.modCh_kept | apply State.chFenceNow_kept | apply kept_ite

theorem State.changeSpeed_kept {z : State} {s : State} {rpm : Nat} (hs : z.Kept s) : z.Kept (State.changeSpeed s rpm) := by
  unfold State.changeSpeed
  repeat' with_reducible first
    | intro _
    | (refine kept_mk ?_ ?_ ?_ ?_ ?_ ?_ ?_ ?_ <;> first | exact rfl | (refine kept_mk (by assumption) ?_ ?_ ?_ ?_ ?_ ?_ ?_ <;> exact rfl) | apply State.putFld_kept | apply State.lockEnds_kept | apply State.clearSpinReady_kept | apply State.parkAll_kept | apply raise_kept | apply State.askToken_kept | apply kept_ite)

theorem State.cmpRequested_kept {z : State} {s : State} {k' : Nat} (hs : z.Kept s) : z.Kept (State.cmpRequested s k') := by
  unfold State.cmpRequested
  repeat' with_reducible first
    | assumption | apply State.fenceCmp_kept | apply kept_ite

theorem State.countRevs_kept {z : State} {s : State} {plan : List PlanSlot} (hs : z.Kept s) : z.Kept (State.countRevs s plan) := by
  unfold State.countRevs
  repeat' with_reducible first
    | assumption | intro _ | apply State.modRec_kept | refine kept_foldl ?_ ?_
    | (extract_lets +onlyGivenNames -underBinder x; first | (refine kept_cut (x := x) ?_ ?_; intro hx; clear_value x; rotate_left; dsimp only [x]) | clear_value x | skip)
    | split

theorem State.countSample_kept {z : State} {s : State} {h' : Nat} {pes : Int} {ok : Bool} (hs : z.Kept s) : z.Kept (State.countSample s h' pes ok) := by
  unfold State.countSample
  repeat' with_reducible first
    | assumption | apply State.modHead_kept

theorem State.cryRequested_kept {z : State} {s : State} {k' : Nat} (hs : z.Kept s) : z.Kept (State.cryRequested s k') := by
  unfold State.cryRequested
  repeat' with_reducible first
    | assumption | apply State.fenceLane_kept | apply kept_ite

theorem State.runInit_kept {z : State} {s : State} {n : Nat} (hs : z.Kept s) : z.Kept (State.runInit s n) := by
  unfold State.runInit
  repeat' with_reducible first
    | assumption | apply State.modCtx_kept | apply kept_ite

theorem State.decryptUnit_kept {z : State} {s : State} {z' : Nat} {sbi : Nat} (hs : z.Kept s) : z.Kept (State.decryptUnit s z' sbi) := by
  unfold State.decryptUnit
  repeat' with_reducible first
    | (refine kept_mk (by assumption) ?_ ?_ ?_ ?_ ?_ ?_ ?_ <;> exact rfl)

theorem State.gotTokenReq_kept {z : State} {s : State} {slot : Fin 16} (hs : z.Kept s) : z.Kept (State.gotTokenReq s slot) := by
  unfold State.gotTokenReq
  repeat' with_reducible first
    | assumption | apply State.ledgerReq_kept | apply kept_ite

theorem State.gotTokenGrant_kept {z : State} {s : State} (hs : z.Kept s) : z.Kept (State.gotTokenGrant s) := by
  unfold State.gotTokenGrant
  repeat' with_reducible first
    | apply State.tokenGot_kept | apply State.giveToken_kept | apply kept_ite
    | (refine kept_mk (by assumption) ?_ ?_ ?_ ?_ ?_ ?_ ?_ <;> exact rfl)

theorem State.gotTokenReturn_kept {z : State} {s : State} {slot : Fin 16} (hs : z.Kept s) : z.Kept (State.gotTokenReturn s slot) := by
  unfold State.gotTokenReturn
  repeat' with_reducible first
    | assumption | apply State.ledgerReturn_kept | apply kept_ite

theorem State.gotLedgerQuery_kept {z : State} {s : State} {src : BitVec 12} (hs : z.Kept s) : z.Kept (State.gotLedgerQuery s src) := by
  unfold State.gotLedgerQuery
  repeat' with_reducible first
    | apply State.e2eSend_kept | (refine kept_mk (by assumption) ?_ ?_ ?_ ?_ ?_ ?_ ?_ <;> exact rfl)

theorem State.gotLedgerHeld_kept {z : State} {s : State} {slot : Fin 16} {held : Nat} (hs : z.Kept s) : z.Kept (State.gotLedgerHeld s slot held) := by
  unfold State.gotLedgerHeld
  repeat' with_reducible first
    | apply kept_ite | (refine kept_mk (by assumption) ?_ ?_ ?_ ?_ ?_ ?_ ?_ <;> exact rfl)

theorem State.readEffect_kept {z : State} {s : State} {off : Nat} (hs : z.Kept s) : z.Kept (State.readEffect s off) := by
  unfold State.readEffect
  repeat' with_reducible first
    | apply State.modCtx_kept | apply kept_ite | (refine kept_mk (by assumption) ?_ ?_ ?_ ?_ ?_ ?_ ?_ <;> exact rfl)

theorem State.readReg_kept {z : State} {s : State} {off : Nat} (hs : z.Kept s) : z.Kept (State.readReg s off).2 := by
  unfold State.readReg
  repeat' with_reducible first
    | assumption | apply State.readEffect_kept
theorem State.readReg_keptE {z : State} {s : State} {off : Nat} {t : State} {o : Word} (e : State.readReg s off = (o, t)) (hs : z.Kept s) : z.Kept t := by
  have k := State.readReg_kept (z := z) (s := s) (off := off) hs
  rw [e] at k; exact k

theorem State.readRegs_kept {z s : State} {off n : Nat} (hs : z.Kept s) : z.Kept (s.readRegs off n).2 := by
  induction n generalizing s off with
  | zero => exact hs
  | succ n ih => exact ih (State.readReg_kept hs)
theorem State.readRegs_keptE {z s t : State} {off n : Nat} {o : List Word} (e : s.readRegs off n = (o, t)) (hs : z.Kept s) : z.Kept t := by
  have k := State.readRegs_kept (off := off) (n := n) hs
  rw [e] at k; exact k

theorem State.requestPark_kept {z : State} {s : State} {n : Nat} (hs : z.Kept s) : z.Kept (State.requestPark s n) := by
  unfold State.requestPark
  repeat' with_reducible first
    | assumption | apply State.modAct_kept

theorem State.requestUnpark_kept {z : State} {s : State} {n : Nat} (hs : z.Kept s) : z.Kept (State.requestUnpark s n) := by
  unfold State.requestUnpark
  repeat' with_reducible first
    | assumption | apply State.unpark_kept | apply State.modAct_kept

theorem State.sswStart_kept {z s : State} {a : Fin 4} {op : Nat} (hs : z.Kept s) : z.Kept (s.sswStart a op) := by
  unfold State.sswStart
  extract_lets -underBinder resume t c x y w
  have h1 : z.Kept x := kept_upd hs rfl rfl rfl rfl rfl rfl rfl rfl
  clear_value x
  have h2 : z.Kept y := State.actReadyOff_kept (State.modAct_kept h1)
  have h3 : z.Kept w := kept_foldl h2 fun s k hs => State.modHead_kept hs
  clear_value w
  exact kept_ite (kept_upd h3 rfl rfl rfl rfl rfl rfl rfl rfl) (kept_upd h1 rfl rfl rfl rfl rfl rfl rfl rfl)

theorem State.sswCommand_kept {z : State} {s : State} {a1 : Fin 4} {op : Nat} (hs : z.Kept s) : z.Kept (State.sswCommand s a1 op) := by
  unfold State.sswCommand
  repeat' with_reducible first
    | apply State.sswStart_kept | apply kept_ite | (refine kept_mk (by assumption) ?_ ?_ ?_ ?_ ?_ ?_ ?_ <;> exact rfl)

theorem State.startBist_kept {z : State} {s : State} {n : Nat} {t' : Nat} (hs : z.Kept s) : z.Kept (State.startBist s n t') := by
  unfold State.startBist
  repeat' with_reducible first
    | assumption | apply State.modCh_kept

theorem State.dmaResume_kept {z : State} {s : State} (hs : z.Kept s) : z.Kept (State.dmaResume s) := by
  unfold State.dmaResume
  repeat' with_reducible first
    | (refine kept_mk (by assumption) ?_ ?_ ?_ ?_ ?_ ?_ ?_ <;> exact rfl)

theorem State.mapDisable_kept {z : State} {s : State} (hs : z.Kept s) : z.Kept (State.mapDisable s) := by
  unfold State.mapDisable
  repeat' with_reducible first
    | (refine kept_mk (by assumption) ?_ ?_ ?_ ?_ ?_ ?_ ?_ <;> exact rfl)

theorem State.mapMaint_kept {z s : State} {op : Nat} (hs : z.Kept s) : z.Kept (s.mapMaint op).1 := by
  unfold State.mapMaint
  dsimp only
  split
  · exact hs
  · split
    · exact hs
    · split <;> exact kept_upd hs rfl rfl rfl rfl rfl rfl rfl rfl
theorem State.mapMaint_keptE {z s t : State} {op : Nat} {o : Bool} (e : s.mapMaint op = (t, o)) (hs : z.Kept s) : z.Kept t := by
  have k := State.mapMaint_kept (op := op) hs
  rw [e] at k; exact k

theorem State.loadSpeed_kept {z : State} {s : State} (hs : z.Kept s) : z.Kept (State.loadSpeed s) := by
  unfold State.loadSpeed
  repeat' with_reducible first
    | assumption | apply State.putFld_kept | split

theorem State.loadImage_kept {z : State} {s : State} (hs : z.Kept s) : z.Kept (State.loadImage s) := by
  unfold State.loadImage
  repeat' with_reducible first
    | assumption | intro _ | apply State.putFld_kept | apply kept_ite | refine kept_foldl ?_ ?_
    | (extract_lets +onlyGivenNames -underBinder x; first | (refine kept_cut (x := x) ?_ ?_; intro hx; clear_value x; rotate_left; dsimp only [x]) | skip)
    | (refine kept_mk (by assumption) ?_ ?_ ?_ ?_ ?_ ?_ ?_ <;> exact rfl)

theorem State.partReset_kept {z s : State} {cause : Nat} (hs : z.Kept s) : z.Kept (s.partReset cause) := by
  unfold State.partReset
  extract_lets -underBinder a b c d e r1 r2 g
  have h : z.Kept a := State.endSessions_kept hs
  have h1 : z.Kept r1 := ⟨h.queue, fun _ => State.reset_memOk, fun _ => State.reset_tallyOk,
    ⟨h.holds.life, h.holds.isvn, h.holds.fsvn, h.holds.node, h.holds.fuse⟩, h.sent⟩
  have h2 : z.Kept r2 := State.event_kept (State.loadSpeed_kept (State.loadImage_kept h1))
  exact kept_ite (raise_kept (kept_upd h2 rfl rfl rfl rfl rfl rfl rfl rfl)) h2

theorem State.resetParked_kept {z : State} {s : State} (hs : z.Kept s) : z.Kept (State.resetParked s) := by
  unfold State.resetParked
  repeat' with_reducible first
    | assumption | apply State.partReset_kept | apply kept_ite

theorem State.pfail_kept {z : State} {s : State} (hs : z.Kept s) : z.Kept (State.pfail s) := by
  unfold State.pfail
  repeat' with_reducible first
    | intro _
    | (refine kept_mk ?_ ?_ ?_ ?_ ?_ ?_ ?_ ?_ <;> first | exact rfl | (refine kept_mk (by assumption) ?_ ?_ ?_ ?_ ?_ ?_ ?_ <;> exact rfl) | apply State.actPfail_kept | apply raise_kept | apply State.floodLsa_kept | apply kept_ite)

theorem State.dropHead_kept {z : State} {s : State} {h' : Nat} (hs : z.Kept s) : z.Kept (State.dropHead s h') := by
  unfold State.dropHead
  repeat' with_reducible first
    | assumption | intro _ | apply State.dropSlot_kept | refine kept_foldl ?_ ?_ | split

theorem State.dropLate_kept {z : State} {s : State} {n : Nat} {g : Group} (hs : z.Kept s) : z.Kept (State.dropLate s n g) := by
  unfold State.dropLate
  repeat' with_reducible first
    | assumption | intro _ | apply State.dropSlot_kept | refine kept_foldl ?_ ?_ | split

theorem State.keepRetired_kept {z : State} {s : State} {e' : Word} (hs : z.Kept s) : z.Kept (State.keepRetired s e') := by
  unfold State.keepRetired
  repeat' with_reducible first
    | apply raise_kept | apply kept_ite | (refine kept_mk (by assumption) ?_ ?_ ?_ ?_ ?_ ?_ ?_ <;> exact rfl)

theorem State.retirePage_kept {z : State} {s : State} {w : Nat} (hs : z.Kept s) : z.Kept (State.retirePage s w) := by
  unfold State.retirePage
  repeat' with_reducible first
    | apply State.event_kept | apply raise_kept | apply State.setW1c_kept | apply State.keepRetired_kept | apply kept_ite
    | split | (refine kept_mk (by assumption) ?_ ?_ ?_ ?_ ?_ ?_ ?_ <;> exact rfl)

theorem State.logCe_kept {z : State} {s : State} {w : Nat} {syn : Byte} (hs : z.Kept s) : z.Kept (State.logCe s w syn) := by
  unfold State.logCe
  repeat' with_reducible first
    | assumption | refine State.count_kept ?_ (by omega) | apply State.retirePage_kept | apply State.setW1c_kept
    | (extract_lets +onlyGivenNames -underBinder x; first | (refine kept_cut (x := x) ?_ ?_; intro hx; clear_value x; rotate_left; dsimp only [x]) | skip)
    | split | (refine kept_mk (by assumption) ?_ ?_ ?_ ?_ ?_ ?_ ?_ <;> exact rfl)

theorem State.freshWord_kept {z : State} {s : State} {w : Nat} (hs : z.Kept s) : z.Kept (State.freshWord s w) := by
  unfold State.freshWord
  repeat' with_reducible first
    | (refine kept_mk (by assumption) ?_ ?_ ?_ ?_ ?_ ?_ ?_ <;> exact rfl)

theorem State.poisonWord_kept {z : State} {s : State} {w : Nat} (hs : z.Kept s) : z.Kept (State.poisonWord s w) := by
  unfold State.poisonWord
  repeat' with_reducible first
    | (refine kept_mk (by assumption) ?_ ?_ ?_ ?_ ?_ ?_ ?_ <;> exact rfl)

theorem State.logUe_kept {z : State} {s : State} {w : Nat} {syn : Byte} {partnerOk : Bool} {unit : Nat} (hs : z.Kept s) : z.Kept (State.logUe s w syn partnerOk unit) := by
  unfold State.logUe
  repeat' with_reducible first
    | assumption | apply State.setW1c_kept | refine State.count_kept ?_ (by omega) | apply State.freshWord_kept
    | apply State.poisonWord_kept | apply State.retirePage_kept | apply State.event_kept | apply raise_kept | apply kept_ite

theorem State.eccRead_kept {z s : State} {w : Nat} {cells : Byte} {partnerOk : Bool} {unit : Nat} (hs : z.Kept s) :
    z.Kept (s.eccRead w cells partnerOk unit) := by
  unfold State.eccRead
  extract_lets -underBinder syn b x
  have h1 : z.Kept x := kept_ite (kept_upd hs rfl rfl rfl rfl rfl rfl rfl rfl) hs
  clear_value x
  split
  · exact h1
  · exact State.logCe_kept h1
  · exact raise_kept (State.setW1c_kept (State.count_kept h1 (by omega)))
  · exact State.logUe_kept h1

theorem State.eccReads_kept {z : State} {s : State} {w : Nat} {partnerOk : Bool} {unit : Nat} {a4 : List Byte} (hs : z.Kept s) : z.Kept (State.eccReads s w partnerOk unit a4) := by
  induction a4 generalizing s w
  case' cons => rename_i b t ih
  all_goals unfold State.eccReads
  all_goals repeat' with_reducible first
    | assumption | apply State.eccRead_kept | apply ih

theorem State.encryptUnit_kept {z : State} {s : State} {z' : Nat} {sbi : Nat} (hs : z.Kept s) : z.Kept (State.encryptUnit s z' sbi) := by
  unfold State.encryptUnit
  repeat' with_reducible first
    | (refine kept_mk (by assumption) ?_ ?_ ?_ ?_ ?_ ?_ ?_ <;> exact rfl)

theorem State.endHarvest_kept {z : State} {s : State} {n : Nat} (hs : z.Kept s) : z.Kept (State.endHarvest s n) := by
  unfold State.endHarvest
  repeat' with_reducible first
    | assumption | apply State.modCtx_kept

theorem State.endRoutine_kept {z : State} {s : State} {n : Nat} (hs : z.Kept s) : z.Kept (State.endRoutine s n) := by
  unfold State.endRoutine
  repeat' with_reducible first
    | assumption | apply State.modCtx_kept

theorem State.engineFree_kept {z : State} {s : State} {k' : Nat} (hs : z.Kept s) : z.Kept (State.engineFree s k') := by
  unfold State.engineFree
  repeat' with_reducible first
    | assumption | apply State.settle_kept | apply State.pumpWrites_kept | apply State.forceRaw_kept
    | apply State.startEngines_kept | apply State.cmpRequested_kept | apply State.modEngine_kept

theorem State.fillBuffer_kept {z : State} {s : State} {b : Nat} {w : Work} (hs : z.Kept s) : z.Kept (State.fillBuffer s b w) := by
  unfold State.fillBuffer
  repeat' with_reducible first
    | assumption | apply State.store_kept

theorem State.setOffice_kept {z : State} {s : State} {on : Bool} (hs : z.Kept s) : z.Kept (State.setOffice s on) := by
  unfold State.setOffice
  repeat' with_reducible first
    | intro _ | apply State.e2eSend_kept | apply kept_ite | refine kept_foldl ?_ ?_
    | (refine kept_mk (by assumption) ?_ ?_ ?_ ?_ ?_ ?_ ?_ <;> exact rfl)

theorem State.foundWords_kept {z : State} {s : State} {a1 : Nat} (hs : z.Kept s) : z.Kept (State.foundWords s a1) := by
  unfold State.foundWords
  repeat' with_reducible first
    | assumption | intro _ | apply State.modHead_kept | apply State.modAct_kept | apply State.actReady_kept | apply kept_ite
    | refine kept_foldl ?_ ?_

theorem State.gateCheck_kept {z : State} {s : State} {h' : Nat} (hs : z.Kept s) : z.Kept (State.gateCheck s h') := by
  unfold State.gateCheck
  repeat' with_reducible first
    | assumption | apply State.modHead_kept | apply State.cutGate_kept | apply kept_ite

theorem State.gotPhaseRef_kept {z : State} {s : State} {rpm : Nat} {a2 : Nat} (hs : z.Kept s) : z.Kept (State.gotPhaseRef s rpm a2) := by
  unfold State.gotPhaseRef
  repeat' with_reducible first
    | assumption | apply State.draw_kept | apply kept_ite
    | (extract_lets +onlyGivenNames -underBinder x; first | (refine kept_cut (x := x) ?_ ?_; intro hx; clear_value x; rotate_left; dsimp only [x]) | skip)
    | (refine kept_mk (by assumption) ?_ ?_ ?_ ?_ ?_ ?_ ?_ <;> exact rfl)

theorem State.haltCtx_kept {z : State} {s : State} {n : Nat} (hs : z.Kept s) : z.Kept (State.haltCtx s n) := by
  unfold State.haltCtx
  repeat' with_reducible first
    | assumption | apply State.modCtx_kept | apply raise_kept | apply State.setW1c_kept

theorem State.palSend_kept {z : State} {s : State} {a1 : Fin 4} {p : Nat} {cmd : Nat} {data : Nat} (hs : z.Kept s) : z.Kept (State.palSend s a1 p cmd data) := by
  unfold State.palSend
  repeat' with_reducible first
    | assumption | apply State.send_kept | apply State.modAct_kept

theorem State.holdKept_kept {z : State} {s : State} {n : Nat} {h' : Nat} {t' : Nat} {p : Nat} {v : Bool} (hs : z.Kept s) : z.Kept (State.holdKept s n h' t' p v) := by
  unfold State.holdKept
  repeat' with_reducible first
    | assumption | apply State.modCh_kept

theorem State.installImage_kept {z : State} {s : State} {b : List Byte} (hs : z.Kept s) : z.Kept (State.installImage s b) := by
  unfold State.installImage
  repeat' with_reducible first
    | apply State.runInit_kept | refine kept_foldl ?_ ?_
    | (refine kept_mk (by assumption) ?_ ?_ ?_ ?_ ?_ ?_ ?_ <;> exact rfl)

theorem State.nanoSlot_kept {z : State} {s : State} {n : Nat} {w : BitVec 160} {k' : Nat × Nat} (hs : z.Kept s) : z.Kept (State.nanoSlot s n w k') := by
  unfold State.nanoSlot
  repeat' with_reducible first
    | assumption | apply State.modSlot_kept | apply State.returnWork_kept | apply State.modCh_kept | apply kept_ite | split

theorem State.requestL1_kept {z : State} {s : State} {r : Res} (hs : z.Kept s) : z.Kept (State.requestL1 s r) := by
  unfold State.requestL1
  repeat' with_reducible first
    | split
    | (refine kept_mk ?_ ?_ ?_ ?_ ?_ ?_ ?_ ?_ <;> first | exact rfl | (refine kept_mk (by assumption) ?_ ?_ ?_ ?_ ?_ ?_ ?_ <;> exact rfl) | refine State.count_kept ?_ (by omega) | apply State.settle_kept | apply State.blockLost_kept | apply kept_ite)

theorem State.report_kept {z : State} {s : State} {r : Res} {rpt : Nat} (hs : z.Kept s) : z.Kept (State.report s r rpt) := by
  unfold State.report
  repeat' with_reducible first
    | assumption | apply State.settle_kept | apply State.blockRead_kept | apply State.blockLost_kept
    | apply State.verifyOk_kept | apply State.verifyFail_kept | split

theorem State.nano_kept {z : State} {s : State} {n : Nat} {w : BitVec 160} (hs : z.Kept s) : z.Kept (State.nano s n w) := by
  unfold State.nano
  repeat' with_reducible first
    | assumption | intro _ | refine State.count_kept ?_ (by omega) | apply State.nanoSlot_kept | apply State.requestL1_kept
    | apply State.holdKept_kept | apply State.report_kept | apply State.modCh_kept | refine kept_foldl ?_ ?_
    | (extract_lets +onlyGivenNames -underBinder x; first | (refine kept_cut (x := x) ?_ ?_; intro hx; clear_value x; rotate_left; dsimp only [x]) | skip)
    | split

theorem State.issueOp_kept {z : State} {s : State} {n : Nat} {after : State → State} (hs : z.Kept s) (hafter : ∀ s, z.Kept s → z.Kept (after s)) : z.Kept (State.issueOp s n after) := by
  unfold State.issueOp
  repeat' with_reducible first
    | assumption | apply State.haltCtx_kept | apply State.modCtx_kept | apply State.nano_kept | apply hafter
    | apply kept_ite

theorem State.jump_kept {z : State} {s : State} {n : Nat} (hs : z.Kept s) : z.Kept (State.jump s n) := by
  unfold State.jump
  repeat' with_reducible first
    | assumption | apply State.modCtx_kept

theorem State.lateStaged_kept {z : State} {s : State} {n : Nat} (hs : z.Kept s) : z.Kept (State.lateStaged s n) := by
  unfold State.lateStaged
  repeat' with_reducible first
    | assumption | apply State.applyStaged_kept

theorem State.liveSample_kept {z : State} {s : State} {h' : Nat} {ok : Bool} (hs : z.Kept s) : z.Kept (State.liveSample s h' ok) := by
  unfold State.liveSample
  repeat' with_reducible first
    | assumption | apply State.modHead_kept | split

theorem State.loadSet_kept {z : State} {s : State} {k' : Nat} {e' : SlotEntry} (hs : z.Kept s) : z.Kept (State.loadSet s k' e') := by
  unfold State.loadSet
  repeat' with_reducible first
    | assumption | apply State.modCh_kept | apply State.draw_kept | apply State.modAct_kept | apply State.palSend_kept
    | apply kept_ite

theorem State.lockBegins_kept {z : State} {s : State} (hs : z.Kept s) : z.Kept (State.lockBegins s) := by
  unfold State.lockBegins
  repeat' with_reducible first
    | apply State.event_kept | apply State.setReady_kept | apply State.atbWake_kept | apply State.unparkFree_kept
    | refine kept_foldl ?_ ?_ | (refine kept_mk (by assumption) ?_ ?_ ?_ ?_ ?_ ?_ ?_ <;> exact rfl)

theorem State.loseHeads_kept {z : State} {s : State} {gm : Geom} {z' : Nat} {g : ZGroup} (hs : z.Kept s) : z.Kept (State.loseHeads s gm z' g) := by
  unfold State.loseHeads
  repeat' with_reducible first
    | intro _ | apply State.closeGroup_kept | refine kept_foldl_fst ?_ ?_
    | (refine kept_mk ?_ ?_ ?_ ?_ ?_ ?_ ?_ ?_ <;> first | exact rfl | (refine kept_mk (by assumption) ?_ ?_ ?_ ?_ ?_ ?_ ?_ <;> exact rfl) | apply State.withdrawWork_kept | apply State.xtpToggle_kept | apply State.rltAdd_kept | refine State.rltAdd_keptE (by assumption) ?_ | apply State.closeGroup_kept | apply State.pumpWrites_kept | apply kept_ite | refine kept_foldl ?_ ?_ | refine kept_foldl_fst ?_ ?_ | refine kept_foldl_snd ?_ ?_)

theorem State.maUpdate_kept {z : State} {s : State} {h' : Nat} {ok : Bool} (hs : z.Kept s) : z.Kept (State.maUpdate s h' ok) := by
  unfold State.maUpdate
  repeat' with_reducible first
    | assumption | apply State.modHead_kept | apply State.draw_kept | apply State.palSend_kept | apply kept_ite

theorem State.parkedBit_kept {z : State} {s : State} {n : Nat} {b : Bool} (hs : z.Kept s) : z.Kept (State.parkedBit s n b) := by
  unfold State.parkedBit
  repeat' with_reducible first
    | assumption | apply State.modAct_kept | apply kept_ite

theorem State.stageStatus_kept {z : State} {s : State} {f : Nat} (hs : z.Kept s) : z.Kept (State.stageStatus s f) := by
  unfold State.stageStatus
  repeat' with_reducible first
    | intro _ | apply State.parkedBit_kept | apply State.brakeIfParked_kept | apply raise_kept | apply kept_ite
    | refine kept_foldl ?_ ?_ | (refine kept_mk (by assumption) ?_ ?_ ?_ ?_ ?_ ?_ ?_ <;> exact rfl)

theorem State.powerUpSpin_kept {z : State} {s : State} (hs : z.Kept s) : z.Kept (State.powerUpSpin s) := by
  unfold State.powerUpSpin
  repeat' with_reducible first
    | assumption | apply State.requestSpin_kept | apply kept_ite

theorem State.mdlIn_kept {z : State} {s : State} {w : BitVec 64} (hs : z.Kept s) : z.Kept (State.mdlIn s w) := by
  unfold State.mdlIn
  repeat' with_reducible first
    | (refine kept_mk ?_ ?_ ?_ ?_ ?_ ?_ ?_ ?_ <;> first | exact rfl | (refine kept_mk (by assumption) ?_ ?_ ?_ ?_ ?_ ?_ ?_ <;> exact rfl) | apply State.stageStatus_kept | apply State.powerUpSpin_kept | apply kept_ite)

theorem State.microOp_kept {z : State} {s : State} {n : Nat} {cls : Nat} {f : State → State} (hs : z.Kept s) (hf : ∀ s, z.Kept s → z.Kept (f s)) : z.Kept (State.microOp s n cls f) := by
  unfold State.microOp
  repeat' with_reducible first
    | assumption | apply State.haltCtx_kept | apply State.modCtx_kept | apply hf | apply kept_ite

theorem State.runVector_kept {z : State} {s : State} {n : Nat} {v : Nat} {f : Ctx → Ctx} (hs : z.Kept s) : z.Kept (State.runVector s n v f) := by
  unfold State.runVector
  repeat' with_reducible first
    | assumption | apply State.modCtx_kept

theorem State.missed_kept {z : State} {s : State} {n : Nat} {g : Group} (hs : z.Kept s) : z.Kept (State.missed s n g) := by
  unfold State.missed
  repeat' with_reducible first
    | assumption | apply State.runVector_kept | apply State.dropLate_kept

theorem State.next_kept {z : State} {s : State} {n : Nat} (hs : z.Kept s) : z.Kept (State.next s n) := by
  unfold State.next
  repeat' with_reducible first
    | assumption | apply State.modCtx_kept

theorem State.noPlans_kept {z : State} {s : State} (hs : z.Kept s) : z.Kept (State.noPlans s) := by
  unfold State.noPlans
  repeat' with_reducible first
    | assumption | intro _ | apply State.modCh_kept | refine kept_foldl ?_ ?_

theorem State.notSettled_kept {z : State} {s : State} {a1 : Nat} (hs : z.Kept s) : z.Kept (State.notSettled s a1) := by
  unfold State.notSettled
  repeat' with_reducible first
    | assumption | apply State.modAct_kept | apply State.event_kept
    | (extract_lets +onlyGivenNames -underBinder x; first | (refine kept_cut (x := x) ?_ ?_; intro hx; clear_value x; rotate_left; dsimp only [x]) | skip)
    | split

theorem State.pfailEnds_kept {z : State} {s : State} (hs : z.Kept s) : z.Kept (State.pfailEnds s) := by
  unfold State.pfailEnds
  repeat' with_reducible first
    | (refine kept_mk ?_ ?_ ?_ ?_ ?_ ?_ ?_ ?_ <;> first | exact rfl | (refine kept_mk (by assumption) ?_ ?_ ?_ ?_ ?_ ?_ ?_ <;> exact rfl) | apply State.requestSpin_kept | apply kept_ite | (refine kept_mk ?_ ?_ ?_ ?_ ?_ ?_ ?_ ?_ <;> first | exact rfl | (refine kept_mk (by assumption) ?_ ?_ ?_ ?_ ?_ ?_ ?_ <;> exact rfl) | apply State.requestSpin_kept | apply kept_ite))

theorem State.pushRes_kept {z : State} {s : State} {r : Res} (hs : z.Kept s) : z.Kept (State.pushRes s r) := by
  unfold State.pushRes
  repeat' with_reducible first
    | (refine kept_mk ?_ ?_ ?_ ?_ ?_ ?_ ?_ ?_ <;> first | exact rfl | (refine kept_mk (by assumption) ?_ ?_ ?_ ?_ ?_ ?_ ?_ <;> exact rfl) | apply State.modCh_kept | apply State.modCtx_kept | apply raise_kept | apply State.report_kept | apply State.setW1c_kept | apply kept_ite)

theorem State.putBank_kept {z s : State} {ch : Nat} {l : List PlanSlot} (hs : z.Kept s) : z.Kept (s.putBank ch l) := by
  unfold State.putBank
  refine kept_upd (kept_foldl (State.setBank_kept hs) fun s p hs => ?_) rfl rfl rfl rfl rfl rfl rfl rfl
  split
  · split
    · exact kept_ite (State.fillBuffer_kept hs) hs
    · exact hs
  · exact hs

theorem State.readOut_kept {z : State} {s : State} {off : Nat} (hs : z.Kept s) : z.Kept (State.readOut s off) := by
  unfold State.readOut
  repeat' with_reducible first
    | assumption | apply State.readEffect_kept
    | (extract_lets +onlyGivenNames -underBinder x; first | (refine kept_cut (x := x) ?_ ?_; intro hx; clear_value x; rotate_left; dsimp only [x]) | skip)
    | (refine kept_mk (by assumption) ?_ ?_ ?_ ?_ ?_ ?_ ?_ <;> exact rfl)

theorem State.refWord_kept {z : State} {s : State} {k' : BitVec 10} {a2 : Nat} (hs : z.Kept s) : z.Kept (State.refWord s k' a2) := by
  unfold State.refWord
  repeat' with_reducible first
    | assumption | apply State.atbTo_kept | apply raise_kept
    | (extract_lets +onlyGivenNames -underBinder x; first | (refine kept_cut (x := x) ?_ ?_; intro hx; clear_value x; rotate_left; dsimp only [x]) | skip)
    | split | (refine kept_mk (by assumption) ?_ ?_ ?_ ?_ ?_ ?_ ?_ <;> exact rfl)

theorem State.resume_kept {z : State} {s : State} {n : Nat} (hs : z.Kept s) : z.Kept (State.resume s n) := by
  unfold State.resume
  repeat' with_reducible first
    | assumption | apply State.modCtx_kept

theorem State.retain_kept {z : State} {s : State} {n : Nat} {h' : Nat} {t' : Nat} {p : Nat} {acc : Bool} (hs : z.Kept s) : z.Kept (State.retain s n h' t' p acc) := by
  unfold State.retain
  repeat' with_reducible first
    | assumption | apply State.modCh_kept

theorem State.samplePes_kept {z : State} {s : State} {h' : Nat} {a1 : Nat} {a2 : Nat} (hs : z.Kept s) : z.Kept (State.samplePes s h' a1 a2).2.2 := by
  unfold State.samplePes
  repeat' with_reducible first
    | assumption | apply State.draw_kept
    | (extract_lets +onlyGivenNames -underBinder x; first | (refine kept_cut (x := x) ?_ ?_; intro hx; clear_value x; rotate_left; dsimp only [x]) | skip)
    | split
theorem State.samplePes_keptE {z : State} {s : State} {h' : Nat} {a1 : Nat} {a2 : Nat} {t : State} {o : Int} {o2 : Bool} (e : State.samplePes s h' a1 a2 = (o, o2, t)) (hs : z.Kept s) : z.Kept t := by
  have k := State.samplePes_kept (z := z) (s := s) (h' := h') (a1 := a1) (a2 := a2) hs
  rw [e] at k; exact k

theorem State.settleDone_kept {z : State} {s : State} {a1 : Nat} (hs : z.Kept s) : z.Kept (State.settleDone s a1) := by
  unfold State.settleDone
  repeat' with_reducible first
    | assumption | apply State.modAct_kept | apply kept_ite

theorem State.sswEnd_kept {z : State} {s : State} {res : Nat} (hs : z.Kept s) : z.Kept (State.sswEnd s res) := by
  unfold State.sswEnd
  repeat' with_reducible first
    | apply State.actReady_kept | apply State.modAct_kept | apply kept_ite
    | (refine kept_mk (by assumption) ?_ ?_ ?_ ?_ ?_ ?_ ?_ <;> exact rfl)

theorem State.sswSkips_kept {z : State} {s : State} {skips : List (Fin 64 × Nat × Nat)} (hs : z.Kept s) : z.Kept (State.sswSkips s skips) := by
  unfold State.sswSkips
  repeat' with_reducible first
    | assumption | intro _ | apply State.rltAdd_kept | apply State.rltWrite_kept | apply kept_ite | refine kept_foldl ?_ ?_

theorem State.startSeek_kept {z : State} {s : State} {a1 : Nat} {hs' : BitVec 6} {trk : BitVec 24} {tpos : BitVec 5} (hs : z.Kept s) : z.Kept (State.startSeek s a1 hs' trk tpos) := by
  unfold State.startSeek
  repeat' with_reducible first
    | assumption | intro _ | apply State.modAct_kept | apply State.modHead_kept | refine kept_foldl ?_ ?_

theorem State.testEnd_kept {z : State} {s : State} (hs : z.Kept s) : z.Kept (State.testEnd s) := by
  unfold State.testEnd
  repeat' with_reducible first
    | apply State.finish_kept | split | (refine kept_mk (by assumption) ?_ ?_ ?_ ?_ ?_ ?_ ?_ <;> exact rfl)

theorem State.testUnits_kept {z : State} {s : State} (hs : z.Kept s) : z.Kept (State.testUnits s) := by
  unfold State.testUnits
  repeat' with_reducible first
    | intro _ | apply State.draw_kept | apply raise_kept | apply kept_ite | refine kept_foldl ?_ ?_
    | (refine kept_mk (by assumption) ?_ ?_ ?_ ?_ ?_ ?_ ?_ <;> exact rfl)

theorem State.testNext_kept {z : State} {s : State} (hs : z.Kept s) : z.Kept (State.testNext s) := by
  unfold State.testNext
  repeat' with_reducible first
    | apply State.testEnd_kept | apply State.modCh_kept | apply State.testUnits_kept | apply State.addWork_kept
    | apply kept_ite | refine kept_foldl ?_ ?_ | split | (refine kept_mk (by assumption) ?_ ?_ ?_ ?_ ?_ ?_ ?_ <;> exact rfl)

theorem State.testSets_kept {z : State} {s : State} (hs : z.Kept s) : z.Kept (State.testSets s) := by
  unfold State.testSets
  repeat' with_reducible first
    | assumption | intro _ | apply State.loseHeads_kept | refine kept_foldl ?_ ?_ | split

theorem execAngleWord_kept {z : State} {head : Fin 64} {w : BitVec 48} {s : State} (hs : z.Kept s) : z.KeptBy (execAngleWord head w s) := by
  unfold execAngleWord
  repeat' with_reducible first
    | assumption | apply State.modHead_kept | apply State.atbWake_kept | apply State.foundWords_kept
    | apply State.refWord_kept | apply State.setW1c_kept | apply keptBy_next | apply keptBy_ite

theorem execCoastEntry_kept {z : State} {s : State} (hs : z.Kept s) : z.KeptBy (execCoastEntry s) := by
  unfold execCoastEntry
  repeat' with_reducible first
    | apply keptBy_next | apply kept_ite | (refine kept_mk (by assumption) ?_ ?_ ?_ ?_ ?_ ?_ ?_ <;> exact rfl)

theorem execCoastMaxExpiry_kept {z : State} {s : State} (hs : z.Kept s) : z.KeptBy (execCoastMaxExpiry s) := by
  unfold execCoastMaxExpiry
  repeat' with_reducible first
    | assumption | apply State.atbTo_kept | apply raise_kept | apply keptBy_next | apply kept_ite

theorem execAtbNowAcRead_kept {z : State} {s : State} (hs : z.Kept s) : z.KeptBy (execAtbNowAcRead s) := by
  unfold execAtbNowAcRead
  repeat' with_reducible first
    | assumption | apply State.readOut_kept | apply keptBy_next

theorem execSeqCtxRead_kept {z : State} {ctx : Fin 5} {s : State} (hs : z.Kept s) : z.KeptBy (execSeqCtxRead ctx s) := by
  unfold execSeqCtxRead
  repeat' with_reducible first
    | assumption | apply State.readOut_kept | apply keptBy_next

theorem execEvrStatusRead_kept {z : State} {s : State} (hs : z.Kept s) : z.KeptBy (execEvrStatusRead s) := by
  unfold execEvrStatusRead
  repeat' with_reducible first
    | assumption | apply State.readOut_kept | apply keptBy_next

theorem execCutoff_kept {z : State} {s : State} (hs : z.Kept s) : z.KeptBy (execCutoff s) := by
  unfold execCutoff
  repeat' with_reducible first
    | apply keptBy_next | apply keptBy_ite
    | (refine kept_mk ?_ ?_ ?_ ?_ ?_ ?_ ?_ ?_ <;> first | exact rfl | (refine kept_mk (by assumption) ?_ ?_ ?_ ?_ ?_ ?_ ?_ <;> exact rfl) | apply State.ageClasses_kept | apply State.pumpParity_kept | apply State.settle_kept | apply State.testSets_kept | apply State.noPlans_kept | apply State.toAngle_kept | apply keptBy_next | apply keptBy_ite | apply kept_ite)

theorem execRplCommit_kept {z : State} {act : Fin 4} {plan : List PlanSlot} {s : State} (hs : z.Kept s) : z.KeptBy (execRplCommit act plan s) := by
  unfold execRplCommit
  repeat' with_reducible first
    | intro _ | apply keptBy_next | apply keptBy_ite
    | (refine kept_mk ?_ ?_ ?_ ?_ ?_ ?_ ?_ ?_ <;> first | exact rfl | (refine kept_mk (by assumption) ?_ ?_ ?_ ?_ ?_ ?_ ?_ <;> exact rfl) | refine State.count_kept ?_ (by omega) | apply State.setW1c_kept | apply State.putBank_kept | apply State.countRevs_kept | apply keptBy_next | apply keptBy_ite | apply kept_ite | refine kept_foldl ?_ ?_)

theorem execSlotDeadline_kept {z : State} {act : Fin 4} {start : BitVec 22} {s : State} (hs : z.Kept s) : z.KeptBy (execSlotDeadline act start s) := by
  unfold execSlotDeadline
  repeat' with_reducible first
    | assumption | intro _ | apply State.toAngle_kept | apply State.modSlot_kept | apply State.loadSet_kept
    | apply raise_kept | apply State.endSlot_kept | apply State.dropSlot_kept | apply keptBy_next | apply keptBy_ite
    | refine kept_foldl ?_ ?_ | split

theorem execBufferGrant_kept {z : State} {ch : Fin 16} {bank : Bool} {idx : Fin 1536} {s : State} (hs : z.Kept s) : z.KeptBy (execBufferGrant ch bank idx s) := by
  unfold execBufferGrant
  repeat' with_reducible first
    | apply State.modSlot_kept | apply keptBy_next
    | (extract_lets +onlyGivenNames -underBinder x; first | (refine keptBy_cut (x := x) ?_ ?_; intro hx; clear_value x; rotate_left; dsimp only [x]) | (refine kept_cut (x := x) ?_ ?_; intro hx; clear_value x; rotate_left; dsimp only [x]) | skip)
    | split | (refine kept_mk (by assumption) ?_ ?_ ?_ ?_ ?_ ?_ ?_ <;> exact rfl)

theorem execCompletionPulse_kept {z : State} {n : Fin 32} {s : State} (hs : z.Kept s) : z.KeptBy (execCompletionPulse n s) := by
  unfold execCompletionPulse
  repeat' with_reducible first
    | assumption | apply State.modDma_kept | apply State.fillBuffer_kept | apply State.modSlot_kept | apply keptBy_next
    | apply keptBy_ite | split

theorem execSlotStart_kept {z : State} {ch : Fin 16} {idx : Fin 1536} {s : State} (hs : z.Kept s) : z.KeptBy (execSlotStart ch idx s) := by
  unfold execSlotStart
  repeat' with_reducible first
    | assumption | apply State.toAngle_kept | apply State.dropSlot_kept | apply State.endSlot_kept
    | apply State.startSeek_kept | apply State.notSettled_kept | apply State.modSlot_kept | apply State.retain_kept
    | apply State.modCh_kept | apply State.send_kept | apply keptBy_next
    | (extract_lets +onlyGivenNames -underBinder x; first | (refine keptBy_cut (x := x) ?_ ?_; intro hx; clear_value x; rotate_left; dsimp only [x]) | (refine kept_cut (x := x) ?_ ?_; intro hx; clear_value x; rotate_left; dsimp only [x]) | skip)
    | split

theorem execSlotEnd_kept {z : State} {ch : Fin 16} {idx : Fin 1536} {s : State} (hs : z.Kept s) : z.KeptBy (execSlotEnd ch idx s) := by
  unfold execSlotEnd
  repeat' with_reducible first
    | assumption | apply State.toAngle_kept | apply State.modCh_kept | apply State.lateStaged_kept
    | apply State.endSlot_kept | apply keptBy_next
    | (extract_lets +onlyGivenNames -underBinder x; first | (refine keptBy_cut (x := x) ?_ ?_; intro hx; clear_value x; rotate_left; dsimp only [x]) | (refine kept_cut (x := x) ?_ ?_; intro hx; clear_value x; rotate_left; dsimp only [x]) | skip)
    | split

theorem execPesSample_kept {z : State} {head : Fin 64} {a1 : BitVec 16} {a2 : BitVec 16} {s : State} (hs : z.Kept s) : z.KeptBy (execPesSample head a1 a2 s) := by
  unfold execPesSample
  repeat' with_reducible first
    | assumption | apply State.samplePes_kept | apply State.maUpdate_kept | apply State.countSample_kept
    | apply State.settleDone_kept | apply State.gateCheck_kept | apply State.liveSample_kept | apply keptBy_next
    | apply keptBy_ite

theorem execVcmUpdate_kept {z : State} {act : Fin 4} {s : State} (hs : z.Kept s) : z.KeptBy (execVcmUpdate act s) := by
  unfold execVcmUpdate
  repeat' with_reducible first
    | assumption | apply State.modAct_kept | apply State.draw_kept | apply State.mdlSend_kept | apply keptBy_next
    | apply keptBy_ite

theorem execOffTrack_kept {z : State} {head : Fin 64} {s : State} (hs : z.Kept s) : z.KeptBy (execOffTrack head s) := by
  unfold execOffTrack
  repeat' with_reducible first
    | assumption | apply State.modHead_kept | apply State.dropHead_kept | apply State.modAct_kept
    | apply State.actReadyOff_kept | apply keptBy_next | apply keptBy_ite

theorem execSeekArrival_kept {z : State} {act : Fin 4} {s : State} (hs : z.Kept s) : z.KeptBy (execSeekArrival act s) := by
  unfold execSeekArrival
  repeat' with_reducible first
    | assumption | apply State.modAct_kept | apply keptBy_next
    | (extract_lets +onlyGivenNames -underBinder x; first | (refine keptBy_cut (x := x) ?_ ?_; intro hx; clear_value x; rotate_left; dsimp only [x]) | (refine kept_cut (x := x) ?_ ?_; intro hx; clear_value x; rotate_left; dsimp only [x]) | skip)
    | split

theorem execShockAssert_kept {z : State} {s : State} (hs : z.Kept s) : z.KeptBy (execShockAssert s) := by
  unfold execShockAssert
  repeat' with_reducible first
    | apply keptBy_next | apply keptBy_ite
    | (refine kept_mk ?_ ?_ ?_ ?_ ?_ ?_ ?_ ?_ <;> first | exact rfl | (refine kept_mk (by assumption) ?_ ?_ ?_ ?_ ?_ ?_ ?_ <;> exact rfl) | apply State.setW1c_kept | apply State.cutGates_kept | apply raise_kept | apply State.event_kept | apply keptBy_next | apply keptBy_ite | apply kept_ite)

theorem execShockHoldExpiry_kept {z : State} {s : State} (hs : z.Kept s) : z.KeptBy (execShockHoldExpiry s) := by
  unfold execShockHoldExpiry
  repeat' with_reducible first
    | apply keptBy_next | (refine kept_mk (by assumption) ?_ ?_ ?_ ?_ ?_ ?_ ?_ <;> exact rfl)

theorem execUnparkTimeout_kept {z : State} {act : Fin 4} {s : State} (hs : z.Kept s) : z.KeptBy (execUnparkTimeout act s) := by
  unfold execUnparkTimeout
  repeat' with_reducible first
    | assumption | apply State.sendPark_kept | apply State.modAct_kept | apply raise_kept | apply State.event_kept
    | apply keptBy_next | apply keptBy_ite

theorem execUnparkRetry_kept {z : State} {act : Fin 4} {s : State} (hs : z.Kept s) : z.KeptBy (execUnparkRetry act s) := by
  unfold execUnparkRetry
  repeat' with_reducible first
    | assumption | apply State.modAct_kept | apply State.unpark_kept | apply keptBy_next | apply keptBy_ite | apply kept_ite

theorem execSswDone_kept {z : State} {ok : Bool} {rec : List Byte} {skips : List (Fin 64 × Nat × Nat)} {s : State} (hs : z.Kept s) : z.KeptBy (execSswDone ok rec skips s) := by
  unfold execSswDone
  repeat' with_reducible first
    | apply keptBy_next | apply keptBy_ite
    | (refine kept_mk ?_ ?_ ?_ ?_ ?_ ?_ ?_ ?_ <;> first | exact rfl | (refine kept_mk (by assumption) ?_ ?_ ?_ ?_ ?_ ?_ ?_ <;> exact rfl) | apply State.sswSkips_kept | apply State.sswEnd_kept | apply State.draw_kept | apply keptBy_next | apply keptBy_ite | apply kept_ite)

theorem execSpinTick_kept {z : State} {s : State} (hs : z.Kept s) : z.KeptBy (execSpinTick s) := by
  unfold execSpinTick
  repeat' with_reducible first
    | apply State.spinMode_kept | apply keptBy_next | apply kept_ite
    | (refine kept_mk (by assumption) ?_ ?_ ?_ ?_ ?_ ?_ ?_ <;> exact rfl)

theorem execIsense_kept {z : State} {frame : BitVec 64} {s : State} (hs : z.Kept s) : z.KeptBy (execIsense frame s) := by
  unfold execIsense
  repeat' with_reducible first
    | assumption | apply State.mdlIn_kept | apply keptBy_next

theorem execVsense_kept {z : State} {frame : BitVec 64} {s : State} (hs : z.Kept s) : z.KeptBy (execVsense frame s) := by
  unfold execVsense
  repeat' with_reducible first
    | assumption | apply State.mdlIn_kept | apply keptBy_next

theorem execMdlStatus_kept {z : State} {frame : BitVec 64} {s : State} (hs : z.Kept s) : z.KeptBy (execMdlStatus frame s) := by
  unfold execMdlStatus
  repeat' with_reducible first
    | assumption | apply State.resetParked_kept | apply State.mdlIn_kept | apply keptBy_next

theorem execMdlLost_kept {z : State} {s : State} (hs : z.Kept s) : z.KeptBy (execMdlLost s) := by
  unfold execMdlLost
  repeat' with_reducible first
    | intro _ | apply keptBy_next | apply keptBy_ite
    | (refine kept_mk ?_ ?_ ?_ ?_ ?_ ?_ ?_ ?_ <;> first | exact rfl | (refine kept_mk (by assumption) ?_ ?_ ?_ ?_ ?_ ?_ ?_ <;> exact rfl) | apply State.abandonAll_kept | apply State.cutGates_kept | apply State.setW1c_kept | apply State.eventSrc_kept | apply State.lockEnds_kept | apply raise_kept | apply State.spinMode_kept | apply keptBy_next | apply keptBy_ite | apply kept_ite)

theorem execPreheatTick_kept {z : State} {s : State} (hs : z.Kept s) : z.KeptBy (execPreheatTick s) := by
  unfold execPreheatTick
  repeat' with_reducible first
    | apply State.toWaitToken_kept | apply keptBy_next | apply keptBy_ite | apply kept_ite
    | (refine kept_mk (by assumption) ?_ ?_ ?_ ?_ ?_ ?_ ?_ <;> exact rfl)

theorem execPreheatTimeout_kept {z : State} {s : State} (hs : z.Kept s) : z.KeptBy (execPreheatTimeout s) := by
  unfold execPreheatTimeout
  repeat' with_reducible first
    | assumption | apply State.event_kept | apply State.setW1c_kept | apply keptBy_next | apply keptBy_ite

theorem execAlignDone_kept {z : State} {s : State} (hs : z.Kept s) : z.KeptBy (execAlignDone s) := by
  unfold execAlignDone
  repeat' with_reducible first
    | apply State.spinMode_kept | apply keptBy_next | apply kept_ite
    | (refine kept_mk (by assumption) ?_ ?_ ?_ ?_ ?_ ?_ ?_ <;> exact rfl)

theorem execSpeedLock_kept {z : State} {period : Nat} {s : State} (hs : z.Kept s) : z.KeptBy (execSpeedLock period s) := by
  unfold execSpeedLock
  repeat' with_reducible first
    | apply State.lockBegins_kept | apply keptBy_next | apply keptBy_ite
    | (refine kept_mk (by assumption) ?_ ?_ ?_ ?_ ?_ ?_ ?_ <;> exact rfl)

theorem execSpinupTimeout_kept {z : State} {lock : Bool} {s : State} (hs : z.Kept s) : z.KeptBy (execSpinupTimeout lock s) := by
  unfold execSpinupTimeout
  repeat' with_reducible first
    | assumption | apply State.spinFail_kept | apply raise_kept | apply keptBy_next | apply kept_ite

theorem execSpinupRetry_kept {z : State} {s : State} (hs : z.Kept s) : z.KeptBy (execSpinupRetry s) := by
  unfold execSpinupRetry
  repeat' with_reducible first
    | apply keptBy_next | apply keptBy_ite
    | (refine kept_mk ?_ ?_ ?_ ?_ ?_ ?_ ?_ ?_ <;> first | exact rfl | (refine kept_mk (by assumption) ?_ ?_ ?_ ?_ ?_ ?_ ?_ <;> exact rfl) | apply State.requestSpin_kept | apply State.spinMode_kept | apply raise_kept | apply State.eventSrc_kept | apply keptBy_next | apply keptBy_ite | apply kept_ite)

theorem execSpeedLockLoss_kept {z : State} {s : State} (hs : z.Kept s) : z.KeptBy (execSpeedLockLoss s) := by
  unfold execSpeedLockLoss
  repeat' with_reducible first
    | intro _ | apply keptBy_next | apply keptBy_ite
    | (refine kept_mk ?_ ?_ ?_ ?_ ?_ ?_ ?_ ?_ <;> first | exact rfl | (refine kept_mk (by assumption) ?_ ?_ ?_ ?_ ?_ ?_ ?_ <;> exact rfl) | apply raise_kept | apply State.lockEnds_kept | apply State.draw_kept | apply State.spinMode_kept | apply State.spinStop_kept | apply keptBy_next | apply keptBy_ite | apply kept_ite)

theorem execBrakeDone_kept {z : State} {s : State} (hs : z.Kept s) : z.KeptBy (execBrakeDone s) := by
  unfold execBrakeDone
  repeat' with_reducible first
    | apply State.spinMode_kept | apply State.requestSpin_kept | apply keptBy_next | apply keptBy_ite | apply kept_ite
    | (refine kept_mk (by assumption) ?_ ?_ ?_ ?_ ?_ ?_ ?_ <;> exact rfl)

theorem execSpeedChangeDone_kept {z : State} {s : State} (hs : z.Kept s) : z.KeptBy (execSpeedChangeDone s) := by
  unfold execSpeedChangeDone
  repeat' with_reducible first
    | assumption | apply State.lockBegins_kept | apply State.putFld_kept | apply keptBy_next | split

theorem execTokenRequestRepeat_kept {z : State} {s : State} (hs : z.Kept s) : z.KeptBy (execTokenRequestRepeat s) := by
  unfold execTokenRequestRepeat
  repeat' with_reducible first
    | assumption | apply State.askToken_kept | apply keptBy_next | apply kept_ite

theorem execTokenReturnTimer_kept {z : State} {s : State} (hs : z.Kept s) : z.KeptBy (execTokenReturnTimer s) := by
  unfold execTokenReturnTimer
  repeat' with_reducible first
    | assumption | apply State.giveToken_kept | apply keptBy_next | apply kept_ite

theorem execTokenLeaseExpiry_kept {z : State} {slot : Fin 16} {s : State} (hs : z.Kept s) : z.KeptBy (execTokenLeaseExpiry slot s) := by
  unfold execTokenLeaseExpiry
  repeat' with_reducible first
    | intro _ | apply keptBy_next | apply keptBy_ite
    | (refine kept_mk ?_ ?_ ?_ ?_ ?_ ?_ ?_ ?_ <;> first | exact rfl | (refine kept_mk (by assumption) ?_ ?_ ?_ ?_ ?_ ?_ ?_ <;> exact rfl) | apply State.ledgerReturn_kept | apply State.spinFail_kept | apply raise_kept | apply keptBy_next | apply keptBy_ite | apply kept_ite)

theorem execBossHoldExpiry_kept {z : State} {s : State} (hs : z.Kept s) : z.KeptBy (execBossHoldExpiry s) := by
  unfold execBossHoldExpiry
  repeat' with_reducible first
    | apply State.grantAll_kept | apply keptBy_next | apply kept_ite
    | (refine kept_mk (by assumption) ?_ ?_ ?_ ?_ ?_ ?_ ?_ <;> exact rfl)

theorem execSoloWaitExpiry_kept {z : State} {s : State} (hs : z.Kept s) : z.KeptBy (execSoloWaitExpiry s) := by
  unfold execSoloWaitExpiry
  repeat' with_reducible first
    | assumption | apply State.tokenGot_kept | apply keptBy_next | apply kept_ite

theorem execPhaseRefSend_kept {z : State} {s : State} (hs : z.Kept s) : z.KeptBy (execPhaseRefSend s) := by
  unfold execPhaseRefSend
  repeat' with_reducible first
    | assumption | apply State.broadcast_kept | apply keptBy_next | apply kept_ite

theorem execPhaseRefLoss_kept {z : State} {s : State} (hs : z.Kept s) : z.KeptBy (execPhaseRefLoss s) := by
  unfold execPhaseRefLoss
  repeat' with_reducible first
    | apply keptBy_next | (refine kept_mk (by assumption) ?_ ?_ ?_ ?_ ?_ ?_ ?_ <;> exact rfl)

theorem execPfailAssert_kept {z : State} {s : State} (hs : z.Kept s) : z.KeptBy (execPfailAssert s) := by
  unfold execPfailAssert
  repeat' with_reducible first
    | assumption | apply State.pfail_kept | apply keptBy_next

theorem execPfailDeassert_kept {z : State} {s : State} (hs : z.Kept s) : z.KeptBy (execPfailDeassert s) := by
  unfold execPfailDeassert
  repeat' with_reducible first
    | apply keptBy_next | (refine kept_mk (by assumption) ?_ ?_ ?_ ?_ ?_ ?_ ?_ <;> exact rfl)

theorem execPfailRecover_kept {z : State} {s : State} (hs : z.Kept s) : z.KeptBy (execPfailRecover s) := by
  unfold execPfailRecover
  repeat' with_reducible first
    | assumption | apply State.pfailEnds_kept | apply keptBy_next

theorem execTempSample_kept {z : State} {t' : BitVec 16} {s : State} (hs : z.Kept s) : z.KeptBy (execTempSample t' s) := by
  unfold execTempSample
  repeat' with_reducible first
    | apply keptBy_next | apply keptBy_ite
    | (refine kept_mk ?_ ?_ ?_ ?_ ?_ ?_ ?_ ?_ <;> first | exact rfl | (refine kept_mk (by assumption) ?_ ?_ ?_ ?_ ?_ ?_ ?_ <;> exact rfl) | apply raise_kept | apply State.eventSrc_kept | apply State.setW1c_kept | apply keptBy_next | apply keptBy_ite | apply kept_ite)

theorem execReadBlockEnd_kept {z : State} {ch : Fin 16} {bank : Bool} {idx : Fin 1536} {r : ReadRes} {s : State} (hs : z.Kept s) : z.KeptBy (execReadBlockEnd ch bank idx r s) := by
  unfold execReadBlockEnd
  repeat' with_reducible first
    | assumption | apply State.modSlot_kept | apply State.modCh_kept | refine State.count_kept ?_ (by omega)
    | apply State.setW1c_kept | apply State.store_kept | apply State.holdKept_kept | apply State.modRec_kept
    | apply State.pushRes_kept | apply keptBy_next | apply keptBy_ite | apply kept_ite
    | (extract_lets +onlyGivenNames -underBinder x; first | (refine keptBy_cut (x := x) ?_ ?_; intro hx; clear_value x; rotate_left; dsimp only [x]) | (refine kept_cut (x := x) ?_ ?_; intro hx; clear_value x; rotate_left; dsimp only [x]) | skip)
    | split

theorem execVerifyResult_kept {z : State} {ch : Fin 16} {bank : Bool} {idx : Fin 1536} {r : VerifyRes} {s : State} (hs : z.Kept s) : z.KeptBy (execVerifyResult ch bank idx r s) := by
  unfold execVerifyResult
  repeat' with_reducible first
    | assumption | apply State.modCh_kept | apply State.modSlot_kept | refine State.count_kept ?_ (by omega)
    | apply State.rltAdd_kept | apply State.pushRes_kept | apply keptBy_next
    | (extract_lets +onlyGivenNames -underBinder x; first | (refine keptBy_cut (x := x) ?_ ?_; intro hx; clear_value x; rotate_left; dsimp only [x]) | (refine kept_cut (x := x) ?_ ?_; intro hx; clear_value x; rotate_left; dsimp only [x]) | skip)
    | split

theorem execL1Done_kept {z : State} {act : Fin 4} {ok : Bool} {info : List Byte} {s : State} (hs : z.Kept s) : z.KeptBy (execL1Done act ok info s) := by
  unfold execL1Done
  repeat' with_reducible first
    | assumption | apply State.release_kept | apply State.settle_kept | apply State.blockRead_kept
    | apply State.blockLost_kept | apply keptBy_next
    | (extract_lets +onlyGivenNames -underBinder x; first | (refine keptBy_cut (x := x) ?_ ?_; intro hx; clear_value x; rotate_left; dsimp only [x]) | (refine kept_cut (x := x) ?_ ?_; intro hx; clear_value x; rotate_left; dsimp only [x]) | skip)
    | split | (refine kept_mk (by assumption) ?_ ?_ ?_ ?_ ?_ ?_ ?_ <;> exact rfl)

theorem execChBistDone_kept {z : State} {ch : Fin 16} {failed : BitVec 4} {s : State} (hs : z.Kept s) : z.KeptBy (execChBistDone ch failed s) := by
  unfold execChBistDone
  repeat' with_reducible first
    | apply keptBy_next | apply keptBy_ite
    | (refine kept_mk ?_ ?_ ?_ ?_ ?_ ?_ ?_ ?_ <;> first | exact rfl | (refine kept_mk (by assumption) ?_ ?_ ?_ ?_ ?_ ?_ ?_ <;> exact rfl) | apply State.modCh_kept | apply State.event_kept | apply State.testNext_kept | apply keptBy_next | apply keptBy_ite | apply kept_ite)

theorem execGroupDispatch_kept {z : State} {ctx : Fin 5} {s : State} (hs : z.Kept s) : z.KeptBy (execGroupDispatch ctx s) := by
  unfold execGroupDispatch
  repeat' with_reducible first
    | assumption | intro _ | apply State.modSlot_kept | apply State.runVector_kept | apply keptBy_next | apply keptBy_ite
    | refine kept_foldl ?_ ?_ | split

theorem execHarvest_kept {z : State} {ctx : Fin 5} {s : State} (hs : z.Kept s) : z.KeptBy (execHarvest ctx s) := by
  unfold execHarvest
  repeat' with_reducible first
    | assumption | apply State.modCtx_kept | apply keptBy_next | apply keptBy_ite

theorem execTrap_kept {z : State} {ctx : Fin 5} {s : State} (hs : z.Kept s) : z.KeptBy (execTrap ctx s) := by
  unfold execTrap
  repeat' with_reducible first
    | assumption | apply State.modCtx_kept | apply keptBy_next | apply keptBy_ite

theorem execNop_kept {z : State} {ctx : Fin 5} {s : State} (hs : z.Kept s) : z.KeptBy (execNop ctx s) := by
  unfold execNop
  repeat' with_reducible first
    | assumption | intro _ | apply State.microOp_kept | apply State.next_kept | apply keptBy_next

theorem execIssue_kept {z : State} {ctx : Fin 5} {s : State} (hs : z.Kept s) : z.KeptBy (execIssue ctx s) := by
  unfold execIssue
  repeat' with_reducible first
    | assumption | intro _ | apply State.microOp_kept | apply State.issueOp_kept | apply State.next_kept | apply keptBy_next

theorem execIssuew_kept {z : State} {ctx : Fin 5} {s : State} (hs : z.Kept s) : z.KeptBy (execIssuew ctx s) := by
  unfold execIssuew
  repeat' with_reducible first
    | assumption | intro _ | apply State.microOp_kept | apply State.issueOp_kept | apply State.await_kept
    | apply keptBy_next

theorem execIssuewAck_kept {z : State} {ctx : Fin 5} {s : State} (hs : z.Kept s) : z.KeptBy (execIssuewAck ctx s) := by
  unfold execIssuewAck
  repeat' with_reducible first
    | assumption | apply State.resume_kept | apply keptBy_next | apply kept_ite

theorem execIssuewTimeout_kept {z : State} {ctx : Fin 5} {s : State} (hs : z.Kept s) : z.KeptBy (execIssuewTimeout ctx s) := by
  unfold execIssuewTimeout
  repeat' with_reducible first
    | assumption | apply State.modCtx_kept | apply State.resume_kept | apply keptBy_next | apply kept_ite

theorem execHoldExpiry_kept {z : State} {ctx : Fin 5} {s : State} (hs : z.Kept s) : z.KeptBy (execHoldExpiry ctx s) := by
  unfold execHoldExpiry
  repeat' with_reducible first
    | assumption | apply State.modCtx_kept | apply keptBy_next

theorem execWaita_kept {z : State} {ctx : Fin 5} {s : State} (hs : z.Kept s) : z.KeptBy (execWaita ctx s) := by
  unfold execWaita
  repeat' with_reducible first
    | assumption | intro _ | apply State.microOp_kept | apply State.modCtx_kept | apply State.next_kept
    | apply State.missed_kept | apply State.await_kept | apply keptBy_next | apply kept_ite | split

theorem execWaitaReached_kept {z : State} {ctx : Fin 5} {s : State} (hs : z.Kept s) : z.KeptBy (execWaitaReached ctx s) := by
  unfold execWaitaReached
  repeat' with_reducible first
    | assumption | apply State.resume_kept | apply State.toAngle_kept | apply keptBy_next | split

theorem execWaitc_kept {z : State} {ctx : Fin 5} {s : State} (hs : z.Kept s) : z.KeptBy (execWaitc ctx s) := by
  unfold execWaitc
  repeat' with_reducible first
    | assumption | intro _ | apply State.microOp_kept | apply State.next_kept | apply State.await_kept | apply keptBy_next
    | apply kept_ite

theorem execWaitcMet_kept {z : State} {ctx : Fin 5} {s : State} (hs : z.Kept s) : z.KeptBy (execWaitcMet ctx s) := by
  unfold execWaitcMet
  repeat' with_reducible first
    | assumption | apply State.resume_kept | apply keptBy_next | split

theorem execWaitcTimeout_kept {z : State} {ctx : Fin 5} {s : State} (hs : z.Kept s) : z.KeptBy (execWaitcTimeout ctx s) := by
  unfold execWaitcTimeout
  repeat' with_reducible first
    | assumption | apply State.modCtx_kept | apply State.resume_kept | apply keptBy_next
    | (extract_lets +onlyGivenNames -underBinder x; first | (refine keptBy_cut (x := x) ?_ ?_; intro hx; clear_value x; rotate_left; dsimp only [x]) | (refine kept_cut (x := x) ?_ ?_; intro hx; clear_value x; rotate_left; dsimp only [x]) | skip)
    | split

theorem execBr_kept {z : State} {ctx : Fin 5} {s : State} (hs : z.Kept s) : z.KeptBy (execBr ctx s) := by
  unfold execBr
  repeat' with_reducible first
    | assumption | intro _ | apply State.microOp_kept | apply State.jump_kept | apply State.next_kept | apply keptBy_next
    | apply kept_ite

theorem execJmp_kept {z : State} {ctx : Fin 5} {s : State} (hs : z.Kept s) : z.KeptBy (execJmp ctx s) := by
  unfold execJmp
  repeat' with_reducible first
    | assumption | intro _ | apply State.microOp_kept | apply State.jump_kept | apply keptBy_next

theorem execCallOp_kept {z : State} {ctx : Fin 5} {s : State} (hs : z.Kept s) : z.KeptBy (execCallOp ctx s) := by
  unfold execCallOp
  repeat' with_reducible first
    | assumption | intro _ | apply State.microOp_kept | apply State.haltCtx_kept | apply State.setW1c_kept
    | apply State.jump_kept | apply State.modCtx_kept | apply keptBy_next | apply kept_ite

theorem execRet_kept {z : State} {ctx : Fin 5} {s : State} (hs : z.Kept s) : z.KeptBy (execRet ctx s) := by
  unfold execRet
  repeat' with_reducible first
    | assumption | intro _ | apply State.microOp_kept | apply State.endHarvest_kept | apply State.modCtx_kept
    | apply State.dropSlot_kept | apply State.endRoutine_kept | apply keptBy_next | apply kept_ite | refine kept_foldl ?_ ?_
    | split

theorem execLoopOp_kept {z : State} {ctx : Fin 5} {s : State} (hs : z.Kept s) : z.KeptBy (execLoopOp ctx s) := by
  unfold execLoopOp
  repeat' with_reducible first
    | assumption | intro _ | apply State.microOp_kept | apply State.modCtx_kept | apply State.jump_kept
    | apply State.next_kept | apply keptBy_next | apply kept_ite

theorem execLdc_kept {z : State} {ctx : Fin 5} {s : State} (hs : z.Kept s) : z.KeptBy (execLdc ctx s) := by
  unfold execLdc
  repeat' with_reducible first
    | assumption | intro _ | apply State.microOp_kept | apply State.next_kept | apply State.modCtx_kept | apply keptBy_next

theorem execSetf_kept {z : State} {ctx : Fin 5} {s : State} (hs : z.Kept s) : z.KeptBy (execSetf ctx s) := by
  unfold execSetf
  repeat' with_reducible first
    | assumption | intro _ | apply State.microOp_kept | apply State.next_kept | apply State.modCtx_kept | apply keptBy_next

theorem execClrf_kept {z : State} {ctx : Fin 5} {s : State} (hs : z.Kept s) : z.KeptBy (execClrf ctx s) := by
  unfold execClrf
  repeat' with_reducible first
    | assumption | intro _ | apply State.microOp_kept | apply State.next_kept | apply State.modCtx_kept | apply keptBy_next

theorem execEvt_kept {z : State} {ctx : Fin 5} {s : State} (hs : z.Kept s) : z.KeptBy (execEvt ctx s) := by
  unfold execEvt
  repeat' with_reducible first
    | assumption | intro _ | apply State.microOp_kept | apply State.next_kept | apply State.event_kept | apply keptBy_next

theorem execTrapret_kept {z : State} {ctx : Fin 5} {s : State} (hs : z.Kept s) : z.KeptBy (execTrapret ctx s) := by
  unfold execTrapret
  repeat' with_reducible first
    | assumption | intro _ | apply State.microOp_kept | apply State.next_kept | apply State.modCtx_kept | apply keptBy_next
    | split

theorem execHalt_kept {z : State} {ctx : Fin 5} {s : State} (hs : z.Kept s) : z.KeptBy (execHalt ctx s) := by
  unfold execHalt
  repeat' with_reducible first
    | assumption | intro _ | apply State.microOp_kept | apply State.haltCtx_kept | apply keptBy_next

theorem execMicrocodeBoot_kept {z : State} {primary : List Byte} {alternate : List Byte} {s : State} (hs : z.Kept s) : z.KeptBy (execMicrocodeBoot primary alternate s) := by
  unfold execMicrocodeBoot
  repeat' with_reducible first
    | assumption | apply State.setReady_kept | apply State.installImage_kept | apply State.event_kept | apply keptBy_next
    | apply keptBy_ite

theorem execMicrocodeInstall_kept {z : State} {s : State} (hs : z.Kept s) : z.KeptBy (execMicrocodeInstall s) := by
  unfold execMicrocodeInstall
  repeat' with_reducible first
    | assumption | apply State.finish_kept | apply State.installImage_kept | apply keptBy_next | split

theorem execReconstructDone_kept {z : State} {act : Fin 4} {s : State} (hs : z.Kept s) : z.KeptBy (execReconstructDone act s) := by
  unfold execReconstructDone
  repeat' with_reducible first
    | assumption | apply State.settle_kept | apply State.reconstruct_kept | apply keptBy_next | split

theorem execChunkCompressDone_kept {z : State} {k' : Fin 4} {deflated : Nat} {s : State} (hs : z.Kept s) : z.KeptBy (execChunkCompressDone k' deflated s) := by
  unfold execChunkCompressDone
  repeat' with_reducible first
    | apply State.modEngine_kept | apply State.engineFree_kept | refine State.count_kept ?_ (by omega) | apply keptBy_next
    | (extract_lets +onlyGivenNames -underBinder x; first | (refine keptBy_cut (x := x) ?_ ?_; intro hx; clear_value x; rotate_left; dsimp only [x]) | (refine kept_cut (x := x) ?_ ?_; intro hx; clear_value x; rotate_left; dsimp only [x]) | skip)
    | split | (refine kept_mk (by assumption) ?_ ?_ ?_ ?_ ?_ ?_ ?_ <;> exact rfl)

theorem execCmpOutputResume_kept {z : State} {k' : Fin 4} {s : State} (hs : z.Kept s) : z.KeptBy (execCmpOutputResume k' s) := by
  unfold execCmpOutputResume
  repeat' with_reducible first
    | assumption | apply State.modEngine_kept | apply keptBy_next

theorem execCryUnitDone_kept {z : State} {lane : Fin 4} {s : State} (hs : z.Kept s) : z.KeptBy (execCryUnitDone lane s) := by
  unfold execCryUnitDone
  repeat' with_reducible first
    | refine State.count_kept ?_ (by omega) | apply State.decryptUnit_kept | apply State.encryptUnit_kept
    | apply State.startLanes_kept | apply State.cryRequested_kept | apply State.settle_kept | apply State.pumpParity_kept
    | apply State.pumpWrites_kept | apply keptBy_next | split
    | (refine kept_mk (by assumption) ?_ ?_ ?_ ?_ ?_ ?_ ?_ <;> exact rfl)

theorem execDecompressDone_kept {z : State} {k' : Fin 4} {s : State} (hs : z.Kept s) : z.KeptBy (execDecompressDone k' s) := by
  unfold execDecompressDone
  repeat' with_reducible first
    | assumption | apply State.endChunk_kept | apply State.engineFree_kept | apply keptBy_next
    | (extract_lets +onlyGivenNames -underBinder x; first | (refine keptBy_cut (x := x) ?_ ?_; intro hx; clear_value x; rotate_left; dsimp only [x]) | (refine kept_cut (x := x) ?_ ?_; intro hx; clear_value x; rotate_left; dsimp only [x]) | skip)
    | split

theorem execCommitRecordWrite_kept {z : State} {csec : Word} {ok1 : Bool} {ok2 : Bool} {s : State} (hs : z.Kept s) : z.KeptBy (execCommitRecordWrite csec ok1 ok2 s) := by
  unfold execCommitRecordWrite
  repeat' with_reducible first
    | assumption | apply State.failCommit_kept | apply State.jwait_kept | apply State.tryRec_kept
    | apply State.commitUnit_kept | apply keptBy_next | split

theorem execCheckpointDone_kept {z : State} {s : State} (hs : z.Kept s) : z.KeptBy (execCheckpointDone s) := by
  unfold execCheckpointDone
  repeat' with_reducible first
    | apply State.pumpWrites_kept | apply State.putRec_kept | apply keptBy_next | split
    | (refine kept_mk (by assumption) ?_ ?_ ?_ ?_ ?_ ?_ ?_ <;> exact rfl)

theorem execCopyInPlaceDone_kept {z : State} {csec : Word} {s : State} (hs : z.Kept s) : z.KeptBy (execCopyInPlaceDone csec s) := by
  unfold execCopyInPlaceDone
  repeat' with_reducible first
    | apply keptBy_next | split
    | (refine kept_mk ?_ ?_ ?_ ?_ ?_ ?_ ?_ ?_ <;> first | exact rfl | (refine kept_mk (by assumption) ?_ ?_ ?_ ?_ ?_ ?_ ?_ <;> exact rfl) | apply State.jwait_kept | apply State.putRec_kept | apply State.settle_kept | apply State.wakeData_kept | apply State.wakeWaiters_kept | apply State.pumpWrites_kept | apply keptBy_next | apply keptBy_ite | apply kept_ite)

theorem execBufInitDone_kept {z s : State} (hs : z.Kept s) : z.KeptBy (execBufInitDone s) := by
  unfold execBufInitDone
  split
  · exact keptBy_next hs
  · refine keptBy_next (State.setReady_kept (State.setReady_kept ?_))
    exact kept_trans hs ⟨rfl, fun _ => rfl, id, ⟨id, Nat.le_refl _, Nat.le_refl _, rfl, id⟩, List.suffix_refl _⟩

theorem State.rewriteGranule_kept {z s : State} {g : Nat} (hs : z.Kept s) : z.Kept (s.rewriteGranule g) :=
  kept_mk hs rfl rfl rfl rfl rfl rfl rfl

theorem execSheepdogStep_kept {z : State} {syn : List Byte} {partnerOk : Bool} {s : State} (hs : z.Kept s) : z.KeptBy (execSheepdogStep syn partnerOk s) := by
  unfold execSheepdogStep
  repeat' with_reducible first
    | apply keptBy_next | apply keptBy_ite
    | (refine kept_mk ?_ ?_ ?_ ?_ ?_ ?_ ?_ ?_ <;> first | exact rfl | (refine kept_mk (by assumption) ?_ ?_ ?_ ?_ ?_ ?_ ?_ <;> exact rfl) | apply State.eccReads_kept | apply State.rewriteGranule_kept | apply keptBy_next | apply keptBy_ite | apply kept_ite)

theorem execSheepdogRewrite_kept {z : State} {idx : Fin 64} {s : State} (hs : z.Kept s) : z.KeptBy (execSheepdogRewrite idx s) := by
  unfold execSheepdogRewrite
  repeat' with_reducible first
    | apply State.event_kept | apply State.rewriteGranule_kept | apply keptBy_next | split
    | (refine kept_mk (by assumption) ?_ ?_ ?_ ?_ ?_ ?_ ?_ <;> exact rfl)

theorem execDmaBurst_kept {z : State} {syn : List Byte} {s : State} (hs : z.Kept s) : z.KeptBy (execDmaBurst syn s) := by
  unfold execDmaBurst
  repeat' with_reducible first
    | intro _ | apply keptBy_next | apply keptBy_ite | split
    | (refine kept_mk ?_ ?_ ?_ ?_ ?_ ?_ ?_ ?_ <;> first | exact rfl | (refine kept_mk (by assumption) ?_ ?_ ?_ ?_ ?_ ?_ ?_ <;> exact rfl) | apply raise_kept | apply State.setW1c_kept | apply State.modDma_kept | apply State.eccReads_kept | refine State.count_kept ?_ (by omega) | apply keptBy_next | apply keptBy_ite | apply kept_ite | refine kept_foldl ?_ ?_ | refine kept_foldl_fst ?_ ?_ | refine kept_foldl_snd ?_ ?_)

theorem execDmaPauseDrained_kept {z : State} {n : Fin 32} {s : State} (hs : z.Kept s) : z.KeptBy (execDmaPauseDrained n s) := by
  unfold execDmaPauseDrained
  repeat' with_reducible first
    | apply keptBy_next | apply keptBy_ite | (refine kept_mk (by assumption) ?_ ?_ ?_ ?_ ?_ ?_ ?_ <;> exact rfl)

theorem execMapFillDone_kept {z : State} {line : BitVec 24} {syn : List Byte} {s : State} (hs : z.Kept s) : z.KeptBy (execMapFillDone line syn s) := by
  unfold execMapFillDone
  repeat' with_reducible first
    | apply State.eccReads_kept | apply State.fillWay_kept | apply State.mapAlloc_kept | apply keptBy_next
    | (extract_lets +onlyGivenNames -underBinder x; first | (refine keptBy_cut (x := x) ?_ ?_; intro hx; clear_value x; rotate_left; dsimp only [x]) | (refine kept_cut (x := x) ?_ ?_; intro hx; clear_value x; rotate_left; dsimp only [x]) | skip)
    | split | (refine kept_mk (by assumption) ?_ ?_ ?_ ?_ ?_ ?_ ?_ <;> exact rfl)

theorem execMapMaintDone_kept {z s : State} (hs : z.Kept s) : z.KeptBy (execMapMaintDone s) := by
  unfold execMapMaintDone
  split
  · exact keptBy_next hs
  · rename_i op l _
    refine keptBy_ite (keptBy_next hs) (keptBy_next ?_)
    have h1 : z.Kept { s with map.maint := none } := kept_upd hs rfl rfl rfl rfl rfl rfl rfl rfl
    generalize ({ s with map.maint := none } : State) = x at h1
    dsimp only
    split
    · exact State.mapClean_kept h1
    · exact State.mapClean_kept h1
    · have h2 : z.Kept ((List.range 8).foldl (fun s i => s.freshWord (8 * l.toNat + i))
          (x.store (64 * l.toNat) (List.replicate 64 0))) :=
        kept_foldl (State.store_kept h1) fun s i hs => State.freshWord_kept hs
      generalize (List.range 8).foldl (fun s i => s.freshWord (8 * l.toNat + i))
        (x.store (64 * l.toNat) (List.replicate 64 0)) = y at h2
      refine kept_ite h2 ?_
      split
      · exact State.touchWay_kept (State.setWay_kept h2)
      · exact State.mapAlloc_kept h2
    · exact State.cleanMap_kept h1
    · exact kept_upd (State.cleanMap_kept h1) rfl rfl rfl rfl rfl rfl rfl rfl
    · exact h1

theorem execMapDisableDone_kept {z : State} {s : State} (hs : z.Kept s) : z.KeptBy (execMapDisableDone s) := by
  unfold execMapDisableDone
  repeat' with_reducible first
    | apply keptBy_next | apply keptBy_ite
    | (refine kept_mk ?_ ?_ ?_ ?_ ?_ ?_ ?_ ?_ <;> first | exact rfl | (refine kept_mk (by assumption) ?_ ?_ ?_ ?_ ?_ ?_ ?_ <;> exact rfl) | apply State.cleanMap_kept | apply State.putFld_kept | apply keptBy_next | apply keptBy_ite | apply kept_ite)

theorem execLocatorIndexBuildDone_kept {z : State} {zone : Nat} {ok : Bool} {locs : List Locator} {s : State} (hs : z.Kept s) : z.KeptBy (execLocatorIndexBuildDone zone ok locs s) := by
  unfold execLocatorIndexBuildDone
  repeat' with_reducible first
    | intro _ | apply keptBy_next | apply keptBy_ite
    | (refine kept_mk ?_ ?_ ?_ ?_ ?_ ?_ ?_ ?_ <;> first | exact rfl | (refine kept_mk (by assumption) ?_ ?_ ?_ ?_ ?_ ?_ ?_ <;> exact rfl) | apply State.settle_kept | apply State.modZone_kept | apply raise_kept | apply State.endCmd_kept | apply keptBy_next | apply keptBy_ite | apply kept_ite | refine kept_foldl ?_ ?_ | refine kept_foldl_fst ?_ ?_ | refine kept_foldl_snd ?_ ?_)

theorem execPhaseRef_kept {z : State} {src : BitVec 12} {rpm : BitVec 16} {angleAtArrival : BitVec 22} {s : State} (hs : z.Kept s) : z.KeptBy (execPhaseRef src rpm angleAtArrival s) := by
  unfold execPhaseRef
  repeat' with_reducible first
    | assumption | apply State.gotPhaseRef_kept | apply keptBy_next | apply kept_ite

theorem execTokenReq_kept {z : State} {src : BitVec 12} {shelf : Byte} {slot : Fin 16} {_held : Byte} {s : State} (hs : z.Kept s) : z.KeptBy (execTokenReq src shelf slot _held s) := by
  unfold execTokenReq
  repeat' with_reducible first
    | assumption | apply State.gotTokenReq_kept | apply keptBy_next | apply kept_ite

theorem execTokenGrant_kept {z : State} {src : BitVec 12} {s : State} (hs : z.Kept s) : z.KeptBy (execTokenGrant src s) := by
  unfold execTokenGrant
  repeat' with_reducible first
    | assumption | apply State.gotTokenGrant_kept | apply keptBy_next | apply kept_ite

theorem execTokenReturn_kept {z : State} {src : BitVec 12} {shelf : Byte} {slot : Fin 16} {_held : Byte} {s : State} (hs : z.Kept s) : z.KeptBy (execTokenReturn src shelf slot _held s) := by
  unfold execTokenReturn
  repeat' with_reducible first
    | assumption | apply State.gotTokenReturn_kept | apply keptBy_next | apply kept_ite

theorem execLedgerQuery_kept {z : State} {src : BitVec 12} {s : State} (hs : z.Kept s) : z.KeptBy (execLedgerQuery src s) := by
  unfold execLedgerQuery
  repeat' with_reducible first
    | assumption | apply State.gotLedgerQuery_kept | apply keptBy_next | apply kept_ite

theorem execLedgerHeld_kept {z : State} {src : BitVec 12} {slot : Fin 16} {held : Byte} {s : State} (hs : z.Kept s) : z.KeptBy (execLedgerHeld src slot held s) := by
  unfold execLedgerHeld
  repeat' with_reducible first
    | assumption | apply State.gotLedgerHeld_kept | apply keptBy_next | apply kept_ite

theorem execPartReset_kept {z : State} {s : State} (hs : z.Kept s) : z.KeptBy (execPartReset s) := by
  unfold execPartReset
  repeat' with_reducible first
    | assumption | apply State.partReset_kept | apply keptBy_next

theorem execPalAck_kept {z : State} {act : Fin 4} {frame : BitVec 48} {s : State} (hs : z.Kept s) : z.KeptBy (execPalAck act frame s) := by
  unfold execPalAck
  repeat' with_reducible first
    | assumption | apply State.modAct_kept | apply keptBy_next | apply keptBy_ite

theorem execPalStatus_kept {z : State} {act : Fin 4} {frame : BitVec 48} {s : State} (hs : z.Kept s) : z.KeptBy (execPalStatus act frame s) := by
  unfold execPalStatus
  repeat' with_reducible first
    | assumption | apply State.modAct_kept | apply keptBy_next | apply keptBy_ite

theorem execPalAckTimeout_kept {z : State} {act : Fin 4} {pos : Fin 4} {s : State} (hs : z.Kept s) : z.KeptBy (execPalAckTimeout act pos s) := by
  unfold execPalAckTimeout
  repeat' with_reducible first
    | assumption | apply State.modAct_kept | apply State.send_kept | apply raise_kept | apply keptBy_next | split

theorem execPartResetDelayExpiry_kept {z : State} {s : State} (hs : z.Kept s) : z.KeptBy (execPartResetDelayExpiry s) := by
  unfold execPartResetDelayExpiry
  repeat' with_reducible first
    | assumption | apply State.partReset_kept | apply keptBy_next | apply kept_ite

end Sys2Proof.Machine
end

