-- ==== Sys2Proof/Laws/KeptSecurity.lean ====
section
/-! SUPPORT. What each operation and each meaning keeps (`State.Kept`): security, system records, set-up and replay. One lemma per definition,
from those of the definitions it calls. -/
namespace Sys2Proof.Machine

open Sys2Proof

theorem State.auditFree_kept {z : State} {s : State} (hs : z.Kept s) : z.Kept (State.auditFree s) := by
  unfold State.auditFree
  repeat' with_reducible first
    | assumption | apply State.audit_kept | apply State.draw_kept

theorem State.secEnd_kept {z : State} {s : State} {v : Via} {status : Nat} {result : Nat} {data : List Byte} (hs : z.Kept s) : z.Kept (State.secEnd s v status result data) := by
  unfold State.secEnd
  repeat' with_reducible first
    | apply State.reply_kept | split | (refine kept_mk (by assumption) ?_ ?_ ?_ ?_ ?_ ?_ ?_ <;> exact rfl)

theorem State.secFail_kept {z : State} {s : State} {v : Via} {cause : Nat} (hs : z.Kept s) : z.Kept (State.secFail s v cause) := by
  unfold State.secFail
  repeat' with_reducible first
    | assumption | apply State.secEnd_kept

theorem State.authFail_kept {z : State} {s : State} {v : Via} {r : Role} {cause : Nat} (hs : z.Kept s) : z.Kept (State.authFail s v r cause) := by
  unfold State.authFail
  repeat' with_reducible first
    | (refine kept_mk ?_ ?_ ?_ ?_ ?_ ?_ ?_ ?_ <;> first | exact rfl | (refine kept_mk (by assumption) ?_ ?_ ?_ ?_ ?_ ?_ ?_ <;> exact rfl) | apply State.audit_kept | apply State.secFail_kept | apply kept_ite | (refine kept_mk ?_ ?_ ?_ ?_ ?_ ?_ ?_ ?_ <;> first | exact rfl | (refine kept_mk (by assumption) ?_ ?_ ?_ ?_ ?_ ?_ ?_ <;> exact rfl) | apply State.audit_kept | apply State.secFail_kept | apply kept_ite))

theorem State.ignoreWrite_kept {z : State} {s : State} {w : Writer} {off : Nat} {cause : Nat} (hs : z.Kept s) : z.Kept (State.ignoreWrite s w off cause) := by
  unfold State.ignoreWrite
  repeat' with_reducible first
    | refine State.count_kept ?_ (by omega) | (refine kept_mk (by assumption) ?_ ?_ ?_ ?_ ?_ ?_ ?_ <;> exact rfl)

theorem State.denyWrite_kept {z : State} {s : State} (hs : z.Kept s) : z.Kept (State.denyWrite s) := by
  unfold State.denyWrite
  repeat' with_reducible first
    | (refine kept_mk (by assumption) ?_ ?_ ?_ ?_ ?_ ?_ ?_ <;> exact rfl)

theorem State.startSave_kept {z : State} {s : State} {rs : List Role} (hs : z.Kept s) : z.Kept (State.startSave s rs) := by
  unfold State.startSave
  repeat' with_reducible first
    | (refine kept_mk (by assumption) ?_ ?_ ?_ ?_ ?_ ?_ ?_ <;> exact rfl)

theorem State.startClear_kept {z : State} {s : State} {rs : List Role} (hs : z.Kept s) : z.Kept (State.startClear s rs) := by
  unfold State.startClear
  repeat' with_reducible first
    | (refine kept_mk (by assumption) ?_ ?_ ?_ ?_ ?_ ?_ ?_ <;> exact rfl)

theorem State.secBad_kept {z : State} {s : State} {v : Via} {ofs : Nat} (hs : z.Kept s) : z.Kept (State.secBad s v ofs) := by
  unfold State.secBad
  repeat' with_reducible first
    | assumption | apply State.secEnd_kept

theorem State.mboxGo_kept {z : State} {s : State} (hs : z.Kept s) : z.Kept (State.mboxGo s) := by
  unfold State.mboxGo
  repeat' with_reducible first
    | apply State.secBad_kept | apply kept_ite | (refine kept_mk (by assumption) ?_ ?_ ?_ ?_ ?_ ?_ ?_ <;> exact rfl)

theorem State.mboxFree_kept {z : State} {s : State} (hs : z.Kept s) : z.Kept (State.mboxFree s) := by
  unfold State.mboxFree
  repeat' with_reducible first
    | apply kept_ite | (refine kept_mk (by assumption) ?_ ?_ ?_ ?_ ?_ ?_ ?_ <;> exact rfl)

theorem State.dropChallenge_kept {z : State} {s : State} {w : Chan × BitVec 12} (hs : z.Kept s) : z.Kept (State.dropChallenge s w) := by
  unfold State.dropChallenge
  repeat' with_reducible first
    | (refine kept_mk (by assumption) ?_ ?_ ?_ ?_ ?_ ?_ ?_ <;> exact rfl)

theorem State.emptyZones_kept {z : State} {s : State} {p : Nat → Zone → Bool} (hs : z.Kept s) : z.Kept (State.emptyZones s p) := by
  unfold State.emptyZones
  repeat' with_reducible first
    | assumption | intro _ | apply State.emptyZone_kept | apply State.killUnit_kept | apply kept_ite
    | refine kept_foldl ?_ ?_

theorem State.endConsent_kept {z : State} {s : State} (hs : z.Kept s) : z.Kept (State.endConsent s) := by
  unfold State.endConsent
  repeat' with_reducible first
    | apply State.endSessions_kept | (refine kept_mk (by assumption) ?_ ?_ ?_ ?_ ?_ ?_ ?_ <;> exact rfl)

theorem State.enforce_kept {z : State} {s : State} {ty : Nat} {a2 : Nat} {b : List Byte} (hs : z.Kept s) : z.Kept (State.enforce s ty a2 b) := by
  unfold State.enforce
  repeat' with_reducible first
    | (refine kept_mk ?_ ?_ ?_ ?_ ?_ ?_ ?_ ?_ <;> first | exact rfl | (refine kept_mk (by assumption) ?_ ?_ ?_ ?_ ?_ ?_ ?_ <;> exact rfl) | apply State.changeSpeed_kept | apply kept_ite | refine kept_foldl ?_ ?_)

theorem State.foundRec_kept {z : State} {s : State} {found : List SysRec} {ty : Nat} {a3 : Nat} (hs : z.Kept s) : z.Kept (State.foundRec s found ty a3) := by
  unfold State.foundRec
  dsimp only
  repeat' with_reducible first
    | assumption | apply State.putFld_kept | apply State.enforce_kept | split

theorem State.newKey_kept {z : State} {s : State} {r : Nat} (hs : z.Kept s) : z.Kept (State.newKey s r) := by
  unfold State.newKey
  repeat' with_reducible first
    | (refine kept_mk ?_ ?_ ?_ ?_ ?_ ?_ ?_ ?_ <;> first | exact rfl | (refine kept_mk (by assumption) ?_ ?_ ?_ ?_ ?_ ?_ ?_ <;> exact rfl) | apply State.draw_kept | apply State.modRange_kept | apply kept_ite)

theorem State.integrationRange_kept {z : State} {s : State} (hs : z.Kept s) : z.Kept (State.integrationRange s) := by
  unfold State.integrationRange
  repeat' with_reducible first
    | assumption | apply State.newKey_kept | apply State.modRange_kept
    | (extract_lets +onlyGivenNames -underBinder x; first | (refine kept_cut (x := x) ?_ ?_; intro hx; clear_value x; rotate_left; dsimp only [x]) | skip)
    | (refine kept_mk (by assumption) ?_ ?_ ?_ ?_ ?_ ?_ ?_ <;> exact rfl)

theorem State.secWait_kept {z : State} {s : State} {v : Via} {st : CmdSt} (hs : z.Kept s) : z.Kept (State.secWait s v st) := by
  unfold State.secWait
  repeat' with_reducible first
    | apply State.modCmd_kept | split | (refine kept_mk (by assumption) ?_ ?_ ?_ ?_ ?_ ?_ ?_ <;> exact rfl)

theorem State.secRun_kept {z : State} {s : State} {v : Via} {send : Bool} {proto : Nat} {msg : Nat} {ok : Bool} {f : State → State} (hs : z.Kept s) (hf : ∀ s, z.Kept s → z.Kept (f s)) : z.Kept (State.secRun s v send proto msg ok f) := by
  unfold State.secRun
  repeat' with_reducible first
    | assumption | apply State.secFail_kept | apply State.draw_kept | apply State.secWait_kept | apply State.secEnd_kept
    | apply hf | split

theorem State.roleAct_kept {z : State} {s : State} {v : Via} {f : State → State} (hs : z.Kept s) (hf : ∀ s, z.Kept s → z.Kept (f s)) : z.Kept (State.roleAct s v f) := by
  unfold State.roleAct
  repeat' with_reducible first
    | assumption | apply State.secFail_kept | apply hf | apply kept_ite

theorem State.secOk_kept {z : State} {s : State} {v : Via} {result : Nat} (hs : z.Kept s) : z.Kept (State.secOk s v result) := by
  unfold State.secOk
  repeat' with_reducible first
    | assumption | apply State.secEnd_kept

theorem State.keysAct_kept {z : State} {s : State} {v : Via} {act : Nat} {r : Nat} {judge : State → Nat} {waits : Bool} {f : State → State} (hs : z.Kept s) (hf : ∀ s, z.Kept s → z.Kept (f s)) : z.Kept (State.keysAct s v act r judge waits f) := by
  unfold State.keysAct
  repeat' with_reducible first
    | assumption | intro _ | apply State.secRun_kept | apply State.roleAct_kept | apply State.secFail_kept
    | apply State.audit_kept | apply State.secWait_kept | apply State.secOk_kept | apply hf | apply kept_ite

theorem State.lifeAct_kept {z s : State} {v : Via} {msg : Nat} {ok : Bool} {len : Nat} {frm : List Life} {dest : Life}
    {role : Life → Role} {chk : State → Session → Nat × State} {f : State → State} (hs : z.Kept s)
    (hfrm : frm.contains .decommissioned = false) (hchk : ∀ s x, z.Kept s → z.Kept (chk s x).2)
    (hf : ∀ s, z.Kept s → z.Kept (f s)) : z.Kept (s.lifeAct v msg ok len frm dest role chk f) := by
  unfold State.lifeAct
  refine State.secRun_kept hs fun s hs => kept_ite (State.secBad_kept hs) (State.roleAct_kept hs fun s hs => ?_)
  dsimp only
  split
  · exact State.secFail_kept (State.audit_kept hs)
  · rename_i hin
    have hz : z.nv.life ≠ .decommissioned := fun e => by
      rw [hs.holds.life e, hfrm] at hin; exact hin rfl
    split
    · exact State.secFail_kept (State.audit_kept hs)
    · have hc := hchk s ‹_› hs
      split
      · exact State.secFail_kept (kept_ite (State.audit_kept hc) hc)
      · exact State.secOk_kept (State.endSessions_kept (kept_life (hf _ (State.audit_kept hc)) hz))

theorem State.loadCkpt_kept {z : State} {s : State} (hs : z.Kept s) : z.Kept (State.loadCkpt s) := by
  unfold State.loadCkpt
  repeat' with_reducible first
    | apply raise_kept | apply kept_ite | split | (refine kept_mk (by assumption) ?_ ?_ ?_ ?_ ?_ ?_ ?_ <;> exact rfl)

theorem State.loadKey_kept {z : State} {s : State} {r : Nat} (hs : z.Kept s) : z.Kept (State.loadKey s r) := by
  unfold State.loadKey
  repeat' with_reducible first
    | apply State.modRange_kept | (refine kept_mk (by assumption) ?_ ?_ ?_ ?_ ?_ ?_ ?_ <;> exact rfl)

theorem State.peercertAct_kept {z : State} {s : State} {v : Via} {msg : Nat} {kind : Nat} {len : Nat} {ok : Bool} {good : Bool} {aid : Nat} {f : State → State} (hs : z.Kept s) (hf : ∀ s, z.Kept s → z.Kept (f s)) : z.Kept (State.peercertAct s v msg kind len ok good aid f) := by
  unfold State.peercertAct
  repeat' with_reducible first
    | assumption | intro _ | apply State.secRun_kept | apply State.secBad_kept | apply State.roleAct_kept
    | apply State.secFail_kept | apply State.audit_kept | apply State.secOk_kept | apply hf | split

theorem State.proof_kept {z : State} {s : State} {w : Chan × BitVec 12} {role : Nat} {cid : Word} {key : List Byte} {sig : List Byte} (hs : z.Kept s) : z.Kept (State.proof s w role cid key sig).2 := by
  unfold State.proof
  repeat' with_reducible first
    | assumption | apply State.dropChallenge_kept | split
theorem State.proof_keptE {z : State} {s : State} {w : Chan × BitVec 12} {role : Nat} {cid : Word} {key : List Byte} {sig : List Byte} {t : State} {o : Nat} (e : State.proof s w role cid key sig = (o, t)) (hs : z.Kept s) : z.Kept t := by
  have k := State.proof_kept (z := z) (s := s) (w := w) (role := role) (cid := cid) (key := key) (sig := sig) hs
  rw [e] at k; exact k

theorem State.replaceKeys_kept {z : State} {s : State} {act : BitVec 4} {rg : Byte} (hs : z.Kept s) : z.Kept (State.replaceKeys s act rg).1 := by
  unfold State.replaceKeys
  repeat' with_reducible first
    | assumption | apply State.newKey_kept | refine kept_foldl ?_ ?_
theorem State.replaceKeys_keptE {z : State} {s : State} {act : BitVec 4} {rg : Byte} {t : State} {o : Nat} (e : State.replaceKeys s act rg = (t, o)) (hs : z.Kept s) : z.Kept t := by
  have k := State.replaceKeys_kept (z := z) (s := s) (act := act) (rg := rg) hs
  rw [e] at k; exact k

theorem State.replayOpen_kept {z : State} {s : State} {z' : Nat} {a2 : Fin 4} (hs : z.Kept s) : z.Kept (State.replayOpen s z' a2) := by
  unfold State.replayOpen
  repeat' with_reducible first
    | assumption | apply State.modZone_kept | apply kept_ite

theorem State.replayRec_kept {z : State} {s : State} {r : JRec} (hs : z.Kept s) : z.Kept (State.replayRec s r) := by
  unfold State.replayRec
  repeat' with_reducible first
    | assumption | apply State.replayOpen_kept | apply State.modZone_kept | apply kept_ite
    | (extract_lets +onlyGivenNames -underBinder x; first | (refine kept_cut (x := x) ?_ ?_; intro hx; clear_value x; rotate_left; dsimp only [x]) | skip)
    | (refine kept_mk (by assumption) ?_ ?_ ?_ ?_ ?_ ?_ ?_ <;> exact rfl)

theorem State.replayStaged_kept {z : State} {s : State} {r : JRec} (hs : z.Kept s) : z.Kept (State.replayStaged s r) := by
  unfold State.replayStaged
  repeat' with_reducible first
    | intro _ | apply State.addWork_kept | refine kept_foldl ?_ ?_
    | (extract_lets +onlyGivenNames -underBinder x; first | (refine kept_cut (x := x) ?_ ?_; intro hx; clear_value x; rotate_left; dsimp only [x]) | skip)
    | split | (refine kept_mk (by assumption) ?_ ?_ ?_ ?_ ?_ ?_ ?_ <;> exact rfl)

theorem State.sanZones_kept {z : State} {s : State} {act : BitVec 4} {rg : Byte} (hs : z.Kept s) : z.Kept (State.sanZones s act rg) := by
  unfold State.sanZones
  repeat' with_reducible first
    | intro _
    | (refine kept_mk ?_ ?_ ?_ ?_ ?_ ?_ ?_ ?_ <;> first | exact rfl | (refine kept_mk (by assumption) ?_ ?_ ?_ ?_ ?_ ?_ ?_ <;> exact rfl) | apply State.emptyZones_kept | apply State.killUnit_kept | apply State.rltWrite_kept | apply kept_ite | refine kept_foldl ?_ ?_)

theorem State.sanitize_kept {z : State} {s : State} {tag : BitVec 16} {act : BitVec 4} (hs : z.Kept s) : z.Kept (State.sanitize s tag act) := by
  unfold State.sanitize
  repeat' with_reducible first
    | split
    | (refine kept_mk ?_ ?_ ?_ ?_ ?_ ?_ ?_ ?_ <;> first | exact rfl | (refine kept_mk (by assumption) ?_ ?_ ?_ ?_ ?_ ?_ ?_ <;> exact rfl) | apply State.audit_kept | apply State.finish_kept | apply State.modCmd_kept | apply State.replaceKeys_kept | refine State.replaceKeys_keptE (by assumption) ?_ | apply State.startCkpt_kept | apply State.sanZones_kept | apply kept_ite)

theorem State.startRebuild_kept {z : State} {s : State} {z' : Nat} {g : ZGroup} (hs : z.Kept s) : z.Kept (State.startRebuild s z' g) := by
  unfold State.startRebuild
  repeat' with_reducible first
    | assumption | intro _ | apply State.modGroup_kept | apply State.takeAcc_kept | apply State.addWork_kept
    | refine kept_foldl ?_ ?_ | split

theorem State.toError_kept {z : State} {s : State} (hs : z.Kept s) : z.Kept (State.toError s) := by
  unfold State.toError
  repeat' with_reducible first
    | (refine kept_mk ?_ ?_ ?_ ?_ ?_ ?_ ?_ ?_ <;> first | exact rfl | (refine kept_mk (by assumption) ?_ ?_ ?_ ?_ ?_ ?_ ?_ <;> exact rfl) | apply State.auditSrc_kept | apply State.draw_kept | apply State.endSessions_kept | apply State.setReady_kept | apply raise_kept | apply State.endCmds_kept)

theorem State.unloadKey_kept {z : State} {s : State} {r : Nat} (hs : z.Kept s) : z.Kept (State.unloadKey s r) := by
  unfold State.unloadKey
  repeat' with_reducible first
    | (refine kept_mk (by assumption) ?_ ?_ ?_ ?_ ?_ ?_ ?_ <;> exact rfl)

theorem State.wipeKeys_kept {z : State} {s : State} (hs : z.Kept s) : z.Kept (State.wipeKeys s) := by
  unfold State.wipeKeys
  repeat' with_reducible first
    | (refine kept_mk (by assumption) ?_ ?_ ?_ ?_ ?_ ?_ ?_ <;> exact rfl)

theorem execSystemDirectoryLoad_kept {z : State} {found : List SysRec} {s : State} (hs : z.Kept s) : z.KeptBy (execSystemDirectoryLoad found s) := by
  unfold execSystemDirectoryLoad
  repeat' with_reducible first
    | assumption | intro _ | apply State.foundRec_kept | apply State.event_kept | apply State.draw_kept
    | apply State.actReady_kept | apply keptBy_next | refine kept_upto ?_ ?_
    | (extract_lets +onlyGivenNames -underBinder x; first | (refine keptBy_cut (x := x) ?_ ?_; intro hx; clear_value x; rotate_left; dsimp only [x]) | (refine kept_cut (x := x) ?_ ?_; intro hx; clear_value x; rotate_left; dsimp only [x]) | skip)
    | split | (refine kept_mk (by assumption) ?_ ?_ ?_ ?_ ?_ ?_ ?_ <;> exact rfl)

theorem execSysrecStage_kept {z : State} {via : Via} {ofs : Word} {bytes : List Byte} {s : State} (hs : z.Kept s) : z.KeptBy (execSysrecStage via ofs bytes s) := by
  unfold execSysrecStage
  repeat' with_reducible first
    | assumption | intro _ | apply State.secRun_kept | apply State.secBad_kept | apply State.roleAct_kept
    | apply State.secFail_kept | apply State.auditFree_kept | apply State.secOk_kept | apply keptBy_next | apply kept_ite
    | (extract_lets +onlyGivenNames -underBinder x; first | (refine keptBy_cut (x := x) ?_ ?_; intro hx; clear_value x; rotate_left; dsimp only [x]) | (refine kept_cut (x := x) ?_ ?_; intro hx; clear_value x; rotate_left; dsimp only [x]) | skip)
    | (refine kept_mk (by assumption) ?_ ?_ ?_ ?_ ?_ ?_ ?_ <;> exact rfl)

theorem execSysrecCommit_kept {z : State} {via : Via} {cp2 : Word} {len : Word} {s : State} (hs : z.Kept s) : z.KeptBy (execSysrecCommit via cp2 len s) := by
  unfold execSysrecCommit
  repeat' with_reducible first
    | assumption | intro _ | apply State.secRun_kept | apply State.secBad_kept | apply State.roleAct_kept
    | apply State.secFail_kept | apply State.auditFree_kept | apply State.event_kept | apply State.secWait_kept
    | apply keptBy_next
    | (extract_lets +onlyGivenNames -underBinder x; first | (refine keptBy_cut (x := x) ?_ ?_; intro hx; clear_value x; rotate_left; dsimp only [x]) | (refine kept_cut (x := x) ?_ ?_; intro hx; clear_value x; rotate_left; dsimp only [x]) | skip)
    | split | (refine kept_mk (by assumption) ?_ ?_ ?_ ?_ ?_ ?_ ?_ <;> exact rfl)

theorem execSysrecWritten_kept {z : State} {ok : Bool} {s : State} (hs : z.Kept s) : z.KeptBy (execSysrecWritten ok s) := by
  unfold execSysrecWritten
  repeat' with_reducible first
    | intro _ | apply keptBy_next | split
    | (refine kept_mk ?_ ?_ ?_ ?_ ?_ ?_ ?_ ?_ <;> first | exact rfl | (refine kept_mk (by assumption) ?_ ?_ ?_ ?_ ?_ ?_ ?_ <;> exact rfl) | apply State.secEnd_kept | apply State.enforce_kept | apply State.secOk_kept | apply State.actReady_kept | apply keptBy_next | apply keptBy_ite | apply kept_ite | refine kept_upto ?_ ?_)

theorem execSysrecRead_kept {z : State} {via : Via} {cp2 : Word} {ofs : Word} {count : Word} {s : State} (hs : z.Kept s) : z.KeptBy (execSysrecRead via cp2 ofs count s) := by
  unfold execSysrecRead
  repeat' with_reducible first
    | assumption | intro _ | apply State.secRun_kept | apply State.secBad_kept | apply State.secEnd_kept
    | apply State.draw_kept | apply keptBy_next | apply kept_ite

theorem execJournalReplay_kept {z s : State} {partner : List (List Byte)} (hs : z.Kept s) : z.KeptBy (execJournalReplay partner s) := by
  unfold execJournalReplay
  refine keptBy_next (kept_ite hs ?_)
  extract_lets -underBinder own other all a0 new ap a1 a2 staged a3 a4 top hic base c1 c2 c3 a5 a6 a7 a8 a9
  have h1 : z.Kept a0 := State.loadCkpt_kept hs
  have h2 : z.Kept a1 := kept_foldl h1 fun s r hs => State.replayRec_kept hs
  have h3 : z.Kept a2 := kept_foldl h2 fun s e hs => kept_foldl hs fun s g hs => State.startRebuild_kept hs
  have h4 : z.Kept a3 := kept_foldl h3 fun s r hs => kept_upd hs rfl rfl rfl rfl rfl rfl rfl rfl
  have h5 : z.Kept a4 := kept_foldl h4 fun s r hs => State.replayStaged_kept hs
  have h6 : z.Kept a5 := kept_upd h5 rfl rfl rfl rfl rfl rfl rfl rfl
  have h7 : z.Kept a6 := by
    dsimp only [a6]
    split
    · exact h6
    · have h := fun a rg => State.startCkpt_kept (State.sanZones_kept (act := a) (rg := rg) h6)
      exact kept_upd (State.audit_kept (h _ _)) rfl rfl rfl rfl rfl rfl rfl rfl
  have h8 : z.Kept a7 := kept_foldl h7 fun s e hs => kept_ite (State.needIdx_kept hs) hs
  have h9 : z.Kept a8 := State.setReady_kept (State.rebuildAll_kept h8)
  have h10 : z.Kept a9 := kept_upto h9 fun a s hs => State.actReady_kept hs
  exact State.event_kept h10

theorem execSanitizeCryptoEraseAll_kept {z : State} {tag : BitVec 16} {s : State} (hs : z.Kept s) : z.KeptBy (execSanitizeCryptoEraseAll tag s) := by
  unfold execSanitizeCryptoEraseAll
  repeat' with_reducible first
    | assumption | apply State.sanitize_kept | apply keptBy_next

theorem execSanitizeCryptoEraseRange_kept {z : State} {tag : BitVec 16} {s : State} (hs : z.Kept s) : z.KeptBy (execSanitizeCryptoEraseRange tag s) := by
  unfold execSanitizeCryptoEraseRange
  repeat' with_reducible first
    | assumption | apply State.sanitize_kept | apply keptBy_next

theorem execSanitizeOverwrite_kept {z : State} {tag : BitVec 16} {s : State} (hs : z.Kept s) : z.KeptBy (execSanitizeOverwrite tag s) := by
  unfold execSanitizeOverwrite
  repeat' with_reducible first
    | assumption | apply State.sanitize_kept | apply keptBy_next

theorem execAuthChallenge_kept {z : State} {via : Via} {s : State} (hs : z.Kept s) : z.KeptBy (execAuthChallenge via s) := by
  unfold execAuthChallenge
  repeat' with_reducible first
    | intro _ | apply keptBy_next
    | (refine kept_mk ?_ ?_ ?_ ?_ ?_ ?_ ?_ ?_ <;> first | exact rfl | (refine kept_mk (by assumption) ?_ ?_ ?_ ?_ ?_ ?_ ?_ <;> exact rfl) | apply State.secRun_kept | apply State.secBad_kept | apply State.dropChallenge_kept | apply State.draw_kept | apply State.secEnd_kept | apply keptBy_next | apply keptBy_ite | apply kept_ite)

theorem execAuthResponse_kept {z : State} {via : Via} {role : Byte} {cid : Word} {sig : List Byte} {s : State} (hs : z.Kept s) : z.KeptBy (execAuthResponse via role cid sig s) := by
  unfold execAuthResponse
  repeat' with_reducible first
    | intro _ | apply keptBy_next | split
    | (refine kept_mk ?_ ?_ ?_ ?_ ?_ ?_ ?_ ?_ <;> first | exact rfl | (refine kept_mk (by assumption) ?_ ?_ ?_ ?_ ?_ ?_ ?_ <;> exact rfl) | apply State.secRun_kept | apply State.secBad_kept | apply State.authFail_kept | apply State.proof_kept | refine State.proof_keptE (by assumption) ?_ | apply State.audit_kept | apply State.secOk_kept | apply keptBy_next | apply keptBy_ite | apply kept_ite)

theorem execAuthEnd_kept {z : State} {via : Via} {sess : Fin 16} {s : State} (hs : z.Kept s) : z.KeptBy (execAuthEnd via sess s) := by
  unfold execAuthEnd
  repeat' with_reducible first
    | assumption | intro _ | apply State.secRun_kept | apply State.secFail_kept | apply State.secOk_kept
    | apply State.endSessions_kept | apply keptBy_next | split

theorem execAuthSetKey_kept {z : State} {via : Via} {role : Byte} {cid : Word} {key : List Byte} {sig : List Byte} {s : State} (hs : z.Kept s) : z.KeptBy (execAuthSetKey via role cid key sig s) := by
  unfold execAuthSetKey
  repeat' with_reducible first
    | assumption | intro _ | apply State.secRun_kept | apply State.secBad_kept | apply State.roleAct_kept
    | apply State.secFail_kept | apply State.audit_kept | refine State.proof_keptE (by assumption) ?_
    | apply State.secOk_kept | apply State.auditFree_kept | apply keptBy_next
    | (extract_lets +onlyGivenNames -underBinder x; first | (refine keptBy_cut (x := x) ?_ ?_; intro hx; clear_value x; rotate_left; dsimp only [x]) | (refine kept_cut (x := x) ?_ ?_; intro hx; clear_value x; rotate_left; dsimp only [x]) | skip)
    | split | (refine kept_mk (by assumption) ?_ ?_ ?_ ?_ ?_ ?_ ?_ <;> exact rfl)

theorem execIntegrate_kept {z : State} {via : Via} {key : List Byte} {s : State} (hs : z.Kept s) : z.KeptBy (execIntegrate via key s) := by
  unfold execIntegrate
  repeat' with_reducible first
    | intro _ | refine State.lifeAct_kept ?_ rfl ?_ ?_ | apply State.integrationRange_kept | apply keptBy_next
    | (refine kept_mk (by assumption) ?_ ?_ ?_ ?_ ?_ ?_ ?_ <;> exact rfl)

theorem execClaim_kept {z : State} {via : Via} {key : List Byte} {cid : Word} {sig : List Byte} {s : State} (hs : z.Kept s) : z.KeptBy (execClaim via key cid sig s) := by
  unfold execClaim
  repeat' with_reducible first
    | assumption | intro _ | refine State.lifeAct_kept ?_ rfl ?_ ?_ | apply State.proof_kept | apply State.wipeKeys_kept
    | apply State.emptyZones_kept | apply keptBy_next
    | (extract_lets +onlyGivenNames -underBinder x; first | (refine keptBy_cut (x := x) ?_ ?_; intro hx; clear_value x; rotate_left; dsimp only [x]) | (refine kept_cut (x := x) ?_ ?_; intro hx; clear_value x; rotate_left; dsimp only [x]) | skip)
    | (refine kept_mk (by assumption) ?_ ?_ ?_ ?_ ?_ ?_ ?_ <;> exact rfl)

theorem execReturnLifecycle_kept {z : State} {via : Via} {s : State} (hs : z.Kept s) : z.KeptBy (execReturnLifecycle via s) := by
  unfold execReturnLifecycle
  repeat' with_reducible first
    | intro _ | apply keptBy_next
    | (refine kept_mk ?_ ?_ ?_ ?_ ?_ ?_ ?_ ?_ <;> first | exact rfl | (refine kept_mk (by assumption) ?_ ?_ ?_ ?_ ?_ ?_ ?_ <;> exact rfl) | refine State.lifeAct_kept ?_ rfl ?_ ?_ | apply State.wipeKeys_kept | apply State.startCkpt_kept | apply State.sanZones_kept | apply State.replaceKeys_kept | refine State.replaceKeys_keptE (by assumption) ?_ | apply State.integrationRange_kept | apply keptBy_next | (refine kept_mk ?_ ?_ ?_ ?_ ?_ ?_ ?_ ?_ <;> first | exact rfl | (refine kept_mk (by assumption) ?_ ?_ ?_ ?_ ?_ ?_ ?_ <;> exact rfl) | refine State.lifeAct_kept ?_ rfl ?_ ?_ | apply State.wipeKeys_kept | apply State.startCkpt_kept | apply State.sanZones_kept | apply State.replaceKeys_kept | refine State.replaceKeys_keptE (by assumption) ?_ | apply State.integrationRange_kept | apply keptBy_next))

theorem execDecommission_kept {z s : State} {via : Via} (hs : z.Kept s) : z.KeptBy (execDecommission via s) := by
  unfold execDecommission
  refine keptBy_next (State.lifeAct_kept hs rfl (fun s _ h => h) fun s hs => ?_)
  dsimp only
  exact kept_upd (kept_fuse (State.wipeKeys_kept hs)) rfl rfl rfl rfl rfl rfl rfl rfl

theorem execConsent_kept {z : State} {via : Via} {seconds : Word} {s : State} (hs : z.Kept s) : z.KeptBy (execConsent via seconds s) := by
  unfold execConsent
  repeat' with_reducible first
    | intro _ | apply keptBy_next | split
    | (refine kept_mk ?_ ?_ ?_ ?_ ?_ ?_ ?_ ?_ <;> first | exact rfl | (refine kept_mk (by assumption) ?_ ?_ ?_ ?_ ?_ ?_ ?_ <;> exact rfl) | apply State.secRun_kept | apply State.secBad_kept | apply State.roleAct_kept | apply State.secFail_kept | apply State.audit_kept | apply State.secOk_kept | apply State.endConsent_kept | apply keptBy_next | apply keptBy_ite | apply kept_ite)

theorem execCommitSvn_kept {z s : State} {via : Via} {firmware : Bool} (hs : z.Kept s) : z.KeptBy (execCommitSvn via firmware s) := by
  unfold execCommitSvn
  refine keptBy_next (State.secRun_kept hs fun s hs => State.roleAct_kept hs fun s hs => ?_)
  dsimp only
  split
  · exact State.secFail_kept (State.audit_kept hs)
  · split
    · exact State.secFail_kept (State.audit_kept hs)
    · refine State.secOk_kept ?_
      cases firmware
      · refine kept_isvn (State.audit_kept hs) ?_
        have := hs.holds.isvn
        simp only [Bool.false_eq_true, if_false]
        split <;> omega
      · refine kept_fsvn (State.audit_kept hs) ?_
        have := hs.holds.fsvn
        simp only [if_true]
        split <;> omega

theorem execKeysCreate_kept {z : State} {via : Via} {range : Byte} {autolock : Bool} {s : State} (hs : z.Kept s) : z.KeptBy (execKeysCreate via range autolock s) := by
  unfold execKeysCreate
  repeat' with_reducible first
    | assumption | intro _ | apply State.keysAct_kept | apply State.newKey_kept | apply State.modRange_kept
    | apply keptBy_next | apply kept_ite

theorem execKeysLock_kept {z : State} {via : Via} {range : Byte} {s : State} (hs : z.Kept s) : z.KeptBy (execKeysLock via range s) := by
  unfold execKeysLock
  repeat' with_reducible first
    | assumption | intro _ | apply State.keysAct_kept | apply State.unloadKey_kept | apply State.modRange_kept
    | apply keptBy_next

theorem execKeysUnlock_kept {z : State} {via : Via} {range : Byte} {s : State} (hs : z.Kept s) : z.KeptBy (execKeysUnlock via range s) := by
  unfold execKeysUnlock
  repeat' with_reducible first
    | assumption | intro _ | apply State.keysAct_kept | apply State.loadKey_kept | apply keptBy_next

theorem execKeysDestroy_kept {z : State} {via : Via} {range : Byte} {s : State} (hs : z.Kept s) : z.KeptBy (execKeysDestroy via range s) := by
  unfold execKeysDestroy
  repeat' with_reducible first
    | assumption | intro _ | apply State.keysAct_kept | apply State.unloadKey_kept | apply State.modRange_kept
    | apply keptBy_next

theorem execKeysSetConv_kept {z : State} {via : Via} {range : Byte} {s : State} (hs : z.Kept s) : z.KeptBy (execKeysSetConv via range s) := by
  unfold execKeysSetConv
  repeat' with_reducible first
    | intro _ | apply State.keysAct_kept | apply keptBy_next
    | (refine kept_mk (by assumption) ?_ ?_ ?_ ?_ ?_ ?_ ?_ <;> exact rfl)

theorem execKeysQuery_kept {z : State} {via : Via} {s : State} (hs : z.Kept s) : z.KeptBy (execKeysQuery via s) := by
  unfold execKeysQuery
  repeat' with_reducible first
    | assumption | intro _ | apply State.secRun_kept | apply State.secBad_kept | apply State.secEnd_kept | apply keptBy_next
    | apply kept_ite

theorem execPeercertAnchor_kept {z : State} {via : Via} {key : List Byte} {s : State} (hs : z.Kept s) : z.KeptBy (execPeercertAnchor via key s) := by
  unfold execPeercertAnchor
  repeat' with_reducible first
    | intro _ | apply State.peercertAct_kept | apply keptBy_next
    | (refine kept_mk (by assumption) ?_ ?_ ?_ ?_ ?_ ?_ ?_ <;> exact rfl)

theorem execPeercertDeviceKey_kept {z : State} {via : Via} {s : State} (hs : z.Kept s) : z.KeptBy (execPeercertDeviceKey via s) := by
  unfold execPeercertDeviceKey
  repeat' with_reducible first
    | assumption | intro _ | apply State.secRun_kept | apply State.secBad_kept | apply State.secEnd_kept | apply keptBy_next
    | apply kept_ite

theorem execPeercertCert_kept {z : State} {via : Via} {cert : List Byte} {s : State} (hs : z.Kept s) : z.KeptBy (execPeercertCert via cert s) := by
  unfold execPeercertCert
  repeat' with_reducible first
    | intro _ | apply State.peercertAct_kept | apply keptBy_next
    | (refine kept_mk (by assumption) ?_ ?_ ?_ ?_ ?_ ?_ ?_ <;> exact rfl)

theorem execFirmwareChunk_kept {z : State} {via : Via} {ofs : Word} {bytes : List Byte} {s : State} (hs : z.Kept s) : z.KeptBy (execFirmwareChunk via ofs bytes s) := by
  unfold execFirmwareChunk
  repeat' with_reducible first
    | assumption | intro _ | apply State.secRun_kept | apply State.roleAct_kept | apply State.secFail_kept
    | apply State.auditFree_kept | apply State.secOk_kept | apply keptBy_next
    | (extract_lets +onlyGivenNames -underBinder x; first | (refine keptBy_cut (x := x) ?_ ?_; intro hx; clear_value x; rotate_left; dsimp only [x]) | (refine kept_cut (x := x) ?_ ?_; intro hx; clear_value x; rotate_left; dsimp only [x]) | skip)
    | split | (refine kept_mk (by assumption) ?_ ?_ ?_ ?_ ?_ ?_ ?_ <;> exact rfl)

theorem execFirmwareFinish_kept {z : State} {via : Via} {good : Bool} {fsvn : Word} {keySlot : Fin 4} {s : State} (hs : z.Kept s) : z.KeptBy (execFirmwareFinish via good fsvn keySlot s) := by
  unfold execFirmwareFinish
  repeat' with_reducible first
    | assumption | intro _ | apply State.secRun_kept | apply State.roleAct_kept | apply State.audit_kept
    | apply State.secFail_kept | apply State.secOk_kept | apply keptBy_next
    | (extract_lets +onlyGivenNames -underBinder x; first | (refine keptBy_cut (x := x) ?_ ?_; intro hx; clear_value x; rotate_left; dsimp only [x]) | (refine kept_cut (x := x) ?_ ?_; intro hx; clear_value x; rotate_left; dsimp only [x]) | skip)
    | split | (refine kept_mk (by assumption) ?_ ?_ ?_ ?_ ?_ ?_ ?_ <;> exact rfl)

theorem execMailboxTimeout_kept {z : State} {s : State} (hs : z.Kept s) : z.KeptBy (execMailboxTimeout s) := by
  unfold execMailboxTimeout
  repeat' with_reducible first
    | assumption | apply State.mboxFree_kept | apply keptBy_next

theorem execSessionIdleTimeout_kept {z : State} {sess : Fin 16} {s : State} (hs : z.Kept s) : z.KeptBy (execSessionIdleTimeout sess s) := by
  unfold execSessionIdleTimeout
  repeat' with_reducible first
    | assumption | apply State.endSessions_kept | apply keptBy_next

theorem execChallengeExpiry_kept {z : State} {chan : Chan} {src : BitVec 12} {s : State} (hs : z.Kept s) : z.KeptBy (execChallengeExpiry chan src s) := by
  unfold execChallengeExpiry
  repeat' with_reducible first
    | assumption | apply State.dropChallenge_kept | apply keptBy_next

theorem execConsentExpiry_kept {z : State} {s : State} (hs : z.Kept s) : z.KeptBy (execConsentExpiry s) := by
  unfold execConsentExpiry
  repeat' with_reducible first
    | assumption | apply State.endConsent_kept | apply keptBy_next | apply kept_ite

theorem execLockoutExpiry_kept {z : State} {role : Fin 4} {s : State} (hs : z.Kept s) : z.KeptBy (execLockoutExpiry role s) := by
  unfold execLockoutExpiry
  repeat' with_reducible first
    | apply keptBy_next | apply kept_ite | (refine kept_mk (by assumption) ?_ ?_ ?_ ?_ ?_ ?_ ?_ <;> exact rfl)

theorem execEntropyHealthFail_kept {z : State} {s : State} (hs : z.Kept s) : z.KeptBy (execEntropyHealthFail s) := by
  unfold execEntropyHealthFail
  repeat' with_reducible first
    | assumption | apply State.toError_kept | apply keptBy_next | apply kept_ite

theorem execSaveDone_kept {z : State} {ok : Bool} {s : State} (hs : z.Kept s) : z.KeptBy (execSaveDone ok s) := by
  unfold execSaveDone
  repeat' with_reducible first
    | apply keptBy_next | split
    | (refine kept_mk ?_ ?_ ?_ ?_ ?_ ?_ ?_ ?_ <;> first | exact rfl | (refine kept_mk (by assumption) ?_ ?_ ?_ ?_ ?_ ?_ ?_ <;> exact rfl) | apply raise_kept | apply keptBy_next | apply keptBy_ite | apply kept_ite)

theorem execPowerUpSelfTests_kept {z : State} {fwOk : Bool} {katOk : Bool} {laneOk : BitVec 4} {s : State} (hs : z.Kept s) : z.KeptBy (execPowerUpSelfTests fwOk katOk laneOk s) := by
  unfold execPowerUpSelfTests
  repeat' with_reducible first
    | assumption | intro _ | apply State.toError_kept | apply State.setReady_kept | apply State.modRange_kept
    | apply State.loadKey_kept | apply raise_kept | apply State.fenceLane_kept | apply keptBy_next | apply kept_ite
    | refine kept_foldl ?_ ?_

end Sys2Proof.Machine
end

