-- ==== Sys2Proof/Laws/KeptHost.lean ====
section
/-! SUPPORT. What each operation and each meaning keeps (`State.Kept`): rings, power states, commands and events. One lemma per definition,
from those of the definitions it calls. -/
namespace Sys2Proof.Machine

open Sys2Proof

theorem State.testStop_kept {z : State} {s : State} (hs : z.Kept s) : z.Kept (State.testStop s) := by
  unfold State.testStop
  repeat' with_reducible first
    | intro _
    | (refine kept_mk ?_ ?_ ?_ ?_ ?_ ?_ ?_ ?_ <;> first | exact rfl | (refine kept_mk (by assumption) ?_ ?_ ?_ ?_ ?_ ?_ ?_ <;> exact rfl) | apply State.modCh_kept | apply State.abortBist_kept | apply State.withdrawWork_kept | apply State.setRecList_kept | apply kept_ite | refine kept_foldl ?_ ?_)

theorem State.abortOne_kept {z : State} {s : State} {c : Cmd} (hs : z.Kept s) : z.Kept (State.abortOne s c) := by
  unfold State.abortOne
  repeat' with_reducible first
    | (refine kept_mk ?_ ?_ ?_ ?_ ?_ ?_ ?_ ?_ <;> first | exact rfl | (refine kept_mk (by assumption) ?_ ?_ ?_ ?_ ?_ ?_ ?_ <;> exact rfl) | apply State.testStop_kept | apply State.endCmd_kept | apply kept_ite)

theorem State.adminCmd_kept {z : State} {s : State} {o' : Nat} {t' : BitVec 16} {f : Cmd → State} (hs : z.Kept s) (hf : ∀ c, z.Kept (f c)) : z.Kept (State.adminCmd s o' t' f) := by
  unfold State.adminCmd
  repeat' with_reducible first
    | assumption | apply State.finish_kept | apply hf | split

theorem State.mirrorQ_kept {z : State} {s : State} (hs : z.Kept s) : z.Kept (State.mirrorQ s) := by
  unfold State.mirrorQ
  repeat' with_reducible first
    | assumption | apply State.pairSend_kept | apply State.draw_kept | apply kept_ite

theorem State.takeUnit_kept {z : State} {s : State} {c : Cmd} {u : CUnit} {addr : BitVec 64} (hs : z.Kept s) : z.Kept (State.takeUnit s c u addr) := by
  unfold State.takeUnit
  repeat' with_reducible first
    | apply State.modCmd_kept | (refine kept_mk (by assumption) ?_ ?_ ?_ ?_ ?_ ?_ ?_ <;> exact rfl)

theorem State.takeConv_kept {z : State} {s : State} {c : Cmd} (hs : z.Kept s) : z.Kept (State.takeConv s c) := by
  unfold State.takeConv
  repeat' with_reducible first
    | assumption | apply State.mirrorQ_kept | apply State.takeUnit_kept

theorem State.takeWrite_kept {z : State} {s : State} {c : Cmd} {a2 : Nat} (hs : z.Kept s) : z.Kept (State.takeWrite s c a2) := by
  unfold State.takeWrite
  repeat' with_reducible first
    | assumption | apply State.openZone_kept | apply State.zoneAccess_kept | apply State.modZone_kept
    | apply State.mirrorQ_kept | apply State.takeUnit_kept | apply kept_ite

theorem State.goWrite_kept {z : State} {s : State} {c : Cmd} (hs : z.Kept s) : z.Kept (State.goWrite s c) := by
  unfold State.goWrite
  repeat' with_reducible first
    | assumption | apply State.startData_kept | apply State.takeConv_kept | apply State.finish_kept
    | apply State.takeWrite_kept | apply State.pumpWrites_kept | split

theorem State.goOpen_kept {z : State} {s : State} {c : Cmd} (hs : z.Kept s) : z.Kept (State.goOpen s c) := by
  unfold State.goOpen
  repeat' with_reducible first
    | assumption | apply State.finish_kept | apply State.openZone_kept
    | (extract_lets +onlyGivenNames -underBinder x; first | (refine kept_cut (x := x) ?_ ?_; intro hx; clear_value x; rotate_left; dsimp only [x]) | skip)
    | split

theorem State.goReport_kept {z : State} {s : State} {c : Cmd} (hs : z.Kept s) : z.Kept (State.goReport s c) := by
  unfold State.goReport
  repeat' with_reducible first
    | assumption | apply State.reply_kept

theorem State.goRead_kept {z : State} {s : State} {c : Cmd} (hs : z.Kept s) : z.Kept (State.goRead s c) := by
  unfold State.goRead
  repeat' with_reducible first
    | assumption | intro _ | apply State.pumpReads_kept | apply State.modCmd_kept | apply State.finish_kept
    | apply State.needIdx_kept | apply State.locAccess_kept | apply State.zoneAccess_kept | apply kept_ite
    | refine kept_foldl ?_ ?_

theorem State.admitted_kept {z : State} {s : State} {c : Cmd} (hs : z.Kept s) : z.Kept (State.admitted s c) := by
  unfold State.admitted
  repeat' with_reducible first
    | assumption | apply State.goWrite_kept | apply State.goOpen_kept | apply State.manageTry_kept
    | apply State.goReport_kept | apply State.flushTry_kept | apply State.goRead_kept | apply kept_ite

theorem State.dropFor_kept {z : State} {s : State} {mask : Nat} (hs : z.Kept s) : z.Kept (State.dropFor s mask) := by
  unfold State.dropFor
  repeat' with_reducible first
    | assumption | intro _ | apply State.endCmd_kept | apply kept_ite | refine kept_foldl ?_ ?_

theorem State.beginState_kept {z : State} {s : State} {tag : Option (BitVec 16)} {dest : PwrSt} (hs : z.Kept s) : z.Kept (State.beginState s tag dest) := by
  unfold State.beginState
  repeat' with_reducible first
    | apply State.dropFor_kept | apply State.requestSpin_kept | apply kept_ite
    | (refine kept_mk (by assumption) ?_ ?_ ?_ ?_ ?_ ?_ ?_ <;> exact rfl)

theorem State.startOwn_kept {z : State} {s : State} {q : Fin 128} {t' : BitVec 16} (hs : z.Kept s) : z.Kept (State.startOwn s q t') := by
  unfold State.startOwn
  repeat' with_reducible first
    | assumption | intro _ | apply State.modCmd_kept | apply State.hostRead_kept | refine kept_foldl ?_ ?_ | split

theorem State.listDone_kept {z : State} {s : State} {c : Cmd} {l : List Byte} (hs : z.Kept s) : z.Kept (State.listDone s c l) := by
  unfold State.listDone
  repeat' with_reducible first
    | assumption | apply State.endCmd_kept | apply State.modCmd_kept | apply State.finish_kept | apply State.writeSegs_kept
    | apply State.startOwn_kept | apply State.startData_kept | split

theorem State.mirrorData_kept {z : State} {s : State} {l : List Byte} (hs : z.Kept s) : z.Kept (State.mirrorData s l) := by
  unfold State.mirrorData
  repeat' with_reducible first
    | assumption | intro _ | apply State.pairSend_kept | apply State.draw_kept | apply kept_ite | refine kept_foldl ?_ ?_

theorem State.dataDone_kept {z : State} {s : State} {c : Cmd} {l : List Byte} (hs : z.Kept s) : z.Kept (State.dataDone s c l) := by
  unfold State.dataDone
  repeat' with_reducible first
    | (refine kept_mk ?_ ?_ ?_ ?_ ?_ ?_ ?_ ?_ <;> first | exact rfl | (refine kept_mk (by assumption) ?_ ?_ ?_ ?_ ?_ ?_ ?_ <;> exact rfl) | apply State.modCmd_kept | apply State.pumpReads_kept | apply State.wakeData_kept | apply State.pumpWrites_kept | apply State.mirrorData_kept | apply kept_ite)

theorem State.cmdReadDone_kept {z : State} {s : State} {q : Fin 128} {t' : BitVec 16} {d : Option (List Byte)} (hs : z.Kept s) : z.Kept (State.cmdReadDone s q t' d) := by
  unfold State.cmdReadDone
  repeat' with_reducible first
    | assumption | apply State.hostFail_kept | apply State.listDone_kept | apply State.dataDone_kept | split

theorem State.wakeUp_kept {z : State} {s : State} (hs : z.Kept s) : z.Kept (State.wakeUp s) := by
  unfold State.wakeUp
  repeat' with_reducible first
    | assumption | apply State.beginState_kept | apply kept_ite

theorem State.consider_kept {z : State} {s : State} {o' : Nat} {q : Fin 128} {t' : BitVec 16} {p : Cmd → Bool} (hs : z.Kept s) : z.Kept (State.consider s o' q t' p) := by
  unfold State.consider
  repeat' with_reducible first
    | assumption | apply State.finish_kept | apply State.modCmd_kept | apply State.wakeUp_kept | apply State.admitted_kept
    | apply kept_ite | split

theorem State.endDelete_kept {z : State} {s : State} {q : Fin 128} (hs : z.Kept s) : z.Kept (State.endDelete s q) := by
  unfold State.endDelete
  repeat' with_reducible first
    | assumption | apply State.modQp_kept | apply State.finish_kept | apply kept_ite | split

theorem State.darkWake_kept {z : State} {s : State} (hs : z.Kept s) : z.Kept (State.darkWake s) := by
  unfold State.darkWake
  repeat' with_reducible first
    | assumption | apply State.applyLatched_kept | apply State.leaveDark_kept | apply raise_kept | apply kept_ite

theorem State.degrade_kept {z : State} {s : State} {e' : Ev} (hs : z.Kept s) : z.Kept (State.degrade s e') := by
  unfold State.degrade
  repeat' with_reducible first
    | apply raise_kept | apply State.toRing_kept | (refine kept_mk (by assumption) ?_ ?_ ?_ ?_ ?_ ?_ ?_ <;> exact rfl)

theorem State.takeDoorbell_kept {z : State} {s : State} {q : Nat} {tail : Nat} {head : Nat} (hs : z.Kept s) : z.Kept (State.takeDoorbell s q tail head) := by
  unfold State.takeDoorbell
  repeat' with_reducible first
    | assumption | apply State.qpError_kept | apply State.modQp_kept | apply kept_ite

theorem State.pageDone_kept {z : State} {s : State} {page : Option (List (BitVec 16 × BitVec 16))} (hs : z.Kept s) : z.Kept (State.pageDone s page) := by
  unfold State.pageDone
  repeat' with_reducible first
    | intro _ | apply State.qpError_kept | apply raise_kept | apply State.takeDoorbell_kept | apply State.readPage_kept
    | apply State.fetchAll_kept | refine kept_foldl ?_ ?_ | split
    | (refine kept_mk (by assumption) ?_ ?_ ?_ ?_ ?_ ?_ ?_ <;> exact rfl)

theorem State.yieldTag_kept {z : State} {s : State} {q : Fin 128} {t' : BitVec 16} (hs : z.Kept s) : z.Kept (State.yieldTag s q t') := by
  unfold State.yieldTag
  repeat' with_reducible first
    | assumption | apply State.modCmd_kept
    | (extract_lets +onlyGivenNames -underBinder x; first | (refine kept_cut (x := x) ?_ ?_; intro hx; clear_value x; rotate_left; dsimp only [x]) | skip)
    | split | (refine kept_mk (by assumption) ?_ ?_ ?_ ?_ ?_ ?_ ?_ <;> exact rfl)

theorem State.postNow_kept {z : State} {s : State} {q : Fin 128} {t' : BitVec 16} {status : Nat} {result : Nat} (hs : z.Kept s) : z.Kept (State.postNow s q t' status result) := by
  unfold State.postNow
  repeat' with_reducible first
    | (refine kept_mk (by assumption) ?_ ?_ ?_ ?_ ?_ ?_ ?_ <;> exact rfl)

theorem State.fetchEntry_kept {z : State} {s : State} {q : Fin 128} {b : List Byte} (hs : z.Kept s) : z.Kept (State.fetchEntry s q b) := by
  unfold State.fetchEntry
  repeat' with_reducible first
    | assumption
    | (extract_lets +onlyGivenNames -underBinder x; first | (refine kept_cut (x := x) ?_ ?_; intro hx; clear_value x; rotate_left; dsimp only [x]) | skip)
    | split
    | (refine kept_mk ?_ ?_ ?_ ?_ ?_ ?_ ?_ ?_ <;> first | exact rfl | (refine kept_mk (by assumption) ?_ ?_ ?_ ?_ ?_ ?_ ?_ <;> exact rfl) | apply State.yieldTag_kept | apply State.postNow_kept | apply State.hostRead_kept | apply State.startOwn_kept | apply kept_ite)

theorem State.descDone_kept {z : State} {s : State} {q : Fin 128} {entries : Option (List (List Byte))} (hs : z.Kept s) : z.Kept (State.descDone s q entries) := by
  unfold State.descDone
  repeat' with_reducible first
    | assumption | intro _ | apply State.modQp_kept | apply raise_kept | apply State.qpError_kept | apply State.mirrorQ_kept
    | apply State.fetchEntry_kept | refine State.count_kept ?_ (by omega) | apply State.fetchAll_kept
    | refine kept_foldl ?_ ?_
    | (extract_lets +onlyGivenNames -underBinder x; first | (refine kept_cut (x := x) ?_ ?_; intro hx; clear_value x; rotate_left; dsimp only [x]) | skip)
    | split

theorem State.startGw_kept {z : State} {s : State} (hs : z.Kept s) : z.Kept (State.startGw s) := by
  unfold State.startGw
  repeat' with_reducible first
    | apply kept_ite | (refine kept_mk (by assumption) ?_ ?_ ?_ ?_ ?_ ?_ ?_ <;> exact rfl)

theorem State.enableHqi_kept {z : State} {s : State} (hs : z.Kept s) : z.Kept (State.enableHqi s) := by
  unfold State.enableHqi
  repeat' with_reducible first
    | apply State.modQp_kept | apply State.mirrorQ_kept | apply State.startGw_kept | apply kept_ite
    | (refine kept_mk (by assumption) ?_ ?_ ?_ ?_ ?_ ?_ ?_ <;> exact rfl)

theorem State.disableHqi_kept {z : State} {s : State} (hs : z.Kept s) : z.Kept (State.disableHqi s) := by
  unfold State.disableHqi
  repeat' with_reducible first
    | assumption | apply State.mirrorQ_kept | apply State.disableQps_kept

theorem State.enableGw_kept {z : State} {s : State} (hs : z.Kept s) : z.Kept (State.enableGw s) := by
  unfold State.enableGw
  repeat' with_reducible first
    | apply State.startGw_kept | (refine kept_mk (by assumption) ?_ ?_ ?_ ?_ ?_ ?_ ?_ <;> exact rfl)

theorem State.disableGw_kept {z : State} {s : State} (hs : z.Kept s) : z.Kept (State.disableGw s) := by
  unfold State.disableGw
  repeat' with_reducible first
    | (refine kept_mk (by assumption) ?_ ?_ ?_ ?_ ?_ ?_ ?_ <;> exact rfl)

theorem State.setRights_kept {z : State} {s : State} {q : Nat} {m : BitVec 6} (hs : z.Kept s) : z.Kept (State.setRights s q m) := by
  unfold State.setRights
  repeat' with_reducible first
    | assumption | apply State.putFld_kept | apply State.mirrorQ_kept | apply State.modQp_kept | apply kept_ite

theorem State.domainsOff_kept {z : State} {s : State} {mask : Nat} (hs : z.Kept s) : z.Kept (State.domainsOff s mask) := by
  unfold State.domainsOff
  repeat' with_reducible first
    | intro _
    | (refine kept_mk ?_ ?_ ?_ ?_ ?_ ?_ ?_ ?_ <;> first | exact rfl | (refine kept_mk (by assumption) ?_ ?_ ?_ ?_ ?_ ?_ ?_ <;> exact rfl) | apply State.floodLsa_kept | apply State.setReady_kept | apply State.portDown_kept | apply raise_kept | apply State.pumpReads_kept | apply kept_ite | refine kept_foldl ?_ ?_)

theorem State.domainsOn_kept {z : State} {s : State} {mask : Nat} (hs : z.Kept s) : z.Kept (State.domainsOn s mask) := by
  unfold State.domainsOn
  repeat' with_reducible first
    | intro _
    | (refine kept_mk ?_ ?_ ?_ ?_ ?_ ?_ ?_ ?_ <;> first | exact rfl | (refine kept_mk (by assumption) ?_ ?_ ?_ ?_ ?_ ?_ ?_ <;> exact rfl) | apply State.setReady_kept | apply State.restartPort_kept | apply State.floodLsa_kept | apply State.requestUnpark_kept | apply kept_ite | refine kept_foldl ?_ ?_)

theorem State.endReq_kept {z : State} {s : State} {r : PwrReq} {status : Nat} (hs : z.Kept s) : z.Kept (State.endReq s r status) := by
  unfold State.endReq
  repeat' with_reducible first
    | apply State.finish_kept | split | (refine kept_mk (by assumption) ?_ ?_ ?_ ?_ ?_ ?_ ?_ <;> exact rfl)

theorem State.setPower_kept {z : State} {s : State} {dest : PwrSt} {cause : Nat} (hs : z.Kept s) : z.Kept (State.setPower s dest cause) := by
  unfold State.setPower
  repeat' with_reducible first
    | apply State.floodLsa_kept | apply State.event_kept | apply kept_ite
    | (refine kept_mk (by assumption) ?_ ?_ ?_ ?_ ?_ ?_ ?_ <;> exact rfl)

theorem State.downStep_kept {z s : State} {r : PwrReq} {dest : PwrSt} (hs : z.Kept s) : z.Kept (s.downStep r dest) := by
  unfold State.downStep
  dsimp only
  have hgo : ∀ (s : State) (n : Nat), z.Kept s → z.Kept { s with pwr.req := some { r with step := n } } :=
    fun s n h => kept_upd h rfl rfl rfl rfl rfl rfl rfl rfl
  refine kept_ite (kept_ite hs (kept_ite (kept_upd hs rfl rfl rfl rfl rfl rfl rfl rfl) (hgo _ _ (State.startCkpt_kept
    (kept_upd hs rfl rfl rfl rfl rfl rfl rfl rfl))))) (kept_ite (kept_ite hs (hgo _ _ (State.spinStop_kept (State.parkAll_kept hs)
    fun _ _ h => raise_kept h))) (kept_ite (kept_ite ?_ hs) hs))
  have h1 := State.domainsOff_kept (z := z) (mask := r.off.toNat) (s := { s with rpl.halt := false })
    (kept_upd hs rfl rfl rfl rfl rfl rfl rfl rfl)
  refine kept_ite ?_ (State.endReq_kept (State.setPower_kept h1))
  split
  · exact kept_upd (State.finish_kept h1) rfl rfl rfl rfl rfl rfl rfl rfl
  · exact kept_upd h1 rfl rfl rfl rfl rfl rfl rfl rfl

theorem State.endPass_kept {z : State} {s : State} (hs : z.Kept s) : z.Kept (State.endPass s) := by
  unfold State.endPass
  repeat' with_reducible first
    | (refine kept_mk (by assumption) ?_ ?_ ?_ ?_ ?_ ?_ ?_ <;> exact rfl)

theorem State.resetHqi_kept {z : State} {s : State} (hs : z.Kept s) : z.Kept (State.resetHqi s) := by
  unfold State.resetHqi
  repeat' with_reducible first
    | (refine kept_mk (by assumption) ?_ ?_ ?_ ?_ ?_ ?_ ?_ <;> exact rfl)

theorem State.functionReset_kept {z : State} {s : State} {cause : Nat} (hs : z.Kept s) : z.Kept (State.functionReset s cause) := by
  unfold State.functionReset
  repeat' with_reducible first
    | assumption | apply State.event_kept | apply State.endSessions_kept | apply State.resetHqi_kept
    | apply State.disableQps_kept

theorem State.hintFor_kept {z : State} {s : State} {a1 : Nat} (hs : z.Kept s) : z.Kept (State.hintFor s a1) := by
  unfold State.hintFor
  repeat' with_reducible first
    | apply State.readPage_kept | apply State.e2eSend_kept | refine State.count_kept ?_ (by omega) | apply kept_ite
    | (refine kept_mk (by assumption) ?_ ?_ ?_ ?_ ?_ ?_ ?_ <;> exact rfl)

theorem State.idleStep_kept {z : State} {s : State} {r : PwrReq} {dest : PwrSt} (hs : z.Kept s) : z.Kept (State.idleStep s r dest) := by
  unfold State.idleStep
  repeat' with_reducible first
    | assumption | apply State.endReq_kept | apply State.setPower_kept | apply State.domainsOff_kept
    | apply State.domainsOn_kept | apply kept_ite

theorem State.lossRecord_kept {z : State} {s : State} {k' : Nat} (hs : z.Kept s) : z.Kept (State.lossRecord s k') := by
  unfold State.lossRecord
  repeat' with_reducible first
    | apply State.enqueue_kept | apply kept_ite | (refine kept_mk (by assumption) ?_ ?_ ?_ ?_ ?_ ?_ ?_ <;> exact rfl)

theorem State.leaveQueue_kept {z : State} {s : State} (hs : z.Kept s) : z.Kept (State.leaveQueue s) := by
  unfold State.leaveQueue
  repeat' with_reducible first
    | apply State.lossRecord_kept | apply kept_ite | refine kept_foldl ?_ ?_
    | (refine kept_mk (by assumption) ?_ ?_ ?_ ?_ ?_ ?_ ?_ <;> exact rfl)

theorem State.loseLine_kept {z : State} {s : State} (hs : z.Kept s) : z.Kept (State.loseLine s) := by
  unfold State.loseLine
  repeat' with_reducible first
    | assumption | intro _ | apply State.draw_kept | apply State.poisonWord_kept | refine kept_foldl ?_ ?_
    | (extract_lets +onlyGivenNames -underBinder x; first | (refine kept_cut (x := x) ?_ ?_; intro hx; clear_value x; rotate_left; dsimp only [x]) | skip)
    | split | (refine kept_mk (by assumption) ?_ ?_ ?_ ?_ ?_ ?_ ?_ <;> exact rfl)

theorem State.motionTry_kept {z : State} {s : State} {c : Cmd} (hs : z.Kept s) : z.Kept (State.motionTry s c) := by
  unfold State.motionTry
  repeat' with_reducible first
    | assumption | apply State.finish_kept | apply kept_ite | split

theorem State.nextSwap_kept {z : State} {s : State} (hs : z.Kept s) : z.Kept (State.nextSwap s) := by
  unfold State.nextSwap
  repeat' with_reducible first
    | apply State.endPass_kept | apply State.send_kept | split
    | (refine kept_mk (by assumption) ?_ ?_ ?_ ?_ ?_ ?_ ?_ <;> exact rfl)

theorem State.offStep_kept {z : State} {s : State} {r : PwrReq} (hs : z.Kept s) : z.Kept (State.offStep s r) := by
  unfold State.offStep
  repeat' with_reducible first
    | assumption | apply State.endReq_kept | apply State.event_kept | apply State.domainsOff_kept | apply kept_ite

theorem State.onStep_kept {z : State} {s : State} {r : PwrReq} (hs : z.Kept s) : z.Kept (State.onStep s r) := by
  unfold State.onStep
  repeat' with_reducible first
    | assumption | apply State.event_kept | apply State.domainsOn_kept | apply State.endReq_kept
    | (extract_lets +onlyGivenNames -underBinder x; first | (refine kept_cut (x := x) ?_ ?_; intro hx; clear_value x; rotate_left; dsimp only [x]) | skip)
    | split | (refine kept_mk (by assumption) ?_ ?_ ?_ ?_ ?_ ?_ ?_ <;> exact rfl)

theorem State.pageCmd_kept {z : State} {s : State} {c : Cmd} {page : Option (List Byte)} (hs : z.Kept s) : z.Kept (State.pageCmd s c page) := by
  unfold State.pageCmd
  repeat' with_reducible first
    | assumption | apply State.badField_kept | apply State.reply_kept | apply kept_ite | split

theorem State.upStep_kept {z : State} {s : State} {r : PwrReq} {dest : PwrSt} (hs : z.Kept s) : z.Kept (State.upStep s r dest) := by
  unfold State.upStep
  repeat' with_reducible first
    | assumption | apply State.domainsOn_kept | apply State.endReq_kept | apply State.setPower_kept
    | (extract_lets +onlyGivenNames -underBinder x; first | (refine kept_cut (x := x) ?_ ?_; intro hx; clear_value x; rotate_left; dsimp only [x]) | skip)
    | split | (refine kept_mk (by assumption) ?_ ?_ ?_ ?_ ?_ ?_ ?_ <;> exact rfl)

theorem State.powerStep_kept {z : State} {s : State} (hs : z.Kept s) : z.Kept (State.powerStep s) := by
  unfold State.powerStep
  repeat' with_reducible first
    | assumption | apply State.offStep_kept | apply State.onStep_kept | apply State.downStep_kept | apply State.upStep_kept
    | apply State.idleStep_kept | apply State.motionTry_kept | split

theorem State.powerCtl_kept {z : State} {s : State} {tag : BitVec 16} {a2 : Nat} {f : Cmd → State → State} (hs : z.Kept s) (hf : ∀ c s, z.Kept s → z.Kept (f c s)) : z.Kept (State.powerCtl s tag a2 f) := by
  unfold State.powerCtl
  repeat' with_reducible first
    | assumption | apply State.powerStep_kept | apply State.modCmd_kept | apply hf | split

theorem State.testStart_kept {z : State} {s : State} {tag : BitVec 16} {ext : Bool} (hs : z.Kept s) : z.Kept (State.testStart s tag ext) := by
  unfold State.testStart
  repeat' with_reducible first
    | intro _
    | (refine kept_mk ?_ ?_ ?_ ?_ ?_ ?_ ?_ ?_ <;> first | exact rfl | (refine kept_mk (by assumption) ?_ ?_ ?_ ?_ ?_ ?_ ?_ <;> exact rfl) | apply State.adminCmd_kept | apply State.badField_kept | apply State.modCmd_kept | apply State.testNext_kept | apply kept_ite)

theorem State.toMedia_kept {z : State} {s : State} {l : List Ev} (hs : z.Kept s) : z.Kept (State.toMedia s l) := by
  unfold State.toMedia
  repeat' with_reducible first
    | (refine kept_mk (by assumption) ?_ ?_ ?_ ?_ ?_ ?_ ?_ <;> exact rfl)

theorem State.writePost_kept {z : State} {s : State} {p : Post} (hs : z.Kept s) : z.Kept (State.writePost s p) := by
  unfold State.writePost
  repeat' with_reducible first
    | apply State.hostWrite_kept | refine State.count_kept ?_ (by omega) | apply State.modQp_kept
    | apply State.interrupt_kept | apply State.fetchAll_kept | apply State.endDelete_kept | apply State.mirrorQ_kept
    | apply kept_ite | (refine kept_mk (by assumption) ?_ ?_ ?_ ?_ ?_ ?_ ?_ <;> exact rfl)

theorem execPerstAssert_kept {z : State} {s : State} (hs : z.Kept s) : z.KeptBy (execPerstAssert s) := by
  unfold execPerstAssert
  repeat' with_reducible first
    | assumption | apply State.setReady_kept | apply State.functionReset_kept | apply keptBy_next | apply kept_ite
    | (extract_lets +onlyGivenNames -underBinder x; first | (refine keptBy_cut (x := x) ?_ ?_; intro hx; clear_value x; rotate_left; dsimp only [x]) | (refine kept_cut (x := x) ?_ ?_; intro hx; clear_value x; rotate_left; dsimp only [x]) | skip)
    | (refine kept_mk (by assumption) ?_ ?_ ?_ ?_ ?_ ?_ ?_ <;> exact rfl)

theorem execPerstDeassert_kept {z : State} {s : State} (hs : z.Kept s) : z.KeptBy (execPerstDeassert s) := by
  unfold execPerstDeassert
  repeat' with_reducible first
    | apply State.setReady_kept | apply keptBy_next | apply kept_ite
    | (refine kept_mk (by assumption) ?_ ?_ ?_ ?_ ?_ ?_ ?_ <;> exact rfl)

theorem execFunctionLevelReset_kept {z : State} {s : State} (hs : z.Kept s) : z.KeptBy (execFunctionLevelReset s) := by
  unfold execFunctionLevelReset
  repeat' with_reducible first
    | assumption | apply State.functionReset_kept | apply keptBy_next

theorem execHotReset_kept {z : State} {s : State} (hs : z.Kept s) : z.KeptBy (execHotReset s) := by
  unfold execHotReset
  repeat' with_reducible first
    | assumption | apply State.functionReset_kept | apply keptBy_next

theorem execGwPollPass_kept {z : State} {s : State} (hs : z.Kept s) : z.KeptBy (execGwPollPass s) := by
  unfold execGwPollPass
  repeat' with_reducible first
    | apply State.send_kept | refine State.count_kept ?_ (by omega) | apply keptBy_next | apply kept_ite
    | (refine kept_mk (by assumption) ?_ ?_ ?_ ?_ ?_ ?_ ?_ <;> exact rfl)

theorem execSummaryReadDone_kept {z : State} {words : Option (List (BitVec 64))} {s : State} (hs : z.Kept s) : z.KeptBy (execSummaryReadDone words s) := by
  unfold execSummaryReadDone
  repeat' with_reducible first
    | apply State.nextSwap_kept | apply keptBy_next | apply kept_ite
    | (refine kept_mk (by assumption) ?_ ?_ ?_ ?_ ?_ ?_ ?_ <;> exact rfl)

theorem execSummarySwapDone_kept {z : State} {word : Fin 64} {old : BitVec 64} {s : State} (hs : z.Kept s) : z.KeptBy (execSummarySwapDone word old s) := by
  unfold execSummarySwapDone
  repeat' with_reducible first
    | intro _ | apply State.nextSwap_kept | apply State.hintFor_kept | apply keptBy_next | refine kept_foldl ?_ ?_ | split
    | (refine kept_mk (by assumption) ?_ ?_ ?_ ?_ ?_ ?_ ?_ <;> exact rfl)

theorem execSwapTimeout_kept {z : State} {status : Byte} {s : State} (hs : z.Kept s) : z.KeptBy (execSwapTimeout status s) := by
  unfold execSwapTimeout
  repeat' with_reducible first
    | apply raise_kept | apply State.event_kept | apply State.setW1c_kept | apply keptBy_next | split
    | (refine kept_mk (by assumption) ?_ ?_ ?_ ?_ ?_ ?_ ?_ <;> exact rfl)

theorem execDoorbellPageReadDone_kept {z : State} {page : Option (List (BitVec 16 × BitVec 16))} {s : State} (hs : z.Kept s) : z.KeptBy (execDoorbellPageReadDone page s) := by
  unfold execDoorbellPageReadDone
  repeat' with_reducible first
    | assumption | apply State.pageDone_kept | apply keptBy_next

theorem execDescriptorReadDone_kept {z : State} {qp : Fin 128} {entries : Option (List (List Byte))} {s : State} (hs : z.Kept s) : z.KeptBy (execDescriptorReadDone qp entries s) := by
  unfold execDescriptorReadDone
  repeat' with_reducible first
    | assumption | apply State.descDone_kept | apply keptBy_next | split

theorem execCompletionPost_kept {z : State} {s : State} (hs : z.Kept s) : z.KeptBy (execCompletionPost s) := by
  unfold execCompletionPost
  repeat' with_reducible first
    | assumption | apply State.mirrorQ_kept | apply State.writePost_kept | apply keptBy_next
    | (extract_lets +onlyGivenNames -underBinder x; first | (refine keptBy_cut (x := x) ?_ ?_; intro hx; clear_value x; rotate_left; dsimp only [x]) | (refine kept_cut (x := x) ?_ ?_; intro hx; clear_value x; rotate_left; dsimp only [x]) | skip)
    | split | (refine kept_mk (by assumption) ?_ ?_ ?_ ?_ ?_ ?_ ?_ <;> exact rfl)

theorem execCqFullPoll_kept {z : State} {s : State} (hs : z.Kept s) : z.KeptBy (execCqFullPoll s) := by
  unfold execCqFullPoll
  repeat' with_reducible first
    | assumption | apply State.readPage_kept | apply keptBy_next | apply kept_ite

theorem execHoldTimeout_kept {z : State} {qp : Fin 128} {tag : BitVec 16} {s : State} (hs : z.Kept s) : z.KeptBy (execHoldTimeout qp tag s) := by
  unfold execHoldTimeout
  repeat' with_reducible first
    | assumption | apply State.endCmd_kept | apply keptBy_next | split

theorem execIdentify_kept {z : State} {tag : BitVec 16} {s : State} (hs : z.Kept s) : z.KeptBy (execIdentify tag s) := by
  unfold execIdentify
  repeat' with_reducible first
    | assumption | intro _ | apply State.adminCmd_kept | apply State.badField_kept | apply State.reply_kept
    | apply keptBy_next | apply kept_ite

theorem execCreateQp_kept {z : State} {tag : BitVec 16} {s : State} (hs : z.Kept s) : z.KeptBy (execCreateQp tag s) := by
  unfold execCreateQp
  repeat' with_reducible first
    | assumption | intro _ | apply State.adminCmd_kept | apply State.badField_kept | apply State.modQp_kept
    | apply State.mirrorQ_kept | apply State.finish_kept | apply keptBy_next | apply kept_ite

theorem execDeleteQp_kept {z : State} {tag : BitVec 16} {s : State} (hs : z.Kept s) : z.KeptBy (execDeleteQp tag s) := by
  unfold execDeleteQp
  repeat' with_reducible first
    | assumption | intro _ | apply State.adminCmd_kept | apply State.badField_kept | apply State.modQp_kept
    | apply State.modCmd_kept | apply State.endCmds_kept | apply State.mirrorQ_kept | apply State.endDelete_kept
    | apply keptBy_next | apply kept_ite | split

theorem execGetLog_kept {z : State} {tag : BitVec 16} {s : State} (hs : z.Kept s) : z.KeptBy (execGetLog tag s) := by
  unfold execGetLog
  repeat' with_reducible first
    | assumption | intro _ | apply State.adminCmd_kept | apply State.finish_kept | apply State.pageCmd_kept
    | apply State.draw_kept | apply keptBy_next | apply kept_ite

theorem execGetCounters_kept {z : State} {tag : BitVec 16} {s : State} (hs : z.Kept s) : z.KeptBy (execGetCounters tag s) := by
  unfold execGetCounters
  repeat' with_reducible first
    | assumption | intro _ | apply State.adminCmd_kept | apply State.badField_kept | apply State.reply_kept
    | apply keptBy_next | apply kept_ite

theorem execSetRights_kept {z : State} {tag : BitVec 16} {s : State} (hs : z.Kept s) : z.KeptBy (execSetRights tag s) := by
  unfold execSetRights
  repeat' with_reducible first
    | assumption | intro _ | apply State.adminCmd_kept | apply State.finish_kept | apply State.audit_kept
    | apply State.setRights_kept | apply keptBy_next | split

theorem execAbortCmd_kept {z : State} {tag : BitVec 16} {s : State} (hs : z.Kept s) : z.KeptBy (execAbortCmd tag s) := by
  unfold execAbortCmd
  repeat' with_reducible first
    | assumption | intro _ | apply State.adminCmd_kept | apply State.badField_kept | apply State.modCmd_kept
    | apply State.wakeWaiters_kept | apply State.finish_kept | apply State.abortOne_kept | apply keptBy_next
    | (extract_lets +onlyGivenNames -underBinder x; first | (refine keptBy_cut (x := x) ?_ ?_; intro hx; clear_value x; rotate_left; dsimp only [x]) | (refine kept_cut (x := x) ?_ ?_; intro hx; clear_value x; rotate_left; dsimp only [x]) | skip)
    | split

theorem execSelfTestShort_kept {z : State} {tag : BitVec 16} {s : State} (hs : z.Kept s) : z.KeptBy (execSelfTestShort tag s) := by
  unfold execSelfTestShort
  repeat' with_reducible first
    | assumption | apply State.testStart_kept | apply keptBy_next

theorem execSelfTestExtended_kept {z : State} {tag : BitVec 16} {s : State} (hs : z.Kept s) : z.KeptBy (execSelfTestExtended tag s) := by
  unfold execSelfTestExtended
  repeat' with_reducible first
    | assumption | apply State.testStart_kept | apply keptBy_next

theorem execSelfTestAbort_kept {z : State} {tag : BitVec 16} {s : State} (hs : z.Kept s) : z.KeptBy (execSelfTestAbort tag s) := by
  unfold execSelfTestAbort
  repeat' with_reducible first
    | assumption | intro _ | apply State.adminCmd_kept | apply State.badField_kept | apply State.finish_kept
    | apply State.testStop_kept | apply keptBy_next | split

theorem execSetPowerState_kept {z : State} {tag : BitVec 16} {s : State} (hs : z.Kept s) : z.KeptBy (execSetPowerState tag s) := by
  unfold execSetPowerState
  repeat' with_reducible first
    | assumption | intro _ | apply State.powerCtl_kept | apply State.finish_kept | apply State.beginState_kept
    | apply keptBy_next | apply kept_ite

theorem execDomainsOff_kept {z : State} {tag : BitVec 16} {s : State} (hs : z.Kept s) : z.KeptBy (execDomainsOff tag s) := by
  unfold execDomainsOff
  repeat' with_reducible first
    | intro _ | apply State.powerCtl_kept | apply State.badField_kept | apply State.finish_kept
    | apply State.requestPark_kept | apply State.dropFor_kept | apply keptBy_next | apply kept_ite | refine kept_foldl ?_ ?_
    | (refine kept_mk (by assumption) ?_ ?_ ?_ ?_ ?_ ?_ ?_ <;> exact rfl)

theorem execDomainsOn_kept {z : State} {tag : BitVec 16} {s : State} (hs : z.Kept s) : z.KeptBy (execDomainsOn tag s) := by
  unfold execDomainsOn
  repeat' with_reducible first
    | intro _ | apply State.powerCtl_kept | apply keptBy_next
    | (refine kept_mk (by assumption) ?_ ?_ ?_ ?_ ?_ ?_ ?_ <;> exact rfl)

theorem execDomainSwitchDone_kept {z : State} {s : State} (hs : z.Kept s) : z.KeptBy (execDomainSwitchDone s) := by
  unfold execDomainSwitchDone
  repeat' with_reducible first
    | assumption | apply State.powerStep_kept | apply keptBy_next

theorem execPowerPark_kept {z : State} {tag : BitVec 16} {s : State} (hs : z.Kept s) : z.KeptBy (execPowerPark tag s) := by
  unfold execPowerPark
  repeat' with_reducible first
    | assumption | intro _ | apply State.powerCtl_kept | apply State.requestPark_kept | apply keptBy_next | apply kept_ite
    | refine kept_foldl ?_ ?_

theorem execPowerUnpark_kept {z : State} {tag : BitVec 16} {s : State} (hs : z.Kept s) : z.KeptBy (execPowerUnpark tag s) := by
  unfold execPowerUnpark
  repeat' with_reducible first
    | assumption | intro _ | apply State.powerCtl_kept | apply State.requestUnpark_kept | apply keptBy_next | apply kept_ite
    | refine kept_foldl ?_ ?_

theorem execSpinUp_kept {z : State} {tag : BitVec 16} {s : State} (hs : z.Kept s) : z.KeptBy (execSpinUp tag s) := by
  unfold execSpinUp
  repeat' with_reducible first
    | intro _ | apply keptBy_next
    | (refine kept_mk ?_ ?_ ?_ ?_ ?_ ?_ ?_ ?_ <;> first | exact rfl | (refine kept_mk (by assumption) ?_ ?_ ?_ ?_ ?_ ?_ ?_ <;> exact rfl) | apply State.powerCtl_kept | apply State.requestSpin_kept | apply keptBy_next | apply keptBy_ite | apply kept_ite)

theorem execSpinDown_kept {z : State} {tag : BitVec 16} {s : State} (hs : z.Kept s) : z.KeptBy (execSpinDown tag s) := by
  unfold execSpinDown
  repeat' with_reducible first
    | assumption | intro _ | apply State.powerCtl_kept | apply State.spinStop_kept | apply raise_kept | apply keptBy_next

theorem execMicrocodeLoad_kept {z : State} {tag : BitVec 16} {image : List Byte} {s : State} (hs : z.Kept s) : z.KeptBy (execMicrocodeLoad tag image s) := by
  unfold execMicrocodeLoad
  repeat' with_reducible first
    | intro _ | apply keptBy_next | split
    | (refine kept_mk ?_ ?_ ?_ ?_ ?_ ?_ ?_ ?_ <;> first | exact rfl | (refine kept_mk (by assumption) ?_ ?_ ?_ ?_ ?_ ?_ ?_ <;> exact rfl) | apply State.adminCmd_kept | apply State.finish_kept | apply State.badField_kept | apply State.modCmd_kept | apply State.audit_kept | apply keptBy_next | apply keptBy_ite | apply kept_ite)

theorem execFabricQuery_kept {z : State} {tag : BitVec 16} {s : State} (hs : z.Kept s) : z.KeptBy (execFabricQuery tag s) := by
  unfold execFabricQuery
  repeat' with_reducible first
    | assumption | intro _ | apply State.adminCmd_kept | apply State.pageCmd_kept | apply State.draw_kept
    | apply keptBy_next | apply kept_ite

theorem execReadBlocks_kept {z : State} {qp : Fin 128} {tag : BitVec 16} {s : State} (hs : z.Kept s) : z.KeptBy (execReadBlocks qp tag s) := by
  unfold execReadBlocks
  repeat' with_reducible first
    | assumption | apply State.consider_kept | apply keptBy_next

theorem execVerifyBlocks_kept {z : State} {qp : Fin 128} {tag : BitVec 16} {s : State} (hs : z.Kept s) : z.KeptBy (execVerifyBlocks qp tag s) := by
  unfold execVerifyBlocks
  repeat' with_reducible first
    | assumption | apply State.consider_kept | apply keptBy_next

theorem execZoneWrite_kept {z : State} {qp : Fin 128} {tag : BitVec 16} {s : State} (hs : z.Kept s) : z.KeptBy (execZoneWrite qp tag s) := by
  unfold execZoneWrite
  repeat' with_reducible first
    | assumption | apply State.consider_kept | apply keptBy_next

theorem execZoneAppend_kept {z : State} {qp : Fin 128} {tag : BitVec 16} {s : State} (hs : z.Kept s) : z.KeptBy (execZoneAppend qp tag s) := by
  unfold execZoneAppend
  repeat' with_reducible first
    | assumption | apply State.consider_kept | apply keptBy_next

theorem execZoneOpen_kept {z : State} {qp : Fin 128} {tag : BitVec 16} {s : State} (hs : z.Kept s) : z.KeptBy (execZoneOpen qp tag s) := by
  unfold execZoneOpen
  repeat' with_reducible first
    | assumption | apply State.consider_kept | apply keptBy_next

theorem execZoneClose_kept {z : State} {qp : Fin 128} {tag : BitVec 16} {s : State} (hs : z.Kept s) : z.KeptBy (execZoneClose qp tag s) := by
  unfold execZoneClose
  repeat' with_reducible first
    | assumption | apply State.consider_kept | apply keptBy_next

theorem execZoneFinish_kept {z : State} {qp : Fin 128} {tag : BitVec 16} {s : State} (hs : z.Kept s) : z.KeptBy (execZoneFinish qp tag s) := by
  unfold execZoneFinish
  repeat' with_reducible first
    | assumption | apply State.consider_kept | apply keptBy_next

theorem execZoneReset_kept {z : State} {qp : Fin 128} {tag : BitVec 16} {s : State} (hs : z.Kept s) : z.KeptBy (execZoneReset qp tag s) := by
  unfold execZoneReset
  repeat' with_reducible first
    | assumption | apply State.consider_kept | apply keptBy_next

theorem execZoneOffline_kept {z : State} {qp : Fin 128} {tag : BitVec 16} {s : State} (hs : z.Kept s) : z.KeptBy (execZoneOffline qp tag s) := by
  unfold execZoneOffline
  repeat' with_reducible first
    | assumption | apply State.consider_kept | apply keptBy_next

theorem execZoneReport_kept {z : State} {qp : Fin 128} {tag : BitVec 16} {s : State} (hs : z.Kept s) : z.KeptBy (execZoneReport qp tag s) := by
  unfold execZoneReport
  repeat' with_reducible first
    | assumption | apply State.consider_kept | apply keptBy_next

theorem execFlush_kept {z : State} {qp : Fin 128} {tag : BitVec 16} {s : State} (hs : z.Kept s) : z.KeptBy (execFlush qp tag s) := by
  unfold execFlush
  repeat' with_reducible first
    | assumption | apply State.consider_kept | apply keptBy_next

theorem execPeerMove_kept {z : State} {qp : Fin 128} {tag : BitVec 16} {s : State} (hs : z.Kept s) : z.KeptBy (execPeerMove qp tag s) := by
  unfold execPeerMove
  repeat' with_reducible first
    | assumption | apply State.consider_kept | apply keptBy_next

theorem execConvRead_kept {z : State} {qp : Fin 128} {tag : BitVec 16} {s : State} (hs : z.Kept s) : z.KeptBy (execConvRead qp tag s) := by
  unfold execConvRead
  repeat' with_reducible first
    | assumption | apply State.consider_kept | apply keptBy_next

theorem execConvWrite_kept {z : State} {qp : Fin 128} {tag : BitVec 16} {s : State} (hs : z.Kept s) : z.KeptBy (execConvWrite qp tag s) := by
  unfold execConvWrite
  repeat' with_reducible first
    | assumption | apply State.consider_kept | apply keptBy_next

theorem execFaultRaise_kept {z : State} {src : Fin 128} {s : State} (hs : z.Kept s) : z.KeptBy (execFaultRaise src s) := by
  unfold execFaultRaise
  repeat' with_reducible first
    | assumption | apply State.setW1c_kept | apply State.loseLine_kept | apply State.wakeUnits_kept | apply raise_kept
    | apply keptBy_next | apply kept_ite

theorem execFaultPinPulseEnd_kept {z : State} {s : State} (hs : z.Kept s) : z.KeptBy (execFaultPinPulseEnd s) := by
  unfold execFaultPinPulseEnd
  repeat' with_reducible first
    | apply State.setPin_kept | apply keptBy_next | apply kept_ite
    | (refine kept_mk (by assumption) ?_ ?_ ?_ ?_ ?_ ?_ ?_ <;> exact rfl)

theorem execMaskWindowEnd_kept {z : State} {unit : Fin 64} {s : State} (hs : z.Kept s) : z.KeptBy (execMaskWindowEnd unit s) := by
  unfold execMaskWindowEnd
  repeat' with_reducible first
    | apply keptBy_next | (refine kept_mk (by assumption) ?_ ?_ ?_ ?_ ?_ ?_ ?_ <;> exact rfl)

theorem execEvrRecordWritten_kept {z : State} {ok : Bool} {s : State} (hs : z.Kept s) : z.KeptBy (execEvrRecordWritten ok s) := by
  unfold execEvrRecordWritten
  repeat' with_reducible first
    | assumption | apply State.toRing_kept | apply State.toLog_kept | apply State.degrade_kept | apply State.leaveQueue_kept
    | apply keptBy_next | split

theorem execAuditCopyDone_kept {z : State} {s : State} (hs : z.Kept s) : z.KeptBy (execAuditCopyDone s) := by
  unfold execAuditCopyDone
  repeat' with_reducible first
    | apply State.toMedia_kept | apply keptBy_next | apply kept_ite
    | (refine kept_mk (by assumption) ?_ ?_ ?_ ?_ ?_ ?_ ?_ <;> exact rfl)

theorem execReserveCopyDone_kept {z : State} {s : State} (hs : z.Kept s) : z.KeptBy (execReserveCopyDone s) := by
  unfold execReserveCopyDone
  repeat' with_reducible first
    | apply keptBy_next | split
    | (refine kept_mk ?_ ?_ ?_ ?_ ?_ ?_ ?_ ?_ <;> first | exact rfl | (refine kept_mk (by assumption) ?_ ?_ ?_ ?_ ?_ ?_ ?_ <;> exact rfl) | apply State.toMedia_kept | apply State.event_kept | apply keptBy_next | apply keptBy_ite | apply kept_ite)

theorem execIdleTimeout_kept {z : State} {s : State} (hs : z.Kept s) : z.KeptBy (execIdleTimeout s) := by
  unfold execIdleTimeout
  repeat' with_reducible first
    | assumption | apply State.powerStep_kept | apply State.beginState_kept | apply keptBy_next | apply kept_ite

theorem execDarkEntry_kept {z s : State} (hs : z.Kept s) : z.KeptBy (execDarkEntry s) := by
  unfold execDarkEntry
  refine keptBy_next (kept_ite hs ?_)
  have h1 : z.Kept { s with pwr.darkPend := false, pwr.req := none } := kept_upd hs rfl rfl rfl rfl rfl rfl rfl rfl
  generalize ({ s with pwr.darkPend := false, pwr.req := none } : State) = x at h1
  have h2 : z.Kept { x with hqi.noFetch := false } := kept_upd h1 rfl rfl rfl rfl rfl rfl rfl rfl
  exact kept_ite (kept_ite (State.event_kept h2) (State.setPower_kept h2))
    (kept_upd (State.setPower_kept h1) rfl rfl rfl rfl rfl rfl rfl rfl)

theorem execPcieLinkUp_kept {z : State} {gen : BitVec 4} {width : BitVec 4} {s : State} (hs : z.Kept s) : z.KeptBy (execPcieLinkUp gen width s) := by
  unfold execPcieLinkUp
  repeat' with_reducible first
    | apply State.startGw_kept | apply State.event_kept | apply keptBy_next
    | (refine kept_mk (by assumption) ?_ ?_ ?_ ?_ ?_ ?_ ?_ <;> exact rfl)

theorem execPcieLinkDown_kept {z : State} {s : State} (hs : z.Kept s) : z.KeptBy (execPcieLinkDown s) := by
  unfold execPcieLinkDown
  repeat' with_reducible first
    | apply State.event_kept | apply raise_kept | apply keptBy_next | apply kept_ite
    | (refine kept_mk (by assumption) ?_ ?_ ?_ ?_ ?_ ?_ ?_ <;> exact rfl)

theorem execHostDataReadDone_kept {z : State} {qp : Fin 128} {tag : BitVec 16} {data : Option (List Byte)} {s : State} (hs : z.Kept s) : z.KeptBy (execHostDataReadDone qp tag data s) := by
  unfold execHostDataReadDone
  repeat' with_reducible first
    | assumption | apply State.cmdReadDone_kept | apply keptBy_next | apply kept_ite | split

end Sys2Proof.Machine
end

