-- ==== Sys2Proof/Laws/KeptFabric.lean ====
section
/-! SUPPORT. What each operation and each meaning keeps (`State.Kept`): the fabric, the pair, register accesses, messages, the index and the tick. One lemma per definition,
from those of the definitions it calls. -/
namespace Sys2Proof.Machine

open Sys2Proof

theorem State.alignLost_kept {z : State} {s : State} {act : Nat} {diff : Nat} (hs : z.Kept s) : z.Kept (State.alignLost s act diff) := by
  unfold State.alignLost
  repeat' with_reducible first
    | apply State.event_kept | apply State.setReady_kept | apply kept_ite
    | (refine kept_mk (by assumption) ?_ ?_ ?_ ?_ ?_ ?_ ?_ <;> exact rfl)

theorem State.alignAct_kept {z : State} {s : State} {x' : AlignAct} (hs : z.Kept s) : z.Kept (State.alignAct s x') := by
  unfold State.alignAct
  repeat' with_reducible first
    | intro _ | apply State.modAct_kept | apply State.modHead_kept | apply raise_kept | apply State.alignLost_kept
    | apply kept_ite | refine kept_foldl ?_ ?_ | (refine kept_mk (by assumption) ?_ ?_ ?_ ?_ ?_ ?_ ?_ <;> exact rfl)

theorem State.stageFld_kept {z : State} {s : State} {off : Nat} {f : Fld} {x' : Nat} (hs : z.Kept s) : z.Kept (State.stageFld s off f x') := by
  unfold State.stageFld
  repeat' with_reducible first
    | assumption | apply State.putFld_kept | apply kept_ite
    | (extract_lets +onlyGivenNames -underBinder x; first | (refine kept_cut (x := x) ?_ ?_; intro hx; clear_value x; rotate_left; dsimp only [x]) | skip)
    | (refine kept_mk (by assumption) ?_ ?_ ?_ ?_ ?_ ?_ ?_ <;> exact rfl)

theorem State.applyFld_kept {z : State} {s : State} {off : Nat} {f : Fld} {x' : Nat} (hs : z.Kept s) : z.Kept (State.applyFld s off f x') := by
  unfold State.applyFld
  repeat' with_reducible first
    | apply State.putFld_kept | apply State.stageFld_kept | split
    | (refine kept_mk (by assumption) ?_ ?_ ?_ ?_ ?_ ?_ ?_ <;> exact rfl)

theorem State.auditWrite_kept {z : State} {s : State} {off : Nat} {v : Nat} {l : List Session} (hs : z.Kept s) : z.Kept (State.auditWrite s off v l) := by
  unfold State.auditWrite
  repeat' with_reducible first
    | assumption | intro _ | apply State.audit_kept | refine kept_foldl ?_ ?_

theorem State.cmpFences_kept {z : State} {s : State} (hs : z.Kept s) : z.Kept (State.cmpFences s) := by
  unfold State.cmpFences
  repeat' with_reducible first
    | assumption | intro _ | apply State.wakeUnits_kept | apply State.cmpRequested_kept | apply State.cmpAllFenced_kept
    | apply State.modEngine_kept | apply kept_ite | refine kept_foldl ?_ ?_

theorem State.coldHeads_kept {z : State} {s : State} (hs : z.Kept s) : z.Kept (State.coldHeads s) := by
  unfold State.coldHeads
  repeat' with_reducible first
    | assumption | intro _ | apply State.setW1c_kept | apply State.modAct_kept | apply State.actReadyOff_kept
    | apply State.abandonAct_kept | apply State.unparkFree_kept | apply kept_ite | refine kept_foldl ?_ ?_

theorem State.collide_kept {z : State} {s : State} {l : Lsa} (hs : z.Kept s) : z.Kept (State.collide s l) := by
  unfold State.collide
  repeat' with_reducible first
    | (refine kept_mk ?_ ?_ ?_ ?_ ?_ ?_ ?_ ?_ <;> first | exact rfl | (refine kept_mk (by assumption) ?_ ?_ ?_ ?_ ?_ ?_ ?_ <;> exact rfl) | apply State.event_kept | apply State.endCmds_kept | apply raise_kept | apply State.floodLsa_kept | apply State.setW1c_kept | apply kept_ite)

theorem State.countPosted_kept {z : State} {s : State} {q : Fin 128} {t' : BitVec 16} (hs : z.Kept s) : z.Kept (State.countPosted s q t') := by
  unfold State.countPosted
  repeat' with_reducible first
    | split
    | (refine kept_mk ?_ ?_ ?_ ?_ ?_ ?_ ?_ ?_ <;> first | exact rfl | (refine kept_mk (by assumption) ?_ ?_ ?_ ?_ ?_ ?_ ?_ <;> exact rfl) | apply State.modQp_kept | apply State.endDelete_kept | apply kept_ite)

theorem State.countUnserved_kept {z : State} {s : State} (hs : z.Kept s) : z.Kept (State.countUnserved s) := by
  unfold State.countUnserved
  repeat' with_reducible first
    | intro _ | apply kept_ite | refine kept_foldl ?_ ?_
    | (refine kept_mk (by assumption) ?_ ?_ ?_ ?_ ?_ ?_ ?_ <;> exact rfl)

theorem State.cryFences_kept {z : State} {s : State} (hs : z.Kept s) : z.Kept (State.cryFences s) := by
  unfold State.cryFences
  repeat' with_reducible first
    | intro _ | apply State.wakeUnits_kept | apply State.cryRequested_kept | apply kept_ite | refine kept_foldl ?_ ?_
    | (refine kept_mk (by assumption) ?_ ?_ ?_ ?_ ?_ ?_ ?_ <;> exact rfl)

theorem State.ctlSend_kept {z : State} {s : State} {n : Fin 5} {ty : Byte} {nak : Bool} {t' : List (BitVec 64)} (hs : z.Kept s) : z.Kept (State.ctlSend s n ty nak t') := by
  unfold State.ctlSend
  repeat' with_reducible first
    | assumption | apply State.send_kept | apply State.modPort_kept

theorem State.ctxEnables_kept {z : State} {s : State} {old : Nat} (hs : z.Kept s) : z.Kept (State.ctxEnables s old) := by
  unfold State.ctxEnables
  repeat' with_reducible first
    | assumption | intro _ | apply State.modCtx_kept | apply State.runInit_kept | apply kept_ite | refine kept_foldl ?_ ?_

theorem State.gotHint_kept {z : State} {s : State} (hs : z.Kept s) : z.Kept (State.gotHint s) := by
  unfold State.gotHint
  repeat' with_reducible first
    | assumption | apply State.darkWake_kept | apply State.readPage_kept | apply kept_ite

theorem State.gotRmaRead_kept {z : State} {s : State} {src : BitVec 12} {a2 : Nat} {n : Nat} {rtag : BitVec 16} (hs : z.Kept s) : z.Kept (State.gotRmaRead s src a2 n rtag) := by
  unfold State.gotRmaRead
  repeat' with_reducible first
    | apply State.e2eSend_kept | apply State.send_kept | apply kept_ite
    | (refine kept_mk (by assumption) ?_ ?_ ?_ ?_ ?_ ?_ ?_ <;> exact rfl)

theorem State.gotRmaWrite_kept {z : State} {s : State} {src : BitVec 12} {a2 : Nat} {l : List Byte} (hs : z.Kept s) : z.Kept (State.gotRmaWrite s src a2 l) := by
  unfold State.gotRmaWrite
  repeat' with_reducible first
    | assumption | apply State.event_kept | apply State.send_kept | apply kept_ite

theorem State.gotRmaIrq_kept {z : State} {s : State} {v : Byte} (hs : z.Kept s) : z.Kept (State.gotRmaIrq s v) := by
  unfold State.gotRmaIrq
  repeat' with_reducible first
    | assumption | apply State.send_kept | apply kept_ite

theorem State.purposeDone_kept {z : State} {s : State} {p : RPurpose} {d : Option (List Byte)} (hs : z.Kept s) : z.Kept (State.purposeDone s p d) := by
  unfold State.purposeDone
  repeat' with_reducible first
    | assumption | apply State.pageDone_kept | apply State.descDone_kept | apply State.cmdReadDone_kept | split

theorem State.purposeFailed_kept {z : State} {s : State} {p : RPurpose} (hs : z.Kept s) : z.Kept (State.purposeFailed s p) := by
  unfold State.purposeFailed
  repeat' with_reducible first
    | apply State.purposeDone_kept | (refine kept_mk (by assumption) ?_ ?_ ?_ ?_ ?_ ?_ ?_ <;> exact rfl)

theorem State.gotRdata_kept {z : State} {s : State} {src : BitVec 12} {rtag : BitVec 16} {status : Nat} {last : Bool} {ofs : Nat} {l : List Byte} (hs : z.Kept s) : z.Kept (State.gotRdata s src rtag status last ofs l) := by
  unfold State.gotRdata
  repeat' with_reducible first
    | split
    | (refine kept_mk ?_ ?_ ?_ ?_ ?_ ?_ ?_ ?_ <;> first | exact rfl | (refine kept_mk (by assumption) ?_ ?_ ?_ ?_ ?_ ?_ ?_ <;> exact rfl) | apply State.purposeFailed_kept | apply State.purposeDone_kept | apply kept_ite)

theorem State.mgmtAnswer_kept {z : State} {s : State} {dst : BitVec 12} {sess : Byte} {status : Nat} {l : List Word} (hs : z.Kept s) : z.Kept (State.mgmtAnswer s dst sess status l) := by
  unfold State.mgmtAnswer
  repeat' with_reducible first
    | assumption | apply State.sendOn_kept | apply State.e2eSendSess_kept | split

theorem State.readReq_kept {z : State} {s : State} {c : Chan} {off : Nat} {n : Nat} (hs : z.Kept s) : z.Kept (State.readReq s c off n).2.2 := by
  unfold State.readReq
  repeat' with_reducible first
    | assumption | apply State.readRegs_kept | split
theorem State.readReq_keptE {z : State} {s : State} {c : Chan} {off : Nat} {n : Nat} {t : State} {o : Nat} {o2 : List Word} (e : State.readReq s c off n = (o, o2, t)) (hs : z.Kept s) : z.Kept t := by
  have k := State.readReq_kept (z := z) (s := s) (c := c) (off := off) (n := n) hs
  rw [e] at k; exact k

theorem State.gotMgmtRd_kept {z : State} {s : State} {src : BitVec 12} {sess : Byte} {off : Nat} {len : Nat} (hs : z.Kept s) : z.Kept (State.gotMgmtRd s src sess off len) := by
  unfold State.gotMgmtRd
  repeat' with_reducible first
    | assumption | apply State.mgmtAnswer_kept | apply State.readReq_kept | apply kept_ite

theorem State.mboxStore_kept {z : State} {s : State} {i : Nat} {v : Nat} (hs : z.Kept s) : z.Kept (State.mboxStore s i v) := by
  unfold State.mboxStore
  repeat' with_reducible first
    | (refine kept_mk (by assumption) ?_ ?_ ?_ ?_ ?_ ?_ ?_ <;> exact rfl)

theorem State.mirrorReg_kept {z : State} {s : State} {off : Nat} {took : List (Fld × Nat × Option Session)} (hs : z.Kept s) : z.Kept (State.mirrorReg s off took) := by
  unfold State.mirrorReg
  repeat' with_reducible first
    | assumption | apply State.mirror_kept | apply kept_ite

theorem State.saveClear_kept {z : State} {s : State} {save : Bool} {clear : Bool} {rs : List Role} (hs : z.Kept s) : z.Kept (State.saveClear s save clear rs) := by
  unfold State.saveClear
  repeat' with_reducible first
    | assumption | apply State.startSave_kept | apply State.startClear_kept | apply State.mirror_kept | apply kept_ite

theorem State.hqiCtl_kept {z : State} {s : State} {old : Nat} (hs : z.Kept s) : z.Kept (State.hqiCtl s old) := by
  unfold State.hqiCtl
  repeat' with_reducible first
    | assumption | apply State.enableHqi_kept | apply State.disableHqi_kept | apply State.enableGw_kept
    | apply State.disableGw_kept | apply kept_ite

theorem State.portEnables_kept {z : State} {s : State} (hs : z.Kept s) : z.Kept (State.portEnables s) := by
  unfold State.portEnables
  repeat' with_reducible first
    | assumption | intro _ | apply State.restartPort_kept | apply State.portDown_kept | apply raise_kept
    | apply State.modPort_kept | apply kept_ite | refine kept_foldl ?_ ?_

theorem State.readdress_kept {z : State} {s : State} (hs : z.Kept s) : z.Kept (State.readdress s) := by
  unfold State.readdress
  repeat' with_reducible first
    | apply State.floodLsa_kept | apply raise_kept | apply State.event_kept | apply kept_ite
    | (refine kept_mk (by assumption) ?_ ?_ ?_ ?_ ?_ ?_ ?_ <;> exact rfl)

theorem State.fabCtl_kept {z : State} {s : State} {old : Nat} (hs : z.Kept s) : z.Kept (State.fabCtl s old) := by
  unfold State.fabCtl
  repeat' with_reducible first
    | assumption | apply State.portEnables_kept | apply State.readdress_kept | apply kept_ite

theorem State.portCtl_kept {z : State} {s : State} {n : Fin 5} (hs : z.Kept s) : z.Kept (State.portCtl s n) := by
  unfold State.portCtl
  repeat' with_reducible first
    | assumption | apply State.portDown_kept | apply raise_kept | apply State.modPort_kept | apply State.restartPort_kept
    | apply kept_ite

theorem State.startYield_kept {z : State} {s : State} (hs : z.Kept s) : z.Kept (State.startYield s) := by
  unfold State.startYield
  repeat' with_reducible first
    | (refine kept_mk (by assumption) ?_ ?_ ?_ ?_ ?_ ?_ ?_ <;> exact rfl)

theorem State.mapCtl_kept {z : State} {s : State} {old : Nat} (hs : z.Kept s) : z.Kept (State.mapCtl s old) := by
  unfold State.mapCtl
  repeat' with_reducible first
    | assumption | apply State.mapDisable_kept | apply State.putFld_kept | apply kept_ite

theorem State.xtpFence_kept {z : State} {s : State} (hs : z.Kept s) : z.Kept (State.xtpFence s) := by
  unfold State.xtpFence
  repeat' with_reducible first
    | apply State.wakeUnits_kept | (refine kept_mk (by assumption) ?_ ?_ ?_ ?_ ?_ ?_ ?_ <;> exact rfl)

theorem State.keepBtnDef_kept {z : State} {s : State} (hs : z.Kept s) : z.Kept (State.keepBtnDef s) := by
  unfold State.keepBtnDef
  repeat' with_reducible first
    | (refine kept_mk (by assumption) ?_ ?_ ?_ ?_ ?_ ?_ ?_ <;> exact rfl)

theorem State.startedBy_kept {z : State} {s : State} {off : Nat} {old : Nat} {took : Nat → Option Nat} {rs : List Role} (hs : z.Kept s) : z.Kept (State.startedBy s off old took rs) := by
  unfold State.startedBy
  repeat' with_reducible first
    | assumption | apply State.saveClear_kept | apply State.hqiCtl_kept | apply State.setRights_kept
    | apply State.fabCtl_kept | apply State.portCtl_kept | apply State.startYield_kept | apply State.atbWake_kept
    | apply State.ctxEnables_kept | apply State.requestPark_kept | apply State.requestUnpark_kept
    | apply State.sswCommand_kept | apply State.grantAll_kept | apply State.abortBist_kept | apply State.startBist_kept
    | apply State.dmaResume_kept | apply State.mapCtl_kept | apply State.mapMaint_kept | apply State.cmpFences_kept
    | apply State.cryFences_kept | apply State.mboxGo_kept | apply State.mboxFree_kept | apply State.xtpFence_kept
    | apply State.wakeUnits_kept | apply State.clearStatus_kept | apply State.setPin_kept | apply State.snapTake_kept
    | apply State.preset_kept | apply State.darkWake_kept | apply State.resetParked_kept | apply State.pfail_kept
    | apply State.keepBtnDef_kept | apply kept_ite
    | (extract_lets +onlyGivenNames -underBinder x; first | (refine kept_cut (x := x) ?_ ?_; intro hx; clear_value x; rotate_left; dsimp only [x]) | skip)
    | split | (refine kept_mk (by assumption) ?_ ?_ ?_ ?_ ?_ ?_ ?_ <;> exact rfl)

theorem State.writeReg_kept {z : State} {s : State} {w : Writer} {d : RegDef} {off : Nat} {v : Nat} (hs : z.Kept s) : z.Kept (State.writeReg s w d off v).1 := by
  unfold State.writeReg
  repeat' with_reducible first
    | assumption | intro _ | apply State.ignoreWrite_kept | apply State.auditWrite_kept | apply State.denyWrite_kept
    | apply State.applyFld_kept | apply State.mirrorReg_kept | apply State.startedBy_kept | apply kept_ite
    | refine kept_foldl ?_ ?_
    | (extract_lets +onlyGivenNames -underBinder x; first | (refine kept_cut (x := x) ?_ ?_; intro hx; clear_value x; rotate_left; dsimp only [x]) | clear_value x | skip)
    | split
theorem State.writeReg_keptE {z : State} {s : State} {w : Writer} {d : RegDef} {off : Nat} {v : Nat} {t : State} {o : Nat} (e : State.writeReg s w d off v = (t, o)) (hs : z.Kept s) : z.Kept t := by
  have k := State.writeReg_kept (z := z) (s := s) (w := w) (d := d) (off := off) (v := v) hs
  rw [e] at k; exact k

theorem State.writeDword_kept {z : State} {s : State} {w : Writer} {off : Nat} {v : Nat} (hs : z.Kept s) : z.Kept (State.writeDword s w off v).1 := by
  unfold State.writeDword
  repeat' with_reducible first
    | apply State.ignoreWrite_kept | apply State.mboxStore_kept | apply State.writeReg_kept | split
    | (refine kept_mk (by assumption) ?_ ?_ ?_ ?_ ?_ ?_ ?_ <;> exact rfl)
theorem State.writeDword_keptE {z : State} {s : State} {w : Writer} {off : Nat} {v : Nat} {t : State} {o : Nat} (e : State.writeDword s w off v = (t, o)) (hs : z.Kept s) : z.Kept t := by
  have k := State.writeDword_kept (z := z) (s := s) (w := w) (off := off) (v := v) hs
  rw [e] at k; exact k

theorem State.writeDwords_kept {z s : State} {w : Writer} {off : Nat} {l : List Word} (hs : z.Kept s) : z.Kept (s.writeDwords w off l).1 := by
  induction l generalizing s off with
  | nil => exact hs
  | cons v l ih => exact ih (State.writeDword_kept hs)
theorem State.writeDwords_keptE {z s t : State} {w : Writer} {off o : Nat} {l : List Word} (e : s.writeDwords w off l = (t, o)) (hs : z.Kept s) : z.Kept t := by
  have k := State.writeDwords_kept (w := w) (off := off) (l := l) hs
  rw [e] at k; exact k

theorem State.writeReq_kept {z : State} {s : State} {w : Writer} {off : Nat} {l : List Word} (hs : z.Kept s) : z.Kept (State.writeReq s w off l).1 := by
  unfold State.writeReq
  repeat' with_reducible first
    | assumption | apply State.writeDwords_kept | apply State.ignoreWrite_kept | split
theorem State.writeReq_keptE {z : State} {s : State} {w : Writer} {off : Nat} {l : List Word} {t : State} {o : Nat} (e : State.writeReq s w off l = (t, o)) (hs : z.Kept s) : z.Kept t := by
  have k := State.writeReq_kept (z := z) (s := s) (w := w) (off := off) (l := l) hs
  rw [e] at k; exact k

theorem State.gotMgmtWr_kept {z : State} {s : State} {src : BitVec 12} {sess : Byte} {off : Nat} {l : List Word} (hs : z.Kept s) : z.Kept (State.gotMgmtWr s src sess off l) := by
  unfold State.gotMgmtWr
  repeat' with_reducible first
    | assumption | apply State.writeReq_kept | apply State.mgmtAnswer_kept

theorem State.pmRefuse_kept {z : State} {s : State} {peer : BitVec 12} {num : Word} {status : Nat} (hs : z.Kept s) : z.Kept (State.pmRefuse s peer num status) := by
  unfold State.pmRefuse
  repeat' with_reducible first
    | apply State.e2eSend_kept | (refine kept_mk (by assumption) ?_ ?_ ?_ ?_ ?_ ?_ ?_ <;> exact rfl)

theorem State.gotPmOpen_kept {z : State} {s : State} {src : BitVec 12} {num : Word} {cp1 : Word} {cp2 : Word} {flags : Byte} {pub : List Byte} {cert : List Byte} {sig : List Byte} (hs : z.Kept s) : z.Kept (State.gotPmOpen s src num cp1 cp2 flags pub cert sig) := by
  unfold State.gotPmOpen
  repeat' with_reducible first
    | assumption | apply State.pmRefuse_kept | apply State.e2eSend_kept | apply State.draw_kept | apply kept_ite
    | (extract_lets +onlyGivenNames -underBinder x; first | (refine kept_cut (x := x) ?_ ?_; intro hx; clear_value x; rotate_left; dsimp only [x]) | skip)
    | (refine kept_mk (by assumption) ?_ ?_ ?_ ?_ ?_ ?_ ?_ <;> exact rfl)

theorem State.pmDrop_kept {z : State} {s : State} {x' : PmSess} (hs : z.Kept s) : z.Kept (State.pmDrop s x') := by
  unfold State.pmDrop
  repeat' with_reducible first
    | (refine kept_mk (by assumption) ?_ ?_ ?_ ?_ ?_ ?_ ?_ <;> exact rfl)

theorem State.pmFail_kept {z : State} {s : State} {x' : PmSess} {status : Nat} (hs : z.Kept s) : z.Kept (State.pmFail s x' status) := by
  unfold State.pmFail
  repeat' with_reducible first
    | assumption | apply raise_kept | apply State.eventSrc_kept | apply State.pmDrop_kept | apply State.finish_kept | split

theorem State.pmSend_kept {z : State} {s : State} {x' : PmSess} {key : Nat} (hs : z.Kept s) : z.Kept (State.pmSend s x' key) := by
  unfold State.pmSend
  repeat' with_reducible first
    | assumption | intro _ | apply State.e2eSend_kept | refine kept_foldl ?_ ?_

theorem State.gotPmAccept_kept {z : State} {s : State} {src : BitVec 12} {num : Word} {pub : List Byte} {cert : List Byte} {sig : List Byte} (hs : z.Kept s) : z.Kept (State.gotPmAccept s src num pub cert sig) := by
  unfold State.gotPmAccept
  repeat' with_reducible first
    | apply State.pmFail_kept | apply State.pmSend_kept | apply kept_ite | split
    | (refine kept_mk (by assumption) ?_ ?_ ?_ ?_ ?_ ?_ ?_ <;> exact rfl)

theorem State.gotPmData_kept {z : State} {s : State} {src : BitVec 12} {num : Word} {pno : Nat} {ct : List Byte} {tag : List Byte} (hs : z.Kept s) : z.Kept (State.gotPmData s src num pno ct tag) := by
  unfold State.gotPmData
  repeat' with_reducible first
    | apply State.pmRefuse_kept
    | (extract_lets +onlyGivenNames -underBinder x; first | (refine kept_cut (x := x) ?_ ?_; intro hx; clear_value x; rotate_left; dsimp only [x]) | skip)
    | split | (refine kept_mk (by assumption) ?_ ?_ ?_ ?_ ?_ ?_ ?_ <;> exact rfl)

theorem State.pmAppend_kept {z : State} {s : State} {x' : PmSess} (hs : z.Kept s) : z.Kept (State.pmAppend s x') := by
  unfold State.pmAppend
  repeat' with_reducible first
    | apply State.consider_kept | (refine kept_mk (by assumption) ?_ ?_ ?_ ?_ ?_ ?_ ?_ <;> exact rfl)

theorem State.gotPmDone_kept {z : State} {s : State} {src : BitVec 12} {num : Word} {blocks : Nat} {status : Nat} {lba : Nat} (hs : z.Kept s) : z.Kept (State.gotPmDone s src num blocks status lba) := by
  unfold State.gotPmDone
  repeat' with_reducible first
    | assumption | apply State.pmDrop_kept | apply State.finish_kept | apply State.pmAppend_kept | split

theorem State.gotPmRefuse_kept {z : State} {s : State} {src : BitVec 12} {num : Word} {status : Nat} (hs : z.Kept s) : z.Kept (State.gotPmRefuse s src num status) := by
  unfold State.gotPmRefuse
  repeat' with_reducible first
    | assumption | apply State.pmFail_kept | split

theorem State.deliver_kept {z : State} {s : State} {p : Pkt} (hs : z.Kept s) : z.Kept (State.deliver s p) := by
  unfold State.deliver
  repeat' with_reducible first
    | apply State.gotTokenReq_kept | apply State.gotTokenGrant_kept | apply State.gotTokenReturn_kept
    | apply State.gotLedgerQuery_kept | apply State.gotLedgerHeld_kept | apply State.gotHint_kept
    | apply State.gotRmaRead_kept | apply State.gotRmaWrite_kept | apply State.gotRmaIrq_kept | apply State.gotRdata_kept
    | apply State.gotMgmtRd_kept | apply State.gotMgmtWr_kept | apply State.gotPmOpen_kept | apply State.gotPmAccept_kept
    | apply State.gotPmData_kept | apply State.gotPmDone_kept | apply State.gotPmRefuse_kept | apply kept_ite | split
    | (refine kept_mk (by assumption) ?_ ?_ ?_ ?_ ?_ ?_ ?_ <;> exact rfl)

theorem State.endAll_kept {z : State} {s : State} (hs : z.Kept s) : z.Kept (State.endAll s) := by
  unfold State.endAll
  repeat' with_reducible first
    | assumption | intro _ | apply State.endCmd_kept | apply kept_ite | refine kept_foldl ?_ ?_

theorem State.spinAgain_kept {z : State} {s : State} (hs : z.Kept s) : z.Kept (State.spinAgain s) := by
  unfold State.spinAgain
  repeat' with_reducible first
    | assumption | apply State.wakeUp_kept | apply State.requestSpin_kept | apply kept_ite

theorem State.endRemoval_kept {z : State} {s : State} (hs : z.Kept s) : z.Kept (State.endRemoval s) := by
  unfold State.endRemoval
  repeat' with_reducible first
    | (refine kept_mk ?_ ?_ ?_ ?_ ?_ ?_ ?_ ?_ <;> first | exact rfl | (refine kept_mk (by assumption) ?_ ?_ ?_ ?_ ?_ ?_ ?_ <;> exact rfl) | apply State.domainsOn_kept | apply State.spinAgain_kept | apply State.floodLsa_kept | apply kept_ite)

theorem State.findBoss_kept {z : State} {s : State} (hs : z.Kept s) : z.Kept (State.findBoss s) := by
  unfold State.findBoss
  repeat' with_reducible first
    | apply State.setOffice_kept | apply State.floodLsa_kept | apply State.event_kept | apply kept_ite
    | (refine kept_mk (by assumption) ?_ ?_ ?_ ?_ ?_ ?_ ?_ <;> exact rfl)

theorem State.handoverTraps_kept {z : State} {s : State} (hs : z.Kept s) : z.Kept (State.handoverTraps s) := by
  unfold State.handoverTraps
  repeat' with_reducible first
    | assumption | intro _ | apply State.modCtx_kept | refine kept_foldl ?_ ?_

theorem State.takeOwner_kept {z : State} {s : State} {cause : Nat} (hs : z.Kept s) : z.Kept (State.takeOwner s cause) := by
  unfold State.takeOwner
  repeat' with_reducible first
    | (refine kept_mk ?_ ?_ ?_ ?_ ?_ ?_ ?_ ?_ <;> first | exact rfl | (refine kept_mk (by assumption) ?_ ?_ ?_ ?_ ?_ ?_ ?_ <;> exact rfl) | apply State.draw_kept | apply State.setReady_kept | apply State.spinMode_kept | apply State.handoverTraps_kept | apply State.event_kept | apply State.readdress_kept | apply State.broadcast_kept | apply State.coldHeads_kept | apply kept_ite | (refine kept_mk ?_ ?_ ?_ ?_ ?_ ?_ ?_ ?_ <;> first | exact rfl | (refine kept_mk (by assumption) ?_ ?_ ?_ ?_ ?_ ?_ ?_ <;> exact rfl) | apply State.draw_kept | apply State.setReady_kept | apply State.spinMode_kept | apply State.handoverTraps_kept | apply State.event_kept | apply State.readdress_kept | apply State.broadcast_kept | apply State.coldHeads_kept | apply kept_ite))

theorem State.firstOwner_kept {z : State} {s : State} (hs : z.Kept s) : z.Kept (State.firstOwner s) := by
  unfold State.firstOwner
  repeat' with_reducible first
    | apply State.readdress_kept | apply State.setReady_kept | apply State.takeOwner_kept | apply kept_ite
    | (refine kept_mk (by assumption) ?_ ?_ ?_ ?_ ?_ ?_ ?_ <;> exact rfl)

theorem State.flushGw_kept {z : State} {s : State} (hs : z.Kept s) : z.Kept (State.flushGw s) := by
  unfold State.flushGw
  repeat' with_reducible first
    | apply State.modTx_kept | apply State.pumpTx_kept | (refine kept_mk (by assumption) ?_ ?_ ?_ ?_ ?_ ?_ ?_ <;> exact rfl)

theorem State.gotE2eAck_kept {z : State} {s : State} {src : BitVec 12} {seq : Word} (hs : z.Kept s) : z.Kept (State.gotE2eAck s src seq) := by
  unfold State.gotE2eAck
  repeat' with_reducible first
    | (refine kept_mk ?_ ?_ ?_ ?_ ?_ ?_ ?_ ?_ <;> first | exact rfl | (refine kept_mk (by assumption) ?_ ?_ ?_ ?_ ?_ ?_ ?_ <;> exact rfl) | apply State.modTx_kept | apply State.pumpTx_kept | apply State.flushGw_kept | apply kept_ite)

theorem State.routeWake_kept {z : State} {s : State} (hs : z.Kept s) : z.Kept (State.routeWake s) := by
  unfold State.routeWake
  repeat' with_reducible first
    | apply State.applyLatched_kept | apply raise_kept | apply kept_ite
    | (refine kept_mk (by assumption) ?_ ?_ ?_ ?_ ?_ ?_ ?_ <;> exact rfl)

theorem State.gotLsa.store_kept {z : State} {l : Lsa} {s : State} {same : Lsa → Bool} {old : Option Lsa} (hs : z.Kept s) : z.Kept (State.gotLsa.store l s same old) := by
  unfold State.gotLsa.store
  repeat' with_reducible first
    | intro _ | apply State.routeWake_kept | apply State.collide_kept | apply State.modPort_kept | apply State.portDown_kept
    | apply raise_kept | apply kept_ite | refine kept_foldl ?_ ?_
    | (refine kept_mk (by assumption) ?_ ?_ ?_ ?_ ?_ ?_ ?_ <;> exact rfl)

theorem State.gotLsa_kept {z : State} {s : State} {l : Lsa} (hs : z.Kept s) : z.Kept (State.gotLsa s l) := by
  unfold State.gotLsa
  repeat' with_reducible first
    | assumption | apply State.gotLsa.store_kept
    | (extract_lets +onlyGivenNames -underBinder x; first | (refine kept_cut (x := x) ?_ ?_; intro hx; clear_value x; rotate_left; dsimp only [x]) | clear_value x | skip)
    | split

theorem State.gotTakeover_kept {z : State} {s : State} {taken : BitVec 12} {survivor : BitVec 12} (hs : z.Kept s) : z.Kept (State.gotTakeover s taken survivor) := by
  unfold State.gotTakeover
  repeat' with_reducible first
    | (refine kept_mk (by assumption) ?_ ?_ ?_ ?_ ?_ ?_ ?_ <;> exact rfl)

theorem State.releaseOwn_kept {z : State} {s : State} (hs : z.Kept s) : z.Kept (State.releaseOwn s) := by
  unfold State.releaseOwn
  repeat' with_reducible first
    | (refine kept_mk ?_ ?_ ?_ ?_ ?_ ?_ ?_ ?_ <;> first | exact rfl | (refine kept_mk (by assumption) ?_ ?_ ?_ ?_ ?_ ?_ ?_ <;> exact rfl) | apply State.abandonAll_kept | apply State.cutGates_kept | apply State.readdress_kept | apply State.setReady_kept | apply State.handoverTraps_kept | apply kept_ite)

theorem State.handoverFalls_kept {z : State} {s : State} {byEnclosure : Bool} (hs : z.Kept s) : z.Kept (State.handoverFalls s byEnclosure) := by
  unfold State.handoverFalls
  repeat' with_reducible first
    | (refine kept_mk ?_ ?_ ?_ ?_ ?_ ?_ ?_ ?_ <;> first | exact rfl | (refine kept_mk (by assumption) ?_ ?_ ?_ ?_ ?_ ?_ ?_ <;> exact rfl) | apply State.releaseOwn_kept | apply State.takeOwner_kept | apply kept_ite)

theorem State.heatersOff_kept {z : State} {s : State} (hs : z.Kept s) : z.Kept (State.heatersOff s) := by
  unfold State.heatersOff
  repeat' with_reducible first
    | assumption | intro _ | apply State.palSend_kept | apply State.modAct_kept | refine kept_foldl ?_ ?_

theorem State.ignorePress_kept {z : State} {s : State} {ms : Nat} (hs : z.Kept s) : z.Kept (State.ignorePress s ms) := by
  unfold State.ignorePress
  repeat' with_reducible first
    | apply State.event_kept | (refine kept_mk (by assumption) ?_ ?_ ?_ ?_ ?_ ?_ ?_ <;> exact rfl)

theorem State.initsDue_kept {z : State} {s : State} (hs : z.Kept s) : z.Kept (State.initsDue s) := by
  unfold State.initsDue
  repeat' with_reducible first
    | assumption | intro _ | apply State.modCtx_kept | apply State.runInit_kept | apply kept_ite | refine kept_foldl ?_ ?_

theorem State.liveMeans_kept {z : State} {s : State} (hs : z.Kept s) : z.Kept (State.liveMeans s) := by
  unfold State.liveMeans
  repeat' with_reducible first
    | assumption | intro _ | apply State.modHead_kept | apply State.event_kept | apply kept_ite | refine kept_foldl ?_ ?_

theorem State.mirroredData_kept {z : State} {s : State} (hs : z.Kept s) : z.Kept (State.mirroredData s) := by
  unfold State.mirroredData
  repeat' with_reducible first
    | (refine kept_mk (by assumption) ?_ ?_ ?_ ?_ ?_ ?_ ?_ <;> exact rfl)

theorem State.nak_kept {z : State} {s : State} {n : Fin 5} (hs : z.Kept s) : z.Kept (State.nak s n) := by
  unfold State.nak
  repeat' with_reducible first
    | assumption | apply State.ctlSend_kept | apply State.modPort_kept | apply kept_ite

theorem State.pairTake_kept {z : State} {s : State} {pseq : BitVec 16} {f : State → State} (hs : z.Kept s) (hf : ∀ s, z.Kept s → z.Kept (f s)) : z.Kept (State.pairTake s pseq f) := by
  unfold State.pairTake
  repeat' with_reducible first
    | apply State.pairSend_kept | apply hf | apply kept_ite
    | (refine kept_mk (by assumption) ?_ ?_ ?_ ?_ ?_ ?_ ?_ <;> exact rfl)

theorem State.parksDue_kept {z : State} {s : State} (hs : z.Kept s) : z.Kept (State.parksDue s) := by
  unfold State.parksDue
  repeat' with_reducible first
    | assumption | intro _ | apply State.parkNow_kept | apply kept_ite | refine kept_foldl ?_ ?_

theorem State.peerReleased_kept {z : State} {s : State} (hs : z.Kept s) : z.Kept (State.peerReleased s) := by
  unfold State.peerReleased
  repeat' with_reducible first
    | apply State.takeOwner_kept | apply kept_ite | (refine kept_mk (by assumption) ?_ ?_ ?_ ?_ ?_ ?_ ?_ <;> exact rfl)

theorem State.periodIs_kept {z : State} {s : State} {period : Nat} (hs : z.Kept s) : z.Kept (State.periodIs s period) := by
  unfold State.periodIs
  repeat' with_reducible first
    | (refine kept_mk ?_ ?_ ?_ ?_ ?_ ?_ ?_ ?_ <;> first | exact rfl | (refine kept_mk (by assumption) ?_ ?_ ?_ ?_ ?_ ?_ ?_ <;> exact rfl) | apply kept_ite)

theorem State.portUp_kept {z : State} {s : State} {n : Fin 5} (hs : z.Kept s) : z.Kept (State.portUp s n) := by
  unfold State.portUp
  repeat' with_reducible first
    | assumption | apply State.modPort_kept | apply State.floodLsa_kept | apply State.setReady_kept | apply State.event_kept

theorem State.recRevs_kept {z : State} {s : State} (hs : z.Kept s) : z.Kept (State.recRevs s) := by
  unfold State.recRevs
  repeat' with_reducible first
    | assumption | intro _ | apply State.modRec_kept | apply State.budgetEnd_kept | refine kept_foldl ?_ ?_ | split

theorem State.receive_kept {z : State} {s : State} {p : Pkt} (hs : z.Kept s) : z.Kept (State.receive s p) := by
  unfold State.receive
  repeat' with_reducible first
    | apply State.forward_kept | apply State.deliver_kept | apply State.discard_kept | apply kept_ite
    | refine kept_foldl ?_ ?_ | (refine kept_mk (by assumption) ?_ ?_ ?_ ?_ ?_ ?_ ?_ <;> exact rfl)

theorem State.safeNow_kept {z : State} {s : State} (hs : z.Kept s) : z.Kept (State.safeNow s) := by
  unfold State.safeNow
  repeat' with_reducible first
    | (refine kept_mk ?_ ?_ ?_ ?_ ?_ ?_ ?_ ?_ <;> first | exact rfl | (refine kept_mk (by assumption) ?_ ?_ ?_ ?_ ?_ ?_ ?_ <;> exact rfl) | apply State.floodLsa_kept | apply State.domainsOff_kept | apply State.setPower_kept | apply State.event_kept | apply kept_ite)

theorem State.removalStep_kept {z : State} {s : State} (hs : z.Kept s) : z.Kept (State.removalStep s) := by
  unfold State.removalStep
  repeat' with_reducible first
    | apply State.startCkpt_kept | apply State.spinStop_kept | apply State.parkAll_kept | apply raise_kept
    | apply State.safeNow_kept | apply kept_ite | (refine kept_mk (by assumption) ?_ ?_ ?_ ?_ ?_ ?_ ?_ <;> exact rfl)

theorem State.replayAll_kept {z : State} {s : State} {n : Fin 5} (hs : z.Kept s) : z.Kept (State.replayAll s n) := by
  unfold State.replayAll
  repeat' with_reducible first
    | assumption | intro _ | refine State.count_kept ?_ (by omega) | apply State.modPort_kept | apply State.send_kept
    | apply State.portDown_kept | apply raise_kept | apply kept_ite | refine kept_foldl ?_ ?_

theorem State.service_kept {z : State} {s : State} {tag : BitVec 16} {a2 : Nat} {f : State → State} (hs : z.Kept s) (hf : ∀ s, z.Kept s → z.Kept (f s)) : z.Kept (State.service s tag a2 f) := by
  unfold State.service
  repeat' with_reducible first
    | assumption | intro _ | apply State.adminCmd_kept | apply State.finish_kept | apply hf | apply kept_ite

theorem State.setLocate_kept {z : State} {s : State} {on : Bool} {cause : Nat} (hs : z.Kept s) : z.Kept (State.setLocate s on cause) := by
  unfold State.setLocate
  repeat' with_reducible first
    | apply State.event_kept | apply kept_ite | (refine kept_mk (by assumption) ?_ ?_ ?_ ?_ ?_ ?_ ?_ <;> exact rfl)

theorem State.startRemoval_kept {z : State} {s : State} {frm : Nat} (hs : z.Kept s) : z.Kept (State.startRemoval s frm) := by
  unfold State.startRemoval
  repeat' with_reducible first
    | apply State.event_kept | (refine kept_mk (by assumption) ?_ ?_ ?_ ?_ ?_ ?_ ?_ <;> exact rfl)

theorem State.surprise_kept {z : State} {s : State} {what : Nat} (hs : z.Kept s) : z.Kept (State.surprise s what) := by
  unfold State.surprise
  repeat' with_reducible first
    | intro _
    | (refine kept_mk ?_ ?_ ?_ ?_ ?_ ?_ ?_ ?_ <;> first | exact rfl | (refine kept_mk (by assumption) ?_ ?_ ?_ ?_ ?_ ?_ ?_ <;> exact rfl) | apply State.actPfail_kept | apply raise_kept | apply State.floodLsa_kept | apply State.event_kept | apply State.setW1c_kept | apply State.endAll_kept)

theorem State.switchBanks_kept {z : State} {s : State} (hs : z.Kept s) : z.Kept (State.switchBanks s) := by
  unfold State.switchBanks
  repeat' with_reducible first
    | assumption | intro _ | apply State.endWhere_kept | apply State.setBank_kept | apply State.modCtx_kept | apply kept_ite
    | refine kept_foldl ?_ ?_
    | (extract_lets +onlyGivenNames -underBinder x; first | (refine kept_cut (x := x) ?_ ?_; intro hx; clear_value x; rotate_left; dsimp only [x]) | skip)
    | (refine kept_mk (by assumption) ?_ ?_ ?_ ?_ ?_ ?_ ?_ <;> exact rfl)

theorem State.takeBroadcast_kept {z : State} {s : State} {inp : Option (Fin 5)} {p : Pkt} (hs : z.Kept s) : z.Kept (State.takeBroadcast s inp p) := by
  unfold State.takeBroadcast
  repeat' with_reducible first
    | apply State.discard_kept | apply State.flood_kept | apply State.draw_kept | apply State.gotLsa_kept
    | apply State.gotTakeover_kept | apply State.gotPhaseRef_kept | apply kept_ite | split
    | (refine kept_mk (by assumption) ?_ ?_ ?_ ?_ ?_ ?_ ?_ <;> exact rfl)

theorem State.takeCfg_kept {z : State} {s : State} {off : Nat} {v : Nat} (hs : z.Kept s) : z.Kept (State.takeCfg s off v) := by
  unfold State.takeCfg
  repeat' with_reducible first
    | assumption | intro _ | apply State.saveClear_kept | apply State.applyFld_kept | apply State.startedBy_kept
    | refine kept_foldl ?_ ?_ | split

theorem State.takeHdr_kept {z : State} {s : State} {n : Fin 5} {h' : LinkHdr} (hs : z.Kept s) : z.Kept (State.takeHdr s n h') := by
  unfold State.takeHdr
  repeat' with_reducible first
    | assumption | apply State.modPort_kept | apply State.drainPort_kept

theorem State.takeMine_kept {z : State} {s : State} {p : Pkt} (hs : z.Kept s) : z.Kept (State.takeMine s p) := by
  unfold State.takeMine
  repeat' with_reducible first
    | assumption | apply State.gotE2eAck_kept | apply State.receive_kept | apply State.deliver_kept | apply kept_ite

theorem State.takePkt_kept {z : State} {s : State} {inp : Option (Fin 5)} {p : Pkt} (hs : z.Kept s) : z.Kept (State.takePkt s inp p) := by
  unfold State.takePkt
  repeat' with_reducible first
    | assumption | apply State.discard_kept | apply State.takeBroadcast_kept | apply State.takeMine_kept
    | apply State.deliver_kept | apply State.forward_kept | apply kept_ite

theorem State.takeQ_kept {z : State} {s : State} {c : QChange} (hs : z.Kept s) : z.Kept (State.takeQ s c) := by
  unfold State.takeQ
  repeat' with_reducible first
    | assumption | apply State.modQp_kept | apply State.modZone_kept | apply State.openZone_kept | apply State.takeUnit_kept
    | apply State.countPosted_kept
    | (extract_lets +onlyGivenNames -underBinder x; first | (refine kept_cut (x := x) ?_ ?_; intro hx; clear_value x; rotate_left; dsimp only [x]) | skip)
    | split | (refine kept_mk (by assumption) ?_ ?_ ?_ ?_ ?_ ?_ ?_ <;> exact rfl)

theorem State.takeWaiting_kept {z : State} {s : State} (hs : z.Kept s) : z.Kept (State.takeWaiting s) := by
  unfold State.takeWaiting
  repeat' with_reducible first
    | intro _ | apply State.takePkt_kept | apply kept_ite | refine kept_foldl ?_ ?_
    | (refine kept_mk (by assumption) ?_ ?_ ?_ ?_ ?_ ?_ ?_ <;> exact rfl)

theorem State.unreachable_kept {z : State} {s : State} {d : BitVec 12} (hs : z.Kept s) : z.Kept (State.unreachable s d) := by
  unfold State.unreachable
  repeat' with_reducible first
    | intro _ | split
    | (refine kept_mk ?_ ?_ ?_ ?_ ?_ ?_ ?_ ?_ <;> first | exact rfl | (refine kept_mk (by assumption) ?_ ?_ ?_ ?_ ?_ ?_ ?_ <;> exact rfl) | apply State.modTx_kept | apply raise_kept | apply State.eventSrc_kept | apply State.purposeFailed_kept | apply State.finish_kept | apply State.pmDrop_kept | apply kept_ite | refine kept_foldl ?_ ?_ | refine kept_foldl_fst ?_ ?_ | refine kept_foldl_snd ?_ ?_)

theorem State.write1_kept {z : State} {s : State} {w : Writer} {off : Nat} {v : Nat} (hs : z.Kept s) : z.KeptBy (State.write1 s w off v) := by
  unfold State.write1
  repeat' with_reducible first
    | assumption | apply State.writeReq_kept | apply keptBy_next

theorem State.writeBist_kept {z : State} {s : State} {w : Writer} {ch : Fin 16} {t' : Nat} (hs : z.Kept s) : z.KeptBy (State.writeBist s w ch t') := by
  unfold State.writeBist
  repeat' with_reducible first
    | assumption | apply State.write1_kept

theorem State.writeFld_kept {z : State} {s : State} {w : Writer} {off : Nat} {lsb : Nat} {width : Nat} {x' : Nat} (hs : z.Kept s) : z.KeptBy (State.writeFld s w off lsb width x') := by
  unfold State.writeFld
  repeat' with_reducible first
    | assumption | apply State.write1_kept

theorem State.writeMaint_kept {z : State} {s : State} {w : Writer} {op : Nat} (hs : z.Kept s) : z.KeptBy (State.writeMaint s w op) := by
  unfold State.writeMaint
  repeat' with_reducible first
    | assumption | apply State.write1_kept

theorem State.writeSsw_kept {z : State} {s : State} {w : Writer} {act : Fin 4} {op : Nat} (hs : z.Kept s) : z.KeptBy (State.writeSsw s w act op) := by
  unfold State.writeSsw
  repeat' with_reducible first
    | assumption | apply State.write1_kept

theorem execIndex_kept {z : State} {period : Nat} {s : State} (hs : z.Kept s) : z.KeptBy (execIndex period s) := by
  unfold execIndex
  repeat' with_reducible first
    | refine State.count_kept ?_ (by omega) | apply State.switchBanks_kept | apply State.countUnserved_kept
    | apply State.applyStaged_kept | apply State.initsDue_kept | apply State.chIndex_kept | apply State.heatersOff_kept
    | apply State.liveMeans_kept | apply State.periodIs_kept | apply State.parksDue_kept | apply State.sswEnd_kept
    | apply State.settle_kept | apply State.recRevs_kept | apply keptBy_next | apply keptBy_ite | apply kept_ite
    | refine kept_foldl ?_ ?_ | (refine kept_mk (by assumption) ?_ ?_ ?_ ?_ ?_ ?_ ?_ <;> exact rfl)

theorem execRegisterWrite_kept {z : State} {w : Writer} {off : BitVec 16} {data : List Word} {s : State} (hs : z.Kept s) : z.KeptBy (execRegisterWrite w off data s) := by
  unfold execRegisterWrite
  repeat' with_reducible first
    | assumption | apply State.writeReq_kept | apply keptBy_next

theorem execActParkCmd_kept {z : State} {w : Writer} {act : Fin 4} {s : State} (hs : z.Kept s) : z.KeptBy (execActParkCmd w act s) := by
  unfold execActParkCmd
  repeat' with_reducible first
    | assumption | apply State.write1_kept

theorem execActUnparkCmd_kept {z : State} {w : Writer} {act : Fin 4} {s : State} (hs : z.Kept s) : z.KeptBy (execActUnparkCmd w act s) := by
  unfold execActUnparkCmd
  repeat' with_reducible first
    | assumption | apply State.write1_kept

theorem execSswSeedCheck_kept {z : State} {w : Writer} {act : Fin 4} {s : State} (hs : z.Kept s) : z.KeptBy (execSswSeedCheck w act s) := by
  unfold execSswSeedCheck
  repeat' with_reducible first
    | assumption | apply State.writeSsw_kept

theorem execSswPropagate_kept {z : State} {w : Writer} {act : Fin 4} {s : State} (hs : z.Kept s) : z.KeptBy (execSswPropagate w act s) := by
  unfold execSswPropagate
  repeat' with_reducible first
    | assumption | apply State.writeSsw_kept

theorem execSswVerify_kept {z : State} {w : Writer} {act : Fin 4} {s : State} (hs : z.Kept s) : z.KeptBy (execSswVerify w act s) := by
  unfold execSswVerify
  repeat' with_reducible first
    | assumption | apply State.writeSsw_kept

theorem execSswCalibrate_kept {z : State} {w : Writer} {act : Fin 4} {s : State} (hs : z.Kept s) : z.KeptBy (execSswCalibrate w act s) := by
  unfold execSswCalibrate
  repeat' with_reducible first
    | assumption | apply State.writeSsw_kept

theorem execSswPause_kept {z : State} {w : Writer} {act : Fin 4} {s : State} (hs : z.Kept s) : z.KeptBy (execSswPause w act s) := by
  unfold execSswPause
  repeat' with_reducible first
    | assumption | apply State.writeSsw_kept

theorem execSswAbort_kept {z : State} {w : Writer} {act : Fin 4} {s : State} (hs : z.Kept s) : z.KeptBy (execSswAbort w act s) := by
  unfold execSswAbort
  repeat' with_reducible first
    | assumption | apply State.writeSsw_kept

theorem execChFenceReq_kept {z : State} {w : Writer} {ch : Fin 16} {on : Bool} {s : State} (hs : z.Kept s) : z.KeptBy (execChFenceReq w ch on s) := by
  unfold execChFenceReq
  repeat' with_reducible first
    | assumption | apply State.writeFld_kept

theorem execChBistMemory_kept {z : State} {w : Writer} {ch : Fin 16} {s : State} (hs : z.Kept s) : z.KeptBy (execChBistMemory w ch s) := by
  unfold execChBistMemory
  repeat' with_reducible first
    | assumption | apply State.writeBist_kept

theorem execChBistAdc_kept {z : State} {w : Writer} {ch : Fin 16} {s : State} (hs : z.Kept s) : z.KeptBy (execChBistAdc w ch s) := by
  unfold execChBistAdc
  repeat' with_reducible first
    | assumption | apply State.writeBist_kept

theorem execChBistLoopback_kept {z : State} {w : Writer} {ch : Fin 16} {s : State} (hs : z.Kept s) : z.KeptBy (execChBistLoopback w ch s) := by
  unfold execChBistLoopback
  repeat' with_reducible first
    | assumption | apply State.writeBist_kept

theorem execChBistDecoder_kept {z : State} {w : Writer} {ch : Fin 16} {s : State} (hs : z.Kept s) : z.KeptBy (execChBistDecoder w ch s) := by
  unfold execChBistDecoder
  repeat' with_reducible first
    | assumption | apply State.writeBist_kept

theorem execChBistAll_kept {z : State} {w : Writer} {ch : Fin 16} {s : State} (hs : z.Kept s) : z.KeptBy (execChBistAll w ch s) := by
  unfold execChBistAll
  repeat' with_reducible first
    | assumption | apply State.writeBist_kept

theorem execChBistAbort_kept {z : State} {w : Writer} {ch : Fin 16} {s : State} (hs : z.Kept s) : z.KeptBy (execChBistAbort w ch s) := by
  unfold execChBistAbort
  repeat' with_reducible first
    | assumption | apply State.writeBist_kept

theorem execXtpFenceReq_kept {z : State} {w : Writer} {on : Bool} {s : State} (hs : z.Kept s) : z.KeptBy (execXtpFenceReq w on s) := by
  unfold execXtpFenceReq
  repeat' with_reducible first
    | assumption | apply State.writeFld_kept

theorem execCmpFenceReq_kept {z : State} {w : Writer} {mask : BitVec 4} {s : State} (hs : z.Kept s) : z.KeptBy (execCmpFenceReq w mask s) := by
  unfold execCmpFenceReq
  repeat' with_reducible first
    | assumption | apply State.writeFld_kept

theorem execCryFenceReq_kept {z : State} {w : Writer} {mask : BitVec 4} {s : State} (hs : z.Kept s) : z.KeptBy (execCryFenceReq w mask s) := by
  unfold execCryFenceReq
  repeat' with_reducible first
    | assumption | apply State.writeFld_kept

theorem execDmaPauseWrite_kept {z : State} {w : Writer} {mask : Word} {s : State} (hs : z.Kept s) : z.KeptBy (execDmaPauseWrite w mask s) := by
  unfold execDmaPauseWrite
  repeat' with_reducible first
    | assumption | apply State.write1_kept

theorem execMapClean_kept {z : State} {w : Writer} {s : State} (hs : z.Kept s) : z.KeptBy (execMapClean w s) := by
  unfold execMapClean
  repeat' with_reducible first
    | assumption | apply State.writeMaint_kept

theorem execMapCleanInv_kept {z : State} {w : Writer} {s : State} (hs : z.Kept s) : z.KeptBy (execMapCleanInv w s) := by
  unfold execMapCleanInv
  repeat' with_reducible first
    | assumption | apply State.writeMaint_kept

theorem execMapZero_kept {z : State} {w : Writer} {s : State} (hs : z.Kept s) : z.KeptBy (execMapZero w s) := by
  unfold execMapZero
  repeat' with_reducible first
    | assumption | apply State.writeMaint_kept

theorem execMapLockFill_kept {z : State} {w : Writer} {s : State} (hs : z.Kept s) : z.KeptBy (execMapLockFill w s) := by
  unfold execMapLockFill
  repeat' with_reducible first
    | assumption | apply State.writeMaint_kept

theorem execMapCleanAll_kept {z : State} {w : Writer} {s : State} (hs : z.Kept s) : z.KeptBy (execMapCleanAll w s) := by
  unfold execMapCleanAll
  repeat' with_reducible first
    | assumption | apply State.writeMaint_kept

theorem execMapCleanInvAll_kept {z : State} {w : Writer} {s : State} (hs : z.Kept s) : z.KeptBy (execMapCleanInvAll w s) := by
  unfold execMapCleanInvAll
  repeat' with_reducible first
    | assumption | apply State.writeMaint_kept

theorem execMapDisable_kept {z : State} {w : Writer} {s : State} (hs : z.Kept s) : z.KeptBy (execMapDisable w s) := by
  unfold execMapDisable
  repeat' with_reducible first
    | assumption | apply State.writeFld_kept

theorem execBufDiagWrite_kept {z : State} {w : Writer} {v : Word} {s : State} (hs : z.Kept s) : z.KeptBy (execBufDiagWrite w v s) := by
  unfold execBufDiagWrite
  repeat' with_reducible first
    | assumption | apply State.write1_kept

theorem execHqiEnable_kept {z : State} {w : Writer} {s : State} (hs : z.Kept s) : z.KeptBy (execHqiEnable w s) := by
  unfold execHqiEnable
  repeat' with_reducible first
    | assumption | apply State.writeFld_kept

theorem execHqiDisable_kept {z : State} {w : Writer} {s : State} (hs : z.Kept s) : z.KeptBy (execHqiDisable w s) := by
  unfold execHqiDisable
  repeat' with_reducible first
    | assumption | apply State.writeFld_kept

theorem execGwEnable_kept {z : State} {w : Writer} {s : State} (hs : z.Kept s) : z.KeptBy (execGwEnable w s) := by
  unfold execGwEnable
  repeat' with_reducible first
    | assumption | apply State.writeFld_kept

theorem execGwDisable_kept {z : State} {w : Writer} {s : State} (hs : z.Kept s) : z.KeptBy (execGwDisable w s) := by
  unfold execGwDisable
  repeat' with_reducible first
    | assumption | apply State.writeFld_kept

theorem execLocateOn_kept {z : State} {tag : BitVec 16} {s : State} (hs : z.Kept s) : z.KeptBy (execLocateOn tag s) := by
  unfold execLocateOn
  repeat' with_reducible first
    | assumption | intro _ | apply State.service_kept | apply State.setLocate_kept | apply keptBy_next

theorem execLocateOff_kept {z : State} {tag : BitVec 16} {s : State} (hs : z.Kept s) : z.KeptBy (execLocateOff tag s) := by
  unfold execLocateOff
  repeat' with_reducible first
    | assumption | intro _ | apply State.service_kept | apply State.setLocate_kept | apply keptBy_next

theorem execSafeRemovalRequest_kept {z : State} {tag : BitVec 16} {s : State} (hs : z.Kept s) : z.KeptBy (execSafeRemovalRequest tag s) := by
  unfold execSafeRemovalRequest
  repeat' with_reducible first
    | assumption | intro _ | apply State.service_kept | apply State.startRemoval_kept | apply keptBy_next | apply kept_ite

theorem execSafeRemovalCancel_kept {z : State} {tag : BitVec 16} {s : State} (hs : z.Kept s) : z.KeptBy (execSafeRemovalCancel tag s) := by
  unfold execSafeRemovalCancel
  repeat' with_reducible first
    | assumption | intro _ | apply State.service_kept | apply State.endRemoval_kept | apply State.event_kept
    | apply State.floodLsa_kept | apply keptBy_next | apply kept_ite

theorem execMailboxGo_kept {z : State} {w : Writer} {s : State} (hs : z.Kept s) : z.KeptBy (execMailboxGo w s) := by
  unfold execMailboxGo
  repeat' with_reducible first
    | assumption | apply State.write1_kept

theorem execMailboxRelease_kept {z : State} {w : Writer} {s : State} (hs : z.Kept s) : z.KeptBy (execMailboxRelease w s) := by
  unfold execMailboxRelease
  repeat' with_reducible first
    | assumption | apply State.write1_kept

theorem execPortTrained_kept {z : State} {port : Fin 5} {s : State} (hs : z.Kept s) : z.KeptBy (execPortTrained port s) := by
  unfold execPortTrained
  repeat' with_reducible first
    | assumption | apply State.modPort_kept | apply keptBy_next | apply kept_ite

theorem execTrainingTimeout_kept {z : State} {port : Fin 5} {s : State} (hs : z.Kept s) : z.KeptBy (execTrainingTimeout port s) := by
  unfold execTrainingTimeout
  repeat' with_reducible first
    | assumption | apply State.modPort_kept | apply keptBy_next | apply kept_ite

theorem execHelloTick_kept {z : State} {port : Fin 5} {s : State} (hs : z.Kept s) : z.KeptBy (execHelloTick port s) := by
  unfold execHelloTick
  repeat' with_reducible first
    | assumption | apply State.ctlSend_kept | apply keptBy_next | apply kept_ite

theorem execHello_kept {z : State} {port : Fin 5} {nodeId : BitVec 64} {addr : BitVec 12} {nport : Byte} {pairState : Byte} {inst5 : BitVec 16} {s : State} (hs : z.Kept s) : z.KeptBy (execHello port nodeId addr nport pairState inst5 s) := by
  unfold execHello
  repeat' with_reducible first
    | assumption | apply State.modPort_kept | apply State.event_kept | apply State.ctlSend_kept | apply keptBy_next
    | apply kept_ite

theorem execHeartbeatTick_kept {z : State} {s : State} (hs : z.Kept s) : z.KeptBy (execHeartbeatTick s) := by
  unfold execHeartbeatTick
  repeat' with_reducible first
    | assumption | intro _ | apply State.ctlSend_kept | apply State.modPort_kept | apply keptBy_next | apply kept_ite
    | refine kept_foldl ?_ ?_

theorem execHeartbeat_kept {z : State} {port : Fin 5} {h' : LinkHdr} {s : State} (hs : z.Kept s) : z.KeptBy (execHeartbeat port h' s) := by
  unfold execHeartbeat
  repeat' with_reducible first
    | assumption | apply State.takeHdr_kept | apply keptBy_next | apply kept_ite

theorem execDelayTick_kept {z : State} {s : State} (hs : z.Kept s) : z.KeptBy (execDelayTick s) := by
  unfold execDelayTick
  repeat' with_reducible first
    | assumption | intro _ | apply State.ctlSend_kept | apply keptBy_next | apply kept_ite | refine kept_foldl ?_ ?_

theorem execDelayReq_kept {z : State} {port : Fin 5} {t1 : BitVec 64} {t2 : BitVec 64} {s : State} (hs : z.Kept s) : z.KeptBy (execDelayReq port t1 t2 s) := by
  unfold execDelayReq
  repeat' with_reducible first
    | assumption | apply State.ctlSend_kept | apply keptBy_next | apply kept_ite

theorem execDelayResp_kept {z : State} {port : Fin 5} {t1 : BitVec 64} {t2 : BitVec 64} {t3 : BitVec 64} {t4 : BitVec 64} {s : State} (hs : z.Kept s) : z.KeptBy (execDelayResp port t1 t2 t3 t4 s) := by
  unfold execDelayResp
  repeat' with_reducible first
    | assumption | apply State.modPort_kept | apply State.portUp_kept | apply keptBy_next | apply keptBy_ite
    | apply kept_ite

theorem execLinkPacket_kept {z : State} {port : Fin 5} {h' : LinkHdr} {crc : LCrc} {p : Pkt} {s : State} (hs : z.Kept s) : z.KeptBy (execLinkPacket port h' crc p s) := by
  unfold execLinkPacket
  repeat' with_reducible first
    | assumption | apply State.nak_kept | apply State.takeHdr_kept | apply State.takePkt_kept | apply State.modPort_kept
    | apply keptBy_next | apply kept_ite | split

theorem execLinkNak_kept {z : State} {port : Fin 5} {h' : LinkHdr} {s : State} (hs : z.Kept s) : z.KeptBy (execLinkNak port h' s) := by
  unfold execLinkNak
  repeat' with_reducible first
    | assumption | apply State.replayAll_kept | apply State.takeHdr_kept | apply keptBy_next | apply kept_ite

theorem execAckTimeout_kept {z : State} {port : Fin 5} {s : State} (hs : z.Kept s) : z.KeptBy (execAckTimeout port s) := by
  unfold execAckTimeout
  repeat' with_reducible first
    | assumption | apply State.replayAll_kept | apply keptBy_next | apply kept_ite

theorem execPortDown_kept {z : State} {port : Fin 5} {cause : DownCause} {s : State} (hs : z.Kept s) : z.KeptBy (execPortDown port cause s) := by
  unfold execPortDown
  repeat' with_reducible first
    | assumption | apply State.portDown_kept | apply raise_kept | apply keptBy_next | apply kept_ite

theorem execPartnerWaitExpiry_kept {z : State} {s : State} (hs : z.Kept s) : z.KeptBy (execPartnerWaitExpiry s) := by
  unfold execPartnerWaitExpiry
  repeat' with_reducible first
    | apply keptBy_next | (refine kept_mk (by assumption) ?_ ?_ ?_ ?_ ?_ ?_ ?_ <;> exact rfl)

theorem execUpHoldExpiry_kept {z : State} {port : Fin 5} {s : State} (hs : z.Kept s) : z.KeptBy (execUpHoldExpiry port s) := by
  unfold execUpHoldExpiry
  repeat' with_reducible first
    | assumption | apply State.modPort_kept | apply keptBy_next | apply kept_ite

theorem execLsaTick_kept {z : State} {s : State} (hs : z.Kept s) : z.KeptBy (execLsaTick s) := by
  unfold execLsaTick
  repeat' with_reducible first
    | apply State.floodLsa_kept | apply keptBy_next | (refine kept_mk (by assumption) ?_ ?_ ?_ ?_ ?_ ?_ ?_ <;> exact rfl)

theorem execLsa_kept {z : State} {port : Fin 5} {l : Lsa} {s : State} (hs : z.Kept s) : z.KeptBy (execLsa port l s) := by
  unfold execLsa
  repeat' with_reducible first
    | assumption | apply State.gotLsa_kept | apply keptBy_next | apply kept_ite

theorem execLsaExpiry_kept {z : State} {addr : BitVec 12} {nodeId : BitVec 64} {s : State} (hs : z.Kept s) : z.KeptBy (execLsaExpiry addr nodeId s) := by
  unfold execLsaExpiry
  repeat' with_reducible first
    | apply State.routeWake_kept | apply keptBy_next | apply kept_ite
    | (refine kept_mk (by assumption) ?_ ?_ ?_ ?_ ?_ ?_ ?_ <;> exact rfl)

theorem execRouteCompute_kept {z : State} {s : State} (hs : z.Kept s) : z.KeptBy (execRouteCompute s) := by
  unfold execRouteCompute
  repeat' with_reducible first
    | apply keptBy_next | apply kept_ite | (refine kept_mk (by assumption) ?_ ?_ ?_ ?_ ?_ ?_ ?_ <;> exact rfl)

theorem execRouteInstallDone_kept {z : State} {s : State} (hs : z.Kept s) : z.KeptBy (execRouteInstallDone s) := by
  unfold execRouteInstallDone
  repeat' with_reducible first
    | apply keptBy_next | split
    | (refine kept_mk ?_ ?_ ?_ ?_ ?_ ?_ ?_ ?_ <;> first | exact rfl | (refine kept_mk (by assumption) ?_ ?_ ?_ ?_ ?_ ?_ ?_ <;> exact rfl) | apply State.event_kept | apply State.findBoss_kept | apply State.setReady_kept | apply keptBy_next | apply keptBy_ite | apply kept_ite | refine kept_foldl ?_ ?_ | refine kept_foldl_fst ?_ ?_ | refine kept_foldl_snd ?_ ?_)

theorem execTakeover_kept {z : State} {taken : BitVec 12} {survivor : BitVec 12} {s : State} (hs : z.Kept s) : z.KeptBy (execTakeover taken survivor s) := by
  unfold execTakeover
  repeat' with_reducible first
    | assumption | apply State.gotTakeover_kept | apply keptBy_next | apply kept_ite

theorem execDbHint_kept {z : State} {_src : BitVec 12} {s : State} (hs : z.Kept s) : z.KeptBy (execDbHint _src s) := by
  unfold execDbHint
  repeat' with_reducible first
    | assumption | apply State.gotHint_kept | apply keptBy_next

theorem execRmaRead_kept {z : State} {src : BitVec 12} {addr : BitVec 64} {len : Word} {rtag : BitVec 16} {s : State} (hs : z.Kept s) : z.KeptBy (execRmaRead src addr len rtag s) := by
  unfold execRmaRead
  repeat' with_reducible first
    | assumption | apply State.gotRmaRead_kept | apply keptBy_next

theorem execGwPcieReadDone_kept {z : State} {src : BitVec 12} {rtag : BitVec 16} {status : Byte} {ofs : Word} {last : Bool} {data : List Byte} {s : State} (hs : z.Kept s) : z.KeptBy (execGwPcieReadDone src rtag status ofs last data s) := by
  unfold execGwPcieReadDone
  repeat' with_reducible first
    | intro _ | apply State.e2eSend_kept | apply keptBy_next | refine kept_foldl_fst ?_ ?_ | split
    | (refine kept_mk (by assumption) ?_ ?_ ?_ ?_ ?_ ?_ ?_ <;> exact rfl)

theorem execRmaWrite_kept {z : State} {src : BitVec 12} {addr : BitVec 64} {data : List Byte} {s : State} (hs : z.Kept s) : z.KeptBy (execRmaWrite src addr data s) := by
  unfold execRmaWrite
  repeat' with_reducible first
    | assumption | apply State.gotRmaWrite_kept | apply keptBy_next

theorem execRmaIrq_kept {z : State} {_src : BitVec 12} {vector : Byte} {s : State} (hs : z.Kept s) : z.KeptBy (execRmaIrq _src vector s) := by
  unfold execRmaIrq
  repeat' with_reducible first
    | assumption | apply State.gotRmaIrq_kept | apply keptBy_next

theorem execRmaRdata_kept {z : State} {src : BitVec 12} {rtag : BitVec 16} {status : Byte} {last : Bool} {ofs : Word} {data : List Byte} {s : State} (hs : z.Kept s) : z.KeptBy (execRmaRdata src rtag status last ofs data s) := by
  unfold execRmaRdata
  repeat' with_reducible first
    | assumption | apply State.gotRdata_kept | apply keptBy_next

theorem execE2eAck_kept {z : State} {src : BitVec 12} {seq : Word} {s : State} (hs : z.Kept s) : z.KeptBy (execE2eAck src seq s) := by
  unfold execE2eAck
  repeat' with_reducible first
    | assumption | apply State.gotE2eAck_kept | apply keptBy_next

theorem execE2eRetxTimeout_kept {z : State} {dst : BitVec 12} {s : State} (hs : z.Kept s) : z.KeptBy (execE2eRetxTimeout dst s) := by
  unfold execE2eRetxTimeout
  repeat' with_reducible first
    | assumption | intro _ | apply State.unreachable_kept | refine State.count_kept ?_ (by omega) | apply State.modTx_kept
    | apply State.forward_kept | apply keptBy_next | apply kept_ite | refine kept_foldl ?_ ?_

theorem execGwRetryTick_kept {z : State} {s : State} (hs : z.Kept s) : z.KeptBy (execGwRetryTick s) := by
  unfold execGwRetryTick
  repeat' with_reducible first
    | assumption | apply State.flushGw_kept | apply keptBy_next | apply kept_ite

theorem execGwHoldExpiry_kept {z : State} {s : State} (hs : z.Kept s) : z.KeptBy (execGwHoldExpiry s) := by
  unfold execGwHoldExpiry
  repeat' with_reducible first
    | assumption | apply State.endSilently_kept | apply State.modTx_kept | apply raise_kept | apply State.eventSrc_kept
    | apply keptBy_next | apply kept_ite
    | (extract_lets +onlyGivenNames -underBinder x; first | (refine keptBy_cut (x := x) ?_ ?_; intro hx; clear_value x; rotate_left; dsimp only [x]) | (refine kept_cut (x := x) ?_ ?_; intro hx; clear_value x; rotate_left; dsimp only [x]) | skip)
    | (refine kept_mk (by assumption) ?_ ?_ ?_ ?_ ?_ ?_ ?_ <;> exact rfl)

theorem execMgmtRd_kept {z : State} {src : BitVec 12} {off : BitVec 16} {len : Byte} {s : State} (hs : z.Kept s) : z.KeptBy (execMgmtRd src off len s) := by
  unfold execMgmtRd
  repeat' with_reducible first
    | assumption | apply State.gotMgmtRd_kept | apply keptBy_next

theorem execMgmtWr_kept {z : State} {src : BitVec 12} {sess : Byte} {off : BitVec 16} {data : List Word} {s : State} (hs : z.Kept s) : z.KeptBy (execMgmtWr src sess off data s) := by
  unfold execMgmtWr
  repeat' with_reducible first
    | assumption | apply State.gotMgmtWr_kept | apply keptBy_next

theorem execMgmtRsp_kept {z : State} {_src : BitVec 12} {status : Byte} {data : List Word} {s : State} (hs : z.Kept s) : z.KeptBy (execMgmtRsp _src status data s) := by
  unfold execMgmtRsp
  repeat' with_reducible first
    | apply keptBy_next | (refine kept_mk (by assumption) ?_ ?_ ?_ ?_ ?_ ?_ ?_ <;> exact rfl)

theorem execPmOpen_kept {z : State} {src : BitVec 12} {sess : Word} {cp1 : Word} {cp2 : Word} {flags : Byte} {pub : List Byte} {cert : List Byte} {sig : List Byte} {s : State} (hs : z.Kept s) : z.KeptBy (execPmOpen src sess cp1 cp2 flags pub cert sig s) := by
  unfold execPmOpen
  repeat' with_reducible first
    | assumption | apply State.gotPmOpen_kept | apply keptBy_next

theorem execPmAccept_kept {z : State} {src : BitVec 12} {sess : Word} {pub : List Byte} {cert : List Byte} {sig : List Byte} {s : State} (hs : z.Kept s) : z.KeptBy (execPmAccept src sess pub cert sig s) := by
  unfold execPmAccept
  repeat' with_reducible first
    | assumption | apply State.gotPmAccept_kept | apply keptBy_next

theorem execPmData_kept {z : State} {src : BitVec 12} {sess : Word} {pno : BitVec 64} {ct : List Byte} {tag : List Byte} {s : State} (hs : z.Kept s) : z.KeptBy (execPmData src sess pno ct tag s) := by
  unfold execPmData
  repeat' with_reducible first
    | assumption | apply State.gotPmData_kept | apply keptBy_next

theorem execPmDone_kept {z : State} {src : BitVec 12} {sess : Word} {blocks : Nat} {status : BitVec 16} {lba : BitVec 64} {s : State} (hs : z.Kept s) : z.KeptBy (execPmDone src sess blocks status lba s) := by
  unfold execPmDone
  repeat' with_reducible first
    | assumption | apply State.gotPmDone_kept | apply keptBy_next

theorem execPmRefuse_kept {z : State} {src : BitVec 12} {sess : Word} {status : BitVec 16} {s : State} (hs : z.Kept s) : z.KeptBy (execPmRefuse src sess status s) := by
  unfold execPmRefuse
  repeat' with_reducible first
    | assumption | apply State.gotPmRefuse_kept | apply keptBy_next

theorem execPmSessionTimeout_kept {z : State} {sess : Word} {s : State} (hs : z.Kept s) : z.KeptBy (execPmSessionTimeout sess s) := by
  unfold execPmSessionTimeout
  repeat' with_reducible first
    | assumption | apply State.pmRefuse_kept | apply keptBy_next | split

theorem execPortFenceReq_kept {z : State} {w : Writer} {port : Fin 5} {on : Bool} {s : State} (hs : z.Kept s) : z.KeptBy (execPortFenceReq w port on s) := by
  unfold execPortFenceReq
  repeat' with_reducible first
    | assumption | apply State.writeFld_kept

theorem execCanaryTick_kept {z : State} {s : State} (hs : z.Kept s) : z.KeptBy (execCanaryTick s) := by
  unfold execCanaryTick
  repeat' with_reducible first
    | apply State.send_kept | apply keptBy_next | apply kept_ite
    | (refine kept_mk (by assumption) ?_ ?_ ?_ ?_ ?_ ?_ ?_ <;> exact rfl)

theorem execCanaryWindow_kept {z : State} {l0 : Option (BitVec 24)} {l1 : Option (BitVec 24)} {s : State} (hs : z.Kept s) : z.KeptBy (execCanaryWindow l0 l1 s) := by
  unfold execCanaryWindow
  repeat' with_reducible first
    | intro _ | apply keptBy_next | apply keptBy_ite | split
    | (refine kept_mk ?_ ?_ ?_ ?_ ?_ ?_ ?_ ?_ <;> first | exact rfl | (refine kept_mk (by assumption) ?_ ?_ ?_ ?_ ?_ ?_ ?_ <;> exact rfl) | apply State.floodLsa_kept | apply State.startSnapshot_kept | refine State.count_kept ?_ (by omega) | apply State.partnerLost_kept | apply raise_kept | apply State.pullHandover_kept | apply State.event_kept | apply keptBy_next | apply keptBy_ite | apply kept_ite | (refine kept_mk ?_ ?_ ?_ ?_ ?_ ?_ ?_ ?_ <;> first | exact rfl | (refine kept_mk (by assumption) ?_ ?_ ?_ ?_ ?_ ?_ ?_ <;> exact rfl) | apply State.floodLsa_kept | apply State.startSnapshot_kept | refine State.count_kept ?_ (by omega) | apply State.partnerLost_kept | apply raise_kept | apply State.pullHandover_kept | apply State.event_kept | apply keptBy_next | apply keptBy_ite | apply kept_ite))

theorem execHandoverNFall_kept {z : State} {byEnclosure : Bool} {s : State} (hs : z.Kept s) : z.KeptBy (execHandoverNFall byEnclosure s) := by
  unfold execHandoverNFall
  repeat' with_reducible first
    | assumption | apply State.takeWaiting_kept | apply State.handoverFalls_kept | apply keptBy_next

theorem execOwnPeerReleaseTimeout_kept {z : State} {s : State} (hs : z.Kept s) : z.KeptBy (execOwnPeerReleaseTimeout s) := by
  unfold execOwnPeerReleaseTimeout
  repeat' with_reducible first
    | assumption | apply State.takeWaiting_kept | apply State.peerReleased_kept | apply keptBy_next

theorem execSideBPowerupTimeout_kept {z : State} {s : State} (hs : z.Kept s) : z.KeptBy (execSideBPowerupTimeout s) := by
  unfold execSideBPowerupTimeout
  repeat' with_reducible first
    | assumption | apply State.takeOwner_kept | apply keptBy_next | apply kept_ite

theorem execOwnCheck_kept {z : State} {peerLow : Bool} {s0 : State} (hs0 : z.Kept s0) : z.KeptBy (execOwnCheck peerLow s0) := by
  unfold execOwnCheck
  repeat' with_reducible first
    | apply raise_kept | apply State.event_kept | apply State.setW1c_kept | apply State.releaseOwn_kept | apply keptBy_next
    | apply keptBy_ite | apply kept_ite | (refine kept_mk (by assumption) ?_ ?_ ?_ ?_ ?_ ?_ ?_ <;> exact rfl)

theorem execHandoverPullRelease_kept {z : State} {s : State} (hs : z.Kept s) : z.KeptBy (execHandoverPullRelease s) := by
  unfold execHandoverPullRelease
  repeat' with_reducible first
    | apply keptBy_next | apply kept_ite | (refine kept_mk (by assumption) ?_ ?_ ?_ ?_ ?_ ?_ ?_ <;> exact rfl)

theorem execTakeoverSendAsDrive_kept {z : State} {posted : List (Fin 128 × BitVec 16)} {s : State} (hs : z.Kept s) : z.KeptBy (execTakeoverSendAsDrive posted s) := by
  unfold execTakeoverSendAsDrive
  repeat' with_reducible first
    | intro _ | apply keptBy_next
    | (refine kept_mk ?_ ?_ ?_ ?_ ?_ ?_ ?_ ?_ <;> first | exact rfl | (refine kept_mk (by assumption) ?_ ?_ ?_ ?_ ?_ ?_ ?_ <;> exact rfl) | apply State.countPosted_kept | apply State.fetchAll_kept | apply State.readPage_kept | apply keptBy_next | apply keptBy_ite | apply kept_ite | refine kept_foldl ?_ ?_ | refine kept_foldl_fst ?_ ?_ | refine kept_foldl_snd ?_ ?_)

theorem execTakeoverRebuildDone_kept {z : State} {s : State} (hs : z.Kept s) : z.KeptBy (execTakeoverRebuildDone s) := by
  unfold execTakeoverRebuildDone
  repeat' with_reducible first
    | assumption | intro _ | apply State.mirroredData_kept | apply State.startRebuild_kept | apply State.rebuildAll_kept
    | apply State.goRead_kept | apply State.wakeWaiters_kept | apply State.pumpReads_kept | apply State.wakeData_kept
    | apply State.pumpWrites_kept | apply keptBy_next | apply kept_ite | refine kept_foldl ?_ ?_
    | (extract_lets +onlyGivenNames -underBinder x; first | (refine keptBy_cut (x := x) ?_ ?_; intro hx; clear_value x; rotate_left; dsimp only [x]) | (refine kept_cut (x := x) ?_ ?_; intro hx; clear_value x; rotate_left; dsimp only [x]) | skip)
    | (refine kept_mk (by assumption) ?_ ?_ ?_ ?_ ?_ ?_ ?_ <;> exact rfl)

theorem execPairAck_kept {z : State} {pack : BitVec 16} {s : State} (hs : z.Kept s) : z.KeptBy (execPairAck pack s) := by
  unfold execPairAck
  repeat' with_reducible first
    | apply State.event_kept | apply keptBy_next
    | (extract_lets +onlyGivenNames -underBinder x; first | (refine keptBy_cut (x := x) ?_ ?_; intro hx; clear_value x; rotate_left; dsimp only [x]) | (refine kept_cut (x := x) ?_ ?_; intro hx; clear_value x; rotate_left; dsimp only [x]) | skip)
    | split | (refine kept_mk (by assumption) ?_ ?_ ?_ ?_ ?_ ?_ ?_ <;> exact rfl)

theorem execAlignFrame_kept {z : State} {pseq : BitVec 16} {rev : Word} {acts : List AlignAct} {s : State} (hs : z.Kept s) : z.KeptBy (execAlignFrame pseq rev acts s) := by
  unfold execAlignFrame
  repeat' with_reducible first
    | intro _ | apply keptBy_next
    | (refine kept_mk ?_ ?_ ?_ ?_ ?_ ?_ ?_ ?_ <;> first | exact rfl | (refine kept_mk (by assumption) ?_ ?_ ?_ ?_ ?_ ?_ ?_ <;> exact rfl) | apply State.pairTake_kept | apply State.alignAct_kept | apply State.setReady_kept | apply keptBy_next | apply keptBy_ite | apply kept_ite | refine kept_foldl ?_ ?_)

theorem execSelectFrame_kept {z : State} {pseq : BitVec 16} {act : Fin 4} {hs' : BitVec 6} {trk : BitVec 24} {tpos : BitVec 5} {heads : List (Fin 64)} {s : State} (hs : z.Kept s) : z.KeptBy (execSelectFrame pseq act hs' trk tpos heads s) := by
  unfold execSelectFrame
  repeat' with_reducible first
    | assumption | intro _ | apply State.pairTake_kept | apply State.modAct_kept | apply keptBy_next | apply kept_ite

theorem execPairData_kept {z : State} {pseq : BitVec 16} {addr : BitVec 64} {bytes : List Byte} {s : State} (hs : z.Kept s) : z.KeptBy (execPairData pseq addr bytes s) := by
  unfold execPairData
  repeat' with_reducible first
    | assumption | intro _ | apply State.pairTake_kept | apply State.store_kept | apply keptBy_next | apply keptBy_fault
    | apply keptBy_ite | apply kept_ite

theorem execJrnl_kept {z : State} {pseq : BitVec 16} {rec : List Byte} {s : State} (hs : z.Kept s) : z.KeptBy (execJrnl pseq rec s) := by
  unfold execJrnl
  repeat' with_reducible first
    | assumption | intro _ | apply State.pairTake_kept | apply State.replayRec_kept | apply keptBy_next | apply kept_ite
    | (extract_lets +onlyGivenNames -underBinder x; first | (refine keptBy_cut (x := x) ?_ ?_; intro hx; clear_value x; rotate_left; dsimp only [x]) | (refine kept_cut (x := x) ?_ ?_; intro hx; clear_value x; rotate_left; dsimp only [x]) | skip)
    | (refine kept_mk (by assumption) ?_ ?_ ?_ ?_ ?_ ?_ ?_ <;> exact rfl)

theorem execQstate_kept {z : State} {pseq : BitVec 16} {c : QChange} {s : State} (hs : z.Kept s) : z.KeptBy (execQstate pseq c s) := by
  unfold execQstate
  repeat' with_reducible first
    | assumption | intro _ | apply State.pairTake_kept | apply State.takeQ_kept | apply keptBy_next | apply kept_ite

theorem execCfgFrame_kept {z : State} {pseq : BitVec 16} {off : BitVec 16} {v : Word} {s : State} (hs : z.Kept s) : z.KeptBy (execCfgFrame pseq off v s) := by
  unfold execCfgFrame
  repeat' with_reducible first
    | assumption | intro _ | apply State.pairTake_kept | apply State.takeCfg_kept | apply keptBy_next

theorem execSnapshotFrame_kept {z : State} {pseq : BitVec 16} {mark : Byte} {s : State} (hs : z.Kept s) : z.KeptBy (execSnapshotFrame pseq mark s) := by
  unfold execSnapshotFrame
  repeat' with_reducible first
    | intro _ | apply State.pairTake_kept | apply keptBy_next | apply kept_ite
    | (refine kept_mk (by assumption) ?_ ?_ ?_ ?_ ?_ ?_ ?_ <;> exact rfl)

theorem execPairFrameRetry_kept {z : State} {s : State} (hs : z.Kept s) : z.KeptBy (execPairFrameRetry s) := by
  unfold execPairFrameRetry
  repeat' with_reducible first
    | intro _ | apply raise_kept | apply State.partnerLost_kept | apply State.send_kept
    | refine State.count_kept ?_ (by omega) | apply keptBy_next | apply kept_ite | refine kept_foldl ?_ ?_
    | (refine kept_mk (by assumption) ?_ ?_ ?_ ?_ ?_ ?_ ?_ <;> exact rfl)

theorem execAlignSend_kept {z : State} {s : State} (hs : z.Kept s) : z.KeptBy (execAlignSend s) := by
  unfold execAlignSend
  repeat' with_reducible first
    | assumption | apply State.pairSend_kept | apply keptBy_next | apply kept_ite

theorem execAlignLate_kept {z : State} {s : State} (hs : z.Kept s) : z.KeptBy (execAlignLate s) := by
  unfold execAlignLate
  repeat' with_reducible first
    | assumption | apply State.alignLost_kept | apply keptBy_next | apply kept_ite

theorem execYield_kept {z : State} {w : Writer} {s : State} (hs : z.Kept s) : z.KeptBy (execYield w s) := by
  unfold execYield
  repeat' with_reducible first
    | assumption | apply State.writeFld_kept

theorem execYieldHandover_kept {z : State} {s : State} (hs : z.Kept s) : z.KeptBy (execYieldHandover s) := by
  unfold execYieldHandover
  repeat' with_reducible first
    | assumption | apply State.mirrorQ_kept | apply State.pairSend_kept | apply State.pullHandover_kept | apply keptBy_next
    | apply kept_ite
    | (extract_lets +onlyGivenNames -underBinder x; first | (refine keptBy_cut (x := x) ?_ ?_; intro hx; clear_value x; rotate_left; dsimp only [x]) | (refine kept_cut (x := x) ?_ ?_; intro hx; clear_value x; rotate_left; dsimp only [x]) | skip)
    | (refine kept_mk (by assumption) ?_ ?_ ?_ ?_ ?_ ?_ ?_ <;> exact rfl)

theorem execFltStatusClear_kept {z : State} {w : Writer} {k' : Fin 4} {v : Word} {s : State} (hs : z.Kept s) : z.KeptBy (execFltStatusClear w k' v s) := by
  unfold execFltStatusClear
  repeat' with_reducible first
    | assumption | apply State.write1_kept

theorem execPmcSnapTake_kept {z : State} {w : Writer} {s : State} (hs : z.Kept s) : z.KeptBy (execPmcSnapTake w s) := by
  unfold execPmcSnapTake
  repeat' with_reducible first
    | assumption | apply State.write1_kept

theorem execPmcPreset_kept {z : State} {w : Writer} {v : Word} {s : State} (hs : z.Kept s) : z.KeptBy (execPmcPreset w v s) := by
  unfold execPmcPreset
  repeat' with_reducible first
    | assumption | apply State.write1_kept

theorem execPartResetWrite_kept {z : State} {w : Writer} {s : State} (hs : z.Kept s) : z.KeptBy (execPartResetWrite w s) := by
  unfold execPartResetWrite
  repeat' with_reducible first
    | assumption | apply State.write1_kept

theorem execAonReady_kept {z : State} {loc : BitVec 12} {pairPrsntN : Bool} {pairSide : Bool} {ownPeerN : Bool} {s : State} (hs : z.Kept s) : z.KeptBy (execAonReady loc pairPrsntN pairSide ownPeerN s) := by
  unfold execAonReady
  repeat' with_reducible first
    | assumption | apply State.draw_kept | apply State.firstOwner_kept | apply State.setReady_kept
    | apply State.portEnables_kept | apply State.powerUpSpin_kept | apply State.setPin_kept | apply State.restartPort_kept
    | apply keptBy_next | apply keptBy_ite | apply kept_ite
    | (extract_lets +onlyGivenNames -underBinder x; first | (refine keptBy_cut (x := x) ?_ ?_; intro hx; clear_value x; rotate_left; dsimp only [x]) | (refine kept_cut (x := x) ?_ ?_; intro hx; clear_value x; rotate_left; dsimp only [x]) | skip)
    | (refine kept_mk (by assumption) ?_ ?_ ?_ ?_ ?_ ?_ ?_ <;> exact rfl)

theorem execReadyBoundExpiry_kept {z : State} {bit : Fin 22} {s : State} (hs : z.Kept s) : z.KeptBy (execReadyBoundExpiry bit s) := by
  unfold execReadyBoundExpiry
  repeat' with_reducible first
    | apply raise_kept | apply State.event_kept | apply State.setW1c_kept | apply keptBy_next | split
    | (refine kept_mk (by assumption) ?_ ?_ ?_ ?_ ?_ ?_ ?_ <;> exact rfl)

theorem execDarkWake_kept {z : State} {w : Writer} {s : State} (hs : z.Kept s) : z.KeptBy (execDarkWake w s) := by
  unfold execDarkWake
  repeat' with_reducible first
    | assumption | apply State.write1_kept

theorem execAttnRelease_kept {z : State} {ms : Nat} {s : State} (hs : z.Kept s) : z.KeptBy (execAttnRelease ms s) := by
  unfold execAttnRelease
  repeat' with_reducible first
    | apply State.setLocate_kept | apply State.ignorePress_kept | apply keptBy_next | apply keptBy_ite | apply kept_ite
    | (refine kept_mk (by assumption) ?_ ?_ ?_ ?_ ?_ ?_ ?_ <;> exact rfl)

theorem execAttnLongPress_kept {z : State} {s : State} (hs : z.Kept s) : z.KeptBy (execAttnLongPress s) := by
  unfold execAttnLongPress
  repeat' with_reducible first
    | apply State.startRemoval_kept | apply State.ignorePress_kept | apply keptBy_next | apply keptBy_ite | apply kept_ite
    | (refine kept_mk (by assumption) ?_ ?_ ?_ ?_ ?_ ?_ ?_ <;> exact rfl)

theorem execLocateTimeout_kept {z : State} {s : State} (hs : z.Kept s) : z.KeptBy (execLocateTimeout s) := by
  unfold execLocateTimeout
  repeat' with_reducible first
    | assumption | apply State.setLocate_kept | apply keptBy_next | apply kept_ite

theorem execRemovalSafe_kept {z : State} {s : State} (hs : z.Kept s) : z.KeptBy (execRemovalSafe s) := by
  unfold execRemovalSafe
  repeat' with_reducible first
    | assumption | apply State.removalStep_kept | apply keptBy_next

theorem execPrepTimeout_kept {z : State} {s : State} (hs : z.Kept s) : z.KeptBy (execPrepTimeout s) := by
  unfold execPrepTimeout
  repeat' with_reducible first
    | assumption | apply State.endRemoval_kept | apply State.event_kept | apply State.setW1c_kept | apply keptBy_next
    | apply kept_ite

theorem execLatchRise_kept {z : State} {s : State} (hs : z.Kept s) : z.KeptBy (execLatchRise s) := by
  unfold execLatchRise
  repeat' with_reducible first
    | apply State.event_kept | apply State.surprise_kept | apply keptBy_next | split
    | (refine kept_mk (by assumption) ?_ ?_ ?_ ?_ ?_ ?_ ?_ <;> exact rfl)

theorem execPrsntRise_kept {z : State} {s : State} (hs : z.Kept s) : z.KeptBy (execPrsntRise s) := by
  unfold execPrsntRise
  repeat' with_reducible first
    | apply State.surprise_kept | apply keptBy_next | apply kept_ite
    | (refine kept_mk (by assumption) ?_ ?_ ?_ ?_ ?_ ?_ ?_ <;> exact rfl)

theorem execSurpriseEnd_kept {z : State} {s : State} (hs : z.Kept s) : z.KeptBy (execSurpriseEnd s) := by
  unfold execSurpriseEnd
  repeat' with_reducible first
    | apply State.event_kept | apply State.floodLsa_kept | apply State.pfailEnds_kept | apply keptBy_next | apply kept_ite
    | (refine kept_mk (by assumption) ?_ ?_ ?_ ?_ ?_ ?_ ?_ <;> exact rfl)

theorem execGenSave_kept {z : State} {w : Writer} {s : State} (hs : z.Kept s) : z.KeptBy (execGenSave w s) := by
  unfold execGenSave
  repeat' with_reducible first
    | assumption | apply State.write1_kept

theorem execGenClear_kept {z : State} {w : Writer} {s : State} (hs : z.Kept s) : z.KeptBy (execGenClear w s) := by
  unfold execGenClear
  repeat' with_reducible first
    | assumption | apply State.write1_kept

theorem execSmbWrite_kept {z : State} {off : BitVec 16} {data : List Word} {pec : Bool} {s : State} (hs : z.Kept s) : z.KeptBy (execSmbWrite off data pec s) := by
  unfold execSmbWrite
  repeat' with_reducible first
    | apply keptBy_next | split
    | (refine kept_mk ?_ ?_ ?_ ?_ ?_ ?_ ?_ ?_ <;> first | exact rfl | (refine kept_mk (by assumption) ?_ ?_ ?_ ?_ ?_ ?_ ?_ <;> exact rfl) | apply State.writeReq_kept | refine State.writeReq_keptE (by assumption) ?_ | apply State.ignoreWrite_kept | apply keptBy_next | apply keptBy_ite | apply kept_ite)

theorem execSmbSetRead_kept {z : State} {off : BitVec 16} {len : Byte} {pec : Bool} {s : State} (hs : z.Kept s) : z.KeptBy (execSmbSetRead off len pec s) := by
  unfold execSmbSetRead
  repeat' with_reducible first
    | apply keptBy_next | apply kept_ite | (refine kept_mk (by assumption) ?_ ?_ ?_ ?_ ?_ ?_ ?_ <;> exact rfl)

theorem execSmbRead_kept {z : State} {pec : Bool} {s : State} (hs : z.Kept s) : z.KeptBy (execSmbRead pec s) := by
  unfold execSmbRead
  repeat' with_reducible first
    | apply keptBy_next | split
    | (refine kept_mk ?_ ?_ ?_ ?_ ?_ ?_ ?_ ?_ <;> first | exact rfl | (refine kept_mk (by assumption) ?_ ?_ ?_ ?_ ?_ ?_ ?_ <;> exact rfl) | apply State.readReq_kept | refine State.readReq_keptE (by assumption) ?_ | apply keptBy_next | apply keptBy_ite | apply kept_ite)

theorem execSmbStatus_kept {z : State} {pec : Bool} {s : State} (hs : z.Kept s) : z.KeptBy (execSmbStatus pec s) := by
  unfold execSmbStatus
  repeat' with_reducible first
    | apply keptBy_next | apply kept_ite | (refine kept_mk (by assumption) ?_ ?_ ?_ ?_ ?_ ?_ ?_ <;> exact rfl)

theorem tick_kept {z : State} {s : State} (hs : z.Kept s) : z.Kept (tick s) := by
  unfold tick
  repeat' with_reducible first
    | apply kept_ite | (refine kept_mk (by assumption) ?_ ?_ ?_ ?_ ?_ ?_ ?_ <;> exact rfl)

end Sys2Proof.Machine
end

