-- ==== Sys2Proof/Laws/State.lean ====
section
/-! SUPPORT. One lemma per field per update of the state: what an update leaves as it is, and what it puts where it changes
something. -/
namespace Sys2Proof.Machine

open Sys2Proof

/-! `State.modHead` -/

@[simp] theorem State.modHead_pending (s : State) (h' : Nat) (f : HeadSt → HeadSt) : (State.modHead s h' f).pending = s.pending := rfl
@[simp] theorem State.modHead_regs (s : State) (h' : Nat) (f : HeadSt → HeadSt) : (State.modHead s h' f).regs = s.regs := rfl
@[simp] theorem State.modHead_atb (s : State) (h' : Nat) (f : HeadSt → HeadSt) : (State.modHead s h' f).atb = s.atb := rfl
@[simp] theorem State.modHead_spn (s : State) (h' : Nat) (f : HeadSt → HeadSt) : (State.modHead s h' f).spn = s.spn := rfl
@[simp] theorem State.modHead_mdl (s : State) (h' : Nat) (f : HeadSt → HeadSt) : (State.modHead s h' f).mdl = s.mdl := rfl
@[simp] theorem State.modHead_ledger (s : State) (h' : Nat) (f : HeadSt → HeadSt) : (State.modHead s h' f).ledger = s.ledger := rfl
@[simp] theorem State.modHead_chs (s : State) (h' : Nat) (f : HeadSt → HeadSt) : (State.modHead s h' f).chs = s.chs := rfl
@[simp] theorem State.modHead_seq (s : State) (h' : Nat) (f : HeadSt → HeadSt) : (State.modHead s h' f).seq = s.seq := rfl
@[simp] theorem State.modHead_rpl (s : State) (h' : Nat) (f : HeadSt → HeadSt) : (State.modHead s h' f).rpl = s.rpl := rfl
@[simp] theorem State.modHead_rcv (s : State) (h' : Nat) (f : HeadSt → HeadSt) : (State.modHead s h' f).rcv = s.rcv := rfl
@[simp] theorem State.modHead_xtp (s : State) (h' : Nat) (f : HeadSt → HeadSt) : (State.modHead s h' f).xtp = s.xtp := rfl
@[simp] theorem State.modHead_cmp (s : State) (h' : Nat) (f : HeadSt → HeadSt) : (State.modHead s h' f).cmp = s.cmp := rfl
@[simp] theorem State.modHead_cry (s : State) (h' : Nat) (f : HeadSt → HeadSt) : (State.modHead s h' f).cry = s.cry := rfl
@[simp] theorem State.modHead_zon (s : State) (h' : Nat) (f : HeadSt → HeadSt) : (State.modHead s h' f).zon = s.zon := rfl
@[simp] theorem State.modHead_recs (s : State) (h' : Nat) (f : HeadSt → HeadSt) : (State.modHead s h' f).recs = s.recs := rfl
@[simp] theorem State.modHead_buf (s : State) (h' : Nat) (f : HeadSt → HeadSt) : (State.modHead s h' f).buf = s.buf := rfl
@[simp] theorem State.modHead_dma (s : State) (h' : Nat) (f : HeadSt → HeadSt) : (State.modHead s h' f).dma = s.dma := rfl
@[simp] theorem State.modHead_map (s : State) (h' : Nat) (f : HeadSt → HeadSt) : (State.modHead s h' f).map = s.map := rfl
@[simp] theorem State.modHead_hqi (s : State) (h' : Nat) (f : HeadSt → HeadSt) : (State.modHead s h' f).hqi = s.hqi := rfl
@[simp] theorem State.modHead_sec (s : State) (h' : Nat) (f : HeadSt → HeadSt) : (State.modHead s h' f).sec = s.sec := rfl
@[simp] theorem State.modHead_fab (s : State) (h' : Nat) (f : HeadSt → HeadSt) : (State.modHead s h' f).fab = s.fab := rfl
@[simp] theorem State.modHead_pair (s : State) (h' : Nat) (f : HeadSt → HeadSt) : (State.modHead s h' f).pair = s.pair := rfl
@[simp] theorem State.modHead_pfr (s : State) (h' : Nat) (f : HeadSt → HeadSt) : (State.modHead s h' f).pfr = s.pfr := rfl
@[simp] theorem State.modHead_flt (s : State) (h' : Nat) (f : HeadSt → HeadSt) : (State.modHead s h' f).flt = s.flt := rfl
@[simp] theorem State.modHead_evr (s : State) (h' : Nat) (f : HeadSt → HeadSt) : (State.modHead s h' f).evr = s.evr := rfl
@[simp] theorem State.modHead_pmc (s : State) (h' : Nat) (f : HeadSt → HeadSt) : (State.modHead s h' f).pmc = s.pmc := rfl
@[simp] theorem State.modHead_pwr (s : State) (h' : Nat) (f : HeadSt → HeadSt) : (State.modHead s h' f).pwr = s.pwr := rfl
@[simp] theorem State.modHead_svc (s : State) (h' : Nat) (f : HeadSt → HeadSt) : (State.modHead s h' f).svc = s.svc := rfl
@[simp] theorem State.modHead_gen (s : State) (h' : Nat) (f : HeadSt → HeadSt) : (State.modHead s h' f).gen = s.gen := rfl
@[simp] theorem State.modHead_nv (s : State) (h' : Nat) (f : HeadSt → HeadSt) : (State.modHead s h' f).nv = s.nv := rfl
@[simp] theorem State.modHead_nv2 (s : State) (h' : Nat) (f : HeadSt → HeadSt) : (State.modHead s h' f).nv2 = s.nv2 := rfl
@[simp] theorem State.modHead_sent (s : State) (h' : Nat) (f : HeadSt → HeadSt) : (State.modHead s h' f).sent = s.sent := rfl
@[simp] theorem State.modHead_free (s : State) (h' : Nat) (f : HeadSt → HeadSt) : (State.modHead s h' f).free = s.free := rfl
@[simp] theorem State.modHead_same (s : State) (h' : Nat) (f : HeadSt → HeadSt) : (s.modHead h' f).head h' = f (s.head h') := tget_tmod_same _ _ _ _
theorem State.modHead_other (s : State) (h' : Nat) (f : HeadSt → HeadSt) {m : Nat} (h : m ≠ h') : (s.modHead h' f).head m = s.head m := tget_tmod_other _ _ _ h

/-! `State.modAct` -/

@[simp] theorem State.modAct_pending (s : State) (n : Nat) (f : ActSt → ActSt) : (State.modAct s n f).pending = s.pending := rfl
@[simp] theorem State.modAct_regs (s : State) (n : Nat) (f : ActSt → ActSt) : (State.modAct s n f).regs = s.regs := rfl
@[simp] theorem State.modAct_atb (s : State) (n : Nat) (f : ActSt → ActSt) : (State.modAct s n f).atb = s.atb := rfl
@[simp] theorem State.modAct_spn (s : State) (n : Nat) (f : ActSt → ActSt) : (State.modAct s n f).spn = s.spn := rfl
@[simp] theorem State.modAct_mdl (s : State) (n : Nat) (f : ActSt → ActSt) : (State.modAct s n f).mdl = s.mdl := rfl
@[simp] theorem State.modAct_ledger (s : State) (n : Nat) (f : ActSt → ActSt) : (State.modAct s n f).ledger = s.ledger := rfl
@[simp] theorem State.modAct_chs (s : State) (n : Nat) (f : ActSt → ActSt) : (State.modAct s n f).chs = s.chs := rfl
@[simp] theorem State.modAct_seq (s : State) (n : Nat) (f : ActSt → ActSt) : (State.modAct s n f).seq = s.seq := rfl
@[simp] theorem State.modAct_rpl (s : State) (n : Nat) (f : ActSt → ActSt) : (State.modAct s n f).rpl = s.rpl := rfl
@[simp] theorem State.modAct_rcv (s : State) (n : Nat) (f : ActSt → ActSt) : (State.modAct s n f).rcv = s.rcv := rfl
@[simp] theorem State.modAct_xtp (s : State) (n : Nat) (f : ActSt → ActSt) : (State.modAct s n f).xtp = s.xtp := rfl
@[simp] theorem State.modAct_cmp (s : State) (n : Nat) (f : ActSt → ActSt) : (State.modAct s n f).cmp = s.cmp := rfl
@[simp] theorem State.modAct_cry (s : State) (n : Nat) (f : ActSt → ActSt) : (State.modAct s n f).cry = s.cry := rfl
@[simp] theorem State.modAct_zon (s : State) (n : Nat) (f : ActSt → ActSt) : (State.modAct s n f).zon = s.zon := rfl
@[simp] theorem State.modAct_recs (s : State) (n : Nat) (f : ActSt → ActSt) : (State.modAct s n f).recs = s.recs := rfl
@[simp] theorem State.modAct_buf (s : State) (n : Nat) (f : ActSt → ActSt) : (State.modAct s n f).buf = s.buf := rfl
@[simp] theorem State.modAct_dma (s : State) (n : Nat) (f : ActSt → ActSt) : (State.modAct s n f).dma = s.dma := rfl
@[simp] theorem State.modAct_map (s : State) (n : Nat) (f : ActSt → ActSt) : (State.modAct s n f).map = s.map := rfl
@[simp] theorem State.modAct_hqi (s : State) (n : Nat) (f : ActSt → ActSt) : (State.modAct s n f).hqi = s.hqi := rfl
@[simp] theorem State.modAct_sec (s : State) (n : Nat) (f : ActSt → ActSt) : (State.modAct s n f).sec = s.sec := rfl
@[simp] theorem State.modAct_fab (s : State) (n : Nat) (f : ActSt → ActSt) : (State.modAct s n f).fab = s.fab := rfl
@[simp] theorem State.modAct_pair (s : State) (n : Nat) (f : ActSt → ActSt) : (State.modAct s n f).pair = s.pair := rfl
@[simp] theorem State.modAct_pfr (s : State) (n : Nat) (f : ActSt → ActSt) : (State.modAct s n f).pfr = s.pfr := rfl
@[simp] theorem State.modAct_flt (s : State) (n : Nat) (f : ActSt → ActSt) : (State.modAct s n f).flt = s.flt := rfl
@[simp] theorem State.modAct_evr (s : State) (n : Nat) (f : ActSt → ActSt) : (State.modAct s n f).evr = s.evr := rfl
@[simp] theorem State.modAct_pmc (s : State) (n : Nat) (f : ActSt → ActSt) : (State.modAct s n f).pmc = s.pmc := rfl
@[simp] theorem State.modAct_pwr (s : State) (n : Nat) (f : ActSt → ActSt) : (State.modAct s n f).pwr = s.pwr := rfl
@[simp] theorem State.modAct_svc (s : State) (n : Nat) (f : ActSt → ActSt) : (State.modAct s n f).svc = s.svc := rfl
@[simp] theorem State.modAct_gen (s : State) (n : Nat) (f : ActSt → ActSt) : (State.modAct s n f).gen = s.gen := rfl
@[simp] theorem State.modAct_nv (s : State) (n : Nat) (f : ActSt → ActSt) : (State.modAct s n f).nv = s.nv := rfl
@[simp] theorem State.modAct_nv2 (s : State) (n : Nat) (f : ActSt → ActSt) : (State.modAct s n f).nv2 = s.nv2 := rfl
@[simp] theorem State.modAct_sent (s : State) (n : Nat) (f : ActSt → ActSt) : (State.modAct s n f).sent = s.sent := rfl
@[simp] theorem State.modAct_free (s : State) (n : Nat) (f : ActSt → ActSt) : (State.modAct s n f).free = s.free := rfl
@[simp] theorem State.modAct_same (s : State) (n : Nat) (f : ActSt → ActSt) : (s.modAct n f).act n = f (s.act n) := tget_tmod_same _ _ _ _
theorem State.modAct_other (s : State) (n : Nat) (f : ActSt → ActSt) {m : Nat} (h : m ≠ n) : (s.modAct n f).act m = s.act m := tget_tmod_other _ _ _ h

/-! `State.modCh` -/

@[simp] theorem State.modCh_pending (s : State) (n : Nat) (f : ChSt → ChSt) : (State.modCh s n f).pending = s.pending := rfl
@[simp] theorem State.modCh_regs (s : State) (n : Nat) (f : ChSt → ChSt) : (State.modCh s n f).regs = s.regs := rfl
@[simp] theorem State.modCh_atb (s : State) (n : Nat) (f : ChSt → ChSt) : (State.modCh s n f).atb = s.atb := rfl
@[simp] theorem State.modCh_srv (s : State) (n : Nat) (f : ChSt → ChSt) : (State.modCh s n f).srv = s.srv := rfl
@[simp] theorem State.modCh_spn (s : State) (n : Nat) (f : ChSt → ChSt) : (State.modCh s n f).spn = s.spn := rfl
@[simp] theorem State.modCh_mdl (s : State) (n : Nat) (f : ChSt → ChSt) : (State.modCh s n f).mdl = s.mdl := rfl
@[simp] theorem State.modCh_ledger (s : State) (n : Nat) (f : ChSt → ChSt) : (State.modCh s n f).ledger = s.ledger := rfl
@[simp] theorem State.modCh_seq (s : State) (n : Nat) (f : ChSt → ChSt) : (State.modCh s n f).seq = s.seq := rfl
@[simp] theorem State.modCh_rpl (s : State) (n : Nat) (f : ChSt → ChSt) : (State.modCh s n f).rpl = s.rpl := rfl
@[simp] theorem State.modCh_rcv (s : State) (n : Nat) (f : ChSt → ChSt) : (State.modCh s n f).rcv = s.rcv := rfl
@[simp] theorem State.modCh_xtp (s : State) (n : Nat) (f : ChSt → ChSt) : (State.modCh s n f).xtp = s.xtp := rfl
@[simp] theorem State.modCh_cmp (s : State) (n : Nat) (f : ChSt → ChSt) : (State.modCh s n f).cmp = s.cmp := rfl
@[simp] theorem State.modCh_cry (s : State) (n : Nat) (f : ChSt → ChSt) : (State.modCh s n f).cry = s.cry := rfl
@[simp] theorem State.modCh_zon (s : State) (n : Nat) (f : ChSt → ChSt) : (State.modCh s n f).zon = s.zon := rfl
@[simp] theorem State.modCh_recs (s : State) (n : Nat) (f : ChSt → ChSt) : (State.modCh s n f).recs = s.recs := rfl
@[simp] theorem State.modCh_buf (s : State) (n : Nat) (f : ChSt → ChSt) : (State.modCh s n f).buf = s.buf := rfl
@[simp] theorem State.modCh_dma (s : State) (n : Nat) (f : ChSt → ChSt) : (State.modCh s n f).dma = s.dma := rfl
@[simp] theorem State.modCh_map (s : State) (n : Nat) (f : ChSt → ChSt) : (State.modCh s n f).map = s.map := rfl
@[simp] theorem State.modCh_hqi (s : State) (n : Nat) (f : ChSt → ChSt) : (State.modCh s n f).hqi = s.hqi := rfl
@[simp] theorem State.modCh_sec (s : State) (n : Nat) (f : ChSt → ChSt) : (State.modCh s n f).sec = s.sec := rfl
@[simp] theorem State.modCh_fab (s : State) (n : Nat) (f : ChSt → ChSt) : (State.modCh s n f).fab = s.fab := rfl
@[simp] theorem State.modCh_pair (s : State) (n : Nat) (f : ChSt → ChSt) : (State.modCh s n f).pair = s.pair := rfl
@[simp] theorem State.modCh_pfr (s : State) (n : Nat) (f : ChSt → ChSt) : (State.modCh s n f).pfr = s.pfr := rfl
@[simp] theorem State.modCh_flt (s : State) (n : Nat) (f : ChSt → ChSt) : (State.modCh s n f).flt = s.flt := rfl
@[simp] theorem State.modCh_evr (s : State) (n : Nat) (f : ChSt → ChSt) : (State.modCh s n f).evr = s.evr := rfl
@[simp] theorem State.modCh_pmc (s : State) (n : Nat) (f : ChSt → ChSt) : (State.modCh s n f).pmc = s.pmc := rfl
@[simp] theorem State.modCh_pwr (s : State) (n : Nat) (f : ChSt → ChSt) : (State.modCh s n f).pwr = s.pwr := rfl
@[simp] theorem State.modCh_svc (s : State) (n : Nat) (f : ChSt → ChSt) : (State.modCh s n f).svc = s.svc := rfl
@[simp] theorem State.modCh_gen (s : State) (n : Nat) (f : ChSt → ChSt) : (State.modCh s n f).gen = s.gen := rfl
@[simp] theorem State.modCh_nv (s : State) (n : Nat) (f : ChSt → ChSt) : (State.modCh s n f).nv = s.nv := rfl
@[simp] theorem State.modCh_nv2 (s : State) (n : Nat) (f : ChSt → ChSt) : (State.modCh s n f).nv2 = s.nv2 := rfl
@[simp] theorem State.modCh_sent (s : State) (n : Nat) (f : ChSt → ChSt) : (State.modCh s n f).sent = s.sent := rfl
@[simp] theorem State.modCh_free (s : State) (n : Nat) (f : ChSt → ChSt) : (State.modCh s n f).free = s.free := rfl
@[simp] theorem State.modCh_same (s : State) (n : Nat) (f : ChSt → ChSt) : (s.modCh n f).ch n = f (s.ch n) := tget_tmod_same _ _ _ _
theorem State.modCh_other (s : State) (n : Nat) (f : ChSt → ChSt) {m : Nat} (h : m ≠ n) : (s.modCh n f).ch m = s.ch m := tget_tmod_other _ _ _ h

/-! `State.modCtx` -/

@[simp] theorem State.modCtx_pending (s : State) (n : Nat) (f : Ctx → Ctx) : (State.modCtx s n f).pending = s.pending := rfl
@[simp] theorem State.modCtx_regs (s : State) (n : Nat) (f : Ctx → Ctx) : (State.modCtx s n f).regs = s.regs := rfl
@[simp] theorem State.modCtx_atb (s : State) (n : Nat) (f : Ctx → Ctx) : (State.modCtx s n f).atb = s.atb := rfl
@[simp] theorem State.modCtx_srv (s : State) (n : Nat) (f : Ctx → Ctx) : (State.modCtx s n f).srv = s.srv := rfl
@[simp] theorem State.modCtx_spn (s : State) (n : Nat) (f : Ctx → Ctx) : (State.modCtx s n f).spn = s.spn := rfl
@[simp] theorem State.modCtx_mdl (s : State) (n : Nat) (f : Ctx → Ctx) : (State.modCtx s n f).mdl = s.mdl := rfl
@[simp] theorem State.modCtx_ledger (s : State) (n : Nat) (f : Ctx → Ctx) : (State.modCtx s n f).ledger = s.ledger := rfl
@[simp] theorem State.modCtx_chs (s : State) (n : Nat) (f : Ctx → Ctx) : (State.modCtx s n f).chs = s.chs := rfl
@[simp] theorem State.modCtx_rpl (s : State) (n : Nat) (f : Ctx → Ctx) : (State.modCtx s n f).rpl = s.rpl := rfl
@[simp] theorem State.modCtx_rcv (s : State) (n : Nat) (f : Ctx → Ctx) : (State.modCtx s n f).rcv = s.rcv := rfl
@[simp] theorem State.modCtx_xtp (s : State) (n : Nat) (f : Ctx → Ctx) : (State.modCtx s n f).xtp = s.xtp := rfl
@[simp] theorem State.modCtx_cmp (s : State) (n : Nat) (f : Ctx → Ctx) : (State.modCtx s n f).cmp = s.cmp := rfl
@[simp] theorem State.modCtx_cry (s : State) (n : Nat) (f : Ctx → Ctx) : (State.modCtx s n f).cry = s.cry := rfl
@[simp] theorem State.modCtx_zon (s : State) (n : Nat) (f : Ctx → Ctx) : (State.modCtx s n f).zon = s.zon := rfl
@[simp] theorem State.modCtx_recs (s : State) (n : Nat) (f : Ctx → Ctx) : (State.modCtx s n f).recs = s.recs := rfl
@[simp] theorem State.modCtx_buf (s : State) (n : Nat) (f : Ctx → Ctx) : (State.modCtx s n f).buf = s.buf := rfl
@[simp] theorem State.modCtx_dma (s : State) (n : Nat) (f : Ctx → Ctx) : (State.modCtx s n f).dma = s.dma := rfl
@[simp] theorem State.modCtx_map (s : State) (n : Nat) (f : Ctx → Ctx) : (State.modCtx s n f).map = s.map := rfl
@[simp] theorem State.modCtx_hqi (s : State) (n : Nat) (f : Ctx → Ctx) : (State.modCtx s n f).hqi = s.hqi := rfl
@[simp] theorem State.modCtx_sec (s : State) (n : Nat) (f : Ctx → Ctx) : (State.modCtx s n f).sec = s.sec := rfl
@[simp] theorem State.modCtx_fab (s : State) (n : Nat) (f : Ctx → Ctx) : (State.modCtx s n f).fab = s.fab := rfl
@[simp] theorem State.modCtx_pair (s : State) (n : Nat) (f : Ctx → Ctx) : (State.modCtx s n f).pair = s.pair := rfl
@[simp] theorem State.modCtx_pfr (s : State) (n : Nat) (f : Ctx → Ctx) : (State.modCtx s n f).pfr = s.pfr := rfl
@[simp] theorem State.modCtx_flt (s : State) (n : Nat) (f : Ctx → Ctx) : (State.modCtx s n f).flt = s.flt := rfl
@[simp] theorem State.modCtx_evr (s : State) (n : Nat) (f : Ctx → Ctx) : (State.modCtx s n f).evr = s.evr := rfl
@[simp] theorem State.modCtx_pmc (s : State) (n : Nat) (f : Ctx → Ctx) : (State.modCtx s n f).pmc = s.pmc := rfl
@[simp] theorem State.modCtx_pwr (s : State) (n : Nat) (f : Ctx → Ctx) : (State.modCtx s n f).pwr = s.pwr := rfl
@[simp] theorem State.modCtx_svc (s : State) (n : Nat) (f : Ctx → Ctx) : (State.modCtx s n f).svc = s.svc := rfl
@[simp] theorem State.modCtx_gen (s : State) (n : Nat) (f : Ctx → Ctx) : (State.modCtx s n f).gen = s.gen := rfl
@[simp] theorem State.modCtx_nv (s : State) (n : Nat) (f : Ctx → Ctx) : (State.modCtx s n f).nv = s.nv := rfl
@[simp] theorem State.modCtx_nv2 (s : State) (n : Nat) (f : Ctx → Ctx) : (State.modCtx s n f).nv2 = s.nv2 := rfl
@[simp] theorem State.modCtx_sent (s : State) (n : Nat) (f : Ctx → Ctx) : (State.modCtx s n f).sent = s.sent := rfl
@[simp] theorem State.modCtx_free (s : State) (n : Nat) (f : Ctx → Ctx) : (State.modCtx s n f).free = s.free := rfl
@[simp] theorem State.modCtx_same (s : State) (n : Nat) (f : Ctx → Ctx) : (s.modCtx n f).ctx n = f (s.ctx n) := tget_tmod_same _ _ _ _
theorem State.modCtx_other (s : State) (n : Nat) (f : Ctx → Ctx) {m : Nat} (h : m ≠ n) : (s.modCtx n f).ctx m = s.ctx m := tget_tmod_other _ _ _ h

/-! `State.modEngine` -/

@[simp] theorem State.modEngine_pending (s : State) (k' : Nat) (f : Engine → Engine) : (State.modEngine s k' f).pending = s.pending := rfl
@[simp] theorem State.modEngine_regs (s : State) (k' : Nat) (f : Engine → Engine) : (State.modEngine s k' f).regs = s.regs := rfl
@[simp] theorem State.modEngine_atb (s : State) (k' : Nat) (f : Engine → Engine) : (State.modEngine s k' f).atb = s.atb := rfl
@[simp] theorem State.modEngine_srv (s : State) (k' : Nat) (f : Engine → Engine) : (State.modEngine s k' f).srv = s.srv := rfl
@[simp] theorem State.modEngine_spn (s : State) (k' : Nat) (f : Engine → Engine) : (State.modEngine s k' f).spn = s.spn := rfl
@[simp] theorem State.modEngine_mdl (s : State) (k' : Nat) (f : Engine → Engine) : (State.modEngine s k' f).mdl = s.mdl := rfl
@[simp] theorem State.modEngine_ledger (s : State) (k' : Nat) (f : Engine → Engine) : (State.modEngine s k' f).ledger = s.ledger := rfl
@[simp] theorem State.modEngine_chs (s : State) (k' : Nat) (f : Engine → Engine) : (State.modEngine s k' f).chs = s.chs := rfl
@[simp] theorem State.modEngine_seq (s : State) (k' : Nat) (f : Engine → Engine) : (State.modEngine s k' f).seq = s.seq := rfl
@[simp] theorem State.modEngine_rpl (s : State) (k' : Nat) (f : Engine → Engine) : (State.modEngine s k' f).rpl = s.rpl := rfl
@[simp] theorem State.modEngine_rcv (s : State) (k' : Nat) (f : Engine → Engine) : (State.modEngine s k' f).rcv = s.rcv := rfl
@[simp] theorem State.modEngine_xtp (s : State) (k' : Nat) (f : Engine → Engine) : (State.modEngine s k' f).xtp = s.xtp := rfl
@[simp] theorem State.modEngine_cry (s : State) (k' : Nat) (f : Engine → Engine) : (State.modEngine s k' f).cry = s.cry := rfl
@[simp] theorem State.modEngine_zon (s : State) (k' : Nat) (f : Engine → Engine) : (State.modEngine s k' f).zon = s.zon := rfl
@[simp] theorem State.modEngine_recs (s : State) (k' : Nat) (f : Engine → Engine) : (State.modEngine s k' f).recs = s.recs := rfl
@[simp] theorem State.modEngine_buf (s : State) (k' : Nat) (f : Engine → Engine) : (State.modEngine s k' f).buf = s.buf := rfl
@[simp] theorem State.modEngine_dma (s : State) (k' : Nat) (f : Engine → Engine) : (State.modEngine s k' f).dma = s.dma := rfl
@[simp] theorem State.modEngine_map (s : State) (k' : Nat) (f : Engine → Engine) : (State.modEngine s k' f).map = s.map := rfl
@[simp] theorem State.modEngine_hqi (s : State) (k' : Nat) (f : Engine → Engine) : (State.modEngine s k' f).hqi = s.hqi := rfl
@[simp] theorem State.modEngine_sec (s : State) (k' : Nat) (f : Engine → Engine) : (State.modEngine s k' f).sec = s.sec := rfl
@[simp] theorem State.modEngine_fab (s : State) (k' : Nat) (f : Engine → Engine) : (State.modEngine s k' f).fab = s.fab := rfl
@[simp] theorem State.modEngine_pair (s : State) (k' : Nat) (f : Engine → Engine) : (State.modEngine s k' f).pair = s.pair := rfl
@[simp] theorem State.modEngine_pfr (s : State) (k' : Nat) (f : Engine → Engine) : (State.modEngine s k' f).pfr = s.pfr := rfl
@[simp] theorem State.modEngine_flt (s : State) (k' : Nat) (f : Engine → Engine) : (State.modEngine s k' f).flt = s.flt := rfl
@[simp] theorem State.modEngine_evr (s : State) (k' : Nat) (f : Engine → Engine) : (State.modEngine s k' f).evr = s.evr := rfl
@[simp] theorem State.modEngine_pmc (s : State) (k' : Nat) (f : Engine → Engine) : (State.modEngine s k' f).pmc = s.pmc := rfl
@[simp] theorem State.modEngine_pwr (s : State) (k' : Nat) (f : Engine → Engine) : (State.modEngine s k' f).pwr = s.pwr := rfl
@[simp] theorem State.modEngine_svc (s : State) (k' : Nat) (f : Engine → Engine) : (State.modEngine s k' f).svc = s.svc := rfl
@[simp] theorem State.modEngine_gen (s : State) (k' : Nat) (f : Engine → Engine) : (State.modEngine s k' f).gen = s.gen := rfl
@[simp] theorem State.modEngine_nv (s : State) (k' : Nat) (f : Engine → Engine) : (State.modEngine s k' f).nv = s.nv := rfl
@[simp] theorem State.modEngine_nv2 (s : State) (k' : Nat) (f : Engine → Engine) : (State.modEngine s k' f).nv2 = s.nv2 := rfl
@[simp] theorem State.modEngine_sent (s : State) (k' : Nat) (f : Engine → Engine) : (State.modEngine s k' f).sent = s.sent := rfl
@[simp] theorem State.modEngine_free (s : State) (k' : Nat) (f : Engine → Engine) : (State.modEngine s k' f).free = s.free := rfl
@[simp] theorem State.modEngine_same (s : State) (k' : Nat) (f : Engine → Engine) : (s.modEngine k' f).engine k' = f (s.engine k') := tget_tmod_same _ _ _ _
theorem State.modEngine_other (s : State) (k' : Nat) (f : Engine → Engine) {m : Nat} (h : m ≠ k') : (s.modEngine k' f).engine m = s.engine m := tget_tmod_other _ _ _ h

/-! `State.modZone` -/

@[simp] theorem State.modZone_pending (s : State) (z' : Nat) (f : Zone → Zone) : (State.modZone s z' f).pending = s.pending := rfl
@[simp] theorem State.modZone_regs (s : State) (z' : Nat) (f : Zone → Zone) : (State.modZone s z' f).regs = s.regs := rfl
@[simp] theorem State.modZone_atb (s : State) (z' : Nat) (f : Zone → Zone) : (State.modZone s z' f).atb = s.atb := rfl
@[simp] theorem State.modZone_srv (s : State) (z' : Nat) (f : Zone → Zone) : (State.modZone s z' f).srv = s.srv := rfl
@[simp] theorem State.modZone_spn (s : State) (z' : Nat) (f : Zone → Zone) : (State.modZone s z' f).spn = s.spn := rfl
@[simp] theorem State.modZone_mdl (s : State) (z' : Nat) (f : Zone → Zone) : (State.modZone s z' f).mdl = s.mdl := rfl
@[simp] theorem State.modZone_ledger (s : State) (z' : Nat) (f : Zone → Zone) : (State.modZone s z' f).ledger = s.ledger := rfl
@[simp] theorem State.modZone_chs (s : State) (z' : Nat) (f : Zone → Zone) : (State.modZone s z' f).chs = s.chs := rfl
@[simp] theorem State.modZone_seq (s : State) (z' : Nat) (f : Zone → Zone) : (State.modZone s z' f).seq = s.seq := rfl
@[simp] theorem State.modZone_rpl (s : State) (z' : Nat) (f : Zone → Zone) : (State.modZone s z' f).rpl = s.rpl := rfl
@[simp] theorem State.modZone_rcv (s : State) (z' : Nat) (f : Zone → Zone) : (State.modZone s z' f).rcv = s.rcv := rfl
@[simp] theorem State.modZone_xtp (s : State) (z' : Nat) (f : Zone → Zone) : (State.modZone s z' f).xtp = s.xtp := rfl
@[simp] theorem State.modZone_cmp (s : State) (z' : Nat) (f : Zone → Zone) : (State.modZone s z' f).cmp = s.cmp := rfl
@[simp] theorem State.modZone_cry (s : State) (z' : Nat) (f : Zone → Zone) : (State.modZone s z' f).cry = s.cry := rfl
@[simp] theorem State.modZone_recs (s : State) (z' : Nat) (f : Zone → Zone) : (State.modZone s z' f).recs = s.recs := rfl
@[simp] theorem State.modZone_buf (s : State) (z' : Nat) (f : Zone → Zone) : (State.modZone s z' f).buf = s.buf := rfl
@[simp] theorem State.modZone_dma (s : State) (z' : Nat) (f : Zone → Zone) : (State.modZone s z' f).dma = s.dma := rfl
@[simp] theorem State.modZone_map (s : State) (z' : Nat) (f : Zone → Zone) : (State.modZone s z' f).map = s.map := rfl
@[simp] theorem State.modZone_hqi (s : State) (z' : Nat) (f : Zone → Zone) : (State.modZone s z' f).hqi = s.hqi := rfl
@[simp] theorem State.modZone_sec (s : State) (z' : Nat) (f : Zone → Zone) : (State.modZone s z' f).sec = s.sec := rfl
@[simp] theorem State.modZone_fab (s : State) (z' : Nat) (f : Zone → Zone) : (State.modZone s z' f).fab = s.fab := rfl
@[simp] theorem State.modZone_pair (s : State) (z' : Nat) (f : Zone → Zone) : (State.modZone s z' f).pair = s.pair := rfl
@[simp] theorem State.modZone_pfr (s : State) (z' : Nat) (f : Zone → Zone) : (State.modZone s z' f).pfr = s.pfr := rfl
@[simp] theorem State.modZone_flt (s : State) (z' : Nat) (f : Zone → Zone) : (State.modZone s z' f).flt = s.flt := rfl
@[simp] theorem State.modZone_evr (s : State) (z' : Nat) (f : Zone → Zone) : (State.modZone s z' f).evr = s.evr := rfl
@[simp] theorem State.modZone_pmc (s : State) (z' : Nat) (f : Zone → Zone) : (State.modZone s z' f).pmc = s.pmc := rfl
@[simp] theorem State.modZone_pwr (s : State) (z' : Nat) (f : Zone → Zone) : (State.modZone s z' f).pwr = s.pwr := rfl
@[simp] theorem State.modZone_svc (s : State) (z' : Nat) (f : Zone → Zone) : (State.modZone s z' f).svc = s.svc := rfl
@[simp] theorem State.modZone_gen (s : State) (z' : Nat) (f : Zone → Zone) : (State.modZone s z' f).gen = s.gen := rfl
@[simp] theorem State.modZone_nv (s : State) (z' : Nat) (f : Zone → Zone) : (State.modZone s z' f).nv = s.nv := rfl
@[simp] theorem State.modZone_nv2 (s : State) (z' : Nat) (f : Zone → Zone) : (State.modZone s z' f).nv2 = s.nv2 := rfl
@[simp] theorem State.modZone_sent (s : State) (z' : Nat) (f : Zone → Zone) : (State.modZone s z' f).sent = s.sent := rfl
@[simp] theorem State.modZone_free (s : State) (z' : Nat) (f : Zone → Zone) : (State.modZone s z' f).free = s.free := rfl
@[simp] theorem State.modZone_same (s : State) (z' : Nat) (f : Zone → Zone) : (s.modZone z' f).zone z' = f (s.zone z') := tget_tmod_same _ _ _ _
theorem State.modZone_other (s : State) (z' : Nat) (f : Zone → Zone) {m : Nat} (h : m ≠ z') : (s.modZone z' f).zone m = s.zone m := tget_tmod_other _ _ _ h

/-! `State.modDma` -/

@[simp] theorem State.modDma_pending (s : State) (n : Nat) (f : DmaCh → DmaCh) : (State.modDma s n f).pending = s.pending := rfl
@[simp] theorem State.modDma_regs (s : State) (n : Nat) (f : DmaCh → DmaCh) : (State.modDma s n f).regs = s.regs := rfl
@[simp] theorem State.modDma_atb (s : State) (n : Nat) (f : DmaCh → DmaCh) : (State.modDma s n f).atb = s.atb := rfl
@[simp] theorem State.modDma_srv (s : State) (n : Nat) (f : DmaCh → DmaCh) : (State.modDma s n f).srv = s.srv := rfl
@[simp] theorem State.modDma_spn (s : State) (n : Nat) (f : DmaCh → DmaCh) : (State.modDma s n f).spn = s.spn := rfl
@[simp] theorem State.modDma_mdl (s : State) (n : Nat) (f : DmaCh → DmaCh) : (State.modDma s n f).mdl = s.mdl := rfl
@[simp] theorem State.modDma_ledger (s : State) (n : Nat) (f : DmaCh → DmaCh) : (State.modDma s n f).ledger = s.ledger := rfl
@[simp] theorem State.modDma_chs (s : State) (n : Nat) (f : DmaCh → DmaCh) : (State.modDma s n f).chs = s.chs := rfl
@[simp] theorem State.modDma_seq (s : State) (n : Nat) (f : DmaCh → DmaCh) : (State.modDma s n f).seq = s.seq := rfl
@[simp] theorem State.modDma_rpl (s : State) (n : Nat) (f : DmaCh → DmaCh) : (State.modDma s n f).rpl = s.rpl := rfl
@[simp] theorem State.modDma_rcv (s : State) (n : Nat) (f : DmaCh → DmaCh) : (State.modDma s n f).rcv = s.rcv := rfl
@[simp] theorem State.modDma_xtp (s : State) (n : Nat) (f : DmaCh → DmaCh) : (State.modDma s n f).xtp = s.xtp := rfl
@[simp] theorem State.modDma_cmp (s : State) (n : Nat) (f : DmaCh → DmaCh) : (State.modDma s n f).cmp = s.cmp := rfl
@[simp] theorem State.modDma_cry (s : State) (n : Nat) (f : DmaCh → DmaCh) : (State.modDma s n f).cry = s.cry := rfl
@[simp] theorem State.modDma_zon (s : State) (n : Nat) (f : DmaCh → DmaCh) : (State.modDma s n f).zon = s.zon := rfl
@[simp] theorem State.modDma_recs (s : State) (n : Nat) (f : DmaCh → DmaCh) : (State.modDma s n f).recs = s.recs := rfl
@[simp] theorem State.modDma_buf (s : State) (n : Nat) (f : DmaCh → DmaCh) : (State.modDma s n f).buf = s.buf := rfl
@[simp] theorem State.modDma_map (s : State) (n : Nat) (f : DmaCh → DmaCh) : (State.modDma s n f).map = s.map := rfl
@[simp] theorem State.modDma_hqi (s : State) (n : Nat) (f : DmaCh → DmaCh) : (State.modDma s n f).hqi = s.hqi := rfl
@[simp] theorem State.modDma_sec (s : State) (n : Nat) (f : DmaCh → DmaCh) : (State.modDma s n f).sec = s.sec := rfl
@[simp] theorem State.modDma_fab (s : State) (n : Nat) (f : DmaCh → DmaCh) : (State.modDma s n f).fab = s.fab := rfl
@[simp] theorem State.modDma_pair (s : State) (n : Nat) (f : DmaCh → DmaCh) : (State.modDma s n f).pair = s.pair := rfl
@[simp] theorem State.modDma_pfr (s : State) (n : Nat) (f : DmaCh → DmaCh) : (State.modDma s n f).pfr = s.pfr := rfl
@[simp] theorem State.modDma_flt (s : State) (n : Nat) (f : DmaCh → DmaCh) : (State.modDma s n f).flt = s.flt := rfl
@[simp] theorem State.modDma_evr (s : State) (n : Nat) (f : DmaCh → DmaCh) : (State.modDma s n f).evr = s.evr := rfl
@[simp] theorem State.modDma_pmc (s : State) (n : Nat) (f : DmaCh → DmaCh) : (State.modDma s n f).pmc = s.pmc := rfl
@[simp] theorem State.modDma_pwr (s : State) (n : Nat) (f : DmaCh → DmaCh) : (State.modDma s n f).pwr = s.pwr := rfl
@[simp] theorem State.modDma_svc (s : State) (n : Nat) (f : DmaCh → DmaCh) : (State.modDma s n f).svc = s.svc := rfl
@[simp] theorem State.modDma_gen (s : State) (n : Nat) (f : DmaCh → DmaCh) : (State.modDma s n f).gen = s.gen := rfl
@[simp] theorem State.modDma_nv (s : State) (n : Nat) (f : DmaCh → DmaCh) : (State.modDma s n f).nv = s.nv := rfl
@[simp] theorem State.modDma_nv2 (s : State) (n : Nat) (f : DmaCh → DmaCh) : (State.modDma s n f).nv2 = s.nv2 := rfl
@[simp] theorem State.modDma_sent (s : State) (n : Nat) (f : DmaCh → DmaCh) : (State.modDma s n f).sent = s.sent := rfl
@[simp] theorem State.modDma_free (s : State) (n : Nat) (f : DmaCh → DmaCh) : (State.modDma s n f).free = s.free := rfl
@[simp] theorem State.modDma_same (s : State) (n : Nat) (f : DmaCh → DmaCh) : (s.modDma n f).dmaCh n = f (s.dmaCh n) := tget_tmod_same _ _ _ _
theorem State.modDma_other (s : State) (n : Nat) (f : DmaCh → DmaCh) {m : Nat} (h : m ≠ n) : (s.modDma n f).dmaCh m = s.dmaCh m := tget_tmod_other _ _ _ h

/-! `State.modQp` -/

@[simp] theorem State.modQp_pending (s : State) (q : Nat) (f : Qp → Qp) : (State.modQp s q f).pending = s.pending := rfl
@[simp] theorem State.modQp_regs (s : State) (q : Nat) (f : Qp → Qp) : (State.modQp s q f).regs = s.regs := rfl
@[simp] theorem State.modQp_atb (s : State) (q : Nat) (f : Qp → Qp) : (State.modQp s q f).atb = s.atb := rfl
@[simp] theorem State.modQp_srv (s : State) (q : Nat) (f : Qp → Qp) : (State.modQp s q f).srv = s.srv := rfl
@[simp] theorem State.modQp_spn (s : State) (q : Nat) (f : Qp → Qp) : (State.modQp s q f).spn = s.spn := rfl
@[simp] theorem State.modQp_mdl (s : State) (q : Nat) (f : Qp → Qp) : (State.modQp s q f).mdl = s.mdl := rfl
@[simp] theorem State.modQp_ledger (s : State) (q : Nat) (f : Qp → Qp) : (State.modQp s q f).ledger = s.ledger := rfl
@[simp] theorem State.modQp_chs (s : State) (q : Nat) (f : Qp → Qp) : (State.modQp s q f).chs = s.chs := rfl
@[simp] theorem State.modQp_seq (s : State) (q : Nat) (f : Qp → Qp) : (State.modQp s q f).seq = s.seq := rfl
@[simp] theorem State.modQp_rpl (s : State) (q : Nat) (f : Qp → Qp) : (State.modQp s q f).rpl = s.rpl := rfl
@[simp] theorem State.modQp_rcv (s : State) (q : Nat) (f : Qp → Qp) : (State.modQp s q f).rcv = s.rcv := rfl
@[simp] theorem State.modQp_xtp (s : State) (q : Nat) (f : Qp → Qp) : (State.modQp s q f).xtp = s.xtp := rfl
@[simp] theorem State.modQp_cmp (s : State) (q : Nat) (f : Qp → Qp) : (State.modQp s q f).cmp = s.cmp := rfl
@[simp] theorem State.modQp_cry (s : State) (q : Nat) (f : Qp → Qp) : (State.modQp s q f).cry = s.cry := rfl
@[simp] theorem State.modQp_zon (s : State) (q : Nat) (f : Qp → Qp) : (State.modQp s q f).zon = s.zon := rfl
@[simp] theorem State.modQp_recs (s : State) (q : Nat) (f : Qp → Qp) : (State.modQp s q f).recs = s.recs := rfl
@[simp] theorem State.modQp_buf (s : State) (q : Nat) (f : Qp → Qp) : (State.modQp s q f).buf = s.buf := rfl
@[simp] theorem State.modQp_dma (s : State) (q : Nat) (f : Qp → Qp) : (State.modQp s q f).dma = s.dma := rfl
@[simp] theorem State.modQp_map (s : State) (q : Nat) (f : Qp → Qp) : (State.modQp s q f).map = s.map := rfl
@[simp] theorem State.modQp_sec (s : State) (q : Nat) (f : Qp → Qp) : (State.modQp s q f).sec = s.sec := rfl
@[simp] theorem State.modQp_fab (s : State) (q : Nat) (f : Qp → Qp) : (State.modQp s q f).fab = s.fab := rfl
@[simp] theorem State.modQp_pair (s : State) (q : Nat) (f : Qp → Qp) : (State.modQp s q f).pair = s.pair := rfl
@[simp] theorem State.modQp_pfr (s : State) (q : Nat) (f : Qp → Qp) : (State.modQp s q f).pfr = s.pfr := rfl
@[simp] theorem State.modQp_flt (s : State) (q : Nat) (f : Qp → Qp) : (State.modQp s q f).flt = s.flt := rfl
@[simp] theorem State.modQp_evr (s : State) (q : Nat) (f : Qp → Qp) : (State.modQp s q f).evr = s.evr := rfl
@[simp] theorem State.modQp_pmc (s : State) (q : Nat) (f : Qp → Qp) : (State.modQp s q f).pmc = s.pmc := rfl
@[simp] theorem State.modQp_pwr (s : State) (q : Nat) (f : Qp → Qp) : (State.modQp s q f).pwr = s.pwr := rfl
@[simp] theorem State.modQp_svc (s : State) (q : Nat) (f : Qp → Qp) : (State.modQp s q f).svc = s.svc := rfl
@[simp] theorem State.modQp_gen (s : State) (q : Nat) (f : Qp → Qp) : (State.modQp s q f).gen = s.gen := rfl
@[simp] theorem State.modQp_nv (s : State) (q : Nat) (f : Qp → Qp) : (State.modQp s q f).nv = s.nv := rfl
@[simp] theorem State.modQp_nv2 (s : State) (q : Nat) (f : Qp → Qp) : (State.modQp s q f).nv2 = s.nv2 := rfl
@[simp] theorem State.modQp_sent (s : State) (q : Nat) (f : Qp → Qp) : (State.modQp s q f).sent = s.sent := rfl
@[simp] theorem State.modQp_free (s : State) (q : Nat) (f : Qp → Qp) : (State.modQp s q f).free = s.free := rfl
@[simp] theorem State.modQp_same (s : State) (q : Nat) (f : Qp → Qp) : (s.modQp q f).qp q = f (s.qp q) := tget_tmod_same _ _ _ _
theorem State.modQp_other (s : State) (q : Nat) (f : Qp → Qp) {m : Nat} (h : m ≠ q) : (s.modQp q f).qp m = s.qp m := tget_tmod_other _ _ _ h

/-! `State.modPort` -/

@[simp] theorem State.modPort_pending (s : State) (p : Nat) (f : Port → Port) : (State.modPort s p f).pending = s.pending := rfl
@[simp] theorem State.modPort_regs (s : State) (p : Nat) (f : Port → Port) : (State.modPort s p f).regs = s.regs := rfl
@[simp] theorem State.modPort_atb (s : State) (p : Nat) (f : Port → Port) : (State.modPort s p f).atb = s.atb := rfl
@[simp] theorem State.modPort_srv (s : State) (p : Nat) (f : Port → Port) : (State.modPort s p f).srv = s.srv := rfl
@[simp] theorem State.modPort_spn (s : State) (p : Nat) (f : Port → Port) : (State.modPort s p f).spn = s.spn := rfl
@[simp] theorem State.modPort_mdl (s : State) (p : Nat) (f : Port → Port) : (State.modPort s p f).mdl = s.mdl := rfl
@[simp] theorem State.modPort_ledger (s : State) (p : Nat) (f : Port → Port) : (State.modPort s p f).ledger = s.ledger := rfl
@[simp] theorem State.modPort_chs (s : State) (p : Nat) (f : Port → Port) : (State.modPort s p f).chs = s.chs := rfl
@[simp] theorem State.modPort_seq (s : State) (p : Nat) (f : Port → Port) : (State.modPort s p f).seq = s.seq := rfl
@[simp] theorem State.modPort_rpl (s : State) (p : Nat) (f : Port → Port) : (State.modPort s p f).rpl = s.rpl := rfl
@[simp] theorem State.modPort_rcv (s : State) (p : Nat) (f : Port → Port) : (State.modPort s p f).rcv = s.rcv := rfl
@[simp] theorem State.modPort_xtp (s : State) (p : Nat) (f : Port → Port) : (State.modPort s p f).xtp = s.xtp := rfl
@[simp] theorem State.modPort_cmp (s : State) (p : Nat) (f : Port → Port) : (State.modPort s p f).cmp = s.cmp := rfl
@[simp] theorem State.modPort_cry (s : State) (p : Nat) (f : Port → Port) : (State.modPort s p f).cry = s.cry := rfl
@[simp] theorem State.modPort_zon (s : State) (p : Nat) (f : Port → Port) : (State.modPort s p f).zon = s.zon := rfl
@[simp] theorem State.modPort_recs (s : State) (p : Nat) (f : Port → Port) : (State.modPort s p f).recs = s.recs := rfl
@[simp] theorem State.modPort_buf (s : State) (p : Nat) (f : Port → Port) : (State.modPort s p f).buf = s.buf := rfl
@[simp] theorem State.modPort_dma (s : State) (p : Nat) (f : Port → Port) : (State.modPort s p f).dma = s.dma := rfl
@[simp] theorem State.modPort_map (s : State) (p : Nat) (f : Port → Port) : (State.modPort s p f).map = s.map := rfl
@[simp] theorem State.modPort_hqi (s : State) (p : Nat) (f : Port → Port) : (State.modPort s p f).hqi = s.hqi := rfl
@[simp] theorem State.modPort_sec (s : State) (p : Nat) (f : Port → Port) : (State.modPort s p f).sec = s.sec := rfl
@[simp] theorem State.modPort_pair (s : State) (p : Nat) (f : Port → Port) : (State.modPort s p f).pair = s.pair := rfl
@[simp] theorem State.modPort_pfr (s : State) (p : Nat) (f : Port → Port) : (State.modPort s p f).pfr = s.pfr := rfl
@[simp] theorem State.modPort_flt (s : State) (p : Nat) (f : Port → Port) : (State.modPort s p f).flt = s.flt := rfl
@[simp] theorem State.modPort_evr (s : State) (p : Nat) (f : Port → Port) : (State.modPort s p f).evr = s.evr := rfl
@[simp] theorem State.modPort_pmc (s : State) (p : Nat) (f : Port → Port) : (State.modPort s p f).pmc = s.pmc := rfl
@[simp] theorem State.modPort_pwr (s : State) (p : Nat) (f : Port → Port) : (State.modPort s p f).pwr = s.pwr := rfl
@[simp] theorem State.modPort_svc (s : State) (p : Nat) (f : Port → Port) : (State.modPort s p f).svc = s.svc := rfl
@[simp] theorem State.modPort_gen (s : State) (p : Nat) (f : Port → Port) : (State.modPort s p f).gen = s.gen := rfl
@[simp] theorem State.modPort_nv (s : State) (p : Nat) (f : Port → Port) : (State.modPort s p f).nv = s.nv := rfl
@[simp] theorem State.modPort_nv2 (s : State) (p : Nat) (f : Port → Port) : (State.modPort s p f).nv2 = s.nv2 := rfl
@[simp] theorem State.modPort_sent (s : State) (p : Nat) (f : Port → Port) : (State.modPort s p f).sent = s.sent := rfl
@[simp] theorem State.modPort_free (s : State) (p : Nat) (f : Port → Port) : (State.modPort s p f).free = s.free := rfl
@[simp] theorem State.modPort_same (s : State) (p : Nat) (f : Port → Port) : (s.modPort p f).port p = f (s.port p) := tget_tmod_same _ _ _ _
theorem State.modPort_other (s : State) (p : Nat) (f : Port → Port) {m : Nat} (h : m ≠ p) : (s.modPort p f).port m = s.port m := tget_tmod_other _ _ _ h

/-! `State.modRange` -/

@[simp] theorem State.modRange_pending (s : State) (r : Nat) (f : KeyRange → KeyRange) : (State.modRange s r f).pending = s.pending := rfl
@[simp] theorem State.modRange_regs (s : State) (r : Nat) (f : KeyRange → KeyRange) : (State.modRange s r f).regs = s.regs := rfl
@[simp] theorem State.modRange_atb (s : State) (r : Nat) (f : KeyRange → KeyRange) : (State.modRange s r f).atb = s.atb := rfl
@[simp] theorem State.modRange_srv (s : State) (r : Nat) (f : KeyRange → KeyRange) : (State.modRange s r f).srv = s.srv := rfl
@[simp] theorem State.modRange_spn (s : State) (r : Nat) (f : KeyRange → KeyRange) : (State.modRange s r f).spn = s.spn := rfl
@[simp] theorem State.modRange_mdl (s : State) (r : Nat) (f : KeyRange → KeyRange) : (State.modRange s r f).mdl = s.mdl := rfl
@[simp] theorem State.modRange_ledger (s : State) (r : Nat) (f : KeyRange → KeyRange) : (State.modRange s r f).ledger = s.ledger := rfl
@[simp] theorem State.modRange_chs (s : State) (r : Nat) (f : KeyRange → KeyRange) : (State.modRange s r f).chs = s.chs := rfl
@[simp] theorem State.modRange_seq (s : State) (r : Nat) (f : KeyRange → KeyRange) : (State.modRange s r f).seq = s.seq := rfl
@[simp] theorem State.modRange_rpl (s : State) (r : Nat) (f : KeyRange → KeyRange) : (State.modRange s r f).rpl = s.rpl := rfl
@[simp] theorem State.modRange_rcv (s : State) (r : Nat) (f : KeyRange → KeyRange) : (State.modRange s r f).rcv = s.rcv := rfl
@[simp] theorem State.modRange_xtp (s : State) (r : Nat) (f : KeyRange → KeyRange) : (State.modRange s r f).xtp = s.xtp := rfl
@[simp] theorem State.modRange_cmp (s : State) (r : Nat) (f : KeyRange → KeyRange) : (State.modRange s r f).cmp = s.cmp := rfl
@[simp] theorem State.modRange_cry (s : State) (r : Nat) (f : KeyRange → KeyRange) : (State.modRange s r f).cry = s.cry := rfl
@[simp] theorem State.modRange_zon (s : State) (r : Nat) (f : KeyRange → KeyRange) : (State.modRange s r f).zon = s.zon := rfl
@[simp] theorem State.modRange_recs (s : State) (r : Nat) (f : KeyRange → KeyRange) : (State.modRange s r f).recs = s.recs := rfl
@[simp] theorem State.modRange_buf (s : State) (r : Nat) (f : KeyRange → KeyRange) : (State.modRange s r f).buf = s.buf := rfl
@[simp] theorem State.modRange_dma (s : State) (r : Nat) (f : KeyRange → KeyRange) : (State.modRange s r f).dma = s.dma := rfl
@[simp] theorem State.modRange_map (s : State) (r : Nat) (f : KeyRange → KeyRange) : (State.modRange s r f).map = s.map := rfl
@[simp] theorem State.modRange_hqi (s : State) (r : Nat) (f : KeyRange → KeyRange) : (State.modRange s r f).hqi = s.hqi := rfl
@[simp] theorem State.modRange_sec (s : State) (r : Nat) (f : KeyRange → KeyRange) : (State.modRange s r f).sec = s.sec := rfl
@[simp] theorem State.modRange_fab (s : State) (r : Nat) (f : KeyRange → KeyRange) : (State.modRange s r f).fab = s.fab := rfl
@[simp] theorem State.modRange_pair (s : State) (r : Nat) (f : KeyRange → KeyRange) : (State.modRange s r f).pair = s.pair := rfl
@[simp] theorem State.modRange_pfr (s : State) (r : Nat) (f : KeyRange → KeyRange) : (State.modRange s r f).pfr = s.pfr := rfl
@[simp] theorem State.modRange_flt (s : State) (r : Nat) (f : KeyRange → KeyRange) : (State.modRange s r f).flt = s.flt := rfl
@[simp] theorem State.modRange_evr (s : State) (r : Nat) (f : KeyRange → KeyRange) : (State.modRange s r f).evr = s.evr := rfl
@[simp] theorem State.modRange_pmc (s : State) (r : Nat) (f : KeyRange → KeyRange) : (State.modRange s r f).pmc = s.pmc := rfl
@[simp] theorem State.modRange_pwr (s : State) (r : Nat) (f : KeyRange → KeyRange) : (State.modRange s r f).pwr = s.pwr := rfl
@[simp] theorem State.modRange_svc (s : State) (r : Nat) (f : KeyRange → KeyRange) : (State.modRange s r f).svc = s.svc := rfl
@[simp] theorem State.modRange_gen (s : State) (r : Nat) (f : KeyRange → KeyRange) : (State.modRange s r f).gen = s.gen := rfl
@[simp] theorem State.modRange_nv2 (s : State) (r : Nat) (f : KeyRange → KeyRange) : (State.modRange s r f).nv2 = s.nv2 := rfl
@[simp] theorem State.modRange_sent (s : State) (r : Nat) (f : KeyRange → KeyRange) : (State.modRange s r f).sent = s.sent := rfl
@[simp] theorem State.modRange_free (s : State) (r : Nat) (f : KeyRange → KeyRange) : (State.modRange s r f).free = s.free := rfl
@[simp] theorem State.modRange_same (s : State) (r : Nat) (f : KeyRange → KeyRange) : (s.modRange r f).range r = f (s.range r) := tget_tmod_same _ _ _ _
theorem State.modRange_other (s : State) (r : Nat) (f : KeyRange → KeyRange) {m : Nat} (h : m ≠ r) : (s.modRange r f).range m = s.range m := tget_tmod_other _ _ _ h

/-! `State.setRecList` -/

@[simp] theorem State.setRecList_pending (s : State) (n : Nat) (l : List RecEnt) : (State.setRecList s n l).pending = s.pending := rfl
@[simp] theorem State.setRecList_regs (s : State) (n : Nat) (l : List RecEnt) : (State.setRecList s n l).regs = s.regs := rfl
@[simp] theorem State.setRecList_atb (s : State) (n : Nat) (l : List RecEnt) : (State.setRecList s n l).atb = s.atb := rfl
@[simp] theorem State.setRecList_srv (s : State) (n : Nat) (l : List RecEnt) : (State.setRecList s n l).srv = s.srv := rfl
@[simp] theorem State.setRecList_spn (s : State) (n : Nat) (l : List RecEnt) : (State.setRecList s n l).spn = s.spn := rfl
@[simp] theorem State.setRecList_mdl (s : State) (n : Nat) (l : List RecEnt) : (State.setRecList s n l).mdl = s.mdl := rfl
@[simp] theorem State.setRecList_ledger (s : State) (n : Nat) (l : List RecEnt) : (State.setRecList s n l).ledger = s.ledger := rfl
@[simp] theorem State.setRecList_chs (s : State) (n : Nat) (l : List RecEnt) : (State.setRecList s n l).chs = s.chs := rfl
@[simp] theorem State.setRecList_seq (s : State) (n : Nat) (l : List RecEnt) : (State.setRecList s n l).seq = s.seq := rfl
@[simp] theorem State.setRecList_rpl (s : State) (n : Nat) (l : List RecEnt) : (State.setRecList s n l).rpl = s.rpl := rfl
@[simp] theorem State.setRecList_xtp (s : State) (n : Nat) (l : List RecEnt) : (State.setRecList s n l).xtp = s.xtp := rfl
@[simp] theorem State.setRecList_cmp (s : State) (n : Nat) (l : List RecEnt) : (State.setRecList s n l).cmp = s.cmp := rfl
@[simp] theorem State.setRecList_cry (s : State) (n : Nat) (l : List RecEnt) : (State.setRecList s n l).cry = s.cry := rfl
@[simp] theorem State.setRecList_zon (s : State) (n : Nat) (l : List RecEnt) : (State.setRecList s n l).zon = s.zon := rfl
@[simp] theorem State.setRecList_recs (s : State) (n : Nat) (l : List RecEnt) : (State.setRecList s n l).recs = s.recs := rfl
@[simp] theorem State.setRecList_buf (s : State) (n : Nat) (l : List RecEnt) : (State.setRecList s n l).buf = s.buf := rfl
@[simp] theorem State.setRecList_dma (s : State) (n : Nat) (l : List RecEnt) : (State.setRecList s n l).dma = s.dma := rfl
@[simp] theorem State.setRecList_map (s : State) (n : Nat) (l : List RecEnt) : (State.setRecList s n l).map = s.map := rfl
@[simp] theorem State.setRecList_hqi (s : State) (n : Nat) (l : List RecEnt) : (State.setRecList s n l).hqi = s.hqi := rfl
@[simp] theorem State.setRecList_sec (s : State) (n : Nat) (l : List RecEnt) : (State.setRecList s n l).sec = s.sec := rfl
@[simp] theorem State.setRecList_fab (s : State) (n : Nat) (l : List RecEnt) : (State.setRecList s n l).fab = s.fab := rfl
@[simp] theorem State.setRecList_pair (s : State) (n : Nat) (l : List RecEnt) : (State.setRecList s n l).pair = s.pair := rfl
@[simp] theorem State.setRecList_pfr (s : State) (n : Nat) (l : List RecEnt) : (State.setRecList s n l).pfr = s.pfr := rfl
@[simp] theorem State.setRecList_flt (s : State) (n : Nat) (l : List RecEnt) : (State.setRecList s n l).flt = s.flt := rfl
@[simp] theorem State.setRecList_evr (s : State) (n : Nat) (l : List RecEnt) : (State.setRecList s n l).evr = s.evr := rfl
@[simp] theorem State.setRecList_pmc (s : State) (n : Nat) (l : List RecEnt) : (State.setRecList s n l).pmc = s.pmc := rfl
@[simp] theorem State.setRecList_pwr (s : State) (n : Nat) (l : List RecEnt) : (State.setRecList s n l).pwr = s.pwr := rfl
@[simp] theorem State.setRecList_svc (s : State) (n : Nat) (l : List RecEnt) : (State.setRecList s n l).svc = s.svc := rfl
@[simp] theorem State.setRecList_gen (s : State) (n : Nat) (l : List RecEnt) : (State.setRecList s n l).gen = s.gen := rfl
@[simp] theorem State.setRecList_nv (s : State) (n : Nat) (l : List RecEnt) : (State.setRecList s n l).nv = s.nv := rfl
@[simp] theorem State.setRecList_nv2 (s : State) (n : Nat) (l : List RecEnt) : (State.setRecList s n l).nv2 = s.nv2 := rfl
@[simp] theorem State.setRecList_sent (s : State) (n : Nat) (l : List RecEnt) : (State.setRecList s n l).sent = s.sent := rfl
@[simp] theorem State.setRecList_free (s : State) (n : Nat) (l : List RecEnt) : (State.setRecList s n l).free = s.free := rfl

/-! `State.putFld` -/

@[simp] theorem State.putFld_pending (s : State) (off : Nat) (lsb : Nat) (w : Nat) (x' : Nat) : (State.putFld s off lsb w x').pending = s.pending := rfl
@[simp] theorem State.putFld_atb (s : State) (off : Nat) (lsb : Nat) (w : Nat) (x' : Nat) : (State.putFld s off lsb w x').atb = s.atb := rfl
@[simp] theorem State.putFld_srv (s : State) (off : Nat) (lsb : Nat) (w : Nat) (x' : Nat) : (State.putFld s off lsb w x').srv = s.srv := rfl
@[simp] theorem State.putFld_spn (s : State) (off : Nat) (lsb : Nat) (w : Nat) (x' : Nat) : (State.putFld s off lsb w x').spn = s.spn := rfl
@[simp] theorem State.putFld_mdl (s : State) (off : Nat) (lsb : Nat) (w : Nat) (x' : Nat) : (State.putFld s off lsb w x').mdl = s.mdl := rfl
@[simp] theorem State.putFld_ledger (s : State) (off : Nat) (lsb : Nat) (w : Nat) (x' : Nat) : (State.putFld s off lsb w x').ledger = s.ledger := rfl
@[simp] theorem State.putFld_chs (s : State) (off : Nat) (lsb : Nat) (w : Nat) (x' : Nat) : (State.putFld s off lsb w x').chs = s.chs := rfl
@[simp] theorem State.putFld_seq (s : State) (off : Nat) (lsb : Nat) (w : Nat) (x' : Nat) : (State.putFld s off lsb w x').seq = s.seq := rfl
@[simp] theorem State.putFld_rpl (s : State) (off : Nat) (lsb : Nat) (w : Nat) (x' : Nat) : (State.putFld s off lsb w x').rpl = s.rpl := rfl
@[simp] theorem State.putFld_rcv (s : State) (off : Nat) (lsb : Nat) (w : Nat) (x' : Nat) : (State.putFld s off lsb w x').rcv = s.rcv := rfl
@[simp] theorem State.putFld_xtp (s : State) (off : Nat) (lsb : Nat) (w : Nat) (x' : Nat) : (State.putFld s off lsb w x').xtp = s.xtp := rfl
@[simp] theorem State.putFld_cmp (s : State) (off : Nat) (lsb : Nat) (w : Nat) (x' : Nat) : (State.putFld s off lsb w x').cmp = s.cmp := rfl
@[simp] theorem State.putFld_cry (s : State) (off : Nat) (lsb : Nat) (w : Nat) (x' : Nat) : (State.putFld s off lsb w x').cry = s.cry := rfl
@[simp] theorem State.putFld_zon (s : State) (off : Nat) (lsb : Nat) (w : Nat) (x' : Nat) : (State.putFld s off lsb w x').zon = s.zon := rfl
@[simp] theorem State.putFld_recs (s : State) (off : Nat) (lsb : Nat) (w : Nat) (x' : Nat) : (State.putFld s off lsb w x').recs = s.recs := rfl
@[simp] theorem State.putFld_buf (s : State) (off : Nat) (lsb : Nat) (w : Nat) (x' : Nat) : (State.putFld s off lsb w x').buf = s.buf := rfl
@[simp] theorem State.putFld_dma (s : State) (off : Nat) (lsb : Nat) (w : Nat) (x' : Nat) : (State.putFld s off lsb w x').dma = s.dma := rfl
@[simp] theorem State.putFld_map (s : State) (off : Nat) (lsb : Nat) (w : Nat) (x' : Nat) : (State.putFld s off lsb w x').map = s.map := rfl
@[simp] theorem State.putFld_hqi (s : State) (off : Nat) (lsb : Nat) (w : Nat) (x' : Nat) : (State.putFld s off lsb w x').hqi = s.hqi := rfl
@[simp] theorem State.putFld_sec (s : State) (off : Nat) (lsb : Nat) (w : Nat) (x' : Nat) : (State.putFld s off lsb w x').sec = s.sec := rfl
@[simp] theorem State.putFld_fab (s : State) (off : Nat) (lsb : Nat) (w : Nat) (x' : Nat) : (State.putFld s off lsb w x').fab = s.fab := rfl
@[simp] theorem State.putFld_pair (s : State) (off : Nat) (lsb : Nat) (w : Nat) (x' : Nat) : (State.putFld s off lsb w x').pair = s.pair := rfl
@[simp] theorem State.putFld_pfr (s : State) (off : Nat) (lsb : Nat) (w : Nat) (x' : Nat) : (State.putFld s off lsb w x').pfr = s.pfr := rfl
@[simp] theorem State.putFld_flt (s : State) (off : Nat) (lsb : Nat) (w : Nat) (x' : Nat) : (State.putFld s off lsb w x').flt = s.flt := rfl
@[simp] theorem State.putFld_evr (s : State) (off : Nat) (lsb : Nat) (w : Nat) (x' : Nat) : (State.putFld s off lsb w x').evr = s.evr := rfl
@[simp] theorem State.putFld_pmc (s : State) (off : Nat) (lsb : Nat) (w : Nat) (x' : Nat) : (State.putFld s off lsb w x').pmc = s.pmc := rfl
@[simp] theorem State.putFld_pwr (s : State) (off : Nat) (lsb : Nat) (w : Nat) (x' : Nat) : (State.putFld s off lsb w x').pwr = s.pwr := rfl
@[simp] theorem State.putFld_svc (s : State) (off : Nat) (lsb : Nat) (w : Nat) (x' : Nat) : (State.putFld s off lsb w x').svc = s.svc := rfl
@[simp] theorem State.putFld_gen (s : State) (off : Nat) (lsb : Nat) (w : Nat) (x' : Nat) : (State.putFld s off lsb w x').gen = s.gen := rfl
@[simp] theorem State.putFld_nv (s : State) (off : Nat) (lsb : Nat) (w : Nat) (x' : Nat) : (State.putFld s off lsb w x').nv = s.nv := rfl
@[simp] theorem State.putFld_nv2 (s : State) (off : Nat) (lsb : Nat) (w : Nat) (x' : Nat) : (State.putFld s off lsb w x').nv2 = s.nv2 := rfl
@[simp] theorem State.putFld_sent (s : State) (off : Nat) (lsb : Nat) (w : Nat) (x' : Nat) : (State.putFld s off lsb w x').sent = s.sent := rfl
@[simp] theorem State.putFld_free (s : State) (off : Nat) (lsb : Nat) (w : Nat) (x' : Nat) : (State.putFld s off lsb w x').free = s.free := rfl

/-! `State.setW1c` -/

@[simp] theorem State.setW1c_pending (s : State) (off : Nat) (b : Nat) : (State.setW1c s off b).pending = s.pending := rfl
@[simp] theorem State.setW1c_atb (s : State) (off : Nat) (b : Nat) : (State.setW1c s off b).atb = s.atb := rfl
@[simp] theorem State.setW1c_srv (s : State) (off : Nat) (b : Nat) : (State.setW1c s off b).srv = s.srv := rfl
@[simp] theorem State.setW1c_spn (s : State) (off : Nat) (b : Nat) : (State.setW1c s off b).spn = s.spn := rfl
@[simp] theorem State.setW1c_mdl (s : State) (off : Nat) (b : Nat) : (State.setW1c s off b).mdl = s.mdl := rfl
@[simp] theorem State.setW1c_ledger (s : State) (off : Nat) (b : Nat) : (State.setW1c s off b).ledger = s.ledger := rfl
@[simp] theorem State.setW1c_chs (s : State) (off : Nat) (b : Nat) : (State.setW1c s off b).chs = s.chs := rfl
@[simp] theorem State.setW1c_seq (s : State) (off : Nat) (b : Nat) : (State.setW1c s off b).seq = s.seq := rfl
@[simp] theorem State.setW1c_rpl (s : State) (off : Nat) (b : Nat) : (State.setW1c s off b).rpl = s.rpl := rfl
@[simp] theorem State.setW1c_rcv (s : State) (off : Nat) (b : Nat) : (State.setW1c s off b).rcv = s.rcv := rfl
@[simp] theorem State.setW1c_xtp (s : State) (off : Nat) (b : Nat) : (State.setW1c s off b).xtp = s.xtp := rfl
@[simp] theorem State.setW1c_cmp (s : State) (off : Nat) (b : Nat) : (State.setW1c s off b).cmp = s.cmp := rfl
@[simp] theorem State.setW1c_cry (s : State) (off : Nat) (b : Nat) : (State.setW1c s off b).cry = s.cry := rfl
@[simp] theorem State.setW1c_zon (s : State) (off : Nat) (b : Nat) : (State.setW1c s off b).zon = s.zon := rfl
@[simp] theorem State.setW1c_recs (s : State) (off : Nat) (b : Nat) : (State.setW1c s off b).recs = s.recs := rfl
@[simp] theorem State.setW1c_buf (s : State) (off : Nat) (b : Nat) : (State.setW1c s off b).buf = s.buf := rfl
@[simp] theorem State.setW1c_dma (s : State) (off : Nat) (b : Nat) : (State.setW1c s off b).dma = s.dma := rfl
@[simp] theorem State.setW1c_map (s : State) (off : Nat) (b : Nat) : (State.setW1c s off b).map = s.map := rfl
@[simp] theorem State.setW1c_hqi (s : State) (off : Nat) (b : Nat) : (State.setW1c s off b).hqi = s.hqi := rfl
@[simp] theorem State.setW1c_sec (s : State) (off : Nat) (b : Nat) : (State.setW1c s off b).sec = s.sec := rfl
@[simp] theorem State.setW1c_fab (s : State) (off : Nat) (b : Nat) : (State.setW1c s off b).fab = s.fab := rfl
@[simp] theorem State.setW1c_pair (s : State) (off : Nat) (b : Nat) : (State.setW1c s off b).pair = s.pair := rfl
@[simp] theorem State.setW1c_pfr (s : State) (off : Nat) (b : Nat) : (State.setW1c s off b).pfr = s.pfr := rfl
@[simp] theorem State.setW1c_flt (s : State) (off : Nat) (b : Nat) : (State.setW1c s off b).flt = s.flt := rfl
@[simp] theorem State.setW1c_evr (s : State) (off : Nat) (b : Nat) : (State.setW1c s off b).evr = s.evr := rfl
@[simp] theorem State.setW1c_pmc (s : State) (off : Nat) (b : Nat) : (State.setW1c s off b).pmc = s.pmc := rfl
@[simp] theorem State.setW1c_pwr (s : State) (off : Nat) (b : Nat) : (State.setW1c s off b).pwr = s.pwr := rfl
@[simp] theorem State.setW1c_svc (s : State) (off : Nat) (b : Nat) : (State.setW1c s off b).svc = s.svc := rfl
@[simp] theorem State.setW1c_gen (s : State) (off : Nat) (b : Nat) : (State.setW1c s off b).gen = s.gen := rfl
@[simp] theorem State.setW1c_nv (s : State) (off : Nat) (b : Nat) : (State.setW1c s off b).nv = s.nv := rfl
@[simp] theorem State.setW1c_nv2 (s : State) (off : Nat) (b : Nat) : (State.setW1c s off b).nv2 = s.nv2 := rfl
@[simp] theorem State.setW1c_sent (s : State) (off : Nat) (b : Nat) : (State.setW1c s off b).sent = s.sent := rfl
@[simp] theorem State.setW1c_free (s : State) (off : Nat) (b : Nat) : (State.setW1c s off b).free = s.free := rfl

/-! `State.draw` -/

@[simp] theorem State.draw_pending (s : State) : (State.draw s).pending = s.pending := rfl
@[simp] theorem State.draw_regs (s : State) : (State.draw s).regs = s.regs := rfl
@[simp] theorem State.draw_atb (s : State) : (State.draw s).atb = s.atb := rfl
@[simp] theorem State.draw_srv (s : State) : (State.draw s).srv = s.srv := rfl
@[simp] theorem State.draw_spn (s : State) : (State.draw s).spn = s.spn := rfl
@[simp] theorem State.draw_mdl (s : State) : (State.draw s).mdl = s.mdl := rfl
@[simp] theorem State.draw_ledger (s : State) : (State.draw s).ledger = s.ledger := rfl
@[simp] theorem State.draw_chs (s : State) : (State.draw s).chs = s.chs := rfl
@[simp] theorem State.draw_seq (s : State) : (State.draw s).seq = s.seq := rfl
@[simp] theorem State.draw_rpl (s : State) : (State.draw s).rpl = s.rpl := rfl
@[simp] theorem State.draw_rcv (s : State) : (State.draw s).rcv = s.rcv := rfl
@[simp] theorem State.draw_xtp (s : State) : (State.draw s).xtp = s.xtp := rfl
@[simp] theorem State.draw_cmp (s : State) : (State.draw s).cmp = s.cmp := rfl
@[simp] theorem State.draw_cry (s : State) : (State.draw s).cry = s.cry := rfl
@[simp] theorem State.draw_zon (s : State) : (State.draw s).zon = s.zon := rfl
@[simp] theorem State.draw_recs (s : State) : (State.draw s).recs = s.recs := rfl
@[simp] theorem State.draw_buf (s : State) : (State.draw s).buf = s.buf := rfl
@[simp] theorem State.draw_dma (s : State) : (State.draw s).dma = s.dma := rfl
@[simp] theorem State.draw_map (s : State) : (State.draw s).map = s.map := rfl
@[simp] theorem State.draw_hqi (s : State) : (State.draw s).hqi = s.hqi := rfl
@[simp] theorem State.draw_sec (s : State) : (State.draw s).sec = s.sec := rfl
@[simp] theorem State.draw_fab (s : State) : (State.draw s).fab = s.fab := rfl
@[simp] theorem State.draw_pair (s : State) : (State.draw s).pair = s.pair := rfl
@[simp] theorem State.draw_pfr (s : State) : (State.draw s).pfr = s.pfr := rfl
@[simp] theorem State.draw_flt (s : State) : (State.draw s).flt = s.flt := rfl
@[simp] theorem State.draw_evr (s : State) : (State.draw s).evr = s.evr := rfl
@[simp] theorem State.draw_pmc (s : State) : (State.draw s).pmc = s.pmc := rfl
@[simp] theorem State.draw_pwr (s : State) : (State.draw s).pwr = s.pwr := rfl
@[simp] theorem State.draw_svc (s : State) : (State.draw s).svc = s.svc := rfl
@[simp] theorem State.draw_gen (s : State) : (State.draw s).gen = s.gen := rfl
@[simp] theorem State.draw_nv (s : State) : (State.draw s).nv = s.nv := rfl
@[simp] theorem State.draw_nv2 (s : State) : (State.draw s).nv2 = s.nv2 := rfl
@[simp] theorem State.draw_sent (s : State) : (State.draw s).sent = s.sent := rfl

/-! `State.send` -/

@[simp] theorem State.send_pending (s : State) (o' : Out) : (State.send s o').pending = s.pending := rfl
@[simp] theorem State.send_regs (s : State) (o' : Out) : (State.send s o').regs = s.regs := rfl
@[simp] theorem State.send_atb (s : State) (o' : Out) : (State.send s o').atb = s.atb := rfl
@[simp] theorem State.send_srv (s : State) (o' : Out) : (State.send s o').srv = s.srv := rfl
@[simp] theorem State.send_spn (s : State) (o' : Out) : (State.send s o').spn = s.spn := rfl
@[simp] theorem State.send_mdl (s : State) (o' : Out) : (State.send s o').mdl = s.mdl := rfl
@[simp] theorem State.send_ledger (s : State) (o' : Out) : (State.send s o').ledger = s.ledger := rfl
@[simp] theorem State.send_chs (s : State) (o' : Out) : (State.send s o').chs = s.chs := rfl
@[simp] theorem State.send_seq (s : State) (o' : Out) : (State.send s o').seq = s.seq := rfl
@[simp] theorem State.send_rpl (s : State) (o' : Out) : (State.send s o').rpl = s.rpl := rfl
@[simp] theorem State.send_rcv (s : State) (o' : Out) : (State.send s o').rcv = s.rcv := rfl
@[simp] theorem State.send_xtp (s : State) (o' : Out) : (State.send s o').xtp = s.xtp := rfl
@[simp] theorem State.send_cmp (s : State) (o' : Out) : (State.send s o').cmp = s.cmp := rfl
@[simp] theorem State.send_cry (s : State) (o' : Out) : (State.send s o').cry = s.cry := rfl
@[simp] theorem State.send_zon (s : State) (o' : Out) : (State.send s o').zon = s.zon := rfl
@[simp] theorem State.send_recs (s : State) (o' : Out) : (State.send s o').recs = s.recs := rfl
@[simp] theorem State.send_buf (s : State) (o' : Out) : (State.send s o').buf = s.buf := rfl
@[simp] theorem State.send_dma (s : State) (o' : Out) : (State.send s o').dma = s.dma := rfl
@[simp] theorem State.send_map (s : State) (o' : Out) : (State.send s o').map = s.map := rfl
@[simp] theorem State.send_hqi (s : State) (o' : Out) : (State.send s o').hqi = s.hqi := rfl
@[simp] theorem State.send_sec (s : State) (o' : Out) : (State.send s o').sec = s.sec := rfl
@[simp] theorem State.send_fab (s : State) (o' : Out) : (State.send s o').fab = s.fab := rfl
@[simp] theorem State.send_pair (s : State) (o' : Out) : (State.send s o').pair = s.pair := rfl
@[simp] theorem State.send_pfr (s : State) (o' : Out) : (State.send s o').pfr = s.pfr := rfl
@[simp] theorem State.send_flt (s : State) (o' : Out) : (State.send s o').flt = s.flt := rfl
@[simp] theorem State.send_evr (s : State) (o' : Out) : (State.send s o').evr = s.evr := rfl
@[simp] theorem State.send_pmc (s : State) (o' : Out) : (State.send s o').pmc = s.pmc := rfl
@[simp] theorem State.send_pwr (s : State) (o' : Out) : (State.send s o').pwr = s.pwr := rfl
@[simp] theorem State.send_svc (s : State) (o' : Out) : (State.send s o').svc = s.svc := rfl
@[simp] theorem State.send_gen (s : State) (o' : Out) : (State.send s o').gen = s.gen := rfl
@[simp] theorem State.send_nv (s : State) (o' : Out) : (State.send s o').nv = s.nv := rfl
@[simp] theorem State.send_nv2 (s : State) (o' : Out) : (State.send s o').nv2 = s.nv2 := rfl
@[simp] theorem State.send_free (s : State) (o' : Out) : (State.send s o').free = s.free := rfl

/-! `State.toAngle` -/

@[simp] theorem State.toAngle_pending (s : State) (a1 : Nat) : (State.toAngle s a1).pending = s.pending := rfl
@[simp] theorem State.toAngle_regs (s : State) (a1 : Nat) : (State.toAngle s a1).regs = s.regs := rfl
@[simp] theorem State.toAngle_srv (s : State) (a1 : Nat) : (State.toAngle s a1).srv = s.srv := rfl
@[simp] theorem State.toAngle_spn (s : State) (a1 : Nat) : (State.toAngle s a1).spn = s.spn := rfl
@[simp] theorem State.toAngle_mdl (s : State) (a1 : Nat) : (State.toAngle s a1).mdl = s.mdl := rfl
@[simp] theorem State.toAngle_ledger (s : State) (a1 : Nat) : (State.toAngle s a1).ledger = s.ledger := rfl
@[simp] theorem State.toAngle_chs (s : State) (a1 : Nat) : (State.toAngle s a1).chs = s.chs := rfl
@[simp] theorem State.toAngle_seq (s : State) (a1 : Nat) : (State.toAngle s a1).seq = s.seq := rfl
@[simp] theorem State.toAngle_rpl (s : State) (a1 : Nat) : (State.toAngle s a1).rpl = s.rpl := rfl
@[simp] theorem State.toAngle_rcv (s : State) (a1 : Nat) : (State.toAngle s a1).rcv = s.rcv := rfl
@[simp] theorem State.toAngle_xtp (s : State) (a1 : Nat) : (State.toAngle s a1).xtp = s.xtp := rfl
@[simp] theorem State.toAngle_cmp (s : State) (a1 : Nat) : (State.toAngle s a1).cmp = s.cmp := rfl
@[simp] theorem State.toAngle_cry (s : State) (a1 : Nat) : (State.toAngle s a1).cry = s.cry := rfl
@[simp] theorem State.toAngle_zon (s : State) (a1 : Nat) : (State.toAngle s a1).zon = s.zon := rfl
@[simp] theorem State.toAngle_recs (s : State) (a1 : Nat) : (State.toAngle s a1).recs = s.recs := rfl
@[simp] theorem State.toAngle_buf (s : State) (a1 : Nat) : (State.toAngle s a1).buf = s.buf := rfl
@[simp] theorem State.toAngle_dma (s : State) (a1 : Nat) : (State.toAngle s a1).dma = s.dma := rfl
@[simp] theorem State.toAngle_map (s : State) (a1 : Nat) : (State.toAngle s a1).map = s.map := rfl
@[simp] theorem State.toAngle_hqi (s : State) (a1 : Nat) : (State.toAngle s a1).hqi = s.hqi := rfl
@[simp] theorem State.toAngle_sec (s : State) (a1 : Nat) : (State.toAngle s a1).sec = s.sec := rfl
@[simp] theorem State.toAngle_fab (s : State) (a1 : Nat) : (State.toAngle s a1).fab = s.fab := rfl
@[simp] theorem State.toAngle_pair (s : State) (a1 : Nat) : (State.toAngle s a1).pair = s.pair := rfl
@[simp] theorem State.toAngle_pfr (s : State) (a1 : Nat) : (State.toAngle s a1).pfr = s.pfr := rfl
@[simp] theorem State.toAngle_flt (s : State) (a1 : Nat) : (State.toAngle s a1).flt = s.flt := rfl
@[simp] theorem State.toAngle_evr (s : State) (a1 : Nat) : (State.toAngle s a1).evr = s.evr := rfl
@[simp] theorem State.toAngle_pmc (s : State) (a1 : Nat) : (State.toAngle s a1).pmc = s.pmc := rfl
@[simp] theorem State.toAngle_pwr (s : State) (a1 : Nat) : (State.toAngle s a1).pwr = s.pwr := rfl
@[simp] theorem State.toAngle_svc (s : State) (a1 : Nat) : (State.toAngle s a1).svc = s.svc := rfl
@[simp] theorem State.toAngle_gen (s : State) (a1 : Nat) : (State.toAngle s a1).gen = s.gen := rfl
@[simp] theorem State.toAngle_nv (s : State) (a1 : Nat) : (State.toAngle s a1).nv = s.nv := rfl
@[simp] theorem State.toAngle_nv2 (s : State) (a1 : Nat) : (State.toAngle s a1).nv2 = s.nv2 := rfl
@[simp] theorem State.toAngle_sent (s : State) (a1 : Nat) : (State.toAngle s a1).sent = s.sent := rfl
@[simp] theorem State.toAngle_free (s : State) (a1 : Nat) : (State.toAngle s a1).free = s.free := rfl

/-! `State.setBank` -/

@[simp] theorem State.setBank_pending (s : State) (k' : Nat) (l : List Slot) : (State.setBank s k' l).pending = s.pending := rfl
@[simp] theorem State.setBank_regs (s : State) (k' : Nat) (l : List Slot) : (State.setBank s k' l).regs = s.regs := rfl
@[simp] theorem State.setBank_atb (s : State) (k' : Nat) (l : List Slot) : (State.setBank s k' l).atb = s.atb := rfl
@[simp] theorem State.setBank_srv (s : State) (k' : Nat) (l : List Slot) : (State.setBank s k' l).srv = s.srv := rfl
@[simp] theorem State.setBank_spn (s : State) (k' : Nat) (l : List Slot) : (State.setBank s k' l).spn = s.spn := rfl
@[simp] theorem State.setBank_mdl (s : State) (k' : Nat) (l : List Slot) : (State.setBank s k' l).mdl = s.mdl := rfl
@[simp] theorem State.setBank_ledger (s : State) (k' : Nat) (l : List Slot) : (State.setBank s k' l).ledger = s.ledger := rfl
@[simp] theorem State.setBank_chs (s : State) (k' : Nat) (l : List Slot) : (State.setBank s k' l).chs = s.chs := rfl
@[simp] theorem State.setBank_rpl (s : State) (k' : Nat) (l : List Slot) : (State.setBank s k' l).rpl = s.rpl := rfl
@[simp] theorem State.setBank_rcv (s : State) (k' : Nat) (l : List Slot) : (State.setBank s k' l).rcv = s.rcv := rfl
@[simp] theorem State.setBank_xtp (s : State) (k' : Nat) (l : List Slot) : (State.setBank s k' l).xtp = s.xtp := rfl
@[simp] theorem State.setBank_cmp (s : State) (k' : Nat) (l : List Slot) : (State.setBank s k' l).cmp = s.cmp := rfl
@[simp] theorem State.setBank_cry (s : State) (k' : Nat) (l : List Slot) : (State.setBank s k' l).cry = s.cry := rfl
@[simp] theorem State.setBank_zon (s : State) (k' : Nat) (l : List Slot) : (State.setBank s k' l).zon = s.zon := rfl
@[simp] theorem State.setBank_recs (s : State) (k' : Nat) (l : List Slot) : (State.setBank s k' l).recs = s.recs := rfl
@[simp] theorem State.setBank_buf (s : State) (k' : Nat) (l : List Slot) : (State.setBank s k' l).buf = s.buf := rfl
@[simp] theorem State.setBank_dma (s : State) (k' : Nat) (l : List Slot) : (State.setBank s k' l).dma = s.dma := rfl
@[simp] theorem State.setBank_map (s : State) (k' : Nat) (l : List Slot) : (State.setBank s k' l).map = s.map := rfl
@[simp] theorem State.setBank_hqi (s : State) (k' : Nat) (l : List Slot) : (State.setBank s k' l).hqi = s.hqi := rfl
@[simp] theorem State.setBank_sec (s : State) (k' : Nat) (l : List Slot) : (State.setBank s k' l).sec = s.sec := rfl
@[simp] theorem State.setBank_fab (s : State) (k' : Nat) (l : List Slot) : (State.setBank s k' l).fab = s.fab := rfl
@[simp] theorem State.setBank_pair (s : State) (k' : Nat) (l : List Slot) : (State.setBank s k' l).pair = s.pair := rfl
@[simp] theorem State.setBank_pfr (s : State) (k' : Nat) (l : List Slot) : (State.setBank s k' l).pfr = s.pfr := rfl
@[simp] theorem State.setBank_flt (s : State) (k' : Nat) (l : List Slot) : (State.setBank s k' l).flt = s.flt := rfl
@[simp] theorem State.setBank_evr (s : State) (k' : Nat) (l : List Slot) : (State.setBank s k' l).evr = s.evr := rfl
@[simp] theorem State.setBank_pmc (s : State) (k' : Nat) (l : List Slot) : (State.setBank s k' l).pmc = s.pmc := rfl
@[simp] theorem State.setBank_pwr (s : State) (k' : Nat) (l : List Slot) : (State.setBank s k' l).pwr = s.pwr := rfl
@[simp] theorem State.setBank_svc (s : State) (k' : Nat) (l : List Slot) : (State.setBank s k' l).svc = s.svc := rfl
@[simp] theorem State.setBank_gen (s : State) (k' : Nat) (l : List Slot) : (State.setBank s k' l).gen = s.gen := rfl
@[simp] theorem State.setBank_nv (s : State) (k' : Nat) (l : List Slot) : (State.setBank s k' l).nv = s.nv := rfl
@[simp] theorem State.setBank_nv2 (s : State) (k' : Nat) (l : List Slot) : (State.setBank s k' l).nv2 = s.nv2 := rfl
@[simp] theorem State.setBank_sent (s : State) (k' : Nat) (l : List Slot) : (State.setBank s k' l).sent = s.sent := rfl
@[simp] theorem State.setBank_free (s : State) (k' : Nat) (l : List Slot) : (State.setBank s k' l).free = s.free := rfl

/-! `State.modTx` -/

@[simp] theorem State.modTx_pending (s : State) (d : Nat) (f : E2eTx → E2eTx) : (State.modTx s d f).pending = s.pending := rfl
@[simp] theorem State.modTx_regs (s : State) (d : Nat) (f : E2eTx → E2eTx) : (State.modTx s d f).regs = s.regs := rfl
@[simp] theorem State.modTx_atb (s : State) (d : Nat) (f : E2eTx → E2eTx) : (State.modTx s d f).atb = s.atb := rfl
@[simp] theorem State.modTx_srv (s : State) (d : Nat) (f : E2eTx → E2eTx) : (State.modTx s d f).srv = s.srv := rfl
@[simp] theorem State.modTx_spn (s : State) (d : Nat) (f : E2eTx → E2eTx) : (State.modTx s d f).spn = s.spn := rfl
@[simp] theorem State.modTx_mdl (s : State) (d : Nat) (f : E2eTx → E2eTx) : (State.modTx s d f).mdl = s.mdl := rfl
@[simp] theorem State.modTx_ledger (s : State) (d : Nat) (f : E2eTx → E2eTx) : (State.modTx s d f).ledger = s.ledger := rfl
@[simp] theorem State.modTx_chs (s : State) (d : Nat) (f : E2eTx → E2eTx) : (State.modTx s d f).chs = s.chs := rfl
@[simp] theorem State.modTx_seq (s : State) (d : Nat) (f : E2eTx → E2eTx) : (State.modTx s d f).seq = s.seq := rfl
@[simp] theorem State.modTx_rpl (s : State) (d : Nat) (f : E2eTx → E2eTx) : (State.modTx s d f).rpl = s.rpl := rfl
@[simp] theorem State.modTx_rcv (s : State) (d : Nat) (f : E2eTx → E2eTx) : (State.modTx s d f).rcv = s.rcv := rfl
@[simp] theorem State.modTx_xtp (s : State) (d : Nat) (f : E2eTx → E2eTx) : (State.modTx s d f).xtp = s.xtp := rfl
@[simp] theorem State.modTx_cmp (s : State) (d : Nat) (f : E2eTx → E2eTx) : (State.modTx s d f).cmp = s.cmp := rfl
@[simp] theorem State.modTx_cry (s : State) (d : Nat) (f : E2eTx → E2eTx) : (State.modTx s d f).cry = s.cry := rfl
@[simp] theorem State.modTx_zon (s : State) (d : Nat) (f : E2eTx → E2eTx) : (State.modTx s d f).zon = s.zon := rfl
@[simp] theorem State.modTx_recs (s : State) (d : Nat) (f : E2eTx → E2eTx) : (State.modTx s d f).recs = s.recs := rfl
@[simp] theorem State.modTx_buf (s : State) (d : Nat) (f : E2eTx → E2eTx) : (State.modTx s d f).buf = s.buf := rfl
@[simp] theorem State.modTx_dma (s : State) (d : Nat) (f : E2eTx → E2eTx) : (State.modTx s d f).dma = s.dma := rfl
@[simp] theorem State.modTx_map (s : State) (d : Nat) (f : E2eTx → E2eTx) : (State.modTx s d f).map = s.map := rfl
@[simp] theorem State.modTx_hqi (s : State) (d : Nat) (f : E2eTx → E2eTx) : (State.modTx s d f).hqi = s.hqi := rfl
@[simp] theorem State.modTx_sec (s : State) (d : Nat) (f : E2eTx → E2eTx) : (State.modTx s d f).sec = s.sec := rfl
@[simp] theorem State.modTx_pair (s : State) (d : Nat) (f : E2eTx → E2eTx) : (State.modTx s d f).pair = s.pair := rfl
@[simp] theorem State.modTx_pfr (s : State) (d : Nat) (f : E2eTx → E2eTx) : (State.modTx s d f).pfr = s.pfr := rfl
@[simp] theorem State.modTx_flt (s : State) (d : Nat) (f : E2eTx → E2eTx) : (State.modTx s d f).flt = s.flt := rfl
@[simp] theorem State.modTx_evr (s : State) (d : Nat) (f : E2eTx → E2eTx) : (State.modTx s d f).evr = s.evr := rfl
@[simp] theorem State.modTx_pmc (s : State) (d : Nat) (f : E2eTx → E2eTx) : (State.modTx s d f).pmc = s.pmc := rfl
@[simp] theorem State.modTx_pwr (s : State) (d : Nat) (f : E2eTx → E2eTx) : (State.modTx s d f).pwr = s.pwr := rfl
@[simp] theorem State.modTx_svc (s : State) (d : Nat) (f : E2eTx → E2eTx) : (State.modTx s d f).svc = s.svc := rfl
@[simp] theorem State.modTx_gen (s : State) (d : Nat) (f : E2eTx → E2eTx) : (State.modTx s d f).gen = s.gen := rfl
@[simp] theorem State.modTx_nv (s : State) (d : Nat) (f : E2eTx → E2eTx) : (State.modTx s d f).nv = s.nv := rfl
@[simp] theorem State.modTx_nv2 (s : State) (d : Nat) (f : E2eTx → E2eTx) : (State.modTx s d f).nv2 = s.nv2 := rfl
@[simp] theorem State.modTx_sent (s : State) (d : Nat) (f : E2eTx → E2eTx) : (State.modTx s d f).sent = s.sent := rfl
@[simp] theorem State.modTx_free (s : State) (d : Nat) (f : E2eTx → E2eTx) : (State.modTx s d f).free = s.free := rfl
@[simp] theorem State.modTx_same (s : State) (d : Nat) (f : E2eTx → E2eTx) : (s.modTx d f).tx d = f (s.tx d) := tget_tmod_same _ _ _ _
theorem State.modTx_other (s : State) (d : Nat) (f : E2eTx → E2eTx) {m : Nat} (h : m ≠ d) : (s.modTx d f).tx m = s.tx m := tget_tmod_other _ _ _ h

/-! `State.accClear` -/

@[simp] theorem State.accClear_pending (s : State) (k' : Nat) : (State.accClear s k').pending = s.pending := rfl
@[simp] theorem State.accClear_regs (s : State) (k' : Nat) : (State.accClear s k').regs = s.regs := rfl
@[simp] theorem State.accClear_atb (s : State) (k' : Nat) : (State.accClear s k').atb = s.atb := rfl
@[simp] theorem State.accClear_srv (s : State) (k' : Nat) : (State.accClear s k').srv = s.srv := rfl
@[simp] theorem State.accClear_spn (s : State) (k' : Nat) : (State.accClear s k').spn = s.spn := rfl
@[simp] theorem State.accClear_mdl (s : State) (k' : Nat) : (State.accClear s k').mdl = s.mdl := rfl
@[simp] theorem State.accClear_ledger (s : State) (k' : Nat) : (State.accClear s k').ledger = s.ledger := rfl
@[simp] theorem State.accClear_chs (s : State) (k' : Nat) : (State.accClear s k').chs = s.chs := rfl
@[simp] theorem State.accClear_seq (s : State) (k' : Nat) : (State.accClear s k').seq = s.seq := rfl
@[simp] theorem State.accClear_rpl (s : State) (k' : Nat) : (State.accClear s k').rpl = s.rpl := rfl
@[simp] theorem State.accClear_rcv (s : State) (k' : Nat) : (State.accClear s k').rcv = s.rcv := rfl
@[simp] theorem State.accClear_xtp (s : State) (k' : Nat) : (State.accClear s k').xtp = s.xtp := rfl
@[simp] theorem State.accClear_cmp (s : State) (k' : Nat) : (State.accClear s k').cmp = s.cmp := rfl
@[simp] theorem State.accClear_cry (s : State) (k' : Nat) : (State.accClear s k').cry = s.cry := rfl
@[simp] theorem State.accClear_zon (s : State) (k' : Nat) : (State.accClear s k').zon = s.zon := rfl
@[simp] theorem State.accClear_recs (s : State) (k' : Nat) : (State.accClear s k').recs = s.recs := rfl
@[simp] theorem State.accClear_dma (s : State) (k' : Nat) : (State.accClear s k').dma = s.dma := rfl
@[simp] theorem State.accClear_map (s : State) (k' : Nat) : (State.accClear s k').map = s.map := rfl
@[simp] theorem State.accClear_hqi (s : State) (k' : Nat) : (State.accClear s k').hqi = s.hqi := rfl
@[simp] theorem State.accClear_sec (s : State) (k' : Nat) : (State.accClear s k').sec = s.sec := rfl
@[simp] theorem State.accClear_fab (s : State) (k' : Nat) : (State.accClear s k').fab = s.fab := rfl
@[simp] theorem State.accClear_pair (s : State) (k' : Nat) : (State.accClear s k').pair = s.pair := rfl
@[simp] theorem State.accClear_pfr (s : State) (k' : Nat) : (State.accClear s k').pfr = s.pfr := rfl
@[simp] theorem State.accClear_flt (s : State) (k' : Nat) : (State.accClear s k').flt = s.flt := rfl
@[simp] theorem State.accClear_evr (s : State) (k' : Nat) : (State.accClear s k').evr = s.evr := rfl
@[simp] theorem State.accClear_pmc (s : State) (k' : Nat) : (State.accClear s k').pmc = s.pmc := rfl
@[simp] theorem State.accClear_pwr (s : State) (k' : Nat) : (State.accClear s k').pwr = s.pwr := rfl
@[simp] theorem State.accClear_svc (s : State) (k' : Nat) : (State.accClear s k').svc = s.svc := rfl
@[simp] theorem State.accClear_gen (s : State) (k' : Nat) : (State.accClear s k').gen = s.gen := rfl
@[simp] theorem State.accClear_nv (s : State) (k' : Nat) : (State.accClear s k').nv = s.nv := rfl
@[simp] theorem State.accClear_nv2 (s : State) (k' : Nat) : (State.accClear s k').nv2 = s.nv2 := rfl
@[simp] theorem State.accClear_sent (s : State) (k' : Nat) : (State.accClear s k').sent = s.sent := rfl
@[simp] theorem State.accClear_free (s : State) (k' : Nat) : (State.accClear s k').free = s.free := rfl

/-! `State.count` -/

@[simp] theorem State.count_pending (s : State) (n : Nat) (k' : Nat) : (State.count s n k').pending = s.pending := rfl
@[simp] theorem State.count_regs (s : State) (n : Nat) (k' : Nat) : (State.count s n k').regs = s.regs := rfl
@[simp] theorem State.count_atb (s : State) (n : Nat) (k' : Nat) : (State.count s n k').atb = s.atb := rfl
@[simp] theorem State.count_srv (s : State) (n : Nat) (k' : Nat) : (State.count s n k').srv = s.srv := rfl
@[simp] theorem State.count_spn (s : State) (n : Nat) (k' : Nat) : (State.count s n k').spn = s.spn := rfl
@[simp] theorem State.count_mdl (s : State) (n : Nat) (k' : Nat) : (State.count s n k').mdl = s.mdl := rfl
@[simp] theorem State.count_ledger (s : State) (n : Nat) (k' : Nat) : (State.count s n k').ledger = s.ledger := rfl
@[simp] theorem State.count_chs (s : State) (n : Nat) (k' : Nat) : (State.count s n k').chs = s.chs := rfl
@[simp] theorem State.count_seq (s : State) (n : Nat) (k' : Nat) : (State.count s n k').seq = s.seq := rfl
@[simp] theorem State.count_rpl (s : State) (n : Nat) (k' : Nat) : (State.count s n k').rpl = s.rpl := rfl
@[simp] theorem State.count_rcv (s : State) (n : Nat) (k' : Nat) : (State.count s n k').rcv = s.rcv := rfl
@[simp] theorem State.count_xtp (s : State) (n : Nat) (k' : Nat) : (State.count s n k').xtp = s.xtp := rfl
@[simp] theorem State.count_cmp (s : State) (n : Nat) (k' : Nat) : (State.count s n k').cmp = s.cmp := rfl
@[simp] theorem State.count_cry (s : State) (n : Nat) (k' : Nat) : (State.count s n k').cry = s.cry := rfl
@[simp] theorem State.count_zon (s : State) (n : Nat) (k' : Nat) : (State.count s n k').zon = s.zon := rfl
@[simp] theorem State.count_recs (s : State) (n : Nat) (k' : Nat) : (State.count s n k').recs = s.recs := rfl
@[simp] theorem State.count_buf (s : State) (n : Nat) (k' : Nat) : (State.count s n k').buf = s.buf := rfl
@[simp] theorem State.count_dma (s : State) (n : Nat) (k' : Nat) : (State.count s n k').dma = s.dma := rfl
@[simp] theorem State.count_map (s : State) (n : Nat) (k' : Nat) : (State.count s n k').map = s.map := rfl
@[simp] theorem State.count_hqi (s : State) (n : Nat) (k' : Nat) : (State.count s n k').hqi = s.hqi := rfl
@[simp] theorem State.count_sec (s : State) (n : Nat) (k' : Nat) : (State.count s n k').sec = s.sec := rfl
@[simp] theorem State.count_fab (s : State) (n : Nat) (k' : Nat) : (State.count s n k').fab = s.fab := rfl
@[simp] theorem State.count_pair (s : State) (n : Nat) (k' : Nat) : (State.count s n k').pair = s.pair := rfl
@[simp] theorem State.count_pfr (s : State) (n : Nat) (k' : Nat) : (State.count s n k').pfr = s.pfr := rfl
@[simp] theorem State.count_flt (s : State) (n : Nat) (k' : Nat) : (State.count s n k').flt = s.flt := rfl
@[simp] theorem State.count_evr (s : State) (n : Nat) (k' : Nat) : (State.count s n k').evr = s.evr := rfl
@[simp] theorem State.count_pwr (s : State) (n : Nat) (k' : Nat) : (State.count s n k').pwr = s.pwr := rfl
@[simp] theorem State.count_svc (s : State) (n : Nat) (k' : Nat) : (State.count s n k').svc = s.svc := rfl
@[simp] theorem State.count_gen (s : State) (n : Nat) (k' : Nat) : (State.count s n k').gen = s.gen := rfl
@[simp] theorem State.count_nv (s : State) (n : Nat) (k' : Nat) : (State.count s n k').nv = s.nv := rfl
@[simp] theorem State.count_nv2 (s : State) (n : Nat) (k' : Nat) : (State.count s n k').nv2 = s.nv2 := rfl
@[simp] theorem State.count_sent (s : State) (n : Nat) (k' : Nat) : (State.count s n k').sent = s.sent := rfl
@[simp] theorem State.count_free (s : State) (n : Nat) (k' : Nat) : (State.count s n k').free = s.free := rfl

/-! `State.dropped` -/

@[simp] theorem State.dropped_pending (s : State) (sev : Nat) : (State.dropped s sev).pending = s.pending := rfl
@[simp] theorem State.dropped_regs (s : State) (sev : Nat) : (State.dropped s sev).regs = s.regs := rfl
@[simp] theorem State.dropped_atb (s : State) (sev : Nat) : (State.dropped s sev).atb = s.atb := rfl
@[simp] theorem State.dropped_srv (s : State) (sev : Nat) : (State.dropped s sev).srv = s.srv := rfl
@[simp] theorem State.dropped_spn (s : State) (sev : Nat) : (State.dropped s sev).spn = s.spn := rfl
@[simp] theorem State.dropped_mdl (s : State) (sev : Nat) : (State.dropped s sev).mdl = s.mdl := rfl
@[simp] theorem State.dropped_ledger (s : State) (sev : Nat) : (State.dropped s sev).ledger = s.ledger := rfl
@[simp] theorem State.dropped_chs (s : State) (sev : Nat) : (State.dropped s sev).chs = s.chs := rfl
@[simp] theorem State.dropped_seq (s : State) (sev : Nat) : (State.dropped s sev).seq = s.seq := rfl
@[simp] theorem State.dropped_rpl (s : State) (sev : Nat) : (State.dropped s sev).rpl = s.rpl := rfl
@[simp] theorem State.dropped_rcv (s : State) (sev : Nat) : (State.dropped s sev).rcv = s.rcv := rfl
@[simp] theorem State.dropped_xtp (s : State) (sev : Nat) : (State.dropped s sev).xtp = s.xtp := rfl
@[simp] theorem State.dropped_cmp (s : State) (sev : Nat) : (State.dropped s sev).cmp = s.cmp := rfl
@[simp] theorem State.dropped_cry (s : State) (sev : Nat) : (State.dropped s sev).cry = s.cry := rfl
@[simp] theorem State.dropped_zon (s : State) (sev : Nat) : (State.dropped s sev).zon = s.zon := rfl
@[simp] theorem State.dropped_recs (s : State) (sev : Nat) : (State.dropped s sev).recs = s.recs := rfl
@[simp] theorem State.dropped_buf (s : State) (sev : Nat) : (State.dropped s sev).buf = s.buf := rfl
@[simp] theorem State.dropped_dma (s : State) (sev : Nat) : (State.dropped s sev).dma = s.dma := rfl
@[simp] theorem State.dropped_map (s : State) (sev : Nat) : (State.dropped s sev).map = s.map := rfl
@[simp] theorem State.dropped_hqi (s : State) (sev : Nat) : (State.dropped s sev).hqi = s.hqi := rfl
@[simp] theorem State.dropped_sec (s : State) (sev : Nat) : (State.dropped s sev).sec = s.sec := rfl
@[simp] theorem State.dropped_fab (s : State) (sev : Nat) : (State.dropped s sev).fab = s.fab := rfl
@[simp] theorem State.dropped_pair (s : State) (sev : Nat) : (State.dropped s sev).pair = s.pair := rfl
@[simp] theorem State.dropped_pfr (s : State) (sev : Nat) : (State.dropped s sev).pfr = s.pfr := rfl
@[simp] theorem State.dropped_flt (s : State) (sev : Nat) : (State.dropped s sev).flt = s.flt := rfl
@[simp] theorem State.dropped_pwr (s : State) (sev : Nat) : (State.dropped s sev).pwr = s.pwr := rfl
@[simp] theorem State.dropped_svc (s : State) (sev : Nat) : (State.dropped s sev).svc = s.svc := rfl
@[simp] theorem State.dropped_gen (s : State) (sev : Nat) : (State.dropped s sev).gen = s.gen := rfl
@[simp] theorem State.dropped_nv (s : State) (sev : Nat) : (State.dropped s sev).nv = s.nv := rfl
@[simp] theorem State.dropped_nv2 (s : State) (sev : Nat) : (State.dropped s sev).nv2 = s.nv2 := rfl
@[simp] theorem State.dropped_sent (s : State) (sev : Nat) : (State.dropped s sev).sent = s.sent := rfl
@[simp] theorem State.dropped_free (s : State) (sev : Nat) : (State.dropped s sev).free = s.free := rfl

/-! `State.lostEvent` -/

@[simp] theorem State.lostEvent_pending (s : State) (e' : Ev) : (State.lostEvent s e').pending = s.pending := rfl
@[simp] theorem State.lostEvent_regs (s : State) (e' : Ev) : (State.lostEvent s e').regs = s.regs := rfl
@[simp] theorem State.lostEvent_atb (s : State) (e' : Ev) : (State.lostEvent s e').atb = s.atb := rfl
@[simp] theorem State.lostEvent_srv (s : State) (e' : Ev) : (State.lostEvent s e').srv = s.srv := rfl
@[simp] theorem State.lostEvent_spn (s : State) (e' : Ev) : (State.lostEvent s e').spn = s.spn := rfl
@[simp] theorem State.lostEvent_mdl (s : State) (e' : Ev) : (State.lostEvent s e').mdl = s.mdl := rfl
@[simp] theorem State.lostEvent_ledger (s : State) (e' : Ev) : (State.lostEvent s e').ledger = s.ledger := rfl
@[simp] theorem State.lostEvent_chs (s : State) (e' : Ev) : (State.lostEvent s e').chs = s.chs := rfl
@[simp] theorem State.lostEvent_seq (s : State) (e' : Ev) : (State.lostEvent s e').seq = s.seq := rfl
@[simp] theorem State.lostEvent_rpl (s : State) (e' : Ev) : (State.lostEvent s e').rpl = s.rpl := rfl
@[simp] theorem State.lostEvent_rcv (s : State) (e' : Ev) : (State.lostEvent s e').rcv = s.rcv := rfl
@[simp] theorem State.lostEvent_xtp (s : State) (e' : Ev) : (State.lostEvent s e').xtp = s.xtp := rfl
@[simp] theorem State.lostEvent_cmp (s : State) (e' : Ev) : (State.lostEvent s e').cmp = s.cmp := rfl
@[simp] theorem State.lostEvent_cry (s : State) (e' : Ev) : (State.lostEvent s e').cry = s.cry := rfl
@[simp] theorem State.lostEvent_zon (s : State) (e' : Ev) : (State.lostEvent s e').zon = s.zon := rfl
@[simp] theorem State.lostEvent_recs (s : State) (e' : Ev) : (State.lostEvent s e').recs = s.recs := rfl
@[simp] theorem State.lostEvent_buf (s : State) (e' : Ev) : (State.lostEvent s e').buf = s.buf := rfl
@[simp] theorem State.lostEvent_dma (s : State) (e' : Ev) : (State.lostEvent s e').dma = s.dma := rfl
@[simp] theorem State.lostEvent_map (s : State) (e' : Ev) : (State.lostEvent s e').map = s.map := rfl
@[simp] theorem State.lostEvent_hqi (s : State) (e' : Ev) : (State.lostEvent s e').hqi = s.hqi := rfl
@[simp] theorem State.lostEvent_sec (s : State) (e' : Ev) : (State.lostEvent s e').sec = s.sec := rfl
@[simp] theorem State.lostEvent_fab (s : State) (e' : Ev) : (State.lostEvent s e').fab = s.fab := rfl
@[simp] theorem State.lostEvent_pair (s : State) (e' : Ev) : (State.lostEvent s e').pair = s.pair := rfl
@[simp] theorem State.lostEvent_pfr (s : State) (e' : Ev) : (State.lostEvent s e').pfr = s.pfr := rfl
@[simp] theorem State.lostEvent_flt (s : State) (e' : Ev) : (State.lostEvent s e').flt = s.flt := rfl
@[simp] theorem State.lostEvent_pwr (s : State) (e' : Ev) : (State.lostEvent s e').pwr = s.pwr := rfl
@[simp] theorem State.lostEvent_svc (s : State) (e' : Ev) : (State.lostEvent s e').svc = s.svc := rfl
@[simp] theorem State.lostEvent_gen (s : State) (e' : Ev) : (State.lostEvent s e').gen = s.gen := rfl
@[simp] theorem State.lostEvent_nv (s : State) (e' : Ev) : (State.lostEvent s e').nv = s.nv := rfl
@[simp] theorem State.lostEvent_nv2 (s : State) (e' : Ev) : (State.lostEvent s e').nv2 = s.nv2 := rfl
@[simp] theorem State.lostEvent_sent (s : State) (e' : Ev) : (State.lostEvent s e').sent = s.sent := rfl
@[simp] theorem State.lostEvent_free (s : State) (e' : Ev) : (State.lostEvent s e').free = s.free := rfl

/-! `State.enqueue` -/

@[simp] theorem State.enqueue_pending (s : State) (e' : Ev) : (State.enqueue s e').pending = s.pending := by unfold State.enqueue; split <;> first | rfl | exact State.lostEvent_pending ..
@[simp] theorem State.enqueue_regs (s : State) (e' : Ev) : (State.enqueue s e').regs = s.regs := by unfold State.enqueue; split <;> first | rfl | exact State.lostEvent_regs ..
@[simp] theorem State.enqueue_atb (s : State) (e' : Ev) : (State.enqueue s e').atb = s.atb := by unfold State.enqueue; split <;> first | rfl | exact State.lostEvent_atb ..
@[simp] theorem State.enqueue_srv (s : State) (e' : Ev) : (State.enqueue s e').srv = s.srv := by unfold State.enqueue; split <;> first | rfl | exact State.lostEvent_srv ..
@[simp] theorem State.enqueue_spn (s : State) (e' : Ev) : (State.enqueue s e').spn = s.spn := by unfold State.enqueue; split <;> first | rfl | exact State.lostEvent_spn ..
@[simp] theorem State.enqueue_mdl (s : State) (e' : Ev) : (State.enqueue s e').mdl = s.mdl := by unfold State.enqueue; split <;> first | rfl | exact State.lostEvent_mdl ..
@[simp] theorem State.enqueue_ledger (s : State) (e' : Ev) : (State.enqueue s e').ledger = s.ledger := by unfold State.enqueue; split <;> first | rfl | exact State.lostEvent_ledger ..
@[simp] theorem State.enqueue_chs (s : State) (e' : Ev) : (State.enqueue s e').chs = s.chs := by unfold State.enqueue; split <;> first | rfl | exact State.lostEvent_chs ..
@[simp] theorem State.enqueue_seq (s : State) (e' : Ev) : (State.enqueue s e').seq = s.seq := by unfold State.enqueue; split <;> first | rfl | exact State.lostEvent_seq ..
@[simp] theorem State.enqueue_rpl (s : State) (e' : Ev) : (State.enqueue s e').rpl = s.rpl := by unfold State.enqueue; split <;> first | rfl | exact State.lostEvent_rpl ..
@[simp] theorem State.enqueue_rcv (s : State) (e' : Ev) : (State.enqueue s e').rcv = s.rcv := by unfold State.enqueue; split <;> first | rfl | exact State.lostEvent_rcv ..
@[simp] theorem State.enqueue_xtp (s : State) (e' : Ev) : (State.enqueue s e').xtp = s.xtp := by unfold State.enqueue; split <;> first | rfl | exact State.lostEvent_xtp ..
@[simp] theorem State.enqueue_cmp (s : State) (e' : Ev) : (State.enqueue s e').cmp = s.cmp := by unfold State.enqueue; split <;> first | rfl | exact State.lostEvent_cmp ..
@[simp] theorem State.enqueue_cry (s : State) (e' : Ev) : (State.enqueue s e').cry = s.cry := by unfold State.enqueue; split <;> first | rfl | exact State.lostEvent_cry ..
@[simp] theorem State.enqueue_zon (s : State) (e' : Ev) : (State.enqueue s e').zon = s.zon := by unfold State.enqueue; split <;> first | rfl | exact State.lostEvent_zon ..
@[simp] theorem State.enqueue_recs (s : State) (e' : Ev) : (State.enqueue s e').recs = s.recs := by unfold State.enqueue; split <;> first | rfl | exact State.lostEvent_recs ..
@[simp] theorem State.enqueue_buf (s : State) (e' : Ev) : (State.enqueue s e').buf = s.buf := by unfold State.enqueue; split <;> first | rfl | exact State.lostEvent_buf ..
@[simp] theorem State.enqueue_dma (s : State) (e' : Ev) : (State.enqueue s e').dma = s.dma := by unfold State.enqueue; split <;> first | rfl | exact State.lostEvent_dma ..
@[simp] theorem State.enqueue_map (s : State) (e' : Ev) : (State.enqueue s e').map = s.map := by unfold State.enqueue; split <;> first | rfl | exact State.lostEvent_map ..
@[simp] theorem State.enqueue_hqi (s : State) (e' : Ev) : (State.enqueue s e').hqi = s.hqi := by unfold State.enqueue; split <;> first | rfl | exact State.lostEvent_hqi ..
@[simp] theorem State.enqueue_sec (s : State) (e' : Ev) : (State.enqueue s e').sec = s.sec := by unfold State.enqueue; split <;> first | rfl | exact State.lostEvent_sec ..
@[simp] theorem State.enqueue_fab (s : State) (e' : Ev) : (State.enqueue s e').fab = s.fab := by unfold State.enqueue; split <;> first | rfl | exact State.lostEvent_fab ..
@[simp] theorem State.enqueue_pair (s : State) (e' : Ev) : (State.enqueue s e').pair = s.pair := by unfold State.enqueue; split <;> first | rfl | exact State.lostEvent_pair ..
@[simp] theorem State.enqueue_pfr (s : State) (e' : Ev) : (State.enqueue s e').pfr = s.pfr := by unfold State.enqueue; split <;> first | rfl | exact State.lostEvent_pfr ..
@[simp] theorem State.enqueue_flt (s : State) (e' : Ev) : (State.enqueue s e').flt = s.flt := by unfold State.enqueue; split <;> first | rfl | exact State.lostEvent_flt ..
@[simp] theorem State.enqueue_pwr (s : State) (e' : Ev) : (State.enqueue s e').pwr = s.pwr := by unfold State.enqueue; split <;> first | rfl | exact State.lostEvent_pwr ..
@[simp] theorem State.enqueue_svc (s : State) (e' : Ev) : (State.enqueue s e').svc = s.svc := by unfold State.enqueue; split <;> first | rfl | exact State.lostEvent_svc ..
@[simp] theorem State.enqueue_gen (s : State) (e' : Ev) : (State.enqueue s e').gen = s.gen := by unfold State.enqueue; split <;> first | rfl | exact State.lostEvent_gen ..
@[simp] theorem State.enqueue_nv (s : State) (e' : Ev) : (State.enqueue s e').nv = s.nv := by unfold State.enqueue; split <;> first | rfl | exact State.lostEvent_nv ..
@[simp] theorem State.enqueue_nv2 (s : State) (e' : Ev) : (State.enqueue s e').nv2 = s.nv2 := by unfold State.enqueue; split <;> first | rfl | exact State.lostEvent_nv2 ..
@[simp] theorem State.enqueue_sent (s : State) (e' : Ev) : (State.enqueue s e').sent = s.sent := by unfold State.enqueue; split <;> first | rfl | exact State.lostEvent_sent ..
@[simp] theorem State.enqueue_free (s : State) (e' : Ev) : (State.enqueue s e').free = s.free := by unfold State.enqueue; split <;> first | rfl | exact State.lostEvent_free ..

/-! `State.eventSrc` -/

@[simp] theorem State.eventSrc_pending (s : State) (code : Nat) (sev : Nat) (src : Nat) (par : List Nat) : (State.eventSrc s code sev src par).pending = s.pending := State.enqueue_pending _ _
@[simp] theorem State.eventSrc_regs (s : State) (code : Nat) (sev : Nat) (src : Nat) (par : List Nat) : (State.eventSrc s code sev src par).regs = s.regs := State.enqueue_regs _ _
@[simp] theorem State.eventSrc_atb (s : State) (code : Nat) (sev : Nat) (src : Nat) (par : List Nat) : (State.eventSrc s code sev src par).atb = s.atb := State.enqueue_atb _ _
@[simp] theorem State.eventSrc_srv (s : State) (code : Nat) (sev : Nat) (src : Nat) (par : List Nat) : (State.eventSrc s code sev src par).srv = s.srv := State.enqueue_srv _ _
@[simp] theorem State.eventSrc_spn (s : State) (code : Nat) (sev : Nat) (src : Nat) (par : List Nat) : (State.eventSrc s code sev src par).spn = s.spn := State.enqueue_spn _ _
@[simp] theorem State.eventSrc_mdl (s : State) (code : Nat) (sev : Nat) (src : Nat) (par : List Nat) : (State.eventSrc s code sev src par).mdl = s.mdl := State.enqueue_mdl _ _
@[simp] theorem State.eventSrc_ledger (s : State) (code : Nat) (sev : Nat) (src : Nat) (par : List Nat) : (State.eventSrc s code sev src par).ledger = s.ledger := State.enqueue_ledger _ _
@[simp] theorem State.eventSrc_chs (s : State) (code : Nat) (sev : Nat) (src : Nat) (par : List Nat) : (State.eventSrc s code sev src par).chs = s.chs := State.enqueue_chs _ _
@[simp] theorem State.eventSrc_seq (s : State) (code : Nat) (sev : Nat) (src : Nat) (par : List Nat) : (State.eventSrc s code sev src par).seq = s.seq := State.enqueue_seq _ _
@[simp] theorem State.eventSrc_rpl (s : State) (code : Nat) (sev : Nat) (src : Nat) (par : List Nat) : (State.eventSrc s code sev src par).rpl = s.rpl := State.enqueue_rpl _ _
@[simp] theorem State.eventSrc_rcv (s : State) (code : Nat) (sev : Nat) (src : Nat) (par : List Nat) : (State.eventSrc s code sev src par).rcv = s.rcv := State.enqueue_rcv _ _
@[simp] theorem State.eventSrc_xtp (s : State) (code : Nat) (sev : Nat) (src : Nat) (par : List Nat) : (State.eventSrc s code sev src par).xtp = s.xtp := State.enqueue_xtp _ _
@[simp] theorem State.eventSrc_cmp (s : State) (code : Nat) (sev : Nat) (src : Nat) (par : List Nat) : (State.eventSrc s code sev src par).cmp = s.cmp := State.enqueue_cmp _ _
@[simp] theorem State.eventSrc_cry (s : State) (code : Nat) (sev : Nat) (src : Nat) (par : List Nat) : (State.eventSrc s code sev src par).cry = s.cry := State.enqueue_cry _ _
@[simp] theorem State.eventSrc_zon (s : State) (code : Nat) (sev : Nat) (src : Nat) (par : List Nat) : (State.eventSrc s code sev src par).zon = s.zon := State.enqueue_zon _ _
@[simp] theorem State.eventSrc_recs (s : State) (code : Nat) (sev : Nat) (src : Nat) (par : List Nat) : (State.eventSrc s code sev src par).recs = s.recs := State.enqueue_recs _ _
@[simp] theorem State.eventSrc_buf (s : State) (code : Nat) (sev : Nat) (src : Nat) (par : List Nat) : (State.eventSrc s code sev src par).buf = s.buf := State.enqueue_buf _ _
@[simp] theorem State.eventSrc_dma (s : State) (code : Nat) (sev : Nat) (src : Nat) (par : List Nat) : (State.eventSrc s code sev src par).dma = s.dma := State.enqueue_dma _ _
@[simp] theorem State.eventSrc_map (s : State) (code : Nat) (sev : Nat) (src : Nat) (par : List Nat) : (State.eventSrc s code sev src par).map = s.map := State.enqueue_map _ _
@[simp] theorem State.eventSrc_hqi (s : State) (code : Nat) (sev : Nat) (src : Nat) (par : List Nat) : (State.eventSrc s code sev src par).hqi = s.hqi := State.enqueue_hqi _ _
@[simp] theorem State.eventSrc_sec (s : State) (code : Nat) (sev : Nat) (src : Nat) (par : List Nat) : (State.eventSrc s code sev src par).sec = s.sec := State.enqueue_sec _ _
@[simp] theorem State.eventSrc_fab (s : State) (code : Nat) (sev : Nat) (src : Nat) (par : List Nat) : (State.eventSrc s code sev src par).fab = s.fab := State.enqueue_fab _ _
@[simp] theorem State.eventSrc_pair (s : State) (code : Nat) (sev : Nat) (src : Nat) (par : List Nat) : (State.eventSrc s code sev src par).pair = s.pair := State.enqueue_pair _ _
@[simp] theorem State.eventSrc_pfr (s : State) (code : Nat) (sev : Nat) (src : Nat) (par : List Nat) : (State.eventSrc s code sev src par).pfr = s.pfr := State.enqueue_pfr _ _
@[simp] theorem State.eventSrc_flt (s : State) (code : Nat) (sev : Nat) (src : Nat) (par : List Nat) : (State.eventSrc s code sev src par).flt = s.flt := State.enqueue_flt _ _
@[simp] theorem State.eventSrc_pwr (s : State) (code : Nat) (sev : Nat) (src : Nat) (par : List Nat) : (State.eventSrc s code sev src par).pwr = s.pwr := State.enqueue_pwr _ _
@[simp] theorem State.eventSrc_svc (s : State) (code : Nat) (sev : Nat) (src : Nat) (par : List Nat) : (State.eventSrc s code sev src par).svc = s.svc := State.enqueue_svc _ _
@[simp] theorem State.eventSrc_gen (s : State) (code : Nat) (sev : Nat) (src : Nat) (par : List Nat) : (State.eventSrc s code sev src par).gen = s.gen := State.enqueue_gen _ _
@[simp] theorem State.eventSrc_nv (s : State) (code : Nat) (sev : Nat) (src : Nat) (par : List Nat) : (State.eventSrc s code sev src par).nv = s.nv := State.enqueue_nv _ _
@[simp] theorem State.eventSrc_nv2 (s : State) (code : Nat) (sev : Nat) (src : Nat) (par : List Nat) : (State.eventSrc s code sev src par).nv2 = s.nv2 := State.enqueue_nv2 _ _
@[simp] theorem State.eventSrc_sent (s : State) (code : Nat) (sev : Nat) (src : Nat) (par : List Nat) : (State.eventSrc s code sev src par).sent = s.sent := State.enqueue_sent _ _
@[simp] theorem State.eventSrc_free (s : State) (code : Nat) (sev : Nat) (src : Nat) (par : List Nat) : (State.eventSrc s code sev src par).free = s.free := State.enqueue_free _ _

/-! `State.event` -/

@[simp] theorem State.event_pending (s : State) (code : Nat) (sev : Nat) (par : List Nat) : (State.event s code sev par).pending = s.pending := State.eventSrc_pending ..
@[simp] theorem State.event_regs (s : State) (code : Nat) (sev : Nat) (par : List Nat) : (State.event s code sev par).regs = s.regs := State.eventSrc_regs ..
@[simp] theorem State.event_atb (s : State) (code : Nat) (sev : Nat) (par : List Nat) : (State.event s code sev par).atb = s.atb := State.eventSrc_atb ..
@[simp] theorem State.event_srv (s : State) (code : Nat) (sev : Nat) (par : List Nat) : (State.event s code sev par).srv = s.srv := State.eventSrc_srv ..
@[simp] theorem State.event_spn (s : State) (code : Nat) (sev : Nat) (par : List Nat) : (State.event s code sev par).spn = s.spn := State.eventSrc_spn ..
@[simp] theorem State.event_mdl (s : State) (code : Nat) (sev : Nat) (par : List Nat) : (State.event s code sev par).mdl = s.mdl := State.eventSrc_mdl ..
@[simp] theorem State.event_ledger (s : State) (code : Nat) (sev : Nat) (par : List Nat) : (State.event s code sev par).ledger = s.ledger := State.eventSrc_ledger ..
@[simp] theorem State.event_chs (s : State) (code : Nat) (sev : Nat) (par : List Nat) : (State.event s code sev par).chs = s.chs := State.eventSrc_chs ..
@[simp] theorem State.event_seq (s : State) (code : Nat) (sev : Nat) (par : List Nat) : (State.event s code sev par).seq = s.seq := State.eventSrc_seq ..
@[simp] theorem State.event_rpl (s : State) (code : Nat) (sev : Nat) (par : List Nat) : (State.event s code sev par).rpl = s.rpl := State.eventSrc_rpl ..
@[simp] theorem State.event_rcv (s : State) (code : Nat) (sev : Nat) (par : List Nat) : (State.event s code sev par).rcv = s.rcv := State.eventSrc_rcv ..
@[simp] theorem State.event_xtp (s : State) (code : Nat) (sev : Nat) (par : List Nat) : (State.event s code sev par).xtp = s.xtp := State.eventSrc_xtp ..
@[simp] theorem State.event_cmp (s : State) (code : Nat) (sev : Nat) (par : List Nat) : (State.event s code sev par).cmp = s.cmp := State.eventSrc_cmp ..
@[simp] theorem State.event_cry (s : State) (code : Nat) (sev : Nat) (par : List Nat) : (State.event s code sev par).cry = s.cry := State.eventSrc_cry ..
@[simp] theorem State.event_zon (s : State) (code : Nat) (sev : Nat) (par : List Nat) : (State.event s code sev par).zon = s.zon := State.eventSrc_zon ..
@[simp] theorem State.event_recs (s : State) (code : Nat) (sev : Nat) (par : List Nat) : (State.event s code sev par).recs = s.recs := State.eventSrc_recs ..
@[simp] theorem State.event_buf (s : State) (code : Nat) (sev : Nat) (par : List Nat) : (State.event s code sev par).buf = s.buf := State.eventSrc_buf ..
@[simp] theorem State.event_dma (s : State) (code : Nat) (sev : Nat) (par : List Nat) : (State.event s code sev par).dma = s.dma := State.eventSrc_dma ..
@[simp] theorem State.event_map (s : State) (code : Nat) (sev : Nat) (par : List Nat) : (State.event s code sev par).map = s.map := State.eventSrc_map ..
@[simp] theorem State.event_hqi (s : State) (code : Nat) (sev : Nat) (par : List Nat) : (State.event s code sev par).hqi = s.hqi := State.eventSrc_hqi ..
@[simp] theorem State.event_sec (s : State) (code : Nat) (sev : Nat) (par : List Nat) : (State.event s code sev par).sec = s.sec := State.eventSrc_sec ..
@[simp] theorem State.event_fab (s : State) (code : Nat) (sev : Nat) (par : List Nat) : (State.event s code sev par).fab = s.fab := State.eventSrc_fab ..
@[simp] theorem State.event_pair (s : State) (code : Nat) (sev : Nat) (par : List Nat) : (State.event s code sev par).pair = s.pair := State.eventSrc_pair ..
@[simp] theorem State.event_pfr (s : State) (code : Nat) (sev : Nat) (par : List Nat) : (State.event s code sev par).pfr = s.pfr := State.eventSrc_pfr ..
@[simp] theorem State.event_flt (s : State) (code : Nat) (sev : Nat) (par : List Nat) : (State.event s code sev par).flt = s.flt := State.eventSrc_flt ..
@[simp] theorem State.event_pwr (s : State) (code : Nat) (sev : Nat) (par : List Nat) : (State.event s code sev par).pwr = s.pwr := State.eventSrc_pwr ..
@[simp] theorem State.event_svc (s : State) (code : Nat) (sev : Nat) (par : List Nat) : (State.event s code sev par).svc = s.svc := State.eventSrc_svc ..
@[simp] theorem State.event_gen (s : State) (code : Nat) (sev : Nat) (par : List Nat) : (State.event s code sev par).gen = s.gen := State.eventSrc_gen ..
@[simp] theorem State.event_nv (s : State) (code : Nat) (sev : Nat) (par : List Nat) : (State.event s code sev par).nv = s.nv := State.eventSrc_nv ..
@[simp] theorem State.event_nv2 (s : State) (code : Nat) (sev : Nat) (par : List Nat) : (State.event s code sev par).nv2 = s.nv2 := State.eventSrc_nv2 ..
@[simp] theorem State.event_sent (s : State) (code : Nat) (sev : Nat) (par : List Nat) : (State.event s code sev par).sent = s.sent := State.eventSrc_sent ..
@[simp] theorem State.event_free (s : State) (code : Nat) (sev : Nat) (par : List Nat) : (State.event s code sev par).free = s.free := State.eventSrc_free ..

/-! `State.setReady` -/

@[simp] theorem State.setReady_pending (s : State) (b : Nat) (v : Bool) : (State.setReady s b v).pending = s.pending := by unfold State.setReady; split <;> rfl
@[simp] theorem State.setReady_regs (s : State) (b : Nat) (v : Bool) : (State.setReady s b v).regs = s.regs := by unfold State.setReady; split <;> rfl
@[simp] theorem State.setReady_atb (s : State) (b : Nat) (v : Bool) : (State.setReady s b v).atb = s.atb := by unfold State.setReady; split <;> rfl
@[simp] theorem State.setReady_srv (s : State) (b : Nat) (v : Bool) : (State.setReady s b v).srv = s.srv := by unfold State.setReady; split <;> rfl
@[simp] theorem State.setReady_spn (s : State) (b : Nat) (v : Bool) : (State.setReady s b v).spn = s.spn := by unfold State.setReady; split <;> rfl
@[simp] theorem State.setReady_mdl (s : State) (b : Nat) (v : Bool) : (State.setReady s b v).mdl = s.mdl := by unfold State.setReady; split <;> rfl
@[simp] theorem State.setReady_ledger (s : State) (b : Nat) (v : Bool) : (State.setReady s b v).ledger = s.ledger := by unfold State.setReady; split <;> rfl
@[simp] theorem State.setReady_chs (s : State) (b : Nat) (v : Bool) : (State.setReady s b v).chs = s.chs := by unfold State.setReady; split <;> rfl
@[simp] theorem State.setReady_seq (s : State) (b : Nat) (v : Bool) : (State.setReady s b v).seq = s.seq := by unfold State.setReady; split <;> rfl
@[simp] theorem State.setReady_rpl (s : State) (b : Nat) (v : Bool) : (State.setReady s b v).rpl = s.rpl := by unfold State.setReady; split <;> rfl
@[simp] theorem State.setReady_rcv (s : State) (b : Nat) (v : Bool) : (State.setReady s b v).rcv = s.rcv := by unfold State.setReady; split <;> rfl
@[simp] theorem State.setReady_xtp (s : State) (b : Nat) (v : Bool) : (State.setReady s b v).xtp = s.xtp := by unfold State.setReady; split <;> rfl
@[simp] theorem State.setReady_cmp (s : State) (b : Nat) (v : Bool) : (State.setReady s b v).cmp = s.cmp := by unfold State.setReady; split <;> rfl
@[simp] theorem State.setReady_cry (s : State) (b : Nat) (v : Bool) : (State.setReady s b v).cry = s.cry := by unfold State.setReady; split <;> rfl
@[simp] theorem State.setReady_zon (s : State) (b : Nat) (v : Bool) : (State.setReady s b v).zon = s.zon := by unfold State.setReady; split <;> rfl
@[simp] theorem State.setReady_recs (s : State) (b : Nat) (v : Bool) : (State.setReady s b v).recs = s.recs := by unfold State.setReady; split <;> rfl
@[simp] theorem State.setReady_buf (s : State) (b : Nat) (v : Bool) : (State.setReady s b v).buf = s.buf := by unfold State.setReady; split <;> rfl
@[simp] theorem State.setReady_dma (s : State) (b : Nat) (v : Bool) : (State.setReady s b v).dma = s.dma := by unfold State.setReady; split <;> rfl
@[simp] theorem State.setReady_map (s : State) (b : Nat) (v : Bool) : (State.setReady s b v).map = s.map := by unfold State.setReady; split <;> rfl
@[simp] theorem State.setReady_hqi (s : State) (b : Nat) (v : Bool) : (State.setReady s b v).hqi = s.hqi := by unfold State.setReady; split <;> rfl
@[simp] theorem State.setReady_sec (s : State) (b : Nat) (v : Bool) : (State.setReady s b v).sec = s.sec := by unfold State.setReady; split <;> rfl
@[simp] theorem State.setReady_fab (s : State) (b : Nat) (v : Bool) : (State.setReady s b v).fab = s.fab := by unfold State.setReady; split <;> rfl
@[simp] theorem State.setReady_pair (s : State) (b : Nat) (v : Bool) : (State.setReady s b v).pair = s.pair := by unfold State.setReady; split <;> rfl
@[simp] theorem State.setReady_pfr (s : State) (b : Nat) (v : Bool) : (State.setReady s b v).pfr = s.pfr := by unfold State.setReady; split <;> rfl
@[simp] theorem State.setReady_flt (s : State) (b : Nat) (v : Bool) : (State.setReady s b v).flt = s.flt := by unfold State.setReady; split <;> rfl
@[simp] theorem State.setReady_evr (s : State) (b : Nat) (v : Bool) : (State.setReady s b v).evr = s.evr := by unfold State.setReady; split <;> rfl
@[simp] theorem State.setReady_pmc (s : State) (b : Nat) (v : Bool) : (State.setReady s b v).pmc = s.pmc := by unfold State.setReady; split <;> rfl
@[simp] theorem State.setReady_svc (s : State) (b : Nat) (v : Bool) : (State.setReady s b v).svc = s.svc := by unfold State.setReady; split <;> rfl
@[simp] theorem State.setReady_gen (s : State) (b : Nat) (v : Bool) : (State.setReady s b v).gen = s.gen := by unfold State.setReady; split <;> rfl
@[simp] theorem State.setReady_nv (s : State) (b : Nat) (v : Bool) : (State.setReady s b v).nv = s.nv := by unfold State.setReady; split <;> rfl
@[simp] theorem State.setReady_nv2 (s : State) (b : Nat) (v : Bool) : (State.setReady s b v).nv2 = s.nv2 := by unfold State.setReady; split <;> rfl
@[simp] theorem State.setReady_sent (s : State) (b : Nat) (v : Bool) : (State.setReady s b v).sent = s.sent := by unfold State.setReady; split <;> rfl
@[simp] theorem State.setReady_free (s : State) (b : Nat) (v : Bool) : (State.setReady s b v).free = s.free := by unfold State.setReady; split <;> rfl

/-! `State.mdlSend` -/

@[simp] theorem State.mdlSend_pending (s : State) (ty : Nat) (payload : Nat) : (State.mdlSend s ty payload).pending = s.pending := by unfold State.mdlSend; split <;> rfl
@[simp] theorem State.mdlSend_regs (s : State) (ty : Nat) (payload : Nat) : (State.mdlSend s ty payload).regs = s.regs := by unfold State.mdlSend; split <;> rfl
@[simp] theorem State.mdlSend_atb (s : State) (ty : Nat) (payload : Nat) : (State.mdlSend s ty payload).atb = s.atb := by unfold State.mdlSend; split <;> rfl
@[simp] theorem State.mdlSend_srv (s : State) (ty : Nat) (payload : Nat) : (State.mdlSend s ty payload).srv = s.srv := by unfold State.mdlSend; split <;> rfl
@[simp] theorem State.mdlSend_spn (s : State) (ty : Nat) (payload : Nat) : (State.mdlSend s ty payload).spn = s.spn := by unfold State.mdlSend; split <;> rfl
@[simp] theorem State.mdlSend_ledger (s : State) (ty : Nat) (payload : Nat) : (State.mdlSend s ty payload).ledger = s.ledger := by unfold State.mdlSend; split <;> rfl
@[simp] theorem State.mdlSend_chs (s : State) (ty : Nat) (payload : Nat) : (State.mdlSend s ty payload).chs = s.chs := by unfold State.mdlSend; split <;> rfl
@[simp] theorem State.mdlSend_seq (s : State) (ty : Nat) (payload : Nat) : (State.mdlSend s ty payload).seq = s.seq := by unfold State.mdlSend; split <;> rfl
@[simp] theorem State.mdlSend_rpl (s : State) (ty : Nat) (payload : Nat) : (State.mdlSend s ty payload).rpl = s.rpl := by unfold State.mdlSend; split <;> rfl
@[simp] theorem State.mdlSend_rcv (s : State) (ty : Nat) (payload : Nat) : (State.mdlSend s ty payload).rcv = s.rcv := by unfold State.mdlSend; split <;> rfl
@[simp] theorem State.mdlSend_xtp (s : State) (ty : Nat) (payload : Nat) : (State.mdlSend s ty payload).xtp = s.xtp := by unfold State.mdlSend; split <;> rfl
@[simp] theorem State.mdlSend_cmp (s : State) (ty : Nat) (payload : Nat) : (State.mdlSend s ty payload).cmp = s.cmp := by unfold State.mdlSend; split <;> rfl
@[simp] theorem State.mdlSend_cry (s : State) (ty : Nat) (payload : Nat) : (State.mdlSend s ty payload).cry = s.cry := by unfold State.mdlSend; split <;> rfl
@[simp] theorem State.mdlSend_zon (s : State) (ty : Nat) (payload : Nat) : (State.mdlSend s ty payload).zon = s.zon := by unfold State.mdlSend; split <;> rfl
@[simp] theorem State.mdlSend_recs (s : State) (ty : Nat) (payload : Nat) : (State.mdlSend s ty payload).recs = s.recs := by unfold State.mdlSend; split <;> rfl
@[simp] theorem State.mdlSend_buf (s : State) (ty : Nat) (payload : Nat) : (State.mdlSend s ty payload).buf = s.buf := by unfold State.mdlSend; split <;> rfl
@[simp] theorem State.mdlSend_dma (s : State) (ty : Nat) (payload : Nat) : (State.mdlSend s ty payload).dma = s.dma := by unfold State.mdlSend; split <;> rfl
@[simp] theorem State.mdlSend_map (s : State) (ty : Nat) (payload : Nat) : (State.mdlSend s ty payload).map = s.map := by unfold State.mdlSend; split <;> rfl
@[simp] theorem State.mdlSend_hqi (s : State) (ty : Nat) (payload : Nat) : (State.mdlSend s ty payload).hqi = s.hqi := by unfold State.mdlSend; split <;> rfl
@[simp] theorem State.mdlSend_sec (s : State) (ty : Nat) (payload : Nat) : (State.mdlSend s ty payload).sec = s.sec := by unfold State.mdlSend; split <;> rfl
@[simp] theorem State.mdlSend_fab (s : State) (ty : Nat) (payload : Nat) : (State.mdlSend s ty payload).fab = s.fab := by unfold State.mdlSend; split <;> rfl
@[simp] theorem State.mdlSend_pair (s : State) (ty : Nat) (payload : Nat) : (State.mdlSend s ty payload).pair = s.pair := by unfold State.mdlSend; split <;> rfl
@[simp] theorem State.mdlSend_pfr (s : State) (ty : Nat) (payload : Nat) : (State.mdlSend s ty payload).pfr = s.pfr := by unfold State.mdlSend; split <;> rfl
@[simp] theorem State.mdlSend_flt (s : State) (ty : Nat) (payload : Nat) : (State.mdlSend s ty payload).flt = s.flt := by unfold State.mdlSend; split <;> rfl
@[simp] theorem State.mdlSend_evr (s : State) (ty : Nat) (payload : Nat) : (State.mdlSend s ty payload).evr = s.evr := by unfold State.mdlSend; split <;> rfl
@[simp] theorem State.mdlSend_pmc (s : State) (ty : Nat) (payload : Nat) : (State.mdlSend s ty payload).pmc = s.pmc := by unfold State.mdlSend; split <;> rfl
@[simp] theorem State.mdlSend_pwr (s : State) (ty : Nat) (payload : Nat) : (State.mdlSend s ty payload).pwr = s.pwr := by unfold State.mdlSend; split <;> rfl
@[simp] theorem State.mdlSend_svc (s : State) (ty : Nat) (payload : Nat) : (State.mdlSend s ty payload).svc = s.svc := by unfold State.mdlSend; split <;> rfl
@[simp] theorem State.mdlSend_gen (s : State) (ty : Nat) (payload : Nat) : (State.mdlSend s ty payload).gen = s.gen := by unfold State.mdlSend; split <;> rfl
@[simp] theorem State.mdlSend_nv (s : State) (ty : Nat) (payload : Nat) : (State.mdlSend s ty payload).nv = s.nv := by unfold State.mdlSend; split <;> rfl
@[simp] theorem State.mdlSend_nv2 (s : State) (ty : Nat) (payload : Nat) : (State.mdlSend s ty payload).nv2 = s.nv2 := by unfold State.mdlSend; split <;> rfl
@[simp] theorem State.mdlSend_free (s : State) (ty : Nat) (payload : Nat) : (State.mdlSend s ty payload).free = s.free := by unfold State.mdlSend; split <;> rfl

/-! `State.sendPark` -/

@[simp] theorem State.sendPark_pending (s : State) (mask : Nat) (kind : Nat) : (State.sendPark s mask kind).pending = s.pending := State.mdlSend_pending ..
@[simp] theorem State.sendPark_regs (s : State) (mask : Nat) (kind : Nat) : (State.sendPark s mask kind).regs = s.regs := State.mdlSend_regs ..
@[simp] theorem State.sendPark_atb (s : State) (mask : Nat) (kind : Nat) : (State.sendPark s mask kind).atb = s.atb := State.mdlSend_atb ..
@[simp] theorem State.sendPark_srv (s : State) (mask : Nat) (kind : Nat) : (State.sendPark s mask kind).srv = s.srv := State.mdlSend_srv ..
@[simp] theorem State.sendPark_spn (s : State) (mask : Nat) (kind : Nat) : (State.sendPark s mask kind).spn = s.spn := State.mdlSend_spn ..
@[simp] theorem State.sendPark_ledger (s : State) (mask : Nat) (kind : Nat) : (State.sendPark s mask kind).ledger = s.ledger := State.mdlSend_ledger ..
@[simp] theorem State.sendPark_chs (s : State) (mask : Nat) (kind : Nat) : (State.sendPark s mask kind).chs = s.chs := State.mdlSend_chs ..
@[simp] theorem State.sendPark_seq (s : State) (mask : Nat) (kind : Nat) : (State.sendPark s mask kind).seq = s.seq := State.mdlSend_seq ..
@[simp] theorem State.sendPark_rpl (s : State) (mask : Nat) (kind : Nat) : (State.sendPark s mask kind).rpl = s.rpl := State.mdlSend_rpl ..
@[simp] theorem State.sendPark_rcv (s : State) (mask : Nat) (kind : Nat) : (State.sendPark s mask kind).rcv = s.rcv := State.mdlSend_rcv ..
@[simp] theorem State.sendPark_xtp (s : State) (mask : Nat) (kind : Nat) : (State.sendPark s mask kind).xtp = s.xtp := State.mdlSend_xtp ..
@[simp] theorem State.sendPark_cmp (s : State) (mask : Nat) (kind : Nat) : (State.sendPark s mask kind).cmp = s.cmp := State.mdlSend_cmp ..
@[simp] theorem State.sendPark_cry (s : State) (mask : Nat) (kind : Nat) : (State.sendPark s mask kind).cry = s.cry := State.mdlSend_cry ..
@[simp] theorem State.sendPark_zon (s : State) (mask : Nat) (kind : Nat) : (State.sendPark s mask kind).zon = s.zon := State.mdlSend_zon ..
@[simp] theorem State.sendPark_recs (s : State) (mask : Nat) (kind : Nat) : (State.sendPark s mask kind).recs = s.recs := State.mdlSend_recs ..
@[simp] theorem State.sendPark_buf (s : State) (mask : Nat) (kind : Nat) : (State.sendPark s mask kind).buf = s.buf := State.mdlSend_buf ..
@[simp] theorem State.sendPark_dma (s : State) (mask : Nat) (kind : Nat) : (State.sendPark s mask kind).dma = s.dma := State.mdlSend_dma ..
@[simp] theorem State.sendPark_map (s : State) (mask : Nat) (kind : Nat) : (State.sendPark s mask kind).map = s.map := State.mdlSend_map ..
@[simp] theorem State.sendPark_hqi (s : State) (mask : Nat) (kind : Nat) : (State.sendPark s mask kind).hqi = s.hqi := State.mdlSend_hqi ..
@[simp] theorem State.sendPark_sec (s : State) (mask : Nat) (kind : Nat) : (State.sendPark s mask kind).sec = s.sec := State.mdlSend_sec ..
@[simp] theorem State.sendPark_fab (s : State) (mask : Nat) (kind : Nat) : (State.sendPark s mask kind).fab = s.fab := State.mdlSend_fab ..
@[simp] theorem State.sendPark_pair (s : State) (mask : Nat) (kind : Nat) : (State.sendPark s mask kind).pair = s.pair := State.mdlSend_pair ..
@[simp] theorem State.sendPark_pfr (s : State) (mask : Nat) (kind : Nat) : (State.sendPark s mask kind).pfr = s.pfr := State.mdlSend_pfr ..
@[simp] theorem State.sendPark_flt (s : State) (mask : Nat) (kind : Nat) : (State.sendPark s mask kind).flt = s.flt := State.mdlSend_flt ..
@[simp] theorem State.sendPark_evr (s : State) (mask : Nat) (kind : Nat) : (State.sendPark s mask kind).evr = s.evr := State.mdlSend_evr ..
@[simp] theorem State.sendPark_pmc (s : State) (mask : Nat) (kind : Nat) : (State.sendPark s mask kind).pmc = s.pmc := State.mdlSend_pmc ..
@[simp] theorem State.sendPark_pwr (s : State) (mask : Nat) (kind : Nat) : (State.sendPark s mask kind).pwr = s.pwr := State.mdlSend_pwr ..
@[simp] theorem State.sendPark_svc (s : State) (mask : Nat) (kind : Nat) : (State.sendPark s mask kind).svc = s.svc := State.mdlSend_svc ..
@[simp] theorem State.sendPark_gen (s : State) (mask : Nat) (kind : Nat) : (State.sendPark s mask kind).gen = s.gen := State.mdlSend_gen ..
@[simp] theorem State.sendPark_nv (s : State) (mask : Nat) (kind : Nat) : (State.sendPark s mask kind).nv = s.nv := State.mdlSend_nv ..
@[simp] theorem State.sendPark_nv2 (s : State) (mask : Nat) (kind : Nat) : (State.sendPark s mask kind).nv2 = s.nv2 := State.mdlSend_nv2 ..
@[simp] theorem State.sendPark_free (s : State) (mask : Nat) (kind : Nat) : (State.sendPark s mask kind).free = s.free := State.mdlSend_free ..

/-! `State.spinMode` -/

@[simp] theorem State.spinMode_pending (s : State) (mode : Nat) : (State.spinMode s mode).pending = s.pending := by unfold State.spinMode; simp
@[simp] theorem State.spinMode_regs (s : State) (mode : Nat) : (State.spinMode s mode).regs = s.regs := by unfold State.spinMode; simp
@[simp] theorem State.spinMode_atb (s : State) (mode : Nat) : (State.spinMode s mode).atb = s.atb := by unfold State.spinMode; simp
@[simp] theorem State.spinMode_srv (s : State) (mode : Nat) : (State.spinMode s mode).srv = s.srv := by unfold State.spinMode; simp
@[simp] theorem State.spinMode_spn (s : State) (mode : Nat) : (State.spinMode s mode).spn = s.spn := by unfold State.spinMode; simp
@[simp] theorem State.spinMode_ledger (s : State) (mode : Nat) : (State.spinMode s mode).ledger = s.ledger := by unfold State.spinMode; simp
@[simp] theorem State.spinMode_chs (s : State) (mode : Nat) : (State.spinMode s mode).chs = s.chs := by unfold State.spinMode; simp
@[simp] theorem State.spinMode_seq (s : State) (mode : Nat) : (State.spinMode s mode).seq = s.seq := by unfold State.spinMode; simp
@[simp] theorem State.spinMode_rpl (s : State) (mode : Nat) : (State.spinMode s mode).rpl = s.rpl := by unfold State.spinMode; simp
@[simp] theorem State.spinMode_rcv (s : State) (mode : Nat) : (State.spinMode s mode).rcv = s.rcv := by unfold State.spinMode; simp
@[simp] theorem State.spinMode_xtp (s : State) (mode : Nat) : (State.spinMode s mode).xtp = s.xtp := by unfold State.spinMode; simp
@[simp] theorem State.spinMode_cmp (s : State) (mode : Nat) : (State.spinMode s mode).cmp = s.cmp := by unfold State.spinMode; simp
@[simp] theorem State.spinMode_cry (s : State) (mode : Nat) : (State.spinMode s mode).cry = s.cry := by unfold State.spinMode; simp
@[simp] theorem State.spinMode_zon (s : State) (mode : Nat) : (State.spinMode s mode).zon = s.zon := by unfold State.spinMode; simp
@[simp] theorem State.spinMode_recs (s : State) (mode : Nat) : (State.spinMode s mode).recs = s.recs := by unfold State.spinMode; simp
@[simp] theorem State.spinMode_buf (s : State) (mode : Nat) : (State.spinMode s mode).buf = s.buf := by unfold State.spinMode; simp
@[simp] theorem State.spinMode_dma (s : State) (mode : Nat) : (State.spinMode s mode).dma = s.dma := by unfold State.spinMode; simp
@[simp] theorem State.spinMode_map (s : State) (mode : Nat) : (State.spinMode s mode).map = s.map := by unfold State.spinMode; simp
@[simp] theorem State.spinMode_hqi (s : State) (mode : Nat) : (State.spinMode s mode).hqi = s.hqi := by unfold State.spinMode; simp
@[simp] theorem State.spinMode_sec (s : State) (mode : Nat) : (State.spinMode s mode).sec = s.sec := by unfold State.spinMode; simp
@[simp] theorem State.spinMode_fab (s : State) (mode : Nat) : (State.spinMode s mode).fab = s.fab := by unfold State.spinMode; simp
@[simp] theorem State.spinMode_pair (s : State) (mode : Nat) : (State.spinMode s mode).pair = s.pair := by unfold State.spinMode; simp
@[simp] theorem State.spinMode_pfr (s : State) (mode : Nat) : (State.spinMode s mode).pfr = s.pfr := by unfold State.spinMode; simp
@[simp] theorem State.spinMode_flt (s : State) (mode : Nat) : (State.spinMode s mode).flt = s.flt := by unfold State.spinMode; simp
@[simp] theorem State.spinMode_evr (s : State) (mode : Nat) : (State.spinMode s mode).evr = s.evr := by unfold State.spinMode; simp
@[simp] theorem State.spinMode_pmc (s : State) (mode : Nat) : (State.spinMode s mode).pmc = s.pmc := by unfold State.spinMode; simp
@[simp] theorem State.spinMode_pwr (s : State) (mode : Nat) : (State.spinMode s mode).pwr = s.pwr := by unfold State.spinMode; simp
@[simp] theorem State.spinMode_svc (s : State) (mode : Nat) : (State.spinMode s mode).svc = s.svc := by unfold State.spinMode; simp
@[simp] theorem State.spinMode_gen (s : State) (mode : Nat) : (State.spinMode s mode).gen = s.gen := by unfold State.spinMode; simp
@[simp] theorem State.spinMode_nv (s : State) (mode : Nat) : (State.spinMode s mode).nv = s.nv := by unfold State.spinMode; simp
@[simp] theorem State.spinMode_nv2 (s : State) (mode : Nat) : (State.spinMode s mode).nv2 = s.nv2 := by unfold State.spinMode; simp

end Sys2Proof.Machine
end

