-- ==== Sys2Proof/WellFormed.lean ====
section
/-! DEFINITION. Commands whose operands the spec admits: lengths, alignments and ranges of what a command carries (R20, R48,
R106, R144, R164, R216, R235, R245, R267, R272, R275, R278, R329, R335, R345, R352, R354, R381, R389, R450, R458). The meanings
do not rest on it: what breaks a limit is answered as the rule says, or is no event (log 2). -/
namespace Sys2Proof

/-- A number from `lo` to `hi`. -/
def between (lo hi n : Nat) : Bool := decide (lo ≤ n) && decide (n ≤ hi)

/-- What a read brought, where it brought anything. -/
def present {α : Type} (x : Option α) (p : α → Bool) : Bool :=
  match x with
  | none => true
  | some a => p a

/-- The operands of a command are ones the spec admits. -/
def wellFormed (i : Instr) : Bool :=
  match i with
  | .index period => decide (0 < period)
  | .angleWord _ _ => true
  | .coastEntry => true
  | .coastMaxExpiry => true
  | .atbNowAcRead => true
  | .seqCtxRead _ => true
  | .evrStatusRead => true
  | .cutoff => true
  | .rplCommit _ plan => decide (plan.length ≤ 4 * 1536)
  | .slotDeadline _ _ => true
  | .bufferGrant _ _ _ => true
  | .completionPulse _ => true
  | .slotStart _ _ => true
  | .slotEnd _ _ => true
  | .registerWrite _ off data => decide (off.toNat % 4 = 0) && between 1 16 data.length
  | .systemDirectoryLoad _ => true
  | .sysrecStage _ _ bytes => between 1 65536 bytes.length
  | .sysrecCommit _ _ _ => true
  | .sysrecWritten _ => true
  | .sysrecRead _ _ _ _ => true
  | .pesSample _ _ _ => true
  | .vcmUpdate _ => true
  | .offTrack _ => true
  | .seekArrival _ => true
  | .shockAssert => true
  | .shockHoldExpiry => true
  | .actParkCmd _ _ => true
  | .actUnparkCmd _ _ => true
  | .unparkTimeout _ => true
  | .unparkRetry _ => true
  | .sswSeedCheck _ _ => true
  | .sswPropagate _ _ => true
  | .sswVerify _ _ => true
  | .sswCalibrate _ _ => true
  | .sswPause _ _ => true
  | .sswAbort _ _ => true
  | .sswDone _ _ _ => true
  | .spinTick => true
  | .isense _ => true
  | .vsense _ => true
  | .mdlStatus _ => true
  | .mdlLost => true
  | .preheatTick => true
  | .preheatTimeout => true
  | .alignDone => true
  | .speedLock period => decide (0 < period)
  | .spinupTimeout _ => true
  | .spinupRetry => true
  | .speedLockLoss => true
  | .brakeDone => true
  | .speedChangeDone => true
  | .tokenRequestRepeat => true
  | .tokenReturnTimer => true
  | .tokenLeaseExpiry _ => true
  | .bossHoldExpiry => true
  | .soloWaitExpiry => true
  | .phaseRefSend => true
  | .phaseRefLoss => true
  | .pfailAssert => true
  | .pfailDeassert => true
  | .pfailRecover => true
  | .tempSample _ => true
  | .readBlockEnd _ _ _ r => decide (r.info.length ≤ 4192)
  | .verifyResult _ _ _ _ => true
  | .l1Done _ _ info => decide (info.length ≤ 4192)
  | .chFenceReq _ _ _ => true
  | .chBistMemory _ _ => true
  | .chBistAdc _ _ => true
  | .chBistLoopback _ _ => true
  | .chBistDecoder _ _ => true
  | .chBistAll _ _ => true
  | .chBistAbort _ _ => true
  | .chBistDone _ _ => true
  | .groupDispatch _ => true
  | .harvest _ => true
  | .trap _ => true
  | .nop _ => true
  | .issue _ => true
  | .issuew _ => true
  | .issuewAck _ => true
  | .issuewTimeout _ => true
  | .holdExpiry _ => true
  | .waita _ => true
  | .waitaReached _ => true
  | .waitc _ => true
  | .waitcMet _ => true
  | .waitcTimeout _ => true
  | .br _ => true
  | .jmp _ => true
  | .callOp _ => true
  | .ret _ => true
  | .loopOp _ => true
  | .ldc _ => true
  | .setf _ => true
  | .clrf _ => true
  | .evt _ => true
  | .trapret _ => true
  | .halt _ => true
  | .microcodeBoot _ _ => true
  | .microcodeInstall => true
  | .reconstructDone _ => true
  | .xtpFenceReq _ _ => true
  | .chunkCompressDone _ _ => true
  | .cmpOutputResume _ => true
  | .cryUnitDone _ => true
  | .decompressDone _ => true
  | .cmpFenceReq _ _ => true
  | .cryFenceReq _ _ => true
  | .commitRecordWrite _ _ _ => true
  | .checkpointDone => true
  | .copyInPlaceDone _ => true
  | .journalReplay _ => true
  | .bufInitDone => true
  | .sheepdogStep syn _ => syn.length == 8
  | .sheepdogRewrite _ => true
  | .dmaBurst _ => true
  | .dmaPauseWrite _ _ => true
  | .dmaPauseDrained _ => true
  | .mapFillDone _ syn => syn.length == 8
  | .mapClean _ => true
  | .mapCleanInv _ => true
  | .mapZero _ => true
  | .mapLockFill _ => true
  | .mapCleanAll _ => true
  | .mapCleanInvAll _ => true
  | .mapMaintDone => true
  | .mapDisable _ => true
  | .mapDisableDone => true
  | .bufDiagWrite _ _ => true
  | .locatorIndexBuildDone _ _ _ => true
  | .perstAssert => true
  | .perstDeassert => true
  | .functionLevelReset => true
  | .hotReset => true
  | .hqiEnable _ => true
  | .hqiDisable _ => true
  | .gwEnable _ => true
  | .gwDisable _ => true
  | .gwPollPass => true
  | .summaryReadDone words => present words (fun l => l.length == 64)
  | .summarySwapDone _ _ => true
  | .swapTimeout _ => true
  | .doorbellPageReadDone page => present page (fun l => l.length == 128)
  | .descriptorReadDone _ entries => present entries (fun l => between 1 8 l.length && l.all (fun e => e.length == 64))
  | .completionPost => true
  | .cqFullPoll => true
  | .holdTimeout _ _ => true
  | .identify _ => true
  | .createQp _ => true
  | .deleteQp _ => true
  | .getLog _ => true
  | .getCounters _ => true
  | .setRights _ => true
  | .abortCmd _ => true
  | .selfTestShort _ => true
  | .selfTestExtended _ => true
  | .selfTestAbort _ => true
  | .setPowerState _ => true
  | .domainsOff _ => true
  | .domainsOn _ => true
  | .domainSwitchDone => true
  | .powerPark _ => true
  | .powerUnpark _ => true
  | .spinUp _ => true
  | .spinDown _ => true
  | .locateOn _ => true
  | .locateOff _ => true
  | .safeRemovalRequest _ => true
  | .safeRemovalCancel _ => true
  | .microcodeLoad _ image => image != []
  | .sanitizeCryptoEraseAll _ => true
  | .sanitizeCryptoEraseRange _ => true
  | .sanitizeOverwrite _ => true
  | .fabricQuery _ => true
  | .readBlocks _ _ => true
  | .verifyBlocks _ _ => true
  | .zoneWrite _ _ => true
  | .zoneAppend _ _ => true
  | .zoneOpen _ _ => true
  | .zoneClose _ _ => true
  | .zoneFinish _ _ => true
  | .zoneReset _ _ => true
  | .zoneOffline _ _ => true
  | .zoneReport _ _ => true
  | .flush _ _ => true
  | .peerMove _ _ => true
  | .convRead _ _ => true
  | .convWrite _ _ => true
  | .authChallenge _ => true
  | .authResponse _ role _ sig => between 1 3 role.toNat && sig.length == 96
  | .authEnd _ _ => true
  | .authSetKey _ role _ key sig => between 1 3 role.toNat && key.length == 96 && sig.length == 96
  | .integrate _ key => key.length == 96
  | .claim _ key _ sig => key.length == 96 && sig.length == 96
  | .returnLifecycle _ => true
  | .decommission _ => true
  | .consent _ seconds => decide (seconds.toNat ≤ 86400)
  | .commitSvn _ _ => true
  | .keysCreate _ _ _ => true
  | .keysLock _ _ => true
  | .keysUnlock _ _ => true
  | .keysDestroy _ _ => true
  | .keysSetConv _ _ => true
  | .keysQuery _ => true
  | .peercertAnchor _ key => key.length == 96
  | .peercertDeviceKey _ => true
  | .peercertCert _ cert => cert.length == 216
  | .firmwareChunk _ _ bytes => between 1 65536 bytes.length
  | .firmwareFinish _ _ _ _ => true
  | .mailboxGo _ => true
  | .mailboxRelease _ => true
  | .mailboxTimeout => true
  | .sessionIdleTimeout _ => true
  | .challengeExpiry _ _ => true
  | .consentExpiry => true
  | .lockoutExpiry _ => true
  | .entropyHealthFail => true
  | .portTrained _ => true
  | .trainingTimeout _ => true
  | .helloTick _ => true
  | .hello _ _ _ _ _ _ => true
  | .heartbeatTick => true
  | .heartbeat _ _ => true
  | .delayTick => true
  | .delayReq _ _ _ => true
  | .delayResp _ _ _ _ _ => true
  | .linkPacket _ _ _ p => decide (p.payload.length ≤ 4096)
  | .linkNak _ _ => true
  | .ackTimeout _ => true
  | .portDown _ _ => true
  | .partnerWaitExpiry => true
  | .upHoldExpiry _ => true
  | .lsaTick => true
  | .lsa _ l => decide (l.nbrs.length ≤ 5)
  | .lsaExpiry _ _ => true
  | .routeCompute => true
  | .routeInstallDone => true
  | .takeover _ _ => true
  | .phaseRef _ _ _ => true
  | .tokenReq _ _ _ _ => true
  | .tokenGrant _ => true
  | .tokenReturn _ _ _ _ => true
  | .ledgerQuery _ => true
  | .ledgerHeld _ _ _ => true
  | .dbHint _ => true
  | .rmaRead _ addr len _ => decide (addr.toNat % 4 = 0) && between 4 65536 len.toNat && decide (len.toNat % 4 = 0)
  | .gwPcieReadDone _ _ _ _ _ data => decide (data.length ≤ 65536)
  | .rmaWrite _ _ data => between 1 4080 data.length
  | .rmaIrq _ _ => true
  | .rmaRdata _ _ _ _ _ data => decide (data.length ≤ 4088)
  | .e2eAck _ _ => true
  | .e2eRetxTimeout _ => true
  | .gwRetryTick => true
  | .gwHoldExpiry => true
  | .mgmtRd _ off len => decide (off.toNat % 4 = 0) && between 4 64 len.toNat && decide (len.toNat % 4 = 0)
  | .mgmtWr _ _ off data => decide (off.toNat % 4 = 0) && between 1 16 data.length
  | .mgmtRsp _ _ data => decide (data.length ≤ 16)
  | .pmOpen _ _ _ _ _ pub cert sig => pub.length == 96 && cert.length == 216 && sig.length == 96
  | .pmAccept _ _ pub cert sig => pub.length == 96 && cert.length == 216 && sig.length == 96
  | .pmData _ _ _ ct tag => decide (ct.length ≤ 4096) && tag.length == 16
  | .pmDone _ _ _ _ _ => true
  | .pmRefuse _ _ _ => true
  | .pmSessionTimeout _ => true
  | .portFenceReq _ _ _ => true
  | .canaryTick => true
  | .canaryWindow _ _ => true
  | .handoverNFall _ => true
  | .ownPeerReleaseTimeout => true
  | .sideBPowerupTimeout => true
  | .ownCheck _ => true
  | .handoverPullRelease => true
  | .takeoverSendAsDrive _ => true
  | .takeoverRebuildDone => true
  | .pairAck _ => true
  | .alignFrame _ _ _ => true
  | .selectFrame _ _ _ _ _ _ => true
  | .pairData _ _ _ => true
  | .jrnl _ rec => rec.length == 64
  | .qstate _ _ => true
  | .cfgFrame _ _ _ => true
  | .snapshotFrame _ _ => true
  | .pairFrameRetry => true
  | .alignSend => true
  | .alignLate => true
  | .yield _ => true
  | .yieldHandover => true
  | .faultRaise _ => true
  | .fltStatusClear _ _ _ => true
  | .faultPinPulseEnd => true
  | .maskWindowEnd _ => true
  | .evrRecordWritten _ => true
  | .auditCopyDone => true
  | .reserveCopyDone => true
  | .pmcSnapTake _ => true
  | .pmcPreset _ _ => true
  | .partReset => true
  | .partResetWrite _ => true
  | .aonReady _ _ _ _ => true
  | .readyBoundExpiry _ => true
  | .idleTimeout => true
  | .darkEntry => true
  | .darkWake _ => true
  | .attnRelease _ => true
  | .attnLongPress => true
  | .locateTimeout => true
  | .removalSafe => true
  | .prepTimeout => true
  | .latchRise => true
  | .prsntRise => true
  | .surpriseEnd => true
  | .genSave _ => true
  | .genClear _ => true
  | .saveDone _ => true
  | .smbWrite off data _ => decide (off.toNat % 4 = 0) && between 1 7 data.length
  | .smbSetRead off len _ => decide (off.toNat % 4 = 0) && between 1 7 (len.toNat / 4) && decide (len.toNat % 4 = 0)
  | .smbRead _ => true
  | .smbStatus _ => true
  | .palAck _ _ => true
  | .palStatus _ _ => true
  | .palAckTimeout _ _ => true
  | .pcieLinkUp _ _ => true
  | .pcieLinkDown => true
  | .hostDataReadDone _ _ _ => true
  | .powerUpSelfTests _ _ _ => true
  | .partResetDelayExpiry => true

end Sys2Proof
end

