-- ==== Sys2Proof/Tests/Slice0.lean ====
section
/-! SUPPORT. Small tests: ill-formed commands that `wellFormed` refuses, the spec's worked figures, and for every statement of
Certificates/Slice0/Obligations.lean a witness, `witness_<Name>`, that its hypotheses can be met, clause by clause. -/
namespace Sys2Proof.Tests
open Sys2Proof Sys2Proof.Machine
set_option Elab.async false

/-- A short list of zero bytes. -/
def zb (n : Nat) : List Byte := List.replicate n 0
/-- A packet of one zero byte and a link header of zeros. -/
def pkt0 : Pkt := ⟨0, 0, 0, 0, 0, 0, 0, 0, []⟩
def hdr0 : LinkHdr := ⟨0, 0, 0, false, false, 0, 0⟩
def boss0 : Writer := ⟨.pcie, 0, 0⟩

/-! Ill-formed commands: one for each check of `wellFormed`, which it refuses. -/
theorem test_illFormed_media :
    wellFormed (.index 0) = false ∧ wellFormed (.speedLock 0) = false ∧
    wellFormed (.rplCommit 0 (List.replicate 6145 ⟨0, ⟨0, 0, 0, 0, 0, 0, 0, 0, 0, 0, 0, 0, false⟩, .host, 0⟩)) = false ∧
    wellFormed (.registerWrite boss0 2 [0]) = false ∧ wellFormed (.registerWrite boss0 4 []) = false ∧
    wellFormed (.registerWrite boss0 4 (List.replicate 17 0)) = false ∧
    wellFormed (.sysrecStage .mbox 0 []) = false ∧
    wellFormed (.readBlockEnd 0 false 0 ⟨none, none, false, 0, zb 4193, false, 0⟩) = false ∧
    wellFormed (.l1Done 0 true (zb 4193)) = false ∧ wellFormed (.sheepdogStep (zb 7) true) = false ∧
    wellFormed (.mapFillDone 0 (zb 9)) = false := by decide +kernel
theorem test_illFormed_host :
    wellFormed (.summaryReadDone (some [])) = false ∧ wellFormed (.doorbellPageReadDone (some [])) = false ∧
    wellFormed (.descriptorReadDone 0 (some [])) = false ∧ wellFormed (.descriptorReadDone 0 (some [zb 63])) = false ∧
    wellFormed (.microcodeLoad 0 []) = false ∧ wellFormed (.smbWrite 1 [0] true) = false ∧
    wellFormed (.smbWrite 0 [] true) = false ∧ wellFormed (.smbSetRead 2 4 true) = false ∧
    wellFormed (.smbSetRead 0 32 true) = false ∧ wellFormed (.smbSetRead 0 6 true) = false := by decide +kernel
theorem test_illFormed_security :
    wellFormed (.authResponse .mbox 0 0 (zb 96)) = false ∧ wellFormed (.authResponse .mbox 4 0 (zb 96)) = false ∧
    wellFormed (.authResponse .mbox 1 0 (zb 95)) = false ∧ wellFormed (.authSetKey .mbox 0 0 (zb 96) (zb 96)) = false ∧
    wellFormed (.authSetKey .mbox 1 0 (zb 95) (zb 96)) = false ∧ wellFormed (.authSetKey .mbox 1 0 (zb 96) (zb 97)) = false ∧
    wellFormed (.integrate .mbox (zb 95)) = false ∧ wellFormed (.claim .mbox (zb 95) 0 (zb 96)) = false ∧
    wellFormed (.claim .mbox (zb 96) 0 (zb 95)) = false ∧ wellFormed (.consent .mbox 86401) = false ∧
    wellFormed (.peercertAnchor .mbox (zb 97)) = false ∧ wellFormed (.peercertCert .mbox (zb 215)) = false ∧
    wellFormed (.firmwareChunk .mbox 0 []) = false := by decide +kernel
theorem test_illFormed_read : wellFormed (.gwPcieReadDone 0 0 0 0 true (zb 65537)) = false :=
  decide_eq_false (p := (List.replicate 65537 (0 : Byte)).length ≤ 65536) (by rw [List.length_replicate]; decide)
theorem test_illFormed_fabric :
    wellFormed (.linkPacket 0 hdr0 .good { pkt0 with payload := zb 4097 }) = false ∧
    wellFormed (.lsa 0 ⟨0, 0, 0, 0, 0, 0, List.replicate 6 ⟨0, 0, 0, 0⟩⟩) = false ∧
    wellFormed (.rmaRead 0 2 4 0) = false ∧ wellFormed (.rmaRead 0 0 0 0) = false ∧ wellFormed (.rmaRead 0 0 6 0) = false ∧
    wellFormed (.rmaWrite 0 0 []) = false ∧ wellFormed (.rmaWrite 0 0 (zb 4081)) = false ∧
    wellFormed (.rmaRdata 0 0 0 true 0 (zb 4089)) = false ∧
    wellFormed (.mgmtRd 0 2 4) = false ∧ wellFormed (.mgmtRd 0 0 0) = false ∧ wellFormed (.mgmtRd 0 0 6) = false ∧
    wellFormed (.mgmtWr 0 0 1 [0]) = false ∧ wellFormed (.mgmtWr 0 0 0 []) = false ∧
    wellFormed (.mgmtRsp 0 0 (List.replicate 17 0)) = false ∧ wellFormed (.pmOpen 0 0 0 0 0 [] (zb 216) (zb 96)) = false ∧
    wellFormed (.pmOpen 0 0 0 0 0 (zb 96) [] (zb 96)) = false ∧ wellFormed (.pmOpen 0 0 0 0 0 (zb 96) (zb 216) []) = false ∧
    wellFormed (.pmAccept 0 0 [] (zb 216) (zb 96)) = false ∧ wellFormed (.pmAccept 0 0 (zb 96) [] (zb 96)) = false ∧
    wellFormed (.pmAccept 0 0 (zb 96) (zb 216) []) = false ∧ wellFormed (.pmData 0 0 0 (zb 4097) (zb 16)) = false ∧
    wellFormed (.pmData 0 0 0 [] (zb 15)) = false ∧ wellFormed (.jrnl 0 (zb 63)) = false := by decide +kernel

/-! The spec's own worked figures. -/
/-- 02, "encoding one Ewe-32 position": the TGN, the scrambler seed and the first scrambled byte, 0x54. -/
theorem test_scrambler : tgnOf 0 0 0x1000 = 0x1000 ∧ scrSeed 0x1000 300 = 0x2AA2AB86 ∧
    (scramble 0x1000 300 [1]).take 8 = [false, true, false, true, false, true, false, false] := by decide +kernel
/-- 02, the same example: header bytes 0 to 27. -/
theorem test_header : hdrBytes 0 3 5120 85922 0x1000 1000001 9417 0 = [0x01, 0, 3, 0, 0, 0x14, 0, 0, 0xA2, 0x4F, 1, 0,
    0, 0x10, 0, 0, 0x41, 0x42, 0x0F, 0, 0xC9, 0x24, 0, 0, 0, 0, 0, 0] := by decide +kernel
/-- 02, "one column symbol": the two parity symbols. -/
theorem test_parity : gfX 0 = 0xC0 ∧ parity30 1 0xC0 = 0xB4 ∧ parity31 1 0xC0 = 0xB5 := by decide +kernel
/-- The state of 18's SMBus example: side A in INTEGRATION, an installer session open on SMBus, registers at reset. -/
def smbExample : State :=
  { State.reset with
    nv.life := .integration
    sec.sessions := [⟨0, .installer, .smbus, 0⟩] }
/-- 18, "setting and keeping a pair limit", steps 3 to 5: the refused AUTO bit, the new limit and the ignored-write record. -/
theorem test_pairLimit : ∃ t, exec (.smbWrite 0x0C00 [0x2000] true) smbExample = .next t ∧ t.gen.smbStatus = 4 ∧
    t.regValue 0x0C00 = 0x2002 ∧ t.regValue 0x0014 = 0x84000C00 ∧ t.ctr 189 = 1 :=
  ⟨_, rfl, by decide +kernel⟩
/-- 12, R331: a packet of a type no table lists is no known type; 01: AC per revolution. -/
theorem test_seekBins : seekBin 0 = 0 ∧ seekBin 1 = 1 ∧ seekBin 2 = 2 ∧ seekBin 3 = 2 ∧ seekBin 2097152 = 22 := by decide
/-- 01, R17: the pair of registers read after one read of ATB_NOW_AC. -/
theorem test_nowPair : ∃ t, exec .atbNowAcRead { State.reset with atb.ac := 100, atb.rev := 7 } = .next t ∧
    t.regValue 0x1008 = 100 ∧ t.regValue 0x100C = 7 := ⟨_, rfl, by decide +kernel⟩
/-- An empty queue in LOCKED lets the shaft turn by one count (log 1). -/
theorem test_tick : ∃ t, step { State.reset with atb.st := .locked, atb.ac := 9 } = .next t ∧ t.atb.ac = 10 :=
  ⟨_, rfl, by decide +kernel⟩

/-! Witnesses: for every statement, states and operands that meet its hypotheses, clause by clause. -/
/-- A running drive: ATB and spindle locked, the core on, the actuators following. -/
def run0 : State :=
  { State.reset with
    atb.st := .locked
    spn.st := .locked
    pwr.aon := true
    pwr.core := true
    pwr.on := 0x3FFF
    pwr.ready := 0x3FFFFF
    srv.acts := (List.range 4).map (fun n => (n, { ActSt.init with st := .following, heads := [BitVec.toFin (BitVec.ofNat 6 (16 * n))] })) }
def spin (st : SpnState) : State := { State.reset with spn.st := st }
/-- The angle word with track 0, index `k` and its check. -/
def angle0 (k : Nat) : BitVec 48 := BitVec.ofNat 48 (k * 16384 + angleCheck k)

theorem witness_AngleReadLatchesRevolution : State.reset.atb.st = .stopped := by decide
theorem witness_ReadsThatClearAndCoast : run0.atb.st = .locked ∧ ({ run0 with atb.st := .coast } : State).atb.st = .coast := by
  decide
theorem witness_ReferenceWordKeepsPhase :
    let w : BitVec 48 := angle0 3
    angleOk w = true ∧ (run0.act 0).st.tracks = true ∧ run0.flag 0x1000 12 = true ∧ run0.refAct = some 0 ∧
    (angDiff (run0.shaftOf 0 (4096 * angleK w)) 12288).natAbs ≤ run0.fld 0x1000 0 8 ∧
    ¬ (angDiff (run0.shaftOf 0 (4096 * angleK w)) (12288 + 65)).natAbs ≤ run0.fld 0x1000 0 8 ∧
    ({ run0 with atb.st := .acquire, atb.lastK := some 2 } : State).refAct = some 0 ∧
    some (2 : BitVec 10) = some (BitVec.ofNat 10 (angleK w) - 1) ∧ (none : Option (BitVec 10)) ≠ some (BitVec.ofNat 10 (angleK w) - 1) ∧
    ({ run0 with atb.st := .coast } : State).refAct = some 0 := by
  decide +kernel
theorem witness_MotorLinkFrames :
    (mdlOk 0 = false ∧ State.reset.pwr.rstPend = false) ∧
    (∀ k ∈ [8, 9, 10], mdlOk (mdlFrame k 1 5) = true ∧ bitsOf (mdlFrame k 1 5).toNat 52 4 = k) ∧
    ({ State.reset with mdl.lastType := 8 } : State).mdl.lastType ≠ 0 ∧ State.reset.pwr.core = false ∧
    (run0.pwr.core = true ∧ run0.shadow = false) ∧ State.reset.spn.mdlLost = false := by
  decide +kernel
theorem witness_PreheatAndSpinUp :
    let c : State := { spin .preheat with spn.temp := BitVec.ofNat 16 (65536 - 520) }
    let h : State := { spin .preheat with spn.temp := 50 }
    (c.spn.tempBad = false ∧ c.tempC < c.thresh) ∧ (h.spn.tempBad = false ∧ h.thresh ≤ h.tempC) ∧
    (let b : State := { spin .preheat with spn.tempBad := true, spn.preheatS := 899 }; b.fld 0x1C08 12 12 ≤ b.spn.preheatS + 1) ∧
    (let b : State := { spin .preheat with spn.preheatS := 900 }; b.spn.tempBad = false ∧ b.spn.preheatS = b.fld 0x1C08 12 12) ∧
    (-600 ≤ ofTwos 16 (BitVec.ofNat 16 1400).toNat ∧ ofTwos 16 (BitVec.ofNat 16 1400).toNat ≤ 1400) ∧
    (-600 ≤ ofTwos 16 (BitVec.ofNat 16 (65536 - 600)).toNat) ∧ 1400 < ofTwos 16 (BitVec.ofNat 16 1401).toNat ∧
    ofTwos 16 (BitVec.ofNat 16 (65536 - 601)).toNat < -600 ∧ (spin .align).spn.st = .align ∧ (spin .ramp).spn.st = .ramp ∧
    (let b : State := { State.reset with spn.retryWait := true, spn.attempts := 2, spn.wanted := true };
      b.spn.retryWait = true ∧ b.spn.attempts < 3 ∧ b.spn.wanted = true) ∧
    (let b : State := { State.reset with spn.retryWait := true, spn.attempts := 3 }; b.spn.retryWait = true ∧ 3 ≤ b.spn.attempts) := by
  decide +kernel
theorem witness_TokensAndLedger :
    (let s : State := { spin .waitToken with fab.boss := 0x30, fab.addr := 0x35 };
      s.waitsToken = true ∧ s.shadow = false ∧ s.fab.noaddr = false ∧ s.fab.boss ≠ 0 ∧ s.fab.boss ≠ s.fab.addr) ∧
    (let s : State := { run0 with spn.token := true, fab.boss := 0x30, fab.addr := 0x35 };
      s.spn.token = true ∧ s.spn.solo = false ∧ s.spn.st = .locked ∧ s.fab.boss ≠ 0 ∧ s.fab.boss ≠ s.fab.addr) ∧
    (let s : State := { run0 with spn.token := true, spn.solo := true }; s.spn.token = true ∧ s.spn.solo = true ∧ s.spn.st = .locked) ∧
    (let s : State := { State.reset with ledger.office := true, ledger.held := [3] };
      s.ledger.office = true ∧ s.ledger.held.contains 3 = true ∧ (s.spn.token && 3 == s.slotNo) = false ∧ s.ledger.queue = []) ∧
    (let s : State := { spin .changing with spn.token := true };
      s.ledger.office = false ∧ s.spn.token = true ∧ (s.spn.st = .align ∨ s.spn.st = .ramp ∨ s.spn.st = .changing)) ∧
    (let s : State := { State.reset with ledger.office := true, ledger.holdoff := true }; s.ledger.office = true ∧ s.ledger.holdoff = true) ∧
    (let s := spin .waitToken; s.spn.token = false ∧ (∀ n < 5, (s.port n).st ≠ .up) ∧ s.spn.before = none) ∧
    (let s : State := { State.reset with ledger.office := true, fab.addr := 0x30 };
      s.inShelf 0x35 = true ∧ (3#8).toNat = s.fab.addr.toNat / 16 ∧ s.ledger.office = true ∧ s.ledger.queue.contains 5 = false ∧
      s.ledger.held.contains 5 = false ∧ s.ledger.holdoff = false ∧ s.ledger.held.length < s.fld 0x1C1C 0 5 ∧ s.ledger.queue = [] ∧
      5 ≠ s.slotNo) ∧
    (let s : State := { State.reset with ledger.office := true, fab.addr := 0x30, ledger.held := [1, 2, 3, 4] };
      s.inShelf 0x35 = true ∧ s.ledger.queue.contains 5 = false ∧ s.ledger.held.contains 5 = false ∧
      s.fld 0x1C1C 0 5 ≤ s.ledger.held.length) ∧
    (let s : State := { spin .waitToken with fab.addr := 0x31 }; s.inShelf 0x30 = true ∧ s.spn.token = false ∧ s.spn.before = none) ∧
    (let s : State := { spin .changing with fab.addr := 0x31 }; s.inShelf 0x30 = true ∧ s.spn.ramping = false ∧ s.spn.token = false) := by
  decide +kernel
theorem witness_SpeedLockPhaseAndPowerFailure :
    (spin .ramp).spn.st = .ramp ∧
    (let s : State := { run0 with spn.offCnt := 16, spn.period := 11111111 };
      s.spn.st = .locked ∧ 16 ≤ s.spn.offCnt ∧ (raise 10 (s.draw.lockEnds raise)).spn.st = .locked ∧
      s.spn.period * s.lastFld 0x1C00 0 13 ≤ 120000000000) ∧
    (let s : State := { run0 with spn.offCnt := 16, spn.period := 33333333 };
      (raise 10 (s.draw.lockEnds raise)).spn.st = .locked ∧ 120000000000 < s.spn.period * s.lastFld 0x1C00 0 13) ∧
    (let s : State := { spin .stopping with mdl.mode := 3 }; s.spn.st = .stopping ∧ s.mdl.mode = 3 ∧ s.spn.wanted = false) ∧
    (let s : State := { spin .changing with spn.ramping := true, spn.newRpm := some 7200 };
      s.spn.st = .changing ∧ s.spn.ramping = true ∧ s.spn.newRpm = some 7200) ∧
    (let s : State := { run0 with ledger.office := true }; s.ledger.office = true ∧ s.spn.st = .locked ∧ s.atb.st = .locked) ∧
    (let s : State := { run0 with fab.addr := 0x31 }; s.inShelf 0x30 = true ∧ s.flag 0x1C00 30 = true ∧
      (5400#16).toNat = s.lastFld 0x1C00 0 13) ∧
    State.reset.spn.pfailLow = false ∧
    (let s : State := { spin .pfail with spn.fenced := true, srv.acts := [] };
      s.spn.st = .pfail ∧ s.spn.pfailLow = false ∧ s.allParked = true ∧ s.svc.removal ≠ .surprise ∧ s.spn.fenced = true) ∧
    (let s : State := { spin .pfail with spn.before := some .off }; s.allParked = true ∧ s.spn.fenced = false ∧ s.spn.before = some .off) ∧
    (let s : State := { spin .pfail with spn.before := some .locked };
      s.allParked = true ∧ s.spn.fenced = false ∧ s.spn.before = some .locked) := by
  decide +kernel

/-- Calibration of actuator 0 with head 0 alone. -/
def calib0 : Calib := ⟨512, 0, 0, [], [⟨0, true, 0, 0, 0, 4096, 100, [(0, 0, 0)]⟩]⟩
def calHead0 : CalHead := ⟨0, true, 0, 0, 0, 4096, 100, [(0, 0, 0)]⟩
theorem witness_ServoSamplesAndLoops :
    (let s : State := { run0 with recs.cal := [(0, some calib0)] };
      (s.act 0).heads.contains 0 = true ∧ (s.act 0).st.tracks = true ∧ s.calib 0 = some calib0 ∧ s.calHead 0 = some calHead0) ∧
    (run0.act 0).heads.contains 1 = false ∧
    (let s := run0.modHead 0 (fun x => { x with coast := 4 });
      (s.act 0).heads.contains 0 = true ∧ (s.head 0).offTrack = false ∧ (s.act 0).st.tracks = true ∧ s.fld 0x1800 12 4 < (s.head 0).coast) ∧
    (let s := run0.modAct 0 (fun a => { a with st := .seeking, seek := some (2, 100, 3) });
      (s.act 0).st = .seeking ∧ (s.act 0).seek = some (2, 100, 3)) ∧
    (State.reset.flag 0x1800 31 = true ∧ State.reset.srv.shock = false) ∧
    (∀ k ∈ [1, 2], (({ run0 with srv.acts := [] } : State).modAct 0 (fun a => { a with st := .loading, tries := k })).act 0 =
      { ActSt.init with st := .loading, tries := k }) ∧
    (let s := State.reset.modAct 0 (fun a => { a with retryWait := true, tries := 2 });
      (s.act 0).retryWait = true ∧ (s.act 0).st = .parked ∧ (s.act 0).tries < 3) ∧
    (let s := State.reset.modAct 0 (fun a => { a with retryWait := true, tries := 3 });
      (s.act 0).retryWait = true ∧ (s.act 0).st = .parked ∧ 3 ≤ (s.act 0).tries) ∧
    (∀ k ∈ [0#4, 15#4], let s : State := { State.reset with srv.sswBusy := true, srv.sswOp := 1, srv.sswStop := k };
      s.srv.sswBusy = true ∧ s.srv.sswOp = 1 ∧ s.srv.sswStop = k) := by
  decide +kernel

/-- Context 0 running a routine, with `w` as its next microword. -/
def uop (w : Word) : State :=
  ({ State.reset with seq.micro := [(0, w)] } : State).modCtx 0 (fun c => { c with st := .run, running := true })
/-- A slot of kind `k` for head 0 of its actuator, in state `st`. -/
def slotK (k : BitVec 4) (st : SlotSt) (ready : Bool) : Slot :=
  { e := ⟨k, 0, 20000, 5, 0, 0, 0, 0, 0, 0, 0, 0, false⟩, ready := ready, st := st, due := false, cls := .host, work := 1,
    cut := false, disp := false, vfyArm := false, dma := 1, ofs := 0, res := false }
/-- A running drive with one slot in the active bank of channel 0. -/
def oneSlot (sl : Slot) : State := { run0 with seq.banks := [(0, [sl])] }
def group0 : Group := ⟨20000, 1, 1, false, 0, 0⟩

theorem witness_MicroOpsBranchCountAndFlag :
    (∀ k ∈ List.range 16, ((uop (BitVec.ofNat 32 (k * 2 ^ 28))).ctx 0).harvest = none ∧
      (uop (BitVec.ofNat 32 (k * 2 ^ 28))).atOp 0 k = true) ∧
    (uop 0x50000000).flagVal 0 0 = bitOf (0x50000000#32).toNat 27 ∧ ¬ (uop 0x58000000).flagVal 0 0 = bitOf (0x58000000#32).toNat 27 ∧
    (∀ n ∈ [3, 4], let s := (uop 0x70000000).modCtx 0 (fun c => { c with stack := List.replicate n 7 });
      s.atOp 0 7 = true ∧ (s.ctx 0).stack.length = n) ∧
    (let s := (uop 0x80000000).modCtx 0 (fun c => { c with stack := [9] }); s.atOp 0 8 = true ∧ (s.ctx 0).stack = [9]) ∧
    (let s := uop 0x80000000; (s.ctx 0).stack = [] ∧ (s.ctx 0).frame = none) ∧
    bitsOf (0xA0010005#32).toNat 24 2 = 0 ∧ ((uop 0xD0000000).ctx 0).group = none := by
  decide +kernel
theorem witness_NanoWordsAndWaits :
    (∀ k ∈ [1, 2], let s := uop (BitVec.ofNat 32 (k * 2 ^ 28));
      (s.ctx 0).harvest = none ∧ s.atOp 0 k = true ∧ (s.ctx 0).hold = 0 ∧ bitsOf (tget 0 s.seq.nano 0).toNat 96 8 = 0) ∧
    (let s : State := { uop 0x10000000 with seq.nano := [(0, BitVec.ofNat 160 (2 ^ 96))] };
      s.atOp 0 1 = true ∧ (s.ctx 0).hold = 0 ∧ bitsOf (tget 0 s.seq.nano (bitsOf (s.uword 0).toNat 16 11)).toNat 96 8 ≠ 0) ∧
    (let s := (uop 0x10000000).modCtx 0 (fun c => { c with hold := 3 }); s.atOp 0 1 = true ∧ (s.ctx 0).hold ≠ 0) ∧
    (let s := (uop 0x20000005).modCtx 0 (fun c => { c with wait := .ack }); (s.ctx 0).wait = .ack ∧ bitsOf (s.uword 0).toNat 0 16 ≠ 0) ∧
    (let s := (uop 0x30000000).modCtx 0 (fun c => { c with group := some group0 });
      s.atOp 0 3 = true ∧ (s.ctx 0).group = some group0 ∧ (s.posn : Int) ≤ s.waitTarget 0 group0 0 0 ∧
      s.waitTarget 0 group0 0 0 < (({ s with atb.ac := 20001 } : State).posn : Int)) ∧
    (let s : State := (({ run0 with seq.micro := [(0, 0x30000000)], atb.ac := 500 } : State).modCtx 0 (fun c => { c with wait := .angle 500 }));
      (s.ctx 0).wait = .angle 500 ∧ 500 ≤ s.posn) ∧
    (let s : State := (run0.modCtx 0 (fun c => { c with wait := .angle 500 }));
      (s.ctx 0).wait = .angle 500 ∧ s.posn < 500 ∧ s.spinning = true ∧ 500 / 4194304 = s.atb.rev.toNat) ∧
    ((uop 0x40000000).atOp 0 4 = true ∧ (uop 0x40000000).flagVal 0 0 = bitOf (0x40000000#32).toNat 27) ∧
    ((uop 0x48000000).atOp 0 4 = true ∧ (uop 0x48000000).flagVal 0 0 ≠ bitOf (0x48000000#32).toNat 27) ∧
    (let s := (uop 0x40000007).modCtx 0 (fun c => { c with wait := .flag 0 false });
      (s.ctx 0).wait = .flag 0 false ∧ s.flagVal 0 0 = false ∧ bitsOf (s.uword 0).toNat 0 16 ≠ 0) := by
  decide +kernel
theorem witness_DispatchHarvestTrapsAndMicrocode :
    (let s := ({ oneSlot { slotK 3 .planned true with due := true } with seq.micro := [] } : State).modCtx 0 (fun c => { c with st := .idle });
      (s.ctx 0).alive = true ∧ (s.ctx 0).running = false ∧ (s.ctx 0).trapDue = false ∧ (s.ctx 0).harvest = none ∧
      (s.nextGroup 0).map (·.2) = some true) ∧
    (let s := (State.reset.modCtx 0 (fun c => { c with st := .idle })).modCh 0 (fun c => { c with rq := [⟨false, 0, false, true, false, false, 0, 0, 0, 0⟩] });
      (s.ctx 0).alive = true ∧ (s.ctx 0).running = false ∧ (s.ctx 0).trapDue = false ∧ (s.ctx 0).frame = none ∧
      (s.ctx 0).harvest = none ∧ (s.harvestHead 0).isSome = true ∧ s.nextGroup 0 = none) ∧
    (let s := (uop 0x80000000).modCtx 0 (fun c => { c with harvest := some (0, .none, false), hcount := 31 });
      (s.ctx 0).harvest.isSome = true ∧ s.atOp 0 8 = true ∧ (s.ctx 0).hcount < 32) ∧
    (∀ k ∈ [1#4, 2#4, 4#4, 8#4], ((uop 0).modCtx 0 (fun c => { c with traps := k })).ctx 0 |>.trapDue) ∧
    (let f : Frame := ⟨3, 0, 0, 0, [], 0, .none, true⟩
     let s := (uop 0xE0000000).modCtx 0 (fun c => { c with frame := some f });
      (s.ctx 0).harvest = none ∧ s.atOp 0 14 = true ∧ (s.ctx 0).frame = some f) ∧
    ((uop 0xE0000000).atOp 0 14 = true ∧ ((uop 0xE0000000).ctx 0).frame = none) ∧
    (let s : State := { State.reset with pwr.core := true }; s.ready 3 = false ∧ s.domainCore = true) ∧
    (let s : State := { run0 with seq.pendImg := some ([1], 7) };
      s.seq.pendImg = some ([1], 7) ∧ s.seqQuiet = true ∧ s.spinning = true ∧ s.atb.ac = 0) := by
  decide +kernel
/-- A block of zone 0 in group 0, all zeros. -/
def info0 : List Byte := blockInfo (hdrBytes 0 0 0 0 0 0 0 0) (zb 4096)
theorem info0_ok : info0.length = 4128 ∧ infoOk info0 = true ∧ infoTgn info0 = 0 := ⟨(Laws.blockInfo_ok _ _ (by decide) (by decide) (by decide +kernel)).1,
  (Laws.blockInfo_ok _ _ (by decide) (by decide) (by decide +kernel)).2, by decide +kernel⟩
def work0 : Work := ⟨1, .host, 0, 0, 0, 0, 1, none, 0, 0, true, false, none⟩
theorem witness_ChannelResultsAndPreamplifierLinks :
    (let s := oneSlot (slotK 1 .executing true);
      s.slotAt (bankKey 0 false) 0 = some (slotK 1 .executing true) ∧ isReadKind 1 = true ∧
      256 = 192 + s.fld (chReg 0 0xC) 16 8 ∧ 12 = s.fld (chReg 0 8) 16 4 ∧
      tgnOf 0 (slotK 1 .executing true).e.hs.toNat (slotK 1 .executing true).e.trk.toNat = 0 ∧ (s.ch 0).rq.length < 16) ∧
    (let s := (oneSlot (slotK 2 .executing true)).modCh 0 (fun c => { c with vfy := [(false, 0, false)] });
      (false, 0, false) ∈ (s.ch 0).vfy ∧ (∀ v ∈ (s.ch 0).vfy, v.1 = false → v.2.1 = 0 → v = (false, 0, false)) ∧
      s.slotAt (bankKey 0 false) 0 = some (slotK 2 .executing true) ∧ 240 = s.fld (chReg 0 0x10) 0 10 ∧ 6 = s.fld (chReg 0 0x10) 16 4 ∧ (s.ch 0).rq.length < 16) ∧
    (let s : State := { run0 with rpl.work := [work0], rcv.l1 := [(0, [(0, 1, false)])] };
      tget [] s.rcv.l1 0 = [(0, 1, false)] ∧ s.workOf 1 = some work0) ∧
    (let s := State.reset.modCh 0 (fun c => { c with bist := true, bistTest := 15 }); (s.ch 0).bist = true ∧ (s.ch 0).testReq = false) ∧
    palOk 0 = false ∧ (palOk (palFrame 9 1 0 0) = true ∧ palCmd (palFrame 9 1 0 0) = 9) ∧
    (palOk (palFrame 8 1 0 0) = true ∧ palCmd (palFrame 8 1 0 0) = 8) ∧
    (∀ m ∈ [1, 2], ((State.reset.modAct 0 (fun x => { x with palWait := [(1, 5, m)] })).act 0).palWait.find? (fun w => w.1 == 1) =
      some (1, 5, m)) := by
  decide +kernel
theorem witness_PlannerAndSlotTimes :
    (run0.spinning = true ∧ run0.rpl.planning ≠ some (run0.atb.rev + 1) ∧ run0.atb.ac.toNat ≤ 4194304 - run0.fld 0x1708 0 21) ∧
    (let s : State := { run0 with rpl.planning := some 0 }; s.rpl.planning = some s.atb.rev) ∧
    (let s : State := { run0 with rpl.planning := some 1 };
      s.rpl.planning = some (s.atb.rev + 1) ∧ (∀ q < 4, tget false s.seq.committed q = false) ∧ s.planOk 0 [] = true) ∧
    (∀ k ∈ [1#4, 2#4, 3#4], ∀ r ∈ [true, false], let s := oneSlot (slotK k .planned r);
      s.spinning = true ∧ s.dueSlots 0 20000 = [(0, 0)] ∧ s.slotAt 0 0 = some (slotK k .planned r)) ∧
    (let s : State := { oneSlot (slotK 1 .planned false) with rpl.waiting := [(0, false, 0)] };
      s.slotAt (bankKey 0 false) 0 = some (slotK 1 .planned false) ∧ s.rpl.waiting.contains (0, false, 0) = true ∧
      s.bufFree 5 (bankKey 0 false) 0 = true) ∧
    (let s := State.reset.modDma 3 (fun c => { c with busy := true });
      (s.dmaCh 3).busy = true ∧ (s.dmaCh 3).remain = 0 ∧ (s.dmaCh 3).dst = .none) ∧
    (let s := (oneSlot (slotK 1 .planned false)).modDma 0 (fun c => { c with busy := true, dst := .slot 0 false 0 });
      (s.dmaCh 0).busy = true ∧ (s.dmaCh 0).remain = 0 ∧ (s.dmaCh 0).dst = .slot 0 false 0 ∧
      s.slotAt (bankKey 0 false) 0 = some (slotK 1 .planned false) ∧ (s.dmaCh 0).poison = false ∧ s.workOf 1 = none) := by
  refine ⟨?_, ?_, ?_, ?_, ?_, ?_, ?_⟩ <;> decide +kernel
theorem witness_SlotsStartAndEnd :
    (∀ st ∈ [SlotSt.planned, .armed], ∀ k ∈ [1#4, 2#4, 3#4], let s := oneSlot (slotK k st true);
      s.slotAt (s.activeKey 0) 0 = some (slotK k st true) ∧ s.spinning = true ∧ (s.act 0).st = .following ∧
      (s.toAngle 20000).settledFor 0 (slotK k st true).e = false) ∧
    (let s := ((oneSlot (slotK 1 .armed true)).modAct 0 (fun a => { a with lastSet := some 0 })).modHead 0 (fun x => { x with rdSettled := true });
      s.slotAt (s.activeKey 0) 0 = some (slotK 1 .armed true) ∧ (s.toAngle 20000).settledFor 0 (slotK 1 .armed true).e = true) ∧
    (∀ v ∈ [true, false],
      let s := ((oneSlot (slotK 2 .armed true)).modAct 0 (fun a => { a with lastSet := some 0 })).modHead 0 (fun x => { x with wrSettled := true, valid := v });
      s.slotAt (s.activeKey 0) 0 = some (slotK 2 .armed true) ∧ (s.toAngle 20000).settledFor 0 (slotK 2 .armed true).e = true ∧
      ((s.toAngle 20000).modSlot (s.activeKey 0) 0 (fun x => { x with st := .executing })).mayWrite 0 = v) ∧
    (let s := oneSlot (slotK 2 .executing true);
      s.slotAt (s.pendKey 0) 0 = none ∧ s.slotAt (s.activeKey 0) 0 = some (slotK 2 .executing true) ∧
      20000 + endSpan (s.slotBpr 0 (slotK 2 .executing true).e) < 4194304) := by
  decide +kernel

/-- A state with one session on PCIe. -/
def sess (r : Role) : State := { State.reset with sec.sessions := [⟨0, r, .pcie, 0⟩] }
theorem witness_RoleRefusedWritesChangeNothing :
    State.reset.pwr.st ≠ .dark ∧ State.reset.sessionFor boss0 [.installer] = none ∧ State.reset.sessionFor boss0 [.operator] = none ∧
    ({ State.reset with nv.life := .decommissioned } : State).nv.life = .decommissioned := by decide +kernel
theorem witness_AcceptedActionWritesAct :
    (sess .installer).pwr.st ≠ .dark ∧ (sess .installer).auditBlocked = false ∧
    (sess .installer).sessionFor boss0 [.installer] = some ⟨0, .installer, .pcie, 0⟩ ∧
    (let s : State := { sess .installer with nv.life := .integration };
      s.nv.life = .integration ∧ s.srv.sswBusy = false ∧ s.lastFld 0x1864 24 6 / 16 = 0) ∧
    (let s : State := { sess .installer with nv.life := .integration, srv.sswBusy := true }; s.nv.life = .integration ∧ s.srv.sswBusy = true) ∧
    (∀ b ∈ [true, false], let s := (sess .installer).modCh 15 (fun c => { c with fenced := true, bist := b });
      s.sessionFor boss0 [.installer] = some ⟨0, .installer, .pcie, 0⟩ ∧ (s.ch 15).fenced = true ∧ (s.ch 15).bist = b) ∧
    ((sess .installer).map.maint = none ∧ (sess .installer).map.disabling = false ∧ (sess .installer).map.fills = [] ∧
      (sess .installer).mapFind ((sess .installer).lastFld 0x300C 0 24) = none) ∧
    (let s := (sess .installer).putFld 0x3000 8 8 0x80;
      (List.range 8).any (fun k => s.wayLocked k && (s.mapWay (mapSet (s.lastFld 0x300C 0 24)) k).isNone) = true) ∧
    (let s : State := { (sess .installer).putFld 0x3000 8 8 0x80 with map.lines := [(0, some ⟨0, false⟩)] };
      (s.mapFind (s.lastFld 0x300C 0 24)).isSome = true ∧
      (List.range 8).any (fun k => s.wayLocked k && (s.mapWay (mapSet (s.lastFld 0x300C 0 24)) k).isNone) = true) ∧
    (∀ r ∈ [Role.installer, .operator], (sess r).sessionFor boss0 [.installer, .operator] = some ⟨0, r, .pcie, 0⟩) ∧
    (sess .operator).gen.saving = none ∧
    ((sess .operator).sessionFor boss0 [.operator] = some ⟨0, .operator, .pcie, 0⟩ ∧ (sess .operator).presetOk 0 = true) := by
  refine ⟨?_, ?_, ?_, ?_, ?_, ?_, ?_, ?_, ?_, ?_, ?_, ?_⟩ <;> decide +kernel
theorem witness_ActionWritesWithoutARole :
    ({ State.reset with pwr.st := .dark } : State).pwr.st = .dark ∧ State.reset.pwr.st ≠ .dark ∧ (1 : Word) ≠ 0 ∧
    (let s : State := { State.reset with sec.mbox.claim := some (.smbus, 0) }; s.mboxOther boss0 = true) ∧
    (State.reset.mboxOther boss0 = false ∧ State.reset.sec.mbox.busy = false) ∧
    (let s : State := { State.reset with sec.mbox.claim := some (.pcie, 0), sec.mbox.busy := true };
      s.mboxOther boss0 = false ∧ s.sec.mbox.busy = true) := by decide +kernel
theorem witness_AcceptedSettingWritesAct :
    (let s := sess .installer;
      s.pwr.st ≠ .dark ∧ s.sessionFor boss0 [.installer] = some ⟨0, .installer, .pcie, 0⟩ ∧ s.auditBlocked = false ∧
      s.sessionFor boss0 [.operator] = none ∧ s.lastFld 0x3000 8 8 ≠ 255 ∧ bitOf (s.lastWord 0x3000).toNat 0 = true ∧
      s.sessionFor boss0 [.maker, .installer] = some ⟨0, .installer, .pcie, 0⟩) ∧
    (sess .maker).sessionFor boss0 [.maker, .installer] = some ⟨0, .maker, .pcie, 0⟩ ∧
    (let s : State := { sess .operator with pair.paired := true, pair.owner := true, pair.peerAligned := true };
      s.sessionFor boss0 [.operator] = some ⟨0, .operator, .pcie, 0⟩ ∧ s.sessionFor boss0 [.installer] = none ∧
      s.auditBlocked = false ∧ s.mayYield = true) ∧
    (let s := State.reset.putFld 0x0428 0 4 1; s.pwr.st ≠ .dark ∧ s.lastFld 0x0428 0 4 ≠ 0) := by
  refine ⟨?_, ?_, ?_, ?_⟩ <;> decide +kernel
theorem witness_RegisterRequestsAndSmbus :
    (({ State.reset with pwr.st := .dark } : State).pwr.st = .dark ∧ darkReg 0x1000 = false) ∧ maxDwords .pcie < [0, 0, (0 : Word)].length ∧
    ((indexRow 0x0418).isSome = true ∨ isMapped 0x0418 = true) ∧
    ((indexRow 0x1800).isSome = true ∧ isMailbox 0x1800 = false ∧ (regAt 0x1800).isSome = true) ∧
    (State.reset.gen.smbNext = none) ∧
    (∀ n ∈ [4, 6], let b : Byte := BitVec.ofNat 8 n
      ({ State.reset with gen.smbNext := some (0x1008, b) } : State).gen.smbNext = some (0x1008, b)) := by
  decide +kernel
def job0 : ChunkJob := ⟨1, 0, 7, 16, 3, none, false, 0, []⟩
def loc0 : Locator := ⟨0, 0, 256, false, 3, 16, 0, 0, 7, 0⟩
/-- A command of queue pair `q` with opcode `o`. -/
def cmdOf (q : Fin 128) (o : Byte) (cp : List Word) : Cmd :=
  ⟨q, 7, o, 0, 0, 0, 0, 1, cp, 1, 0x3F, .fetched, none, 0, none, [], [], [], 0, none, 0, []⟩
def rec0 : RecEnt := ⟨1, false, 0, 0, 0, 6, 0, 0, false, none, 0, none, 0, 0, [], [], none⟩
theorem witness_ChunkPathUnits :
    (∀ b ∈ [true, false], let s : State := { (State.reset.modEngine 3 (fun e => { e with job := .compress 1 0 7 })).modDma 19 (fun c => { c with busy := b }) with cmp.jobs := [job0] };
      (s.engine 3).job = .compress 1 0 7 ∧ (s.engine 3).fenced = false ∧ (s.engine 3).stalled = false ∧ (s.dmaCh 19).busy = b ∧
      s.cmp.jobs.find? (fun j => j.zone == 1 && j.chunk == 0 && j.csec == 7) = some job0) ∧
    (paddedLen 65280 < 4096 * job0.nblk ∧ 4096 * job0.nblk ≤ paddedLen 65281) ∧
    (let s : State := { (State.reset.modZone 1 (fun z => { z with locs := [loc0] })).modEngine 0 (fun e => { e with job := .inflate 1 0 3 7 }) with
        hqi.cmds := [cmdOf 3 0x20 []] };
      (s.engine 0).job = .inflate 1 0 3 7 ∧ (s.engine 0).fenced = false ∧ s.cmd? 3 7 = some (cmdOf 3 0x20 []) ∧ s.locator 1 0 = some loc0) ∧
    (∀ d ∈ [true, false], let s : State := { State.reset with cry.lane := [(2, 1, 0, d)] };
      (s.dmaCh 22).busy = false ∧ s.cry.lane.find? (fun e => e.1 == 2) = some (2, 1, 0, d)) ∧
    ((State.reset.modDma 22 (fun c => { c with busy := true })).dmaCh 22).busy = true ∧
    (let s := State.reset.setRecList 0 [rec0]; s.xtp.fenced = false ∧ s.readyL6 0 = some rec0) ∧
    ({ State.reset with xtp.fenced := true } : State).xtp.fenced = true := by
  refine ⟨?_, ?_, ?_, ?_, ?_, ?_, ?_⟩ <;> decide +kernel
def unit0 : CUnit := ⟨9, false, 1, 0, 3, 7, false, 0, 0, 0, 0, 0, 0, [], 0, 0, 0, 0, 0, true, none, false, true, 0, [], 0, true, 1, []⟩
def conv0 : CUnit := ⟨9, true, 1, 0, 3, 7, false, 0, 0, 0, 0, 0, 0, [], 0, 0, 0, 0, 0, true, none, true, true, 0, [], 0, true, 1, []⟩
def ck0 : Ckpt := ⟨0, 0, [], [], []⟩
theorem witness_CommitsCheckpointsAndCopies :
    (∀ j ∈ [true, false], let s : State := { State.reset with cmp.units := [unit0], zon.jstop := j };
      s.unit? 9 = some unit0 ∧ s.mayCommit unit0 = true ∧ s.spn.pfailLow = false ∧ s.zon.jstop = j ∧ s.slotFree = true) ∧
    (let s : State := { State.reset with nv.journal := [(0, some (JRec.of 1 0))], nv.jseq := 1 }; s.slotFree = false) ∧
    ({ State.reset with spn.pfailLow := true } : State).spn.pfailLow = true ∧
    (let s : State := { State.reset with zon.ckptBusy := some ck0 }; s.zon.ckptBusy = some ck0 ∧ s.zon.jstop = false) ∧
    (let s : State := { State.reset with cmp.units := [conv0], zon.staged := [9, 10] };
      s.unit? 9 = some conv0 ∧ s.zon.staged.all (fun x => decide ((9#32).toNat ≤ x.toNat)) = true ∧ s.copiesDone conv0 = true ∧ s.zon.jstop = false ∧
      s.slotFree = true) ∧
    ({ State.reset with zon.builds := [1] } : State).zon.builds.contains 1 = true := by
  refine ⟨?_, ?_, ?_, ?_, ?_, ?_⟩ <;> decide +kernel
theorem witness_BufferDmaAndMapCache :
    (State.reset.flag 0x2804 0 = true ∧ ({ State.reset with pwr.ready := 4 } : State).ready 2 = true ∧ State.reset.buf.selfRefresh = false ∧
      State.reset.pwr.st ≠ .dark) ∧
    (let s : State := { State.reset with buf.ce := [(63, ⟨5, 16, 3, false⟩)] };
      s.buf.ce.find? (fun e => e.1 == 63) = some (63, ⟨5, 16, 3, false⟩) ∧ s.fld 0x2800 0 8 ≤ 16) ∧
    (let s : State := { State.reset with pwr.bufActive := true }; s.ready 2 = false ∧ s.buf.selfRefresh = false ∧ s.pwr.bufActive = true) ∧
    (let s := State.reset.modDma 0 (fun c => { c with busy := true, remain := 513, addr := 0x30000000 });
      s.dmaNext = some (0, false) ∧ (s.dmaCh 0).reads = false ∧ dmaAllowed 0 (s.dmaCh 0).addr (s.dmaCh 0).remain = true) ∧
    (let s := State.reset.modDma 0 (fun c => { c with busy := true, remain := 512, addr := 0x2FFFFFFF });
      s.dmaNext = some (0, false) ∧ dmaAllowed 0 (s.dmaCh 0).addr (s.dmaCh 0).remain = false) ∧
    (State.reset.putFld 0x2C00 31 1 1).flag 0x2C00 31 = true ∧
    (let s : State := { State.reset with map.fills := [(8191, true)] };
      s.map.fills.find? (fun f => f.1 == (8191#24).toNat) = some (8191, true) ∧ s.map.maint = none) ∧
    (∀ o ∈ [1#4, 2#4, 3#4, 8#4], let s : State := { State.reset with map.maint := some (o, 5) };
      s.map.fills = [] ∧ s.map.maint = some (o, 5)) ∧
    (let s : State := { State.reset with map.disabling := true }; s.map.disabling = true ∧ s.map.fills = []) := by
  refine ⟨?_, ?_, ?_, ?_, ?_, ?_, ?_, ?_, ?_⟩ <;> decide +kernel
theorem witness_FunctionResetsAndGatewayPolling :
    State.reset.hqi.perst = false ∧ ({ State.reset with pwr.on := 0x3FFF } : State).domainOn 5 = true ∧
    ({ State.reset with pwr.on := 0 } : State).domainOn 5 = false ∧ State.reset.flag 0x0400 1 = false ∧
    (let s := State.reset.putFld 0x0400 1 1 1; (5#4) ≠ 0 ∧ s.flag 0x0400 1 = true ∧ s.hqi.swapFail = false ∧ s.hqi.fenced = false ∧ s.hqi.gw = .off) ∧
    State.reset.flag 0x0400 0 = false ∧ (State.reset.putFld 0x0400 0 1 1).flag 0x0400 0 = true ∧
    ({ State.reset with hqi.gw := .waiting } : State).hqi.gw = .waiting ∧
    [(0 : BitVec 64), 0].all (fun w => decide (w = 0)) = true ∧
    (List.finRange 64).filter (fun w => (([(1 : BitVec 64)][w.val]?).getD 0) != 0) = [0] ∧
    (let s : State := { State.reset with hqi.gw := .swapping, hqi.words := [63] }; s.hqi.gw = .swapping ∧ s.hqi.words = [63]) := by
  refine ⟨?_, ?_, ?_, ?_, ?_, ?_, ?_, ?_, ?_, ?_, ?_⟩ <;> decide +kernel
def post0 : Post := ⟨3, 7, 0, 0, none, false⟩
def ring0 : State := State.reset.modQp 3 (fun x => { x with st := .active, log2 := 4 })
theorem witness_RingReadsAndCompletions :
    (let s : State := { State.reset with hqi.dbRead := true }; s.hqi.dbRead = true ∧ s.hqi.dbAgain = false) ∧
    ((ring0.qp 3).st = .active ∧ 15 < (ring0.qp 3).depth ∧ (ring0.qp 3).depth ≤ 16) ∧
    (let s := ring0.modQp 3 (fun x => { x with reading := some 1 }); (s.qp 3).reading = some [zb 64].length ∧ (s.qp 3).st = .active) ∧
    (let c : Cmd := { cmdOf 3 0x21 [] with need := 2 };
     let s : State := { ring0 with hqi.cmds := [c] }; s.cmd? 3 7 = some c ∧ c.need = 2 ∧ (zb c.len).length = c.len) ∧
    (let s : State := { ring0 with hqi.posts := [post0] }; s.nextPost = some post0 ∧ s.hqi.fenced = false ∧ s.mirroring = false) ∧
    (let s : State := { ring0 with hqi.posts := [post0], pair.paired := true, pair.owner := true, pair.mirrorOk := true };
      s.nextPost = some post0 ∧ s.hqi.fenced = false ∧ s.mirroring = true ∧ post0.told = false) ∧
    (let s : State := { ring0 with hqi.posts := [post0], hqi.fenced := true }; s.nextPost = some post0 ∧ s.hqi.fenced = true) ∧
    State.reset.nextPost = none ∧
    (let s : State := { ring0.modQp 3 (fun x => { x with cqTail := 15 }) with hqi.posts := [post0] };
      s.hqi.posts.any (fun p => !s.cqRoom p.qp.val) = true) ∧
    ({ ring0 with hqi.posts := [post0] } : State).hqi.posts.any (fun p => !ring0.cqRoom p.qp.val) = false := by
  refine ⟨?_, ?_, ?_, ?_, ?_, ?_, ?_, ?_, ?_, ?_⟩ <;> decide +kernel

/-- A drive that takes host commands: FIELDED, the conventional key range unlocked. -/
def host0 : State := { run0 with nv.life := .fielded, nv.ranges := [(0, ⟨2, false, 0⟩)] }
/-- The same with one outstanding command. -/
def withCmd (s : State) (c : Cmd) : State := { s with hqi.cmds := [c] }
/-- A geometry of one head and one single-head set; each data track holds two blocks. -/
def geom0 : Geom := ⟨1, 5400, 1024, [(0, 1)], [(0, 0, true)], [⟨256, 20971520, 8192, 2, 0, 0⟩], [⟨0, [0], 0, 0⟩], [(256, 1)], [], 0⟩
/-- Zone 0 in state `st` on actuator 0, with an open group of 64 positions and its write pointer at 0. -/
def zoned (st : ZState) : State :=
  ({ host0 with recs.geom := some geom0 } : State).modZone 0 (fun z => { z with
    st := st, groups := [⟨288, 0, 0, true, false, false, none, false⟩], oslot := some 0 })

theorem witness_HostCommandsAreTestedInOrder :
    (∀ x ∈ [(0x20, 0), (0x21, 0), (0x22, 0), (0x23, 1), (0x23, 5), (0x25, 0), (0x26, 0), (0x27, 0)],
      let c := cmdOf 3 (BitVec.ofNat 8 x.1) [0, 0, BitVec.ofNat 32 x.2, 0]
      let s := withCmd host0 c
      s.cmd? 3 7 = some c ∧ s.shadow = false ∧ c.unadmitted = true ∧ c.fin = none ∧ s.turn c = true ∧ s.retired c = false ∧
      s.fieldTest c = none ∧ s.lockTest c = false ∧ s.powerTest c = .pass ∧ s.fenceTest c = false) ∧
    (let c := cmdOf 3 0x20 []; ({ host0 with nv.life := .decommissioned } : State).retired c = true) ∧
    (let c : Cmd := { cmdOf 3 0x20 [] with count := 0 }; (withCmd host0 c).fieldTest c = some 32) ∧
    (let c := cmdOf 3 0x21 []; let s : State := { withCmd host0 c with nv.ranges := [(0, ⟨1, false, 0⟩)] };
      s.fieldTest c = none ∧ s.lockTest c = true) ∧
    (let c := cmdOf 3 0x20 []; let s : State := { withCmd host0 c with svc.removal := .preparing };
      s.lockTest c = false ∧ s.powerTest c = .stop 0x51 0) ∧
    (let c := cmdOf 3 0x20 []; let s : State := { withCmd host0 c with pwr.ready := 0 };
      s.lockTest c = false ∧ s.powerTest c = .hold ∧ s.needsOff c = false ∧ s.autoWake = false) ∧
    (let c := cmdOf 3 0x20 []; let s : State := { withCmd host0 c with flt.stop := true };
      s.lockTest c = false ∧ s.powerTest c = .pass ∧ s.fenceTest c = true) ∧
    (let c : Cmd := { cmdOf 3 0x24 [] with count := 64 }; (withCmd host0 c).admitTest c = .pass) ∧
    (∀ o ∈ [0x28, 0x29], let c := cmdOf 3 (BitVec.ofNat 8 o) []; let s : State := { zoned .opened with nv.convRange := some 0 };
      (withCmd s c).admitTest c = .pass ∧ (withCmd s c).turn c = true) := by
  refine ⟨?_, ?_, ?_, ?_, ?_, ?_, ?_, ?_, ?_⟩ <;> decide +kernel
theorem witness_AdmittedCommandsRun :
    (∀ st ∈ [ZState.opened, .offline], ∀ o ∈ [0x20, 0x26, 0x27], let c := cmdOf 3 (BitVec.ofNat 8 o) []; let s := withCmd (zoned st) c;
      s.cmd? 3 7 = some c ∧ s.turn c = true ∧ s.admitTest c = .pass ∧ (s.zone c.zone).st = st) ∧
    (∀ st ∈ [ZState.full, .readOnly, .offline, .opened, .closed], ∀ o ∈ [0x21, 0x22], let c := cmdOf 3 (BitVec.ofNat 8 o) []
      let s := withCmd (zoned st) c
      s.turn c = true ∧ s.admitTest c = .pass ∧ (s.zone c.zone).st = st) ∧
    (let c : Cmd := { cmdOf 3 0x21 [] with addr := 1 }; let s := withCmd (zoned .opened) c;
      s.admitTest c = .pass ∧ c.blk ≠ (s.zone c.zone).awp) ∧
    (let c : Cmd := { cmdOf 3 0x22 [] with count := 2 }; let s := withCmd ((zoned .opened).modZone 0 (fun z => { z with awp := 524287 })) c;
      s.admitTest c = .pass ∧ 524288 < (s.zone c.zone).awp + c.count.toNat) ∧
    (let c := cmdOf 3 0x22 []; let s := withCmd ((zoned .closed).putFld 0x000C 0 8 0) c;
      s.admitTest c = .pass ∧ s.openMax 0 ≤ s.openCount 0) ∧
    (let c := cmdOf 3 0x22 []; let s := withCmd (zoned .closed) c; s.admitTest c = .pass ∧ s.openCount 0 < s.openMax 0 ∧
      s.spaceFor 0 (s.needOf c.zone c.count.toNat) = true ∧ c.peer = false) ∧
    (let c : Cmd := { cmdOf 3 0x22 [] with count := 1024 }; let s := withCmd (zoned .opened) c; s.admitTest c = .pass ∧
      s.spaceFor 0 (s.needOf c.zone c.count.toNat) = false) ∧
    (∀ st ∈ [ZState.opened, .closed, .full, .readOnly], ∀ a ∈ [1, 2, 3, 4, 5], let c := cmdOf 3 0x23 [0, 0, BitVec.ofNat 32 a]
      let s := withCmd (zoned st) c
      s.turn c = true ∧ s.admitTest c = .pass ∧ c.pf 2 0 4 = a ∧ (s.zone c.zone).st = st) ∧
    (∀ o ∈ [0x24, 0x25], let c : Cmd := { cmdOf 3 (BitVec.ofNat 8 o) [] with count := 64 }; (withCmd host0 c).admitTest c = .pass ∧
      (withCmd host0 c).turn c = true) ∧
    (∀ o ∈ [0x28, 0x29], let c := cmdOf 3 (BitVec.ofNat 8 o) []; let s : State := { zoned .opened with nv.convRange := some 0 };
      (withCmd s c).admitTest c = .pass ∧ (withCmd s c).turn c = true) := by
  refine ⟨?_, ?_, ?_, ?_, ?_, ?_, ?_, ?_, ?_, ?_⟩ <;> decide +kernel
/-- A state with one command of queue pair 0. -/
def admin0 (o : Byte) (cp : List Word) : State := withCmd host0 (cmdOf 0 o cp)
theorem witness_AdminCommandsAnswer :
    (let s := admin0 0x01 []; s.cmd? 0 7 = some (cmdOf 0 0x01 []) ∧ s.shadow = false ∧ (cmdOf 0 0x01 []).fin = none ∧
      (cmdOf 0 0x01 []).st ≠ .running ∧ s.retired (cmdOf 0 0x01 []) = false) ∧
    (cmdOf 0 1 [1]).pf 0 0 8 ≠ 0 ∧
    (let c := cmdOf 0 2 [0, 0, 12, 127]; c.pf 3 0 7 ≠ 0 ∧ (host0.qp 127).st = .disabled ∧ c.addr.toNat % 4096 = 0 ∧
      (BitVec.ofNat 64 (c.p 0 + c.p 1 * 2 ^ 32)).toNat % 4096 = 0 ∧ 1 ≤ c.pf 2 0 4 ∧ c.pf 2 0 4 ≤ 12) ∧
    (12 < (cmdOf 0 2 [0, 0, 13, 127]).pf 2 0 4 ∧ (BitVec.ofNat 64 ((cmdOf 0 2 [4095]).p 0)).toNat % 4096 ≠ 0 ∧
      ((1 : BitVec 64)).toNat % 4096 ≠ 0) ∧
    ((cmdOf 0 3 [0, 0, 0, 3]).pf 3 0 7 = 3 ∧ (ring0.qp 3).st = .active ∧ (ring0.qp 4).st = .disabled) ∧
    ((cmdOf 0 4 [2]).pf 0 0 8 = 2 ∧ host0.anySession (.pcie, 0) = none ∧ 5 < (cmdOf 0 4 [6]).pf 0 0 8 ∧ (cmdOf 0 4 [1]).pf 0 0 8 = 1 ∧
      ({ cmdOf 0 4 [1] with count := 4 } : Cmd).count.toNat % 4 = 0 ∧ (sess .operator).anySession (.pcie, 0) ≠ none) ∧
    (({ cmdOf 0 5 [] with addr := 255 } : Cmd).addr.toNat ≤ 255 ∧ 255 + (cmdOf 0 5 []).count.toNat ≤ 256 ∧
      256 < 255 + ({ cmdOf 0 5 [] with count := 2 } : Cmd).count.toNat ∧ 255 < ({ cmdOf 0 5 [] with addr := 256 } : Cmd).addr.toNat) ∧
    (host0.session (.pcie, 0) .operator = none ∧ (sess .operator).session (.pcie, 0) .operator = some ⟨0, .operator, .pcie, 0⟩ ∧
      (sess .operator).auditBlocked = false ∧
      ({ State.reset with evr.degraded := true } : State).auditBlocked = true) ∧
    (host0.gen.selfTest = none ∧ (cmdOf 0 8 [2]).pf 0 0 4 = 2 ∧ (cmdOf 0 8 [15]).pf 0 0 4 = 15 ∧
      ({ host0 with gen.selfTest := some (9, true) } : State).gen.selfTest = some (9, true)) ∧
    (let c := cmdOf 0 7 [9, 0, 0, 3]; let x : Cmd := { cmdOf 3 0x20 [] with tag := 9 }
     let s : State := { host0 with hqi.cmds := [c, x] };
      s.cmd? 0 7 = some c ∧ s.cmd? (c.pf 3 0 7) (BitVec.ofNat 16 (c.pf 0 0 16)) = some x ∧ x.peer = false ∧ s.runsOn x = false) ∧
    (let x : Cmd := { cmdOf 0 7 [] with tag := 9 }; x.qp.val = 0 ∧ x.opc = 7 ∧ x.peer = false) ∧
    (let x : Cmd := { cmdOf 0 0x0E [] with st := .running }; host0.runsOn x = true ∧ x.peer = false) ∧
    (let s : State := { admin0 0x0D [] with sec.sessions := [⟨0, .operator, .pcie, 0⟩] };
      (s.loader (.pcie, 0)).toOption ≠ none ∧ s.readyCode [2, 3] = 0 ∧ (cmdOf 0 0x0D []).need = 0 ∧ s.seq.pendImg = none) ∧
    (host0.loader (.pcie, 0)).toOption = none := by
  refine ⟨?_, ?_, ?_, ?_, ?_, ?_, ?_, ?_, ?_, ?_, ?_, ?_, ?_, ?_⟩ <;> decide +kernel
/-- A security message on QP0, with sessions and challenges of PCIe. -/
def msg0 (life : Life) (send : Bool) (proto msg : Word) (cp2 cp3 : Word) (data : List Byte) (ss : List Session) : State :=
  { host0 with
    nv.life := life
    sec.sessions := ss
    sec.challenges := [⟨.pcie, 0, 0, 5⟩]
    hqi.cmds := [{ cmdOf 0 (if send then 9 else 10) [proto, msg, cp2, cp3] with
      data := data, count := BitVec.ofNat 32 (if send then data.length else 64) }] }
def op0 : Session := ⟨1, .operator, .pcie, 0⟩
def inst0 : Session := ⟨2, .installer, .pcie, 0⟩
theorem witness_SessionsByChallengeAndSignature :
    (let s := msg0 .fielded false 1 1 0 0 [] [];
      s.nv.life ≠ .decommissioned ∧ s.sec.error = false ∧ s.ready 1 = true ∧ s.msgIs (.qp0 7) false 1 1 = true ∧ s.viaLen (.qp0 7) = 64) ∧
    (let s := withCmd host0 { cmdOf 0 10 [1, 1] with count := 63 }; s.msgIs (.qp0 7) false 1 1 = true ∧ s.viaLen (.qp0 7) ≠ 64) ∧
    (let d : List Byte := [3, 0, 0, 0, 5, 0, 0, 0] ++ zb 96
     let s := msg0 .fielded true 1 2 0 0 d []
     s.msgIs (.qp0 7) true 1 2 = true ∧ s.viaData (.qp0 7) = d ∧ d.length = 104 ∧ zeros d 1 3 = true ∧ leAt d 0 1 = 3 ∧ leAt d 4 4 = 5 ∧
      d.drop 8 = zb 96 ∧ roleOf 3 = some .operator ∧ tget 0 s.sec.refuse 2 = 0 ∧ s.challenge (.pcie, 0) 5 = some ⟨.pcie, 0, 0, 5⟩ ∧
      s.freeSession = some 1 ∧ s.session (.pcie, 0) .operator = none) ∧
    (let s := msg0 .fielded true 1 2 0 0 [] [op0]; (s.session (.pcie, 0) .operator).isSome = true ∧ s.challenge (.pcie, 0) 6 = none) ∧
    (roleOf 0 = none ∧ roleOf 1 = some .maker ∧ ({ State.reset with sec.refuse := [(2, 1)] } : State).sec.refuse ≠ []) ∧
    (∀ ss ∈ [[], [op0]], let s := msg0 .fielded true 1 3 0 0 [] ss; s.msgIs (.qp0 7) true 1 3 = true ∧ s.anySession (.pcie, 0) = ss.head?) ∧
    (let d : List Byte := [3, 0, 0, 0, 5, 0, 0, 0] ++ zb 192
     let s := msg0 .fielded true 1 4 0 0 d [op0]
     s.msgIs (.qp0 7) true 1 4 = true ∧ d.length = 200 ∧ zeros d 1 3 = true ∧ (d.drop 8).take 96 = zb 96 ∧ d.drop 104 = zb 96 ∧
      (s.session (.pcie, 0) .operator).isSome = true ∧ s.auditBlocked = false) ∧
    (let s := msg0 .fielded true 1 4 0 0 [] []; (s.session (.pcie, 0) .operator).isSome = false ∧ s.auditBlocked = false) := by
  refine ⟨?_, ?_, ?_, ?_, ?_, ?_, ?_, ?_⟩ <;> decide +kernel
theorem witness_SessionTimersAndMailbox :
    State.reset.sec.consent = false ∧ ({ State.reset with sec.consent := true } : State).sec.consent = true ∧ (1 : Fin 4).val ≠ 0 ∧
    (3 : Fin 4).val ≠ 0 ∧ State.reset.sec.mbox.busy = false ∧ ({ State.reset with sec.mbox.busy := true } : State).sec.mbox.busy = true := by
  decide
theorem witness_KeyRangeMessages :
    (let s : State := { msg0 .fielded false 3 6 0 0 [] [] with hqi.cmds := [{ cmdOf 0 10 [3, 6] with count := 256 }] };
      s.msgIs (.qp0 7) false 3 6 = true ∧ s.viaLen (.qp0 7) = 256) ∧
    (∀ m ∈ [1, 2, 3, 4, 5], ∀ r ∈ [0, 255], let s := msg0 .fielded true 3 (BitVec.ofNat 32 m) (BitVec.ofNat 32 r) 0 [] [op0];
      s.viaCp (.qp0 7) 2 % 256 = r ∧ s.msgIs (.qp0 7) true 3 m = true ∧ (s.session (s.who (.qp0 7)) .operator).isSome = true ∧
      s.auditBlocked = false) ∧
    (let s := msg0 .fielded true 3 2 0 0 [] [inst0]; s.session (s.who (.qp0 7)) .operator = none ∧
      ((s.anySession (s.who (.qp0 7))).map (·.role.code)).getD 0 ≠ 3) ∧
    ((host0.range 0).st ≠ 0 ∧ (host0.range 255).st = 0 ∧ host0.nv.convRange ≠ some 0 ∧ host0.zonesOf 0 = 0) ∧
    (let s := msg0 .fielded true 3 2 0 0 [] [op0]; s.rangeBusy 0 (s.viaOrd (.qp0 7)) = false) ∧
    (let s : State := { host0 with cmp.units := [unit0] }; s.rangeBusy 0 2 = true) ∧ (zoned .opened).zonesOf 0 ≠ 0 ∧
    ({ host0 with evr.degraded := true, pwr.ready := 0 } : State).auditBlocked = true := by
  refine ⟨?_, ?_, ?_, ?_, ?_, ?_, ?_, ?_⟩ <;> decide +kernel

theorem witness_LifecycleMessages :
    (∀ x ∈ [(1, Life.blank, 96, [(⟨3, .maker, .pcie, 0⟩ : Session)]), (2, .integration, 196, [inst0]), (3, .fielded, 5, [op0]),
        (4, .fielded, 5, [op0]), (4, .integration, 5, [inst0])],
      let s := msg0 x.2.1 true 2 (BitVec.ofNat 32 x.1) 0 0 (zb x.2.2.1) x.2.2.2
      s.nv.life ≠ .decommissioned ∧ s.sec.error = false ∧ s.ready 1 = true ∧ s.msgIs (.qp0 7) true 2 x.1 = true ∧
      (s.viaData (.qp0 7)).length = x.2.2.1 ∧ s.auditBlocked = false ∧
      s.session (s.who (.qp0 7)) (if x.1 = 1 then .maker else if x.2.1 = .integration then .installer else .operator) = x.2.2.2.head?) ∧
    (let s := msg0 .fielded true 2 1 0 0 (zb 96) []; s.nv.life ∉ [Life.blank] ∧ s.session (s.who (.qp0 7)) .operator = none) ∧
    (let s := msg0 .integration true 2 2 0 0 (zb 96 ++ [5, 0, 0, 0] ++ zb 96) [inst0];
      BitVec.ofNat 32 (leAt (s.viaData (.qp0 7)) 96 4) = 5 ∧ s.challenge (inst0.chan, inst0.src) 5 = some ⟨.pcie, 0, 0, 5⟩ ∧
      s.challenge (inst0.chan, inst0.src) 6 = none) ∧
    ({ msg0 .fielded true 2 3 0 0 [] [op0] with evr.degraded := true, pwr.ready := 2 } : State).auditBlocked = true := by
  refine ⟨?_, ?_, ?_, ?_⟩ <;> decide +kernel
theorem witness_ConsentAndMinimumVersions :
    (∀ n ∈ [0, 86400, 86401], let s := msg0 .fielded true 2 5 (BitVec.ofNat 32 n) 0 [] [op0];
      s.msgIs (.qp0 7) true 2 5 = true ∧ s.viaCp (.qp0 7) 2 = n ∧ s.auditBlocked = false ∧
      s.session (s.who (.qp0 7)) .operator = some op0) ∧
    (msg0 .fielded true 2 5 0 0 [] []).session (.pcie, 0) .operator = none ∧
    (∀ fw ∈ [true, false], ∀ l ∈ [(Life.blank, [op0]), (.integration, [inst0]), (.fielded, [op0]), (.fielded, [])],
      let s := msg0 l.1 true 2 6 (if fw then 1 else 0) 0 [] l.2
      s.msgIs (.qp0 7) true 2 6 = true ∧ bitOf (s.viaCp (.qp0 7) 2) 0 = fw ∧
      (l.1 ≠ .blank → s.session (s.who (.qp0 7)) (if s.nv.life = .fielded then .operator else .installer) = l.2.head?)) := by
  refine ⟨?_, ?_, ?_⟩ <;> decide +kernel
/-- An empty relocation record of actuator 0 for `geom0`. -/
def rlt0 : List Byte := leBytes 4 0x544C5258 ++ [1] ++ zb 27
theorem witness_CertificatesFirmwareAndSystemRecords :
    (let s := withCmd host0 { cmdOf 0 10 [4, 2] with count := 104 }; s.msgIs (.qp0 7) false 4 2 = true ∧ s.viaLen (.qp0 7) = 104) ∧
    (∀ ss ∈ [[], [op0]], let s := msg0 .fielded true 4 1 0 0 (zb 96) ss; s.auditBlocked = false ∧ s.msgIs (.qp0 7) true 4 1 = true ∧
      (s.viaData (.qp0 7)).length = 96 ∧ s.session (s.who (.qp0 7)) .operator = ss.head?) ∧
    (let d : List Byte := [1] ++ zb 215; let s := msg0 .fielded true 4 3 0 0 d [op0]; s.msgIs (.qp0 7) true 4 3 = true ∧
      d.length = 216 ∧ leAt d 0 1 = 1 ∧ zeros d 1 7 = true) ∧
    (let s := msg0 .fielded true 5 1 9 0 [1] [op0]; s.loader (s.who (.qp0 7)) = .ok op0 ∧ s.msgIs (.qp0 7) true 5 1 = true ∧
      s.viaCp (.qp0 7) 2 = 9) ∧
    (let s := msg0 .fielded true 5 2 0 0 [1] []; s.loader (s.who (.qp0 7)) = .error 3 ∧ s.msgIs (.qp0 7) true 5 2 = true) ∧
    (let s : State := { host0 with nv.fwAlt := [(0, 1)] }; s.nv.fwAlt ≠ [] ∧ bitOf s.nv.revoked.toNat 7 = false ∧ ¬ 0 < s.nv.fsvnMin.toNat) ∧
    (∀ o ∈ [2097151, 2097152], let s := msg0 .integration true 6 1 (BitVec.ofNat 32 o) 0 [1] [inst0];
      s.msgIs (.qp0 7) true 6 1 = true ∧ s.viaCp (.qp0 7) 2 = o ∧ s.sysrecCause (s.who (.qp0 7)) 0 = 0) ∧
    ((msg0 .integration true 6 1 0 0 [1] []).sysrecCause (.pcie, 0) 0 = 3) ∧
    (let s : State := { msg0 .fielded true 6 2 3 32 [] [inst0] with
        recs.geom := some geom0, recs.area := (List.range 32).map (fun i => (i, (rlt0[i]?).getD 0)) };
      s.msgIs (.qp0 7) true 6 2 = true ∧ s.viaCp (.qp0 7) 2 = 3 ∧ s.viaCp (.qp0 7) 3 = 32 ∧
      (s.viaCmd (.qp0 7)).map (·.st) = some .fetched ∧ bitsOf 3 0 16 ∈ [1, 2, 3, 7] ∧ s.sysrecCause (s.who (.qp0 7)) 3 = 0 ∧
      s.checkRec 3 0 (s.areaBytes 32) = none ∧ s.fieldedRltOk 0 (s.areaBytes 32) = true ∧ s.recs.commit = none ∧
      ({ s with rcv.rlt := [⟨0, false, false, 1, 0xFF, 300, 0, 0, 0⟩] } : State).fieldedRltOk 0 (s.areaBytes 32) = false) ∧
    (host0.checkRec 3 0 [] = some 0 ∧ bitsOf 4 0 16 ∉ [1, 2, 3, 7]) ∧
    (let s := withCmd host0 { cmdOf 0 10 [6, 3, 3, 0] with count := 64 }; s.msgIs (.qp0 7) false 6 3 = true ∧ s.viaLen (.qp0 7) = 64) := by
  refine ⟨?_, ?_, ?_, ⟨rfl, by decide +kernel, by decide +kernel⟩, ⟨rfl, by decide +kernel⟩, ?_, ?_, ?_, ?_, ?_, ?_⟩ <;> decide +kernel
theorem witness_SystemRecordsLoadedAndWritten :
    (run0.recs.geom = none ∧ ((List.range 4).any (fun a => (run0.act a).st.tracks)) = true ∧
      ((({ run0 with recs.geom := none } : State).foundRec [] 1 0).recs.geom = none)) ∧
    (zoned .opened).recs.geom ≠ none ∧ State.reset.recs.commit = none ∧
    (let s : State := { State.reset with recs.commit := some (.mbox, 3, 0, []) }; s.recs.commit = some (.mbox, 3, 0, [])) := by
  refine ⟨?_, ?_, ?_, ?_⟩ <;> decide +kernel
/-- A SANITIZE command with action `a` and range `r`. -/
def san0 (a r : Word) (st : CmdSt) : Cmd := { cmdOf 0 0x0E [a, r] with st := st, fin := if st = .running then some (0, 3) else none }
theorem witness_SanitizeStepsInOrder :
    (∀ a ∈ [1, 2, 3], ∀ st ∈ [CmdSt.fetched, .running], let c := san0 (BitVec.ofNat 32 a) 0 st
      let s : State := { withCmd host0 c with sec.sessions := [op0] }
      s.cmd? 0 7 = some c ∧ c.opc = 0x0E ∧ c.pf 0 0 4 = a ∧ c.st = st ∧ s.zon.ckptBusy = none ∧ s.nv.life ≠ .decommissioned ∧
      s.session (.pcie, 0) .operator = some op0 ∧ (s.range 0).st ≠ 0 ∧ s.auditBlocked = false ∧ s.ready 9 = true ∧ s.ready 21 = true ∧
      (s.hqi.cmds.any (fun z => decide (z.ord < c.ord)) ||
        s.cmp.units.any (fun u => !u.committed && u.dead.isNone && decide (u.ord < c.ord))) = false ∧ bitsOf s.pwr.ready.toNat 12 4 ≠ 0) ∧
    ({ State.reset with zon.ckptBusy := some ck0 } : State).zon.ckptBusy ≠ none ∧ (host0.range 255).st = 0 ∧
    ({ host0 with pwr.ready := 0x1FFFFF } : State).ready 21 = false ∧ host0.session (.pcie, 0) .operator = none := by
  refine ⟨?_, ?_, ?_, ?_, ?_⟩ <;> decide +kernel
theorem witness_SelfTestsAndErrorState :
    State.reset.sec.error = false ∧ ({ State.reset with sec.error := true } : State).sec.error = true ∧ State.reset.ready 1 = false ∧
    run0.ready 1 = true := by decide +kernel
/-- A POWER CONTROL command with action `a` and parameter `m`. -/
def pow0 (a m : Word) : Cmd := cmdOf 0 0x0B [a, m]
theorem witness_PowerControlBegins :
    (∀ a ∈ [1, 2, 3, 4, 5, 6, 7], let c := pow0 (BitVec.ofNat 32 a) 0; let s := withCmd host0 c;
      s.cmd? 0 7 = some c ∧ c.opc = 0x0B ∧ s.shadow = false ∧ c.pf 0 0 4 = a ∧ c.st ≠ .waiting ∧ s.pwr.req = none ∧
      s.hqi.cmds.all (fun y => y.opc != 0x0B || decide (c.ord ≤ y.ord)) = true) ∧
    ({ pow0 1 0 with st := .waiting } : Cmd).st = .waiting ∧
    ({ host0 with pwr.req := some ⟨none, 0, 0, none, 0⟩ } : State).pwr.req.isSome = true ∧
    ((pow0 1 3).pf 1 0 2 = 3 ∧ host0.pwr.st ≠ .dark ∧ (pow0 1 0).pf 1 0 2 = 0 ∧ host0.pwr.st = .active) ∧
    (bitOf ((pow0 2 0x3FFF).pf 1 0 14) 5 = true ∧ (host0.putFld 0x0400 1 1 1).flag 0x0400 1 = true) ∧
    ((pow0 2 0).pf 1 0 14 = 0 ∧ (pow0 2 8).pf 1 0 14 ≠ 0 ∧ bitOf ((pow0 2 8).pf 1 0 14) 5 = false ∧ bitOf 8 3 = true ∧
      ((host0.modAct 3 (fun a => { a with st := .ssw })).act 3).st = .ssw ∧ (host0.act 3).st ≠ .ssw) := by
  refine ⟨?_, ?_, ?_, ?_, ?_, ?_⟩ <;> decide +kernel
theorem witness_PowerChangesStep :
    ((1 : BitVec 14) ≠ 0 ∧ host0.quiet 1 = false ∧ State.reset.quiet 1 = true ∧
      ({ host0 with pwr.req := some ⟨some 7, 1, 0, none, 0⟩ } : State).pwr.req = some ⟨some 7, 1, 0, none, 0⟩) ∧
    (∀ k ∈ [0, 1], ({ host0 with pwr.req := some ⟨some 7, 0, 8, none, k⟩ } : State).pwr.req = some ⟨some 7, 0, 8, none, k⟩) ∧
    (∀ k ∈ [0, 1], let s : State := { host0 with pwr.req := some ⟨none, 0, 0, some .dark, k⟩ };
      s.pwr.req = some ⟨none, 0, 0, some .dark, k⟩ ∧ s.cmp.units.any (fun u => !u.committed && u.dead.isNone) = false ∧ s.zon.ckptBusy = none) ∧
    ([unit0].any (fun u => !u.committed && u.dead.isNone) = true) ∧
    (let s := host0.putFld 0x5000 0 16 1; s.pwr.st = .active ∧ s.fld 0x5000 0 16 ≠ 0 ∧ s.pwr.req = none ∧
      (List.range 4).all s.actQuiet = true) ∧
    State.reset.fld 0x5000 0 16 = 0 ∧ State.reset.pwr.darkPend = false ∧
    (∀ b ∈ [true, false], let s : State := { State.reset with pwr.darkPend := true, flt.stop := b };
      s.pwr.darkPend = true ∧ s.allSent = true ∧ s.flt.stop = b) ∧
    (let c : Cmd := { cmdOf 3 0x20 [] with st := .held }; (withCmd host0 c).cmd? 3 7 = some c ∧ c.st = .held) ∧ host0.cmd? 3 7 = none := by
  refine ⟨?_, ?_, ?_, ?_, ?_, ?_, ?_, ?_, ?_, ?_⟩ <;> decide +kernel
def ev0 : Ev := ⟨0x1000, 1, 0xFF, false, false, false, 0, 0, 0, [0, 0, 0, 0, 0]⟩
theorem witness_FaultsEventsAndLogs :
    ((0 : Fin 128).val ≠ 64 ∧ (127 : Fin 128).val ≠ 65) ∧ ({ State.reset with flt.pulsing := true } : State).flt.pulsing = true ∧
    State.reset.flt.pulsing = false ∧ State.reset.evr.queue = [] ∧
    (∀ d ∈ [true, false], let s : State := { run0 with evr.queue := [ev0], evr.degraded := d };
      s.domainCore = true ∧ s.evr.queue = [ev0] ∧ s.evr.degraded = d) ∧
    ((State.reset.nv.audit.filter (fun x => !x.2)).map (·.1) = [] ∧
      (([(ev0, false)].filter (fun x => !x.2)).map (·.1) ≠ []) ∧ bitsOf run0.pwr.ready.toNat 12 4 ≠ 0) ∧
    (bitsOf State.reset.pwr.ready.toNat 12 4 = 0 ∧ [(ev0, false)].find? (fun x => !x.2) = some (ev0, false)) := by
  refine ⟨?_, ?_, ?_, ?_, ?_, ?_, ?_⟩ <;> decide +kernel

/-- Port `n` in state `st`. -/
def portS (n : Nat) (st : PortSt) : State := State.reset.modPort n (fun q => { q with st := st })
theorem witness_PortsComeUpAndGoDown :
    (∀ n ∈ [0, 4], ∀ st ∈ [PortSt.training, .hello, .up], ((portS n st).port n).st = st) ∧
    ((1 : BitVec 64) ≠ State.reset.nv.nodeId ∧ ((portS 0 .hello).port 0).delays = [] ∧
      (((portS 0 .hello).modPort 0 (fun q => { q with nodeId := 1, delays := [9] })).port 0).nodeId ≠ State.reset.nv.nodeId ∧
      (((portS 0 .hello).modPort 0 (fun q => { q with nodeId := 1, delays := [9] })).port 0).delays ≠ []) ∧
    (((portS 0 .hello).port 0).nodeId = State.reset.nv.nodeId ∧ ((portS 0 .hello).port 0).nport = 0 ∧
      ¬ (((portS 0 .hello).port 0).nodeId = State.reset.nv.nodeId ∧ ((portS 0 .hello).port 0).nport = 1)) ∧
    (16 ≤ (((portS 0 .up).modPort 0 (fun q => { q with again := 16 })).port 0).again ∧ ((portS 0 .up).port 0).again < 16) ∧
    (({ portS 0 .up with flt.fenced := 1 <<< 48 } : State).restartSt 0 = .fenced ∧ (portS 0 .up).portEnabled 0 = false) := by
  refine ⟨?_, ?_, ?_, ?_, ?_⟩ <;> decide +kernel
theorem witness_LanesTickTogether : ∀ n : Fin 5, (State.reset.port n.val).st ≠ .up := by decide +kernel
def lsa0 : Lsa := ⟨0x31, 0, 9, 0, 0, 0, []⟩
theorem witness_LinkStateAndRoutes :
    State.reset.fab.noaddr = false ∧ ({ State.reset with fab.noaddr := true } : State).fab.noaddr = true ∧
    (∃ l ∈ ({ State.reset with fab.lsas := [lsa0] } : State).fab.lsas, l.origin = 0x31 ∧ l.nodeId = 9) ∧
    (∀ l ∈ State.reset.fab.lsas, ¬ (l.origin = 0x31 ∧ l.nodeId = 9)) ∧ run0.domainCore = true ∧ State.reset.fab.computed = none ∧
    (∀ b ∈ [true, false], let s : State := { State.reset with fab.computed := some [], pwr.routeWake := b };
      s.fab.computed = some [] ∧ (({ s with fab.routes := [], fab.computed := none } : State).event 0x8004 1 [0, 0]).pwr.routeWake = b) ∧
    ({ State.reset with fab.addr := 0x30 } : State).isMine 0x30 = true ∧ State.reset.isMine 0x30 = false := by
  refine ⟨?_, ?_, ⟨lsa0, ?_⟩, ?_, ?_, ?_, ?_, ?_, ?_⟩ <;> decide +kernel
/-- A module of a pair. -/
def pair0 (owner sideB : Bool) : State := { State.reset with pair.paired := true, pair.owner := owner, pair.sideB := sideB }
theorem witness_OwnershipChangesHands :
    (let s := pair0 false true; s.pair.paired = true ∧ s.pair.sideB = true ∧ s.pair.peerLow = false ∧ s.pair.owner = false) ∧
    (let s := pair0 true true; s.pair.paired = true ∧ s.pair.owner = true ∧ s.pair.sideB = true) ∧
    (∀ b ∈ [true, false], ({ pair0 true true with pair.pulling := b } : State).pair.pulling = b) ∧
    (({ pair0 true true with pfr.takeStep := 1 } : State).pfr.takeStep = 1 ∧ State.reset.pfr.takeStep ≠ 1) ∧
    (let s : State := { pair0 true false with pfr.takeStep := 3 }; s.pfr.takeStep ≠ 0 ∧ s.pair.owner = true) ∧
    (∀ t ∈ [0, 5], ∀ u ∈ [[], [((1 : BitVec 16), (0 : Byte), ([] : List Byte))]],
      let s : State := { pair0 true false with pair.yielding := true, pfr.takeStep := t, pfr.unacked := u };
      s.pair.yielding = true ∧ s.seq.banks.all (fun e => e.2.all (·.isOver)) = true ∧ s.pfr.takeStep = t ∧ s.pfr.unacked = u) := by
  refine ⟨?_, ?_, ?_, ?_, ?_, ?_⟩ <;> decide +kernel
theorem witness_CanariesCrossTheBridge :
    (let s : State := { portS 4 .up with pair.paired := true }; s.pair.paired = true ∧ (s.port 4).st = .up) ∧
    (canaryOf (some 0xA70200)).or (canaryOf none) = some 2 ∧ (canaryOf none).or (canaryOf (some 0xA50000)) = some 0 ∧
    (canaryOf (some 0xA60200)).or (canaryOf none) = none ∧ (pair0 true false).pair.goodRun + 1 ≠ 1000 ∧
    (pair0 true false).pair.missRun ≠ 7 ∧
    (∀ o ∈ [true, false], let s : State := { pair0 o false with pair.missRun := 7 }; s.pair.missRun = 7 ∧ s.pair.owner = o) ∧
    (let s := ({ pair0 false false with pair.missRun := 7, pair.aligned := true } : State).putFld 0x0C00 1 1 1;
      s.flag 0x0C00 1 = true ∧ s.pair.aligned = true ∧ s.pair.noPull = false) ∧ (pair0 false false).pair.aligned = false := by
  refine ⟨?_, ?_, ?_, ?_, ?_, ?_, ?_, ?_, ?_⟩ <;> decide +kernel
theorem witness_PairFramesInSequence :
    (pair0 true false).pair.paired = true ∧ (pair0 true false).pfr.snap = none ∧ State.reset.pfr.unacked = [] ∧
    (∀ n ∈ [3, 4], let s : State := { pair0 true false with pfr.unacked := [(1, 0, [])], pfr.reps := n };
      s.pfr.unacked ≠ [] ∧ s.pfr.reps = n) ∧
    (pair0 false false).pair.owner = false ∧ (∃ n < 4, ((run0).act n).st ≠ .parked) ∧
    (let s := pair0 false false; s.pfr.fenced = false ∧ (1 : BitVec 16) = s.pfr.pack + 1 + 1 - s.pfr.pack - 1 ∧
      ((0 : BitVec 16) = s.pfr.pack + 1 ∨ (2 : BitVec 16) ≠ s.pfr.pack + 1) ∧ 32768 ≤ (s.pfr.pack - 2).toNat ∧
      (s.pfr.pack - 0xFFFE).toNat < 32768 ∧ (0xFFFE : BitVec 16) ≠ s.pfr.pack + 1) ∧
    ({ pair0 false false with pfr.fenced := true } : State).pfr.fenced = true ∧
    recOk [] = false ∧ recOk (zb 60 ++ leBytes 4 (crc32c (zb 60))) = true ∧
    (0 + ([5] : List Byte).length ≤ memTop ∧ memTop - 1 + ([5] : List Byte).length ≤ memTop) := by
  refine ⟨?_, ?_, ?_, ?_, ?_, ⟨0, ?_⟩, ?_, ?_, ?_, ?_, ?_⟩ <;> decide +kernel
theorem witness_PowerUpAndReset :
    (∀ b ∈ [true, false], ({ State.reset with pwr.aon := b } : State).pwr.aon = b) ∧
    readyBound 20 = none ∧ readyBound 0 = some 5 ∧ readyBound 21 = some 2000 ∧ State.reset.ready 0 = false ∧ run0.ready 21 = true ∧
    (∀ b ∈ [true, false], ({ State.reset with pwr.rstPend := b } : State).pwr.rstPend = b) ∧ State.reset.gen.saving = none ∧
    ({ State.reset with gen.saving := some ([], []) } : State).gen.saving = some ([], []) ∧ State.reset.ready 2 = false ∧
    (let s : State := { host0 with recs.geom := some geom0, pwr.ready := 0x1FFFFF };
      s.ready 2 = true ∧ s.recs.geom.isSome = true ∧ s.ready 21 = false) := by
  refine ⟨?_, ?_, ?_, ?_, ?_, ?_, ?_, ?_, ?_, ?_, ?_⟩ <;> decide +kernel
/-- An ENCLOSURE SERVICE command of action `a`. -/
def enc0 (a : Word) : Cmd := cmdOf 0 0x0C [a]
theorem witness_ButtonLocateAndRemoval :
    (∀ p ∈ [0, 1, 2], (State.reset.putFld 0x5400 0 2 p).policy = p) ∧
    (∀ b ∈ [true, false], ({ State.reset with svc.longDone := b } : State).svc.longDone = b) ∧
    (∀ r ∈ [Removal.normal, .preparing, .safe, .surprise], ({ State.reset with svc.removal := r } : State).svc.removal = r) ∧
    State.reset.fld 0x5400 16 8 ≠ 0 ∧ (State.reset.putFld 0x5400 16 8 0).fld 0x5400 16 8 = 0 ∧
    (∀ a ∈ [1, 2, 3, 4], let c := enc0 (BitVec.ofNat 32 a); let s := withCmd host0 c
      s.cmd? 0 7 = some c ∧ c.opc = 0x0C ∧ s.shadow = false ∧ c.fin = none ∧ c.st ≠ .running ∧ s.retired c = false ∧ c.pf 0 0 4 = a) := by
  refine ⟨?_, ?_, ?_, ?_, ?_, ?_⟩ <;> decide +kernel
def pm0 (src : Bool) (step : Nat) : PmSess := ⟨5, 0x31, src, step, if src then some (3, 7) else none, [], 0, [], 0, 0, 0, 0⟩
theorem witness_GatewayServesRemoteModules :
    (State.reset.flag 0x0400 1 = false ∧ (State.reset.putFld 0x0400 1 1 1).flag 0x0400 1 = true) ∧
    (let s := (((State.reset.putFld 0x0400 1 1 1).putFld 0x0878 0 32 4095).putFld 0x087C 0 32 0);
      s.flag 0x0400 1 = true ∧ s.rmaWithin 0 4096 = true ∧ s.rmaWithin 1 4096 = false) ∧
    (let s : State := { State.reset with fab.serving := [(0x31, 4, 0, 8)] };
      s.fab.serving.find? (fun x => x.1 == 0x31 && x.2.1 == 4) = some (0x31, 4, 0, 8) ∧
      s.fab.serving.find? (fun x => x.1 == 0x31 && x.2.1 == 5) = none) ∧
    (let s : State := { State.reset with fab.rtags := [(4, .page, [], false)] };
      s.fab.rtags.find? (fun x => x.1 == 4) = some (4, .page, [], false) ∧ s.fab.rtags.find? (fun x => x.1 == 5) = none ∧
      (0 : BitVec 12) = s.gw ∧ (1 : BitVec 12) ≠ s.gw) ∧
    (let s : State := { State.reset with pwr.st := .dark }; s.pwr.st = .dark ∧ s.flag 0x5000 30 = true ∧
      (s.putFld 0x5000 30 1 0).flag 0x5000 30 = false ∧ (s.putFld 0x5000 30 1 0).pwr.st = .dark) ∧ run0.pwr.st ≠ .dark ∧
    ((16 : Byte).toNat % 4 = 0 ∧ (6 : Byte).toNat % 4 ≠ 0) := by
  refine ⟨?_, ?_, ?_, ?_, ?_, ?_, ?_⟩ <;> decide +kernel
theorem witness_PeerMoveSessions :
    (8 ≤ (List.replicate 8 (pm0 false 3)).length ∧ ((List.replicate 8 (pm0 false 3)).filter (fun x => !x.isSrc)).length = 8 ∧
      (State.reset.fab.pm.filter (fun x => !x.isSrc)).length < 8) ∧
    (∀ st ∈ [1, 3], let s : State := { State.reset with fab.pm := [pm0 true st] };
      s.pmFind true 0x31 5 = some (pm0 true st) ∧ (pm0 true st).step = st ∧ s.pmFind false 0x31 5 = none) ∧
    (∀ st ∈ [3, 4], let s : State := { State.reset with fab.pm := [pm0 false st] };
      s.pmFind false 0x31 5 = some (pm0 false st) ∧ (pm0 false st).step = st ∧ s.pmFind true 0x31 5 = none ∧
      s.fab.pm.find? (fun x => !x.isSrc && x.num == 5 && x.step != 4) = if st = 3 then some (pm0 false st) else none) ∧
    (let c := cmdOf 3 0x27 []; let s : State := { withCmd host0 c with fab.pm := [pm0 true 3] };
      s.pmFind true 0x31 5 = some (pm0 true 3) ∧ (pm0 true 3).cmd = some (3, 7) ∧ s.cmd? 3 7 = some c) := by
  refine ⟨?_, ?_, ?_, ?_⟩ <;> decide +kernel
theorem witness_DeliveryEndToEndAndLinks :
    (let s := State.reset.modTx 0x31 (fun x => { x with unacked := [{ pkt0 with seq := 4 }] });
      (s.tx 0x31).unacked.filter (fun p => decide (2 ^ 31 ≤ ((3 : Word) - p.seq).toNat)) = (s.tx 0x31).unacked ∧
      (s.tx 0x31).unacked.filter (fun p => decide (2 ^ 31 ≤ ((4 : Word) - p.seq).toNat)) ≠ (s.tx 0x31).unacked ∧
      (s.tx 0x31).unacked ≠ [] ∧ (s.tx 0x31).tries < s.fld 0x0860 0 4 ∧ (s.tx 0x32).unacked = []) ∧
    (let s := State.reset.modTx 0x31 (fun x => { x with unacked := [pkt0], tries := 4 });
      (s.tx 0x31).unacked ≠ [] ∧ s.fld 0x0860 0 4 ≤ (s.tx 0x31).tries) ∧
    (∀ b ∈ [true, false], ({ State.reset with fab.gwDown := b } : State).fab.gwDown = b) ∧
    ((State.reset.tx State.reset.gw.toNat).unacked = [] ∧
      ((State.reset.modTx 0 (fun x => { x with unacked := [pkt0] })).tx State.reset.gw.toNat).unacked ≠ []) ∧
    (((portS 0 .up).port 0).st = .up ∧ (State.reset.port 0).st ≠ .up ∧
      hdr0.lseq = (((portS 0 .up).takeHdr 0 hdr0).port 0).rxSeq ∧
      ({ hdr0 with lseq := 1 } : LinkHdr).lseq ≠ (((portS 0 .up).takeHdr 0 { hdr0 with lseq := 1 }).port 0).rxSeq) ∧
    (State.reset.pair.paired = false ∧ State.reset.fab.takeover = false) ∧
    (∀ o ∈ [true, false], (pair0 o false).pair.paired = true ∧ (pair0 o false).pair.owner = o ∧ (pair0 o false).pair.pulling = false ∧
      (pair0 o false).pair.peerLow = false ∧ (pair0 o false).pair.peerSeen = false) ∧
    (let s : State := { pair0 false false with pair.peerLow := true, pair.canaryOk := false, pair.peerSeen := true };
      s.pair.peerLow = true ∧ s.pair.canaryOk = false ∧ s.pair.peerSeen = true ∧ s.pair.handoverLow = false) := by
  refine ⟨?_, ?_, ?_, ?_, ?_, ?_, ?_, ?_⟩ <;> decide +kernel
theorem witness_IndexStepsOfARevolution : State.reset.spinning = false ∧ run0.spinning = true := by decide
theorem witness_StepRunsTheFrontCommand :
    (∃ c rest, ({ State.reset with pending := [.heartbeatTick] } : State).pending = c :: rest) ∧ State.reset.pending = [] ∧
    State.reset.atb.st = .stopped ∧ (run0.atb.st = .locked ∧ run0.atb.ac.toNat < 4194303) ∧
    ({ run0 with atb.ac := 4194303 } : State).atb.ac.toNat = 4194303 := by
  exact ⟨⟨.heartbeatTick, [], rfl⟩, rfl, rfl, by decide +kernel, by decide +kernel⟩
theorem witness_StepKeepsMemoryCanonical :
    State.reset.memOk ∧ ({ State.reset with buf.mem := [(0, 5), (9, 1)] } : State).memOk ∧ ∃ t, step State.reset = .next t := by
  refine ⟨?_, ?_, ?_⟩
  · show Memory.wf _ = true; decide
  · show Memory.wf _ = true; decide
  · exact ⟨_, rfl⟩
theorem witness_StepKeepsSlotsAccountedFor : State.reset.tallyOk ∧ ∃ t, step State.reset = .next t := by
  refine ⟨⟨?_, ?_⟩, ?_⟩
  · show ∀ n < 16, _; decide +kernel
  · show ∀ n < 16, _; decide +kernel
  · exact ⟨_, rfl⟩
theorem witness_StepUndoesNothingPermanent :
    ({ State.reset with nv.life := .decommissioned } : State).nv.life = .decommissioned ∧
    ({ State.reset with nv.drkFuse := true } : State).nv.drkFuse = true ∧ ∃ t, step State.reset = .next t := by
  exact ⟨rfl, rfl, _, rfl⟩
theorem witness_CommandsAnswerNextStates :
    (∀ q a l, Instr.heartbeatTick ≠ .pairData q a l) ∧
    ((pair0 false false).pair.paired = true ∧ (pair0 false false).pair.owner = false ∧ memTop < memTop + ([5] : List Byte).length) ∧
    ¬ (State.reset.pair.paired = true) := by
  refine ⟨?_, ?_, ?_⟩
  · intro q a l h; cases h
  · decide +kernel
  · decide +kernel
theorem witness_PairDataStoresItsBytesAlone :
    let s := pair0 false false
    s.memOk ∧ s.pair.paired = true ∧ s.pfr.fenced = false ∧ s.pair.owner = false ∧ (memTop - 2) + ([5, 6] : List Byte).length ≤ memTop ∧
    (∃ q : BitVec 16, q = s.pfr.pack + 1) := by
  refine ⟨?_, rfl, rfl, rfl, ?_, _, rfl⟩
  · show Memory.wf _ = true; decide
  · decide +kernel
theorem witness_DecommissionedIsFinal :
    (∀ o ∈ [0x20, 0x21, 0x22, 0x24, 0x25, 0x26, 0x27, 0x28, 0x29], let c := cmdOf 3 (BitVec.ofNat 8 o) []
      let s : State := { withCmd host0 c with nv.life := .decommissioned }
      s.nv.life = .decommissioned ∧ s.cmd? 3 7 = some c ∧ s.shadow = false ∧ c.unadmitted = true ∧ c.fin = none ∧ s.turn c = true ∧
      c.opc.toNat = o) ∧
    (∀ a ∈ [1, 2, 3, 4, 5], let c := cmdOf 3 0x23 [0, 0, BitVec.ofNat 32 a]
      let s : State := { withCmd host0 c with nv.life := .decommissioned }
      s.cmd? 3 7 = some c ∧ c.unadmitted = true ∧ c.fin = none ∧ s.turn c = true ∧ c.pf 2 0 4 = a) ∧
    (∀ o ∈ [1, 2, 3, 4, 5, 6, 7, 8, 0xB, 0xC, 0xD, 0xE, 0xF], ∀ a ∈ [1, 2, 3, 4], let c := cmdOf 0 (BitVec.ofNat 8 o) [BitVec.ofNat 32 a]
      let s : State := { withCmd host0 c with nv.life := .decommissioned }
      s.cmd? 0 7 = some c ∧ s.shadow = false ∧ c.fin = none ∧ c.st ≠ .running ∧ c.st = .fetched ∧ c.opc.toNat = o ∧ c.pf 0 0 4 = a ∧
      s.pwr.req = none ∧ s.svc.removal = .normal ∧ (s.hqi.cmds.all (fun y => decide (c.ord ≤ y.ord))) = true) ∧
    (∀ x ∈ [(1, 2), (1, 3), (1, 4), (2, 1), (2, 2), (2, 3), (2, 4), (2, 5), (2, 6), (3, 1), (3, 2), (3, 3), (3, 4), (3, 5), (4, 1), (4, 3),
        (5, 1), (5, 2), (6, 1), (6, 2)],
      let s := msg0 .decommissioned true (BitVec.ofNat 32 x.1) (BitVec.ofNat 32 x.2) 0 0 [] []
      s.nv.life = .decommissioned ∧ s.msgIs (.qp0 7) true x.1 x.2 = true ∧ s.recs.commit = none ∧
      (s.viaCmd (.qp0 7)).map (·.st) = some .fetched) ∧
    (∀ x ∈ [(1, 1), (3, 6), (4, 2), (6, 3)],
      let s := msg0 .decommissioned false (BitVec.ofNat 32 x.1) (BitVec.ofNat 32 x.2) 0 0 [] []
      s.nv.life = .decommissioned ∧ s.msgIs (.qp0 7) false x.1 x.2 = true) ∧
    (let s : State := { portS 0 .up with nv.life := .decommissioned }
     let p : Pkt := { pkt0 with ptype := 0x20, dst := 0x31, ttl := 2 }
     (s.port 0).st = .up ∧ hdr0.lseq = ((s.takeHdr 0 hdr0).port 0).rxSeq ∧ knownType p.ptype.toNat = true ∧
      bitOf p.flags.toNat 1 = false ∧ s.isMine p.dst = false ∧ p.dst ≠ 0 ∧ 1 < p.ttl.toNat) := by
  refine ⟨?_, ?_, ?_, ?_, ?_, ?_⟩ <;> decide +kernel
theorem witness_GetCountersWritesEntries :
    (∀ x ∈ [(0, 1), (255, 1), (0, 256), (256, 1), (0, 0), (255, 2)],
      let c := { cmdOf 0 5 [] with addr := BitVec.ofNat 64 x.1, count := BitVec.ofNat 32 x.2 }
      let s := withCmd host0 c
      s.cmd? 0 7 = some c ∧ s.shadow = false ∧ c.fin = none ∧ c.st ≠ .running ∧ s.nv.life ≠ .decommissioned ∧ c.opc = 0x05 ∧
      c.addr.toNat = x.1 ∧ c.count.toNat = x.2) := by decide +kernel

end Sys2Proof.Tests
end

section
/-! PROOFS. Register writes (R5 to R8, R380, R398, R453, R454): how a request of one dword reaches its register, what judging
its fields takes or refuses, and what the taken ones start. -/
namespace Sys2Proof.Machine

open Sys2Proof

/-! ### Fields of a dword -/

theorem testBit_bitsOf (n lsb w i : Nat) : (bitsOf n lsb w).testBit i = (decide (i < w) && n.testBit (lsb + i)) := by
  simp [bitsOf, Nat.testBit_mod_two_pow, Nat.testBit_shiftRight]

theorem bitOf_eq_bitsOf (n b : Nat) : bitOf n b = (bitsOf n b 1 == 1) := by simp [bitOf, bitsOf]

theorem testBit_putField (v : Word) (lsb w x i : Nat) :
    (putField v lsb w x).toNat.testBit i =
      if lsb ≤ i ∧ i < lsb + w then decide (i < 32) && x.testBit (i - lsb) else v.toNat.testBit i := by
  simp only [putField, BitVec.testBit_toNat, BitVec.getLsbD_or, BitVec.getLsbD_and, BitVec.getLsbD_not, BitVec.getLsbD_ofNat,
    Nat.testBit_shiftLeft, Nat.testBit_two_pow_sub_one]
  by_cases hi : i < 32
  · by_cases hl : lsb ≤ i
    · by_cases hu : i < lsb + w <;> simp [hi, hl, hu, show i - lsb < w ↔ i < lsb + w by omega]
    · simp [hi, hl]
  · simp [hi, BitVec.getLsbD_of_ge v i (by omega)]

/-- A field that was put reads back. -/
theorem bitsOf_putField_same (v : Word) {lsb w x : Nat} (hw : lsb + w ≤ 32) (hx : x < 2 ^ w) :
    bitsOf (putField v lsb w x).toNat lsb w = x := by
  refine Nat.eq_of_testBit_eq fun i => ?_
  rw [testBit_bitsOf, testBit_putField]
  by_cases hi : i < w
  · simp [hi, show lsb + i < 32 by omega]
  · simp [hi, Nat.testBit_lt_two_pow (Nat.lt_of_lt_of_le hx (Nat.pow_le_pow_right (by decide) (Nat.le_of_not_lt hi)))]

/-- A field apart from the one that was put reads as before. -/
theorem bitsOf_putField_other (v : Word) {lsb w lsb' w' : Nat} (x : Nat) (h : lsb' + w' ≤ lsb ∨ lsb + w ≤ lsb') :
    bitsOf (putField v lsb w x).toNat lsb' w' = bitsOf v.toNat lsb' w' := by
  refine Nat.eq_of_testBit_eq fun i => ?_
  rw [testBit_bitsOf, testBit_bitsOf, testBit_putField]
  by_cases hi : i < w'
  · rw [if_neg (by omega)]
  · simp [hi]

/-! ### A request of one dword -/

/-- An offset at which a request of one dword is a write of its register: aligned, in the index, and no part of the
mailbox (R402, R450). -/
def plainOff (off : Nat) : Bool := off % 4 == 0 && (indexRow off).isSome && !isMailbox off && off != 0x3824

theorem limits_one {s : State} {c : Chan} {off : Nat} (hs : s.pwr.st ≠ .dark) (ho : plainOff off = true) :
    s.limits c off 1 = 0 := by
  simp only [plainOff, Bool.and_eq_true, beq_iff_eq] at ho
  obtain ⟨⟨⟨hal, hrow⟩, _⟩, _⟩ := ho
  have hmax : ¬ maxDwords c < 1 := by cases c <;> decide
  simp [State.limits, hs, hmax, hal, Option.isSome_iff_ne_none.mp hrow]

/-- Outside DARK one dword written to a register's offset is judged by that register (R450, R453). -/
theorem write1_eq_writeReg {s : State} {off v : Nat} {d : RegDef} (w : Writer) (hs : s.pwr.st ≠ .dark)
    (ho : plainOff off = true) (hd : regAt off = some d) (hv : v < 2 ^ 32) :
    s.write1 w off v = .next (s.writeReg w d off v).1 := by
  have hlim := limits_one (c := w.chan) hs ho
  simp only [plainOff, Bool.and_eq_true, Bool.not_eq_true', bne_iff_ne] at ho
  obtain ⟨⟨_, hmb⟩, hgo⟩ := ho
  have hv' : v % 4294967296 = v := Nat.mod_eq_of_lt hv
  simp [State.write1, State.writeReq, hlim, State.writeDwords, State.writeDword, hmb, hgo, hd, hv']

/-! ### Judging a field -/

/-- An action written by no holder of its role is refused with cause 1, and one not asked for is passed over (R380, R453). -/
theorem judge_action_denied {s : State} {w : Writer} {off v : Nat} {f : Fld} (hty : f.ty = .wo) (hroles : f.roles ≠ [])
    (hno : s.sessionFor w (s.rolesNow off f v) = none) (hoff : off ≠ 0x4024) :
    s.judge w off v f = if bitsOf v f.lsb f.w = 0 then .skip else .refuse 1 := by
  by_cases hx : bitsOf v f.lsb f.w = 0 <;> simp [State.judge, State.fieldNow, hty, hroles, hno, hoff, hx]

/-- A value in range is taken where no rule of R8 and no condition of the field stands against it (R453). -/
theorem judge_valid {s : State} {w : Writer} {off v : Nat} {f : Fld}
    (hty : f.ty = .rw ∨ f.ty = .wo ∧ bitsOf v f.lsb f.w ≠ 0)
    (hrole : f.roles = [] ∨ s.sessionFor w (s.rolesNow off f v) ≠ none)
    (hrange : f.lo ≤ bitsOf v f.lsb f.w ∧ bitsOf v f.lsb f.w ≤ f.hi) (hidle : f.idle = 0)
    (hcond : s.fieldCond off f.lsb (bitsOf v f.lsb f.w) v = 0) :
    s.judge w off v f = .take (bitsOf v f.lsb f.w) (s.sessionFor w (s.rolesNow off f v)) := by
  obtain hty | ⟨hty, hx⟩ := hty
  · rcases hrole with h | h <;> simp [State.judge, hty, h, hrange, hcond, State.idleOk, hidle]
  · rcases hrole with h | h <;> simp [State.judge, hty, hx, h, hrange, hcond, State.idleOk, hidle]

/-- A field that keeps its value is taken as it is, whatever stands against a change (R8, R453). -/
theorem judge_unchanged {s : State} {w : Writer} {off v : Nat} {f : Fld} (hty : f.ty = .rw)
    (hrole : f.roles = [] ∨ s.sessionFor w (s.rolesNow off f v) ≠ none)
    (hoff : off ∉ [0x3000, 0x4024, 0x4810]) (hx : bitsOf v f.lsb f.w = s.lastFld off f.lsb f.w) :
    s.judge w off v f = .take (s.lastFld off f.lsb f.w) (s.sessionFor w (s.rolesNow off f v)) := by
  simp only [List.mem_cons, List.not_mem_nil, or_false, not_or] at hoff
  rcases hrole with h | h <;> simp [State.judge, State.fieldNow, hty, h, hoff, hx]

/-- A field of another role that keeps its value is passed over (R6, R453). -/
theorem judge_unchanged_denied {s : State} {w : Writer} {off v : Nat} {f : Fld} (hty : f.ty = .rw) (hroles : f.roles ≠ [])
    (hno : s.sessionFor w (s.rolesNow off f v) = none) (hoff : off ∉ [0x4024, 0x4810])
    (hx : bitsOf v f.lsb f.w = s.lastFld off f.lsb f.w) : s.judge w off v f = .skip := by
  simp only [List.mem_cons, List.not_mem_nil, or_false, not_or] at hoff
  simp [State.judge, State.fieldNow, hty, hroles, hno, hoff, hx]

/-! ### A register whose fields are all refused for want of a role -/

/-- Registers that start something at any write to them, whatever fields it took. -/
def startsAlways : List Nat := [0x0400, 0x0800, 0x1000, 0x1400, 0x1C1C, 0x2C00, 0x3000, 0x3800, 0x3C00, 0x4028, 0x4820]

/-- A write of which nothing was taken starts nothing at any other register. -/
theorem startedBy_untaken {s : State} {off old : Nat} {rs : List Role} (h : off ∉ startsAlways) :
    s.startedBy off old (fun _ => none) rs = s := by
  simp only [startsAlways, List.mem_cons, List.not_mem_nil, or_false, not_or] at h
  simp [State.startedBy, h]

theorem mem_causesOf {l : List (Fld × Judged)} {c : Nat} : c ∈ causesOf l ↔ ∃ f, (f, .refuse c) ∈ l := by
  simp only [causesOf, List.mem_filterMap]
  constructor
  · rintro ⟨⟨f, j⟩, hm, h⟩
    cases j <;> simp at h
    exact ⟨f, h ▸ hm⟩
  · rintro ⟨f, hm⟩
    exact ⟨_, hm, rfl⟩

/-- A write whose judged fields are all passed over or refused with cause 1 is ignored, and DENIED counts it (R380, R454). -/
theorem writeReg_denied {s : State} {w : Writer} {d : RegDef} {off v : Nat} (hoff : off ∉ startsAlways)
    (hall : ∀ f ∈ d.fields, s.judge w off v f = .skip ∨ s.judge w off v f = .refuse 1)
    (hone : ∃ f ∈ d.fields, s.judge w off v f = .refuse 1) :
    (s.writeReg w d off v).1 = s.denyWrite.ignoreWrite w off 1 := by
  have ht : takenOf (d.fields.map (fun f => (f, s.judge w off v f))) = [] := by
    simp only [takenOf, List.filterMap_eq_nil_iff, List.forall_mem_map]
    intro f hf
    rcases hall f hf with h | h <;> simp [h]
  have hc : ∃ t, causesOf (d.fields.map (fun f => (f, s.judge w off v f))) = 1 :: t := by
    obtain ⟨f, hf, h⟩ := hone
    have hmem : 1 ∈ causesOf (d.fields.map (fun f => (f, s.judge w off v f))) :=
      mem_causesOf.mpr ⟨f, List.mem_map.mpr ⟨f, hf, by rw [h]⟩⟩
    have hones : ∀ c ∈ causesOf (d.fields.map (fun f => (f, s.judge w off v f))), c = 1 := by
      intro c hc
      obtain ⟨g, hg⟩ := mem_causesOf.mp hc
      obtain ⟨g', hg', e⟩ := List.mem_map.mp hg
      rcases hall g' hg' with h | h <;> simp [h] at e
      exact e.2.symm
    obtain ⟨c, t, hl⟩ := List.exists_cons_of_ne_nil (List.ne_nil_of_mem hmem)
    exact ⟨t, by rw [hl, hones c (by simp [hl])]⟩
  obtain ⟨t, hc⟩ := hc
  have hm : ∀ z : State, z.mirrorReg off [] = z := fun z => by simp [State.mirrorReg]
  simp [State.writeReg, ht, hc, State.auditWrite, hm, startedBy_untaken hoff]

/-! ### Roles and sessions -/

theorem rolesNow_eq_roles {s : State} {off v : Nat} {f : Fld} (h : off ≠ 0x1860) : s.rolesNow off f v = f.roles := if_neg h

/-- Nobody may command servo writing of a decommissioned part (R99, R376). -/
theorem rolesNow_decommissioned {s : State} {v : Nat} {f : Fld} (h : s.nv.life = .decommissioned) :
    s.rolesNow 0x1860 f v = [] := by simp [State.rolesNow, h]

@[simp] theorem sessionFor_nil (s : State) (w : Writer) : s.sessionFor w [] = none := rfl

theorem sessionFor_pair_none {s : State} {w : Writer} {r q : Role} (hr : s.sessionFor w [r] = none)
    (hq : s.sessionFor w [q] = none) : s.sessionFor w [r, q] = none := by
  simp only [State.sessionFor, List.findSome?_eq_none_iff, List.mem_cons, List.not_mem_nil, or_false, forall_eq] at hr hq
  simp [State.sessionFor, hr, hq]

/-! ### Action registers -/

/-- An action written by no holder of its role changes only the ignored-write record (R380, R453, R454). -/
theorem write1_action_denied {s : State} {w : Writer} {off v : Nat} {d : RegDef} (hs : s.pwr.st ≠ .dark)
    (ho : plainOff off = true ∧ off ∉ startsAlways ∧ off ≠ 0x4024) (hd : regAt off = some d) (hv : v < 2 ^ 32)
    (hall : ∀ f ∈ d.fields, f.ty = .ro ∨ f.ty = .wo ∧ f.roles ≠ [] ∧ s.sessionFor w (s.rolesNow off f v) = none)
    (hone : ∃ f ∈ d.fields, f.ty = .wo ∧ bitsOf v f.lsb f.w ≠ 0) :
    s.write1 w off v = .next (s.denyWrite.ignoreWrite w off 1) := by
  obtain ⟨hplain, hstart, hcls⟩ := ho
  rw [write1_eq_writeReg w hs hplain hd hv, writeReg_denied hstart]
  · intro f hf
    obtain hro | ⟨hwo, hroles, hno⟩ := hall f hf
    · exact .inl (by simp [State.judge, hro])
    · rw [judge_action_denied hwo hroles hno hcls]
      split
      · exact .inl rfl
      · exact .inr rfl
  · obtain ⟨f, hf, hwo, hx⟩ := hone
    obtain hro | ⟨_, hroles, hno⟩ := hall f hf
    · exact absurd (hro.symm.trans hwo) (by decide)
    · exact ⟨f, hf, by rw [judge_action_denied hwo hroles hno hcls, if_neg hx]⟩

theorem regAt_actCmd (a : Fin 4) :
    regAt (0x181C + 16 * a.val) = some ⟨0x181C, 0x10, 4, 9, [⟨0, 2, .wo, 0, [.installer], 0, 3, 0, false⟩]⟩ := by
  revert a; decide +kernel
theorem regAt_chBist (c : Fin 16) :
    regAt (0x2014 + 0x80 * c.val) = some ⟨0x2014, 0x80, 16, 11, [⟨0, 4, .wo, 0, [.installer], 0, 15, 0, false⟩]⟩ := by
  revert c; decide +kernel
theorem regAt_mapMaint : regAt 0x3008 = some ⟨0x3008, 0x0, 1, 14, [⟨0, 4, .wo, 0, [.installer], 0, 15, 0, false⟩]⟩ := by
  decide +kernel
theorem regAt_genSave : regAt 0x0010 = some ⟨0x0010, 0x0, 1, 0, [⟨31, 1, .wo, 0, [.installer, .operator], 0, 1, 0, false⟩,
    ⟨30, 1, .wo, 0, [.installer, .operator], 0, 1, 0, false⟩, Fld.status 16 8 0, Fld.status 2 1 0, Fld.status 0 2 0]⟩ := by
  decide +kernel
theorem regAt_partReset :
    regAt 0x500C = some ⟨0x500C, 0x0, 1, 21, [⟨0, 1, .wo, 0, [.installer, .operator], 0, 1, 0, false⟩]⟩ := by decide +kernel
theorem regAt_sswCmd : regAt 0x1860 = some ⟨0x1860, 0x0, 1, 9, [⟨4, 2, .wo, 0, [.maker, .installer], 0, 3, 0, false⟩,
    ⟨0, 4, .wo, 0, [.maker, .installer], 0, 15, 0, false⟩]⟩ := by decide +kernel

theorem write1_actCmd_denied {s : State} {w : Writer} (a : Fin 4) {v : Nat} (hs : s.pwr.st ≠ .dark)
    (hno : s.sessionFor w [.installer] = none) (hv : v < 2 ^ 32) (hx : bitsOf v 0 2 ≠ 0) :
    s.write1 w (0x181C + 16 * a.val) v = .next (s.denyWrite.ignoreWrite w (0x181C + 16 * a.val) 1) :=
  write1_action_denied hs (by revert a; decide +kernel) (regAt_actCmd a) hv
    (by simp [rolesNow_eq_roles (show 0x181C + 16 * a.val ≠ 0x1860 by omega), hno]) (by simpa using hx)

theorem writeBist_denied {s : State} {w : Writer} (c : Fin 16) {t : Nat} (hs : s.pwr.st ≠ .dark)
    (hno : s.sessionFor w [.installer] = none) (ht : t < 2 ^ 32) (hx : bitsOf t 0 4 ≠ 0) :
    s.writeBist w c t = .next (s.denyWrite.ignoreWrite w (0x2014 + 0x80 * c.val) 1) := by
  rw [State.writeBist, show chReg c.val 0x14 = 0x2014 + 0x80 * c.val by unfold chReg; omega]
  exact write1_action_denied hs (by revert c; decide +kernel) (regAt_chBist c) ht
    (by simp [rolesNow_eq_roles (show 0x2014 + 0x80 * c.val ≠ 0x1860 by omega), hno]) (by simpa using hx)

theorem write1_mapMaint_denied {s : State} {w : Writer} {v : Nat} (hs : s.pwr.st ≠ .dark)
    (hno : s.sessionFor w [.installer] = none) (hv : v < 2 ^ 32) (hx : bitsOf v 0 4 ≠ 0) :
    s.write1 w 0x3008 v = .next (s.denyWrite.ignoreWrite w 0x3008 1) :=
  write1_action_denied hs (by decide +kernel) regAt_mapMaint hv (by simp [rolesNow_eq_roles, hno]) (by simpa using hx)

theorem write1_genSave_denied {s : State} {w : Writer} {v : Nat} (hs : s.pwr.st ≠ .dark)
    (hno : s.sessionFor w [.installer, .operator] = none) (hv : v < 2 ^ 32) (hx : bitsOf v 31 1 ≠ 0 ∨ bitsOf v 30 1 ≠ 0) :
    s.write1 w 0x0010 v = .next (s.denyWrite.ignoreWrite w 0x0010 1) :=
  write1_action_denied hs (by decide +kernel) regAt_genSave hv (by simp [rolesNow_eq_roles, hno, Fld.status])
    (by simpa [Fld.status] using hx)

theorem write1_partReset_denied {s : State} {w : Writer} {v : Nat} (hs : s.pwr.st ≠ .dark)
    (hno : s.sessionFor w [.installer, .operator] = none) (hv : v < 2 ^ 32) (hx : bitsOf v 0 1 ≠ 0) :
    s.write1 w 0x500C v = .next (s.denyWrite.ignoreWrite w 0x500C 1) :=
  write1_action_denied hs (by decide +kernel) regAt_partReset hv (by simp [rolesNow_eq_roles, hno]) (by simpa using hx)

theorem write1_sswCmd_decommissioned {s : State} {w : Writer} {v : Nat} (hs : s.pwr.st ≠ .dark)
    (hlife : s.nv.life = .decommissioned) (hv : v < 2 ^ 32) (hx : bitsOf v 0 4 ≠ 0) :
    s.write1 w 0x1860 v = .next (s.denyWrite.ignoreWrite w 0x1860 1) :=
  write1_action_denied hs (by decide +kernel) regAt_sswCmd hv (by simp [rolesNow_decommissioned hlife])
    ⟨_, List.mem_cons_of_mem _ (List.mem_singleton_self _), rfl, hx⟩

/-- A servo-writing command with a known operation is refused whole on a decommissioned part, whatever its actuator. -/
theorem writeSsw_decommissioned {s : State} {w : Writer} (a : Fin 4) {op : Nat} (hs : s.pwr.st ≠ .dark)
    (hlife : s.nv.life = .decommissioned) (hop : op % 16 ≠ 0) (hlt : op < 16) :
    s.writeSsw w a op = .next (s.denyWrite.ignoreWrite w 0x1860 1) :=
  write1_sswCmd_decommissioned hs hlife (by omega) (by simp only [bitsOf, Nat.shiftRight_zero]; omega)

/-- Settles O15: each of these writes asks for an action by a writer without its role, so no field of it is taken. -/
theorem roleRefusedWritesChangeNothing : Obligations.RoleRefusedWritesChangeNothing := by
  intro w s hs
  refine ⟨fun hno => ?_, fun hlife a => ?_⟩
  · have act (a : Fin 4) {v : Nat} := write1_actCmd_denied (v := v) a hs hno
    have bist (c : Fin 16) {t : Nat} := writeBist_denied (t := t) c hs hno
    have maint {v : Nat} := write1_mapMaint_denied (v := v) hs hno
    refine ⟨fun a => ⟨act a (by decide) (by decide), act a (by decide) (by decide)⟩,
      fun c => ⟨bist c (by decide) (by decide), bist c (by decide) (by decide), bist c (by decide) (by decide),
        bist c (by decide) (by decide), bist c (by decide) (by decide), bist c (by decide) (by decide)⟩,
      maint (by decide) (by decide), maint (by decide) (by decide), maint (by decide) (by decide),
      maint (by decide) (by decide), maint (by decide) (by decide), maint (by decide) (by decide), fun hop => ?_⟩
    have hpair := sessionFor_pair_none hno hop
    exact ⟨write1_genSave_denied hs hpair (by decide) (by decide), write1_genSave_denied hs hpair (by decide) (by decide),
      write1_partReset_denied hs hpair (by decide) (by decide)⟩
  · have ssw {op : Nat} := writeSsw_decommissioned (w := w) (op := op) a hs hlife
    exact ⟨ssw (by decide) (by decide), ssw (by decide) (by decide), ssw (by decide) (by decide),
      ssw (by decide) (by decide), ssw (by decide) (by decide), ssw (by decide) (by decide)⟩

/-! ### Accepting a write -/

/-- A field without a condition of its own takes every value of its width from a holder of its role, or from anyone where
it names none (R6, R453). -/
theorem judge_setting {s : State} {w : Writer} {off v : Nat} {f : Fld} {u : Option Session}
    (hty : f.ty = .rw ∨ f.ty = .wo ∧ bitsOf v f.lsb f.w ≠ 0) (hall : f.lo = 0 ∧ f.hi = 2 ^ f.w - 1 ∧ f.idle = 0)
    (hoff : off ≠ 0x1860) (hu : s.sessionFor w f.roles = u) (hrole : f.roles = [] ∨ u ≠ none)
    (hcond : s.fieldCond off f.lsb (bitsOf v f.lsb f.w) v = 0) :
    s.judge w off v f = .take (bitsOf v f.lsb f.w) u := by
  obtain ⟨hlo, hhi, hidle⟩ := hall
  have hlt : bitsOf v f.lsb f.w < 2 ^ f.w := Nat.mod_lt _ (Nat.two_pow_pos _)
  have hnow : s.rolesNow off f v = f.roles := rolesNow_eq_roles hoff
  subst hu
  simpa only [hnow] using judge_valid hty (by simpa only [hnow] using hrole) (by omega) hidle hcond

/-- No field of a written dword is refused, and these are taken: each with its value and its session. -/
inductive State.Takes (s : State) (w : Writer) (off v : Nat) : List Fld → List (Fld × Nat × Option Session) → Prop where
  | nil : s.Takes w off v [] []
  | take {f fs x u took} : s.judge w off v f = .take x u → s.Takes w off v fs took → s.Takes w off v (f :: fs) ((f, x, u) :: took)
  | skip {f fs took} : s.judge w off v f = .skip → s.Takes w off v fs took → s.Takes w off v (f :: fs) took

theorem State.Takes.takenOf_eq {s : State} {w : Writer} {off v : Nat} {fs : List Fld} {took : List (Fld × Nat × Option Session)}
    (h : s.Takes w off v fs took) : takenOf (fs.map (fun f => (f, s.judge w off v f))) = took := by
  induction h with
  | nil => rfl
  | take hj _ ih => simpa [takenOf, hj] using ih
  | skip hj _ ih => simpa [takenOf, hj] using ih

theorem State.Takes.causesOf_eq {s : State} {w : Writer} {off v : Nat} {fs : List Fld} {took : List (Fld × Nat × Option Session)}
    (h : s.Takes w off v fs took) : causesOf (fs.map (fun f => (f, s.judge w off v f))) = [] := by
  induction h with
  | nil => rfl
  | take hj _ ih => simpa [causesOf, hj] using ih
  | skip hj _ ih => simpa [causesOf, hj] using ih

/-- Sessions that write the accepted fields, each once. -/
def writersOf (took : List (Fld × Nat × Option Session)) : List Session := (took.filterMap (·.2.2)).eraseDups

/-- A register's dword goes to the partner as last written (R369). -/
def State.mirrorWord (s : State) (off : Nat) : State := s.mirror 6 (leBytes 4 off ++ leBytes 4 (s.lastWord off).toNat)

theorem mirrorReg_of_setting {s : State} {off : Nat} {took : List (Fld × Nat × Option Session)} (h : mirroredReg off = true)
    (ht : ∃ e ∈ took, e.1.ty = .rw) : s.mirrorReg off took = s.mirrorWord off := by
  have hany : took.any (fun e => e.1.ty == .rw || e.1.ty == .ws) = true := by
    obtain ⟨e, he, hty⟩ := ht
    exact List.any_eq_true.mpr ⟨e, he, by simp [hty]⟩
  rw [State.mirrorReg, h, hany]
  rfl

theorem mirrorReg_of_unmirrored {s : State} {off : Nat} (took : List (Fld × Nat × Option Session)) (h : mirroredReg off = false) :
    s.mirrorReg off took = s := by simp [State.mirrorReg, h]

theorem applyFld_rw {s : State} {off x : Nat} {f : Fld} (hty : f.ty = .rw) (hoff : off ≠ 0x4024) :
    s.applyFld off f x = s.putFld off f.lsb f.w x := by simp [State.applyFld, hty, hoff]

/-- A write of which no field is refused is audited, its fields are put in the order of the register's table, and it goes to
the partner and starts what it starts (R398, R453, R454). -/
theorem write1_taken {s : State} {w : Writer} {off v : Nat} {d : RegDef} {took : List (Fld × Nat × Option Session)}
    {who : List Session} (hs : s.pwr.st ≠ .dark) (ho : plainOff off = true ∧ off ≠ 0x1700) (hd : regAt off = some d)
    (hv : v < 2 ^ 32) (ht : s.Takes w off v d.fields took) (hw : writersOf took = who)
    (hb : who = [] ∨ s.auditBlocked = false) :
    s.write1 w off v = .next
      (((took.foldl (fun (s : State) e => s.applyFld off e.1 e.2.1) (s.auditWrite off v who)).mirrorReg off took).startedBy off
        (s.lastWord off).toNat (fun lsb => (took.find? (fun e => e.1.lsb == lsb)).map (·.2.1))
        ((s.sessionsOf w).map (·.role))) := by
  obtain ⟨hplain, htie⟩ := ho
  have hb' : ¬ (who ≠ [] ∧ s.auditBlocked = true) := by
    rintro ⟨hne, hblk⟩
    exact hb.elim hne (by simp [hblk])
  unfold writersOf at hw
  rw [write1_eq_writeReg w hs hplain hd hv]
  simp only [State.writeReg, ht.takenOf_eq, ht.causesOf_eq, hw, if_neg hb', tieBroken, beq_eq_false_iff_ne.mpr htie, Bool.false_and, Bool.false_eq_true,
    if_false]

/-! ### What each register's write starts -/

theorem startedBy_chCtl (s : State) (c : Fin 16) (old : Nat) (took : Nat → Option Nat) (rs : List Role) :
    s.startedBy (0x2000 + 0x80 * c.val) old took rs = s := by
  simp (disch := omega) only [State.startedBy, if_neg]
theorem startedBy_xtpCtl (s : State) (old : Nat) (took : Nat → Option Nat) (rs : List Role) :
    s.startedBy 0x3C00 old took rs = s.xtpFence := rfl
theorem startedBy_cmpCtl (s : State) (old : Nat) (took : Nat → Option Nat) (rs : List Role) (h : (took 4).isSome = true) :
    s.startedBy 0x3400 old took rs = s.cmpFences := by simp [State.startedBy, h]
theorem startedBy_cryCtl (s : State) (old : Nat) (took : Nat → Option Nat) (rs : List Role) :
    s.startedBy 0x3800 old took rs = s.cryFences := rfl
theorem startedBy_dmaPause (s : State) (old : Nat) (took : Nat → Option Nat) (rs : List Role) :
    s.startedBy 0x2C00 old took rs = s.dmaResume := rfl
theorem startedBy_mapCtl (s : State) (old : Nat) (took : Nat → Option Nat) (rs : List Role) :
    s.startedBy 0x3000 old took rs = s.mapCtl old := rfl
theorem startedBy_bufDiag (s : State) (old : Nat) (took : Nat → Option Nat) (rs : List Role) :
    s.startedBy 0x2830 old took rs = s := rfl
theorem startedBy_pairCtl (s : State) (old : Nat) (took : Nat → Option Nat) (rs : List Role) (h : (took 0).isSome = true) :
    s.startedBy 0x0C00 old took rs = s.startYield := by simp [State.startedBy, h]
theorem startedBy_hqiCtl (s : State) (old : Nat) (took : Nat → Option Nat) (rs : List Role) :
    s.startedBy 0x0400 old took rs = s.hqiCtl old := rfl
theorem startedBy_portCtl (s : State) (p : Fin 5) (old : Nat) (took : Nat → Option Nat) (rs : List Role) (h : (took 0).isSome = true) :
    s.startedBy (0x0810 + 16 * p.val) old took rs =
      if (s.lastWord (0x0810 + 16 * p.val)).toNat = old then s else s.portCtl p := by
  have hp : (0x0810 + 16 * p.val - 0x0810) / 16 % 5 = p.val := by omega
  simp (disch := omega) only [State.startedBy, if_pos, if_neg, if_true, h, true_or, hp, Fin.eta]

theorem regAt_hqiCtl : regAt 0x0400 = some ⟨0x0400, 0x0, 1, 2, [⟨1, 1, .rw, 0, [], 0, 1, 0, false⟩,
    ⟨0, 1, .rw, 0, [], 0, 1, 0, false⟩]⟩ := by decide +kernel

theorem fieldCond_hqiEn (s : State) (x v : Nat) :
    s.fieldCond 0x0400 0 x v = if x = 1 ∧ s.lastFld 0x0428 0 4 = 0 then 2 else 0 := by simp [State.fieldCond]

/-- A write of HQI_CTL needs no role; EN may be set where queue pair 0 has a size (R263, R275). -/
theorem write1_hqiCtl {s : State} {w : Writer} {v : Nat} (hs : s.pwr.st ≠ .dark) (hv : v < 2 ^ 32)
    (hen : bitsOf v 0 1 = s.lastFld 0x0400 0 1 ∨ bitsOf v 0 1 = 0 ∨ s.lastFld 0x0428 0 4 ≠ 0) :
    s.write1 w 0x0400 v = .next ((((s.putFld 0x0400 1 1 (bitsOf v 1 1)).putFld 0x0400 0 1 (bitsOf v 0 1)).mirrorWord
      0x0400).hqiCtl (s.lastWord 0x0400).toNat) := by
  have h1 : s.judge w 0x0400 v ⟨1, 1, .rw, 0, [], 0, 1, 0, false⟩ = .take (bitsOf v 1 1) none :=
    judge_setting (.inl rfl) (by decide) (by decide) rfl (.inl rfl) rfl
  have h0 : s.judge w 0x0400 v ⟨0, 1, .rw, 0, [], 0, 1, 0, false⟩ = .take (bitsOf v 0 1) none := by
    by_cases h : bitsOf v 0 1 = s.lastFld 0x0400 0 1
    · rw [judge_unchanged rfl (.inl rfl) (by decide) h, h]; rfl
    · refine judge_setting (.inl rfl) (by decide) (by decide) rfl (.inl rfl) ?_
      have hok : bitsOf v 0 1 = 0 ∨ s.lastFld 0x0428 0 4 ≠ 0 := hen.resolve_left h
      simp only [fieldCond_hqiEn, if_neg (show ¬ (bitsOf v 0 1 = 1 ∧ s.lastFld 0x0428 0 4 = 0) by omega)]
  rw [write1_taken hs (by decide) regAt_hqiCtl hv (.take h1 (.take h0 .nil)) rfl (.inl rfl), startedBy_hqiCtl,
    mirrorReg_of_setting rfl ⟨_, List.mem_cons_self, rfl⟩]
  rfl

theorem writersOf_one (f : Fld) (n : Nat) (x : Session) : writersOf [(f, n, some x)] = [x] := rfl
theorem writersOf_two (f g : Fld) (n m : Nat) (x : Session) : writersOf [(f, n, some x), (g, m, some x)] = [x] := by
  simp [writersOf, List.eraseDups_cons]
theorem writersOf_three (f g h : Fld) (n m k : Nat) (x : Session) :
    writersOf [(f, n, some x), (g, m, some x), (h, k, some x)] = [x] := by
  simp [writersOf, List.eraseDups_cons]

theorem regAt_chCtl (c : Fin 16) : regAt (0x2000 + 0x80 * c.val) =
    some ⟨0x2000, 0x80, 16, 11, [⟨31, 1, .rw, 0, [.installer], 0, 1, 0, false⟩, ⟨30, 1, .rw, 1, [.installer], 0, 1, 5, true⟩]⟩ := by
  revert c; decide +kernel
theorem plainOff_chCtl (c : Fin 16) : plainOff (0x2000 + 0x80 * c.val) = true ∧ 0x2000 + 0x80 * c.val ≠ 0x1700 := by
  revert c; decide +kernel
theorem mirroredReg_chCtl (c : Fin 16) : mirroredReg (0x2000 + 0x80 * c.val) = true := by revert c; decide
theorem fieldCond_chCtl (s : State) (c : Fin 16) (lsb y v : Nat) : s.fieldCond (0x2000 + 0x80 * c.val) lsb y v = 0 := by
  have ho : 0x2000 + (0x2000 + 0x80 * c.val - 0x2000) % 0x80 = 0x2000 := by omega
  simp (disch := omega) only [State.fieldCond, if_pos, if_neg, ho]
theorem regAt_xtpCtl : regAt 0x3C00 =
    some ⟨0x3C00, 0x0, 1, 17, [⟨1, 1, .rw, 0, [.operator], 0, 1, 0, true⟩, ⟨0, 1, .rw, 0, [.installer], 0, 1, 0, false⟩]⟩ := by
  decide +kernel
theorem regAt_cmpCtl : regAt 0x3400 =
    some ⟨0x3400, 0x0, 1, 15, [⟨4, 4, .rw, 0, [.installer], 0, 15, 0, false⟩, ⟨0, 2, .rw, 3, [.operator], 0, 3, 0, true⟩]⟩ := by
  decide +kernel
theorem regAt_cryCtl : regAt 0x3800 = some ⟨0x3800, 0x0, 1, 15, [⟨0, 4, .rw, 0, [.installer], 0, 15, 0, false⟩]⟩ := by
  decide +kernel
theorem regAt_dmaPause : regAt 0x2C00 = some ⟨0x2C00, 0x0, 1, 13, [⟨0, 32, .rw, 0, [.installer], 0, 4294967295, 0, false⟩]⟩ := by
  decide +kernel
theorem regAt_mapCtl : regAt 0x3000 =
    some ⟨0x3000, 0x0, 1, 14, [⟨8, 8, .rw, 0, [.installer], 0, 255, 0, true⟩, ⟨0, 1, .rw, 1, [.installer], 0, 1, 0, true⟩]⟩ := by
  decide +kernel
theorem regAt_portCtl (p : Fin 5) : regAt (0x0810 + 16 * p.val) =
    some ⟨0x0810, 0x10, 5, 3, [⟨1, 1, .rw, 0, [.installer], 0, 1, 0, false⟩, ⟨0, 1, .rw, 0, [.installer], 0, 1, 0, false⟩]⟩ := by
  revert p; decide +kernel
theorem plainOff_portCtl (p : Fin 5) : plainOff (0x0810 + 16 * p.val) = true ∧ 0x0810 + 16 * p.val ≠ 0x1700 := by
  revert p; decide +kernel
theorem mirroredReg_portCtl (p : Fin 5) : mirroredReg (0x0810 + 16 * p.val) = false := by revert p; decide
theorem fieldCond_portCtl (s : State) (p : Fin 5) (lsb y v : Nat) : s.fieldCond (0x0810 + 16 * p.val) lsb y v = 0 := by
  simp (disch := omega) only [State.fieldCond, if_neg]
theorem regAt_bufDiag : regAt 0x2830 = some ⟨0x2830, 0x0, 1, 12, [⟨31, 1, .rw, 0, [.maker, .installer], 0, 1, 0, false⟩,
    ⟨30, 1, .rw, 0, [.maker, .installer], 0, 1, 0, false⟩, ⟨0, 8, .rw, 0, [.maker, .installer], 0, 255, 0, false⟩]⟩ := by
  decide +kernel
theorem regAt_pairCtl : regAt 0x0C00 = some ⟨0x0C00, 0x0, 1, 4, [⟨8, 8, .rw, 16, [.installer], 1, 255, 0, true⟩,
    ⟨1, 1, .rw, 1, [.operator], 0, 1, 0, true⟩, ⟨0, 1, .wo, 0, [.operator], 0, 1, 0, false⟩]⟩ := by decide +kernel

/-! ### Writes of the installer's settings -/

section
variable {s : State} {w : Writer} {x : Session} {v : Nat}

/-- Audit record of one accepted write (R398). -/
def State.written (s : State) (x : Session) (off v : Nat) : State := s.audit 0xA005 0 [off, v, x.role.code, x.num.val]

theorem write1_chCtl (c : Fin 16) (hs : s.pwr.st ≠ .dark) (hx : s.sessionFor w [.installer] = some x)
    (hb : s.auditBlocked = false) (hv : v < 2 ^ 32)
    (hsame : bitsOf v 30 1 = s.lastFld (0x2000 + 0x80 * c.val) 30 1) :
    s.write1 w (0x2000 + 0x80 * c.val) v = .next ((((s.written x (0x2000 + 0x80 * c.val) v).putFld (0x2000 + 0x80 * c.val) 31 1
      (bitsOf v 31 1)).putFld (0x2000 + 0x80 * c.val) 30 1 (s.lastFld (0x2000 + 0x80 * c.val) 30 1)).mirrorWord
      (0x2000 + 0x80 * c.val)) := by
  have hssw : 0x2000 + 0x80 * c.val ≠ 0x1860 := by omega
  have h31 : s.judge w (0x2000 + 0x80 * c.val) v ⟨31, 1, .rw, 0, [.installer], 0, 1, 0, false⟩ =
      .take (bitsOf v 31 1) (some x) :=
    judge_setting (.inl rfl) (by decide) hssw hx (.inr nofun) (fieldCond_chCtl ..)
  have h30 : s.judge w (0x2000 + 0x80 * c.val) v ⟨30, 1, .rw, 1, [.installer], 0, 1, 5, true⟩ =
      .take (s.lastFld (0x2000 + 0x80 * c.val) 30 1) (some x) := by
    have hnow : s.sessionFor w (s.rolesNow (0x2000 + 0x80 * c.val) ⟨30, 1, .rw, 1, [.installer], 0, 1, 5, true⟩ v) = some x := by
      rw [rolesNow_eq_roles hssw, hx]
    rw [judge_unchanged rfl (.inr (by simp [hnow])) (by simp; omega) hsame, hnow]
  rw [write1_taken hs (plainOff_chCtl c) (regAt_chCtl c) hv (.take h31 (.take h30 .nil)) (writersOf_two ..) (.inr hb),
    startedBy_chCtl, mirrorReg_of_setting (mirroredReg_chCtl c) ⟨_, List.mem_cons_self, rfl⟩]
  have hcls : 0x2000 + 0x80 * c.val ≠ 0x4024 := by omega
  simp only [List.foldl, applyFld_rw, hcls, ne_eq, not_false_eq_true]
  rfl

theorem write1_xtpCtl (hs : s.pwr.st ≠ .dark) (hx : s.sessionFor w [.installer] = some x) (hop : s.sessionFor w [.operator] = none)
    (hb : s.auditBlocked = false) (hv : v < 2 ^ 32) (hsame : bitsOf v 1 1 = s.lastFld 0x3C00 1 1) :
    s.write1 w 0x3C00 v =
      .next (((s.written x 0x3C00 v).putFld 0x3C00 0 1 (bitsOf v 0 1)).mirrorWord 0x3C00).xtpFence := by
  have h1 : s.judge w 0x3C00 v ⟨1, 1, .rw, 0, [.operator], 0, 1, 0, true⟩ = .skip :=
    judge_unchanged_denied rfl nofun hop (by decide) hsame
  have h0 : s.judge w 0x3C00 v ⟨0, 1, .rw, 0, [.installer], 0, 1, 0, false⟩ = .take (bitsOf v 0 1) (some x) :=
    judge_setting (.inl rfl) (by decide) (by decide) hx (.inr nofun) rfl
  rw [write1_taken hs (by decide) regAt_xtpCtl hv (.skip h1 (.take h0 .nil)) (writersOf_one ..) (.inr hb), startedBy_xtpCtl,
    mirrorReg_of_setting rfl ⟨_, List.mem_cons_self, rfl⟩]
  rfl

theorem write1_cmpCtl (hs : s.pwr.st ≠ .dark) (hx : s.sessionFor w [.installer] = some x) (hop : s.sessionFor w [.operator] = none)
    (hb : s.auditBlocked = false) (hv : v < 2 ^ 32) (hsame : bitsOf v 0 2 = s.lastFld 0x3400 0 2) :
    s.write1 w 0x3400 v =
      .next (((s.written x 0x3400 v).putFld 0x3400 4 4 (bitsOf v 4 4)).mirrorWord 0x3400).cmpFences := by
  have h4 : s.judge w 0x3400 v ⟨4, 4, .rw, 0, [.installer], 0, 15, 0, false⟩ = .take (bitsOf v 4 4) (some x) :=
    judge_setting (.inl rfl) (by decide) (by decide) hx (.inr nofun) rfl
  have h0 : s.judge w 0x3400 v ⟨0, 2, .rw, 3, [.operator], 0, 3, 0, true⟩ = .skip :=
    judge_unchanged_denied rfl nofun hop (by decide) hsame
  rw [write1_taken hs (by decide) regAt_cmpCtl hv (.take h4 (.skip h0 .nil)) (writersOf_one ..) (.inr hb),
    startedBy_cmpCtl _ _ _ _ rfl,
    mirrorReg_of_setting rfl ⟨_, List.mem_cons_self, rfl⟩]
  rfl

theorem write1_cryCtl (hs : s.pwr.st ≠ .dark) (hx : s.sessionFor w [.installer] = some x) (hb : s.auditBlocked = false)
    (hv : v < 2 ^ 32) : s.write1 w 0x3800 v =
      .next (((s.written x 0x3800 v).putFld 0x3800 0 4 (bitsOf v 0 4)).mirrorWord 0x3800).cryFences := by
  have h0 : s.judge w 0x3800 v ⟨0, 4, .rw, 0, [.installer], 0, 15, 0, false⟩ = .take (bitsOf v 0 4) (some x) :=
    judge_setting (.inl rfl) (by decide) (by decide) hx (.inr nofun) rfl
  rw [write1_taken hs (by decide) regAt_cryCtl hv (.take h0 .nil) (writersOf_one ..) (.inr hb), startedBy_cryCtl,
    mirrorReg_of_setting rfl ⟨_, List.mem_cons_self, rfl⟩]
  rfl

theorem write1_dmaPause (hs : s.pwr.st ≠ .dark) (hx : s.sessionFor w [.installer] = some x) (hb : s.auditBlocked = false)
    (hv : v < 2 ^ 32) : s.write1 w 0x2C00 v =
      .next (((s.written x 0x2C00 v).putFld 0x2C00 0 32 v).mirrorWord 0x2C00).dmaResume := by
  have hall : bitsOf v 0 32 = v := Nat.mod_eq_of_lt hv
  have h0 : s.judge w 0x2C00 v ⟨0, 32, .rw, 0, [.installer], 0, 4294967295, 0, false⟩ = .take (bitsOf v 0 32) (some x) :=
    judge_setting (.inl rfl) (by decide) (by decide) hx (.inr nofun) rfl
  rw [hall] at h0
  rw [write1_taken hs (by decide) regAt_dmaPause hv (.take h0 .nil) (writersOf_one ..) (.inr hb), startedBy_dmaPause,
    mirrorReg_of_setting rfl ⟨_, List.mem_cons_self, rfl⟩]
  rfl

theorem fieldCond_mapLimit (s : State) (y z : Nat) : s.fieldCond 0x3000 8 y z = if y = 255 then 2 else 0 := by
  simp [State.fieldCond]
theorem fieldCond_mapDisable (s : State) (z : Nat) : s.fieldCond 0x3000 0 0 z = 0 := rfl

/-- A write of 0 to MAP_CTL.ENABLE (R250). -/
theorem write1_mapCtl_disable (hs : s.pwr.st ≠ .dark) (hx : s.sessionFor w [.installer] = some x) (hb : s.auditBlocked = false)
    (hv : v < 2 ^ 32) (h8 : bitsOf v 8 8 ≠ 255) (h0 : bitsOf v 0 1 = 0) :
    s.write1 w 0x3000 v = .next (((((s.written x 0x3000 v).putFld 0x3000 8 8 (bitsOf v 8 8)).putFld 0x3000 0 1 0).mirrorWord
      0x3000).mapCtl (s.lastWord 0x3000).toNat) := by
  have hlimit : s.judge w 0x3000 v ⟨8, 8, .rw, 0, [.installer], 0, 255, 0, true⟩ = .take (bitsOf v 8 8) (some x) :=
    judge_setting (.inl rfl) (by decide) (by decide) hx (.inr nofun) (by simp only [fieldCond_mapLimit, if_neg h8])
  have henable : s.judge w 0x3000 v ⟨0, 1, .rw, 1, [.installer], 0, 1, 0, true⟩ = .take (bitsOf v 0 1) (some x) :=
    judge_setting (.inl rfl) (by decide) (by decide) hx (.inr nofun) (by simp only [h0, fieldCond_mapDisable])
  rw [h0] at henable
  rw [write1_taken hs (by decide) regAt_mapCtl hv (.take hlimit (.take henable .nil)) (writersOf_two ..) (.inr hb), startedBy_mapCtl,
    mirrorReg_of_setting rfl ⟨_, List.mem_cons_self, rfl⟩]
  rfl

theorem write1_portCtl (p : Fin 5) (hs : s.pwr.st ≠ .dark) (hx : s.sessionFor w [.installer] = some x)
    (hb : s.auditBlocked = false) (hv : v < 2 ^ 32) :
    let z := ((s.written x (0x0810 + 16 * p.val) v).putFld (0x0810 + 16 * p.val) 1 1 (bitsOf v 1 1)).putFld (0x0810 + 16 * p.val) 0 1
      (bitsOf v 0 1)
    s.write1 w (0x0810 + 16 * p.val) v = .next
      (if (z.lastWord (0x0810 + 16 * p.val)).toNat = (s.lastWord (0x0810 + 16 * p.val)).toNat then z else z.portCtl p) := by
  have hssw : 0x0810 + 16 * p.val ≠ 0x1860 := by omega
  have h1 : s.judge w (0x0810 + 16 * p.val) v ⟨1, 1, .rw, 0, [.installer], 0, 1, 0, false⟩ = .take (bitsOf v 1 1) (some x) :=
    judge_setting (.inl rfl) (by decide) hssw hx (.inr nofun) (fieldCond_portCtl ..)
  have h0 : s.judge w (0x0810 + 16 * p.val) v ⟨0, 1, .rw, 0, [.installer], 0, 1, 0, false⟩ = .take (bitsOf v 0 1) (some x) :=
    judge_setting (.inl rfl) (by decide) hssw hx (.inr nofun) (fieldCond_portCtl ..)
  rw [write1_taken hs (plainOff_portCtl p) (regAt_portCtl p) hv (.take h1 (.take h0 .nil)) (writersOf_two ..) (.inr hb),
    mirrorReg_of_unmirrored _ (mirroredReg_portCtl p), startedBy_portCtl _ _ _ _ _ rfl]
  have hcls : 0x0810 + 16 * p.val ≠ 0x4024 := by omega
  simp only [List.foldl, applyFld_rw, hcls, ne_eq, not_false_eq_true]
  rfl

/-! ### Other writers' settings -/

theorem write1_bufDiag (hs : s.pwr.st ≠ .dark) (hx : s.sessionFor w [.maker, .installer] = some x)
    (hb : s.auditBlocked = false) (hv : v < 2 ^ 32) :
    s.write1 w 0x2830 v = .next (((((s.written x 0x2830 v).putFld 0x2830 31 1 (bitsOf v 31 1)).putFld 0x2830 30 1
      (bitsOf v 30 1)).putFld 0x2830 0 8 (bitsOf v 0 8)).mirrorWord 0x2830) := by
  have h31 : s.judge w 0x2830 v ⟨31, 1, .rw, 0, [.maker, .installer], 0, 1, 0, false⟩ = .take (bitsOf v 31 1) (some x) :=
    judge_setting (.inl rfl) (by decide) (by decide) hx (.inr nofun) rfl
  have h30 : s.judge w 0x2830 v ⟨30, 1, .rw, 0, [.maker, .installer], 0, 1, 0, false⟩ = .take (bitsOf v 30 1) (some x) :=
    judge_setting (.inl rfl) (by decide) (by decide) hx (.inr nofun) rfl
  have h0 : s.judge w 0x2830 v ⟨0, 8, .rw, 0, [.maker, .installer], 0, 255, 0, false⟩ = .take (bitsOf v 0 8) (some x) :=
    judge_setting (.inl rfl) (by decide) (by decide) hx (.inr nofun) rfl
  rw [write1_taken hs (by decide) regAt_bufDiag hv (.take h31 (.take h30 (.take h0 .nil))) (writersOf_three ..) (.inr hb),
    startedBy_bufDiag, mirrorReg_of_setting rfl ⟨_, List.mem_cons_self, rfl⟩]
  rfl

theorem fieldCond_yield (s : State) (y z : Nat) : s.fieldCond 0x0C00 0 y z = if s.mayYield then 0 else 2 := by
  cases h : s.mayYield <;> simp [State.fieldCond, h]

/-- YIELD by the operator where it may be asked for (R373). -/
theorem write1_pairCtl_yield (hs : s.pwr.st ≠ .dark) (hx : s.sessionFor w [.operator] = some x)
    (hin : s.sessionFor w [.installer] = none) (hb : s.auditBlocked = false) (hmay : s.mayYield = true) (hv : v < 2 ^ 32)
    (h8 : bitsOf v 8 8 = s.lastFld 0x0C00 8 8) (h0 : bitsOf v 0 1 = 1) :
    s.write1 w 0x0C00 v = .next ((s.written x 0x0C00 v).putFld 0x0C00 1 1 (bitsOf v 1 1)).startYield := by
  have hcount : s.judge w 0x0C00 v ⟨8, 8, .rw, 16, [.installer], 1, 255, 0, true⟩ = .skip :=
    judge_unchanged_denied rfl nofun hin (by decide) h8
  have hauto : s.judge w 0x0C00 v ⟨1, 1, .rw, 1, [.operator], 0, 1, 0, true⟩ = .take (bitsOf v 1 1) (some x) :=
    judge_setting (.inl rfl) (by decide) (by decide) hx (.inr nofun) rfl
  have hyield : s.judge w 0x0C00 v ⟨0, 1, .wo, 0, [.operator], 0, 1, 0, false⟩ = .take (bitsOf v 0 1) (some x) :=
    judge_setting (.inr ⟨rfl, by simp [h0]⟩) (by decide) (by decide) hx (.inr nofun) (by simp only [fieldCond_yield, hmay, if_true])
  rw [write1_taken hs (by decide) regAt_pairCtl hv (.skip hcount (.take hauto (.take hyield .nil))) (writersOf_two ..) (.inr hb),
    startedBy_pairCtl _ _ _ _ rfl, mirrorReg_of_unmirrored _ rfl]
  rfl

end

/-! ### What an audit record and a mirrored register leave as they are -/

@[simp] theorem State.toRing_map (s : State) (e : Ev) : (s.toRing e).map = s.map := by
  dsimp only [State.toRing]
  split
  · rfl
  · split
    · rfl
    · exact State.dropped_map ..
@[simp] theorem State.auditSrc_map (s : State) (code sev src : Nat) (par : List Nat) : (s.auditSrc code sev src par).map = s.map := by
  dsimp only [State.auditSrc]
  split
  · exact State.toRing_map ..
  · split
    · rfl
    · split
      · rfl
      · exact State.toRing_map ..
@[simp] theorem State.written_map (s : State) (x : Session) (off v : Nat) : (s.written x off v).map = s.map :=
  State.auditSrc_map ..
@[simp] theorem State.pairSend_map (s : State) (kind : Nat) (l : List Byte) : (s.pairSend kind l).map = s.map := by
  dsimp only [State.pairSend]
  split
  · rfl
  · split <;> rfl
@[simp] theorem State.pairSend_regs (s : State) (kind : Nat) (l : List Byte) : (s.pairSend kind l).regs = s.regs := by
  dsimp only [State.pairSend]
  split
  · rfl
  · split <;> rfl
@[simp] theorem State.mirrorWord_map (s : State) (off : Nat) : (s.mirrorWord off).map = s.map := by
  unfold State.mirrorWord State.mirror; split <;> simp
@[simp] theorem State.mirrorWord_regs (s : State) (off : Nat) : (s.mirrorWord off).regs = s.regs := by
  unfold State.mirrorWord State.mirror; split <;> simp

theorem State.flag_congr {s t : State} (h : s.regs = t.regs) (off b : Nat) : s.flag off b = t.flag off b := by
  simp [State.flag, State.forceWord, h]

/-- A bit that was put reads back. -/
theorem State.flag_putFld_same (s : State) (off : Nat) {b x : Nat} (hb : b < 32) (hx : x < 2) :
    (s.putFld off b 1 x).flag off b = (x == 1) := by
  simp only [State.flag, State.forceWord, State.putFld, tget_tset_same]
  rw [bitOf_eq_bitsOf, bitsOf_putField_same _ (by omega) (by omega)]

theorem b2n_lt_two (b : Bool) : b2n b < 2 := by cases b <;> decide

/-- Turning MAP_CTL.ENABLE from 1 to 0 starts the disable clean, and ENABLE reads 1 until it ends (R250). -/
theorem mapCtl_disable {s : State} {old : Nat} (hold : bitOf old 0 = true) (hnew : s.flag 0x3000 0 = false) :
    s.mapCtl old = (s.putFld 0x3000 0 1 1).mapDisable := by simp [State.mapCtl, hold, hnew]

/-! ### One field of a register written -/

section
variable {s : State} {w : Writer} {x : Session}

/-- The dword that changes one field of a register and leaves its others as last written. -/
def State.dword (s : State) (off lsb n y : Nat) : Nat := (putField (s.lastWord off) lsb n y).toNat

theorem dword_lt (s : State) (off lsb n y : Nat) : s.dword off lsb n y < 2 ^ 32 := BitVec.isLt _
theorem bitsOf_dword_same (s : State) (off : Nat) {lsb n y : Nat} (hn : lsb + n ≤ 32) (hy : y < 2 ^ n) :
    bitsOf (s.dword off lsb n y) lsb n = y := bitsOf_putField_same _ hn hy
theorem bitsOf_dword_other (s : State) (off y : Nat) {lsb n lsb' n' : Nat} (h : lsb' + n' ≤ lsb ∨ lsb + n ≤ lsb') :
    bitsOf (s.dword off lsb n y) lsb' n' = s.lastFld off lsb' n' := bitsOf_putField_other _ y h

theorem exec_chFenceReq_accepted (c : Fin 16) (on : Bool) (hs : s.pwr.st ≠ .dark) (hx : s.sessionFor w [.installer] = some x)
    (hb : s.auditBlocked = false) :
    exec (.chFenceReq w c on) s = .next ((((s.written x (0x2000 + 0x80 * c.val)
      (s.dword (0x2000 + 0x80 * c.val) 31 1 (b2n on))).putFld (0x2000 + 0x80 * c.val) 31 1 (b2n on)).putFld
      (0x2000 + 0x80 * c.val) 30 1 (s.lastFld (0x2000 + 0x80 * c.val) 30 1)).mirrorWord (0x2000 + 0x80 * c.val)) := by
  have h := write1_chCtl c hs hx hb (dword_lt s (0x2000 + 0x80 * c.val) 31 1 (b2n on)) (bitsOf_dword_other _ _ _ (by decide))
  rwa [bitsOf_dword_same _ _ (by decide) (b2n_lt_two on)] at h

theorem exec_xtpFenceReq_accepted (on : Bool) (hs : s.pwr.st ≠ .dark) (hx : s.sessionFor w [.installer] = some x)
    (hop : s.sessionFor w [.operator] = none) (hb : s.auditBlocked = false) :
    exec (.xtpFenceReq w on) s = .next (((s.written x 0x3C00 (s.dword 0x3C00 0 1 (b2n on))).putFld 0x3C00 0 1
      (b2n on)).mirrorWord 0x3C00).xtpFence := by
  have h := write1_xtpCtl hs hx hop hb (dword_lt s 0x3C00 0 1 (b2n on)) (bitsOf_dword_other _ _ _ (by decide))
  rwa [bitsOf_dword_same _ _ (by decide) (b2n_lt_two on)] at h

theorem exec_cmpFenceReq_accepted (m : BitVec 4) (hs : s.pwr.st ≠ .dark) (hx : s.sessionFor w [.installer] = some x)
    (hop : s.sessionFor w [.operator] = none) (hb : s.auditBlocked = false) :
    exec (.cmpFenceReq w m) s = .next (((s.written x 0x3400 (s.dword 0x3400 4 4 m.toNat)).putFld 0x3400 4 4
      m.toNat).mirrorWord 0x3400).cmpFences := by
  have h := write1_cmpCtl hs hx hop hb (dword_lt s 0x3400 4 4 m.toNat) (bitsOf_dword_other _ _ _ (by decide))
  rwa [bitsOf_dword_same _ _ (by decide) m.isLt] at h

theorem exec_cryFenceReq_accepted (m : BitVec 4) (hs : s.pwr.st ≠ .dark) (hx : s.sessionFor w [.installer] = some x)
    (hb : s.auditBlocked = false) :
    exec (.cryFenceReq w m) s = .next (((s.written x 0x3800 (s.dword 0x3800 0 4 m.toNat)).putFld 0x3800 0 4
      m.toNat).mirrorWord 0x3800).cryFences := by
  have h := write1_cryCtl hs hx hb (dword_lt s 0x3800 0 4 m.toNat)
  rwa [bitsOf_dword_same _ _ (by decide) m.isLt] at h

theorem exec_mapDisable_accepted (hs : s.pwr.st ≠ .dark) (hx : s.sessionFor w [.installer] = some x)
    (hb : s.auditBlocked = false) (hlimit : s.lastFld 0x3000 8 8 ≠ 255) (hon : bitOf (s.lastWord 0x3000).toNat 0 = true) :
    ∃ t, exec (.mapDisable w) s = .next t ∧ t.map.disabling = true ∧ t.flag 0x3000 0 = true ∧ t.map.lines = s.map.lines := by
  have h8 : bitsOf (s.dword 0x3000 0 1 0) 8 8 = s.lastFld 0x3000 8 8 := bitsOf_dword_other _ _ _ (by decide)
  have h := write1_mapCtl_disable hs hx hb (dword_lt s 0x3000 0 1 0) (by rwa [h8])
    (bitsOf_dword_same _ _ (by decide) (by decide))
  rw [mapCtl_disable hon] at h
  · exact ⟨_, h, rfl, State.flag_putFld_same _ _ (by decide) (by decide), by simp [State.mapDisable]⟩
  · rw [State.flag_congr (State.mirrorWord_regs ..)]
    exact State.flag_putFld_same _ _ (by decide) (by decide)

theorem exec_portFenceReq_accepted (p : Fin 5) (on : Bool) (hs : s.pwr.st ≠ .dark) (hx : s.sessionFor w [.installer] = some x)
    (hb : s.auditBlocked = false) :
    let z := ((s.written x (0x0810 + 16 * p.val) (s.dword (0x0810 + 16 * p.val) 0 1 (b2n on))).putFld (0x0810 + 16 * p.val) 1 1
      (s.lastFld (0x0810 + 16 * p.val) 1 1)).putFld (0x0810 + 16 * p.val) 0 1 (b2n on)
    exec (.portFenceReq w p on) s = .next
      (if (z.lastWord (0x0810 + 16 * p.val)).toNat = (s.lastWord (0x0810 + 16 * p.val)).toNat then z else z.portCtl p) := by
  have h := write1_portCtl p hs hx hb (dword_lt s (0x0810 + 16 * p.val) 0 1 (b2n on))
  rwa [bitsOf_dword_same _ _ (by decide) (b2n_lt_two on), bitsOf_dword_other _ _ _ (by decide)] at h

theorem exec_yield_accepted (hs : s.pwr.st ≠ .dark) (hx : s.sessionFor w [.operator] = some x)
    (hin : s.sessionFor w [.installer] = none) (hb : s.auditBlocked = false) (hmay : s.mayYield = true) :
    exec (.yield w) s = .next ((s.written x 0x0C00 (s.dword 0x0C00 0 1 1)).putFld 0x0C00 1 1 (s.lastFld 0x0C00 1 1)).startYield := by
  have h := write1_pairCtl_yield hs hx hin hb hmay (dword_lt s 0x0C00 0 1 1) (bitsOf_dword_other _ _ _ (by decide))
    (bitsOf_dword_same _ _ (by decide) (by decide))
  rwa [bitsOf_dword_other _ _ _ (by decide)] at h

/-- A write of HQI_CTL.EN alone (R263). -/
theorem writeFld_hqiEn {y : Nat} (hy : y < 2) (hs : s.pwr.st ≠ .dark) (hen : y = 0 ∨ s.lastFld 0x0428 0 4 ≠ 0) :
    s.writeFld w 0x0400 0 1 y = .next ((((s.putFld 0x0400 1 1 (s.lastFld 0x0400 1 1)).putFld 0x0400 0 1 y).mirrorWord
      0x0400).hqiCtl (s.lastWord 0x0400).toNat) := by
  have h0 : bitsOf (s.dword 0x0400 0 1 y) 0 1 = y := bitsOf_dword_same _ _ (by decide) hy
  have h := write1_hqiCtl (w := w) hs (dword_lt s 0x0400 0 1 y) (.inr (by rwa [h0]))
  rwa [h0, bitsOf_dword_other _ _ _ (by decide)] at h

/-- A write of HQI_CTL.GW_EN alone (R275). -/
theorem writeFld_gwEn {y : Nat} (hy : y < 2) (hs : s.pwr.st ≠ .dark) :
    s.writeFld w 0x0400 1 1 y = .next ((((s.putFld 0x0400 1 1 y).putFld 0x0400 0 1 (s.lastFld 0x0400 0 1)).mirrorWord
      0x0400).hqiCtl (s.lastWord 0x0400).toNat) := by
  have h0 : bitsOf (s.dword 0x0400 1 1 y) 0 1 = s.lastFld 0x0400 0 1 := bitsOf_dword_other _ _ _ (by decide)
  have h := write1_hqiCtl (w := w) hs (dword_lt s 0x0400 1 1 y) (.inl h0)
  rwa [h0, bitsOf_dword_same _ _ (by decide) hy] at h

end

/-- Settles O18, register by register: what judging the dword takes, and what the taken fields start. -/
theorem acceptedSettingWritesAct : Obligations.AcceptedSettingWritesAct := by
  intro w s hs
  refine ⟨fun x hx hb => ⟨fun c on => ?_, fun hop => ⟨fun on => ?_, fun m => ?_⟩, fun m => ?_, fun m => ?_, fun hlimit hon => ?_,
    fun p on => ?_⟩, fun x v hx hb => ?_, fun x hx hin hb hmay => ?_, fun hsize => ?_, ?_, ?_, ?_⟩
  · exact exec_chFenceReq_accepted c on hs hx hb
  · exact exec_xtpFenceReq_accepted on hs hx hop hb
  · exact exec_cmpFenceReq_accepted m hs hx hop hb
  · exact exec_cryFenceReq_accepted m hs hx hb
  · exact write1_dmaPause hs hx hb m.isLt
  · exact exec_mapDisable_accepted hs hx hb hlimit hon
  · exact exec_portFenceReq_accepted p on hs hx hb
  · exact write1_bufDiag hs hx hb v.isLt
  · exact exec_yield_accepted hs hx hin hb hmay
  · exact writeFld_hqiEn (by decide) hs (.inr hsize)
  · exact writeFld_hqiEn (by decide) hs (.inl rfl)
  · exact writeFld_gwEn (by decide) hs
  · exact writeFld_gwEn (by decide) hs

end Sys2Proof.Machine
end

section
/-! PROOFS. The angle time base (R9 to R17): the reference actuator's words, COAST, the index, and the step that runs a command
or turns the shaft. -/
namespace Sys2Proof.Machine

open Sys2Proof

/-! ### States of the ATB (R14, R16) -/

theorem State.spinning_of_coast {s : State} (h : s.atb.st = .coast) : s.spinning = true := by simp [State.spinning, h]

/-- LOCKED keeps the banks and the gates. -/
theorem State.atbTo_locked (s : State) (r : Raise) : s.atbTo r .locked = { s with
    atb.st := .locked, atb.lastK := none, atb.bad := false, atb.phaseErr := 0 } := by simp [State.atbTo]

/-- A spinning ATB that goes to ACQUIRE has lost its reference (R16). -/
theorem State.atbTo_acquire_of_spinning {s : State} (r : Raise) (h : s.spinning = true) : s.atbTo r .acquire = r 11
    { ((s.setW1c 0x1004 6).cutGates 0 16).abandonAll with
      atb.st := .acquire, atb.lastK := none, atb.bad := false, atb.phaseErr := 0 } := by simp [State.atbTo, h]

theorem State.atbWake_of_ne_stopped {s : State} (h : s.atb.st ≠ .stopped) : s.atbWake = s := if_neg fun hw => h hw.1

/-! ### Words of the reference actuator (R14, R15) -/

section
variable {s : State} {k : BitVec 10} {a : Nat}

theorem State.refWord_locked_near (hst : s.atb.st = .locked) (hn : (angDiff a s.atb.ac.toNat).natAbs ≤ s.fld 0x1000 0 8) :
    s.refWord k a = { s with atb.phaseErr := angDiff a s.atb.ac.toNat, atb.bad := false } := by simp [State.refWord, hst, hn]

theorem State.refWord_locked_first (hst : s.atb.st = .locked) (hf : ¬ (angDiff a s.atb.ac.toNat).natAbs ≤ s.fld 0x1000 0 8)
    (hb : s.atb.bad = false) : s.refWord k a = { s with atb.bad := true } := by simp [State.refWord, hst, hf, hb]

theorem State.refWord_locked_second (hst : s.atb.st = .locked) (hf : ¬ (angDiff a s.atb.ac.toNat).natAbs ≤ s.fld 0x1000 0 8)
    (hb : s.atb.bad = true) : s.refWord k a = s.atbTo raise .acquire := by simp [State.refWord, hst, hf, hb]

theorem State.refWord_coast_near (hst : s.atb.st = .coast) (hn : (angDiff a s.atb.ac.toNat).natAbs ≤ s.fld 0x1000 0 8) :
    s.refWord k a = { s with atb.st := .locked, atb.phaseErr := angDiff a s.atb.ac.toNat, atb.bad := false } := by
  simp [State.refWord, hst, hn]

theorem State.refWord_coast_far (hst : s.atb.st = .coast) (hf : ¬ (angDiff a s.atb.ac.toNat).natAbs ≤ s.fld 0x1000 0 8) :
    s.refWord k a = s := by simp [State.refWord, hst, hf]

theorem State.refWord_acquire_next (hst : s.atb.st = .acquire) (hk : s.atb.lastK = some (k - 1)) :
    s.refWord k a = { s with
      atb.st := .locked, atb.ac := BitVec.ofNat 22 a, atb.lastK := none, atb.bad := false, atb.phaseErr := 0 } := by
  simp [State.refWord, hst, hk, State.atbTo_locked]

theorem State.refWord_acquire_other (hst : s.atb.st = .acquire) (hk : s.atb.lastK ≠ some (k - 1)) :
    s.refWord k a = { s with atb.lastK := some k } := by simp only [State.refWord, hst, if_neg hk]

end

theorem State.foundWords_of_found {s : State} {a : Nat} (hl : (s.act a).st ≠ .loading) (hq : (s.act a).st ≠ .acquiring) :
    s.foundWords a = s := by simp [State.foundWords, hl, hq]

/-- The head `h` has seen the track of a valid word `w` (R74). -/
def State.sawTrack (s : State) (h : Fin 64) (w : BitVec 48) : State :=
  s.modHead h.val (fun x => { x with lastTrack := BitVec.ofNat 24 (angleTrack w) })

/-- An actuator that tracks or writes servo has found its words, and is neither parked nor fenced. -/
theorem ActState.ne_of_tracks {st : ActState} (h : st.tracks = true ∨ st = .ssw) :
    st ≠ .parked ∧ st ≠ .unloading ∧ st ≠ .fenced ∧ st ≠ .loading ∧ st ≠ .acquiring := by
  revert h; cases st <;> decide

/-- A valid word of the reference actuator reaches the ATB once it is out of STOPPED. -/
theorem exec_angleWord_reference {h : Fin 64} {w : BitVec 48} {s : State} (hok : angleOk w = true)
    (hact : (s.act (h.val / 16)).st.tracks = true ∨ (s.act (h.val / 16)).st = .ssw)
    (hmask : s.flag 0x1000 (12 + h.val / 16) = true) (href : s.refAct = some (h.val / 16)) (hst : s.atb.st ≠ .stopped) :
    exec (.angleWord h w) s = .next ((s.sawTrack h w).refWord (BitVec.ofNat 10 (angleK w))
      (s.shaftOf (h.val / 16) (4096 * angleK w))) := by
  obtain ⟨hparked, hunload, hfenced, hload, hacq⟩ := ActState.ne_of_tracks hact
  have hfound : (s.sawTrack h w).foundWords (h.val / 16) = s.sawTrack h w :=
    State.foundWords_of_found (s := s.sawTrack h w) hload hacq
  have hwake : (s.sawTrack h w).atbWake = s.sawTrack h w := State.atbWake_of_ne_stopped hst
  have hmask' : (s.sawTrack h w).flag 0x1000 (12 + h.val / 16) = true := hmask
  have href' : (s.sawTrack h w).refAct = some (h.val / 16) := href
  have hofs (m : Nat) : (s.sawTrack h w).shaftOf (h.val / 16) m = s.shaftOf (h.val / 16) m := rfl
  show execAngleWord h w s = _
  simp only [State.sawTrack] at hfound hwake hmask' href' hofs ⊢
  simp [execAngleWord, hok, hparked, hunload, hfenced, hfound, hwake, hmask', href', hofs]

/-- Settles O3: the word reaches the ATB, which answers by its state, by the tolerance and by what it saw before. -/
theorem referenceWordKeepsPhase : Obligations.ReferenceWordKeepsPhase := by
  intro h w s a ang m near hok hact hmask href
  have hword (hst : s.atb.st ≠ .stopped) : exec (.angleWord h w) s = .next (m.refWord (BitVec.ofNat 10 (angleK w)) ang) :=
    exec_angleWord_reference hok hact hmask href hst
  refine ⟨fun hst hn => ?_, fun hst hf hb => ?_, fun hst hf hb => ?_, fun hst hn => ?_, fun hst hf => ?_, fun hst hk => ?_,
    fun hst hk => ?_⟩ <;> rw [hword (by simp [hst])]
  · exact congrArg _ (State.refWord_locked_near hst hn)
  · exact congrArg _ (State.refWord_locked_first hst hf hb)
  · exact congrArg _ (State.refWord_locked_second hst hf hb)
  · exact congrArg _ (State.refWord_coast_near hst hn)
  · exact congrArg _ (State.refWord_coast_far hst hf)
  · exact congrArg _ (State.refWord_acquire_next hst hk)
  · exact congrArg _ (State.refWord_acquire_other hst hk)

/-! ### The index (R9, R29, R31 to R33) -/

theorem exec_index_of_not_spinning (period : Nat) {s : State} (h : s.spinning = false) : exec (.index period) s = .next s := by
  show execIndex period s = _
  simp [execIndex, h]

/-- Settles O51: past the live corrections only the end of a servo-writing operation tells the two cases apart. -/
theorem indexStepsOfARevolution : Obligations.IndexStepsOfARevolution := by
  intro period s
  refine ⟨exec_index_of_not_spinning period, fun h => ?_⟩
  intro past z y x
  show execIndex period s = _
  unfold execIndex
  rw [if_neg (by simp [h])]
  extract_lets atb turned switched applied inits done ended
  have hdone : done = x := rfl
  clear_value done x
  subst hdone
  exact congrArg Host.Outcome.next (apply_ite (fun t : State => t.recRevs.settle) ..)

/-! ### Reads with an effect of their own (R17, R168, R422) -/

theorem regAt_atbNowAc : regAt 0x1008 = some ⟨0x1008, 0x0, 1, 5, [Fld.status 0 22 0]⟩ := by decide +kernel
theorem regAt_atbNowRev : regAt 0x100C = some ⟨0x100C, 0x0, 1, 5, [Fld.status 0 32 0]⟩ := by decide +kernel

/-- A register of one read-only field from bit 0 on reads as that field. -/
theorem regValue_status {s : State} {off base stride count row n r : Nat}
    (hreg : regAt off = some ⟨base, stride, count, row, [Fld.status 0 n r]⟩) (hlt : s.roWord off < 2 ^ n) :
    s.regValue off = BitVec.ofNat 32 (s.roWord off) := by
  simp [State.regValue, hreg, State.readFld, Fld.status, at_, bitsOf, Nat.mod_eq_of_lt hlt]

theorem regValue_atbNowAc (s : State) : s.regValue 0x1008 = s.atb.ac.setWidth 32 :=
  (regValue_status regAt_atbNowAc s.atb.ac.isLt).trans (BitVec.ofNat_toNat ..)
theorem regValue_atbNowRev (s : State) : s.regValue 0x100C = s.atb.nowRev :=
  (regValue_status regAt_atbNowRev s.atb.nowRev.isLt).trans ((BitVec.ofNat_toNat ..).trans (BitVec.setWidth_eq _))

/-- Settles O1: both registers are one read-only field each. -/
theorem angleReadLatchesRevolution : Obligations.AngleReadLatchesRevolution := fun s =>
  ⟨⟨s.readOut 0x1008, rfl, regValue_atbNowAc s, regValue_atbNowRev _, regValue_atbNowAc _, rfl⟩, regValue_atbNowRev s⟩

theorem readEffect_seqCtx (s : State) (n : Fin 5) :
    s.readEffect (0x1420 + 4 * n.val) = s.modCtx n.val (fun c => { c with rqMax := 0 }) := by
  have hne : 0x1420 + 4 * n.val ≠ 0x1008 := by omega
  have hin : 0x1420 ≤ 0x1420 + 4 * n.val ∧ 0x1420 + 4 * n.val ≤ 0x1430 ∧ (0x1420 + 4 * n.val) % 4 = 0 := by omega
  have hn : (0x1420 + 4 * n.val - 0x1420) / 4 = n.val := by omega
  rw [State.readEffect, if_neg hne, if_pos hin, hn]

theorem exec_coastEntry_of_locked {s : State} (h : s.atb.st = .locked) :
    exec .coastEntry s = .next { s with atb.st := .coast, atb.bad := false } := by
  show execCoastEntry s = _
  rw [execCoastEntry, if_pos h]

theorem exec_coastMaxExpiry_of_coast {s : State} (h : s.atb.st = .coast) :
    exec .coastMaxExpiry s = .next (s.atbTo raise .acquire) := by
  show execCoastMaxExpiry s = _
  rw [execCoastMaxExpiry, if_pos h]

theorem exec_seqCtxRead (n : Fin 5) (s : State) : exec (.seqCtxRead n) s = .next
    { s.modCtx n.val (fun c => { c with rqMax := 0 }) with regs.rdata := s.regValue (0x1420 + 4 * n.val) } := by
  show execSeqCtxRead n s = _
  rw [execSeqCtxRead, State.readOut, readEffect_seqCtx]

/-- Settles O2: leaving COAST for ACQUIRE is the loss of the reference, and the two reads clear what they have shown. -/
theorem readsThatClearAndCoast : Obligations.ReadsThatClearAndCoast := by
  refine ⟨fun s h => exec_coastEntry_of_locked h, fun s h => ?_, exec_seqCtxRead, fun s => rfl⟩
  rw [exec_coastMaxExpiry_of_coast h, State.atbTo_acquire_of_spinning raise (State.spinning_of_coast h)]

/-! ### A step (INDEX.md, R9; log 1) -/

theorem step_of_pending {c : Instr} {rest : List Instr} {s : State} (h : s.pending = c :: rest) :
    step s = exec c { s with pending := rest } := by simp only [step, h]
theorem step_of_idle {s : State} (h : s.pending = []) : step s = .next (tick s) := by simp only [step, h]

theorem tick_of_turning {s : State} (hst : s.atb.st = .locked ∨ s.atb.st = .coast) (hac : s.atb.ac.toNat < 4194303) :
    tick s = { s with atb.ac := s.atb.ac + 1 } := if_pos ⟨hst, Nat.add_lt_add_right hac 1⟩
theorem tick_of_still {s : State} (h : s.atb.st = .stopped ∨ s.atb.st = .acquire ∨ s.atb.ac.toNat = 4194303) : tick s = s := by
  refine if_neg fun ⟨hst, hac⟩ => ?_
  obtain h | h | h := h
  · simp [h] at hst
  · simp [h] at hst
  · simp [h, revAC] at hac

/-- Settles O52, by the queue's front and, on an empty queue, by whether the shaft turns below its last count. -/
theorem stepRunsTheFrontCommand : Obligations.StepRunsTheFrontCommand :=
  ⟨fun _ _ _ h => step_of_pending h, fun _ h => step_of_idle h,
    fun _ h hst hac => (step_of_idle h).trans (congrArg _ (tick_of_turning hst hac)),
    fun _ h hstill => (step_of_idle h).trans (congrArg _ (tick_of_still hstill)), fun _ _ _ => ⟨rfl, rfl⟩⟩

/-- Settles O53. The registers are a finite table, read off the map. -/
theorem registersAndStateAtReset : Obligations.RegistersAndStateAtReset :=
  ⟨by decide +kernel, rfl, State.reset_memOk, State.reset_tallyOk, rfl, rfl, fun _ => rfl, fun _ => rfl, rfl, fun _ => rfl,
    fun _ => rfl, rfl⟩

end Sys2Proof.Machine
end

section
/-! PROOFS. Slots of the active banks (R28, R81 to R86, R153, R423): what a slot does at its start angle and at its end. -/
namespace Sys2Proof.Machine

open Sys2Proof

@[simp] theorem State.modSlot_sent (s : State) (k i : Nat) (f : Slot → Slot) : (s.modSlot k i f).sent = s.sent := by
  unfold State.modSlot; split <;> rfl
@[simp] theorem State.modSlot_buf (s : State) (k i : Nat) (f : Slot → Slot) : (s.modSlot k i f).buf = s.buf := by
  unfold State.modSlot; split <;> rfl

theorem isWriteKind_iff {k : Nat} : isWriteKind k = true ↔ k = 2 ∨ k = 5 := by simp [isWriteKind]

theorem ne_seek_of_isReadKind {k : Nat} (h : isReadKind k = true) : k ≠ 3 := by rintro rfl; exact absurd h (by decide)
theorem ne_seek_of_isWriteKind {k : Nat} (h : isWriteKind k = true) : k ≠ 3 := by rintro rfl; exact absurd h (by decide)
theorem not_isReadKind_of_isWriteKind {k : Nat} (h : isWriteKind k = true) : isReadKind k = false := by
  obtain rfl | rfl := isWriteKind_iff.mp h <;> rfl

/-- The state in which slot `i` of bank `k` executes from its start angle on (R153). -/
def State.slotOpen (s : State) (k i : Nat) (sl : Slot) : State :=
  (s.toAngle sl.e.startAc.toNat).modSlot k i (fun x => { x with st := .executing })

/-- The write gate of channel `n` for slot `i` of bank `k`, on or held off (R84, R85): the slot's cut mark, the channel's gate and
flags, and the verify the slot arms (R137). -/
def State.setGate (s : State) (n k i : Nat) (sl : Slot) (on : Bool) : State :=
  (s.modSlot k i (fun x => { x with cut := !on })).modCh n (fun c => { c with
    gate := on, flags := { c.flags with vfyOk := false, vfyFail := false, wus := !on }
    vfy := if sl.vfyArm then c.vfy ++ [(k % 2 == 1, i, !on)] else c.vfy })

/-- The bytes that the slot `sl` puts on media from its media buffer (R52, R208). -/
def State.slotBlock (s : State) (sl : Slot) : List Byte :=
  slotBytes (slotTrack sl.e) sl.e.pos.toNat (s.sealInfo (s.load (mediaBuf sl.e.bufref.toNat) 4128))

@[simp] theorem State.slotOpen_sent (s : State) (k i : Nat) (sl : Slot) : (s.slotOpen k i sl).sent = s.sent := by
  simp [State.slotOpen]
@[simp] theorem State.slotOpen_buf (s : State) (k i : Nat) (sl : Slot) : (s.slotOpen k i sl).buf = s.buf := by
  simp [State.slotOpen]
@[simp] theorem State.setGate_sent (s : State) (n k i : Nat) (sl : Slot) (on : Bool) : (s.setGate n k i sl on).sent = s.sent := by
  simp [State.setGate]
@[simp] theorem State.setGate_buf (s : State) (n k i : Nat) (sl : Slot) (on : Bool) : (s.setGate n k i sl on).buf = s.buf := by
  simp [State.setGate]
@[simp] theorem State.setGate_gate (s : State) (n k i : Nat) (sl : Slot) (on : Bool) :
    ((s.setGate n k i sl on).ch n).gate = on := by simp [State.setGate]
@[simp] theorem State.setGate_wus (s : State) (n k i : Nat) (sl : Slot) (on : Bool) :
    ((s.setGate n k i sl on).ch n).flags.wus = !on := by simp [State.setGate]

section
variable {c : Fin 16} {i : Fin 1536} {s : State} {sl : Slot}

section
variable (hat : s.slotAt (s.activeKey c.val) i.val = some sl) (hspin : s.spinning = true)
include hat hspin

theorem exec_slotStart_planned (hst : sl.st = .planned) : exec (.slotStart c i) s =
      .next ((s.toAngle sl.e.startAc.toNat).dropSlot (s.activeKey c.val) i.val .wasted true) := by
  show execSlotStart c i s = _
  simp [execSlotStart, hat, hspin, Slot.unstarted, hst]

theorem exec_slotStart_seek (hst : sl.st = .armed) (hk : sl.e.kind.toNat = 3)
    (ha : (s.act (c.val / 4)).st = .following) : exec (.slotStart c i) s =
      .next (((s.toAngle sl.e.startAc.toNat).startSeek (c.val / 4) sl.e.hs sl.e.trk sl.e.tpos).endSlot
        (s.activeKey c.val) i.val .retired false) := by
  show execSlotStart c i s = _
  have ha' : ((s.toAngle sl.e.startAc.toNat).act (c.val / 4)).st = .following := ha
  simp [execSlotStart, hat, hspin, Slot.unstarted, hst, hk, ha']

theorem exec_slotStart_unsettled (hst : sl.st = .armed) (hk : sl.e.kind.toNat ≠ 3)
    (hset : (s.toAngle sl.e.startAc.toNat).settledFor (c.val / 4) sl.e = false) : exec (.slotStart c i) s =
      .next (((s.toAngle sl.e.startAc.toNat).dropSlot (s.activeKey c.val) i.val .wasted false).notSettled (c.val / 4)) := by
  show execSlotStart c i s = _
  simp [execSlotStart, hat, hspin, Slot.unstarted, hst, hk, hset]

theorem exec_slotStart_read (hst : sl.st = .armed) (hk : isReadKind sl.e.kind.toNat = true)
    (hset : (s.toAngle sl.e.startAc.toNat).settledFor (c.val / 4) sl.e = true) : exec (.slotStart c i) s =
      .next (((s.slotOpen (s.activeKey c.val) i.val sl).modCh c.val (fun x => { x with flags := { x.flags with
          sync1 := false, sync2 := false, decOk := false, decFail := false } })).retain c.val
        (slotHead sl.e (c.val / 4)) (slotTrack sl.e) sl.e.pos.toNat (sl.e.kind.toNat == 6)) := by
  show execSlotStart c i s = _
  simp [execSlotStart, hat, hspin, Slot.unstarted, hst, ne_seek_of_isReadKind hk, hset, hk, State.slotOpen]

/-- An armed write slot opens, with its gate on where the conditions of R84 hold. -/
theorem exec_slotStart_write (hst : sl.st = .armed) (hk : isWriteKind sl.e.kind.toNat = true)
    (hset : (s.toAngle sl.e.startAc.toNat).settledFor (c.val / 4) sl.e = true) {on : Bool}
    (hon : (s.slotOpen (s.activeKey c.val) i.val sl).mayWrite (slotHead sl.e (c.val / 4)) = on) :
    let t := (s.slotOpen (s.activeKey c.val) i.val sl).setGate c.val (s.activeKey c.val) i.val sl on
    exec (.slotStart c i) s = .next (if on then t.send (.write (fin64 (slotHead sl.e (c.val / 4)))
      (BitVec.ofNat 24 (slotTrack sl.e)) sl.e.pos (t.slotBlock sl)) else t) := by
  intro t
  show execSlotStart c i s = _
  subst hon
  simp only [execSlotStart, hat, hspin, Slot.unstarted, hst, ne_seek_of_isWriteKind hk, hset, not_isReadKind_of_isWriteKind hk]
  rfl

end

/-- A slot of the active bank that ends before the index. -/
theorem exec_slotEnd_active (hpend : s.slotAt (s.pendKey c.val) i.val = none)
    (hat : s.slotAt (s.activeKey c.val) i.val = some sl) (hst : sl.st = .executing)
    (hlt : sl.e.startAc.toNat + endSpan (s.slotBpr (c.val / 4) sl.e) < revAC) :
    let y := s.toAngle (sl.e.startAc.toNat + endSpan (s.slotBpr (c.val / 4) sl.e))
    let z := if isWriteKind sl.e.kind.toNat then y.modCh c.val (fun x => { x with gate := false }) else y
    exec (.slotEnd c i) s = .next ((z.endSlot (s.activeKey c.val) i.val .retired false).lateStaged c.val) := by
  show execSlotEnd c i s = _
  simp [execSlotEnd, hpend, hat, hst, hlt]

end

/-- Settles O14, by the slot's state, its kind, whether its head has settled and whether its gate may open. -/
theorem slotsStartAndEnd : Obligations.SlotsStartAndEnd := by
  refine ⟨fun c i s sl hat hspin hst => exec_slotStart_planned hat hspin hst,
    fun c i s sl hat hspin hst hk ha => exec_slotStart_seek hat hspin hst hk ha,
    fun c i s sl hat hspin hst hk hset => exec_slotStart_unsettled hat hspin hst hk hset,
    fun c i s sl hat hspin hst hk hset => exec_slotStart_read hat hspin hst hk hset,
    fun c i s sl hat hspin hst hk hset hoff => ⟨_, exec_slotStart_write hat hspin hst hk hset hoff, ?_⟩,
    fun c i s sl hat hspin hst hk hset hon => ⟨_, exec_slotStart_write hat hspin hst hk hset hon, ?_⟩,
    fun c i s sl hpend hat hst hlt => exec_slotEnd_active hpend hat hst hlt⟩
  · simp
  · exact ⟨State.setGate_gate .., by simp, by simp [State.send]⟩

end Sys2Proof.Machine
end

section
/-! PROOFS. Messages by SECURITY SEND, SECURITY RECEIVE and the mailbox (R377, R381, R392, R393, R399, R402): what every
message is run through first, and the certificate and firmware messages (R389 to R391). -/
namespace Sys2Proof.Machine

open Sys2Proof

/-! ### What a message is run through (R377, R392, R393, R399) -/

/-- Messages are run here, and neither refused nor held: not DECOMMISSIONED, not in the error state, the self-tests passed. -/
def State.Serving (s : State) : Prop := s.nv.life ≠ .decommissioned ∧ s.sec.error = false ∧ s.ready 1 = true

theorem State.secRun_of_serving {s : State} {v : Via} {send : Bool} {proto msg : Nat} {ok : Bool} (f : State → State)
    (hs : s.Serving) (hmsg : s.msgIs v send proto msg = true) (hok : ok = true) : s.secRun v send proto msg ok f = f s := by
  obtain ⟨hlife, herr, hready⟩ := hs
  simp [State.secRun, hmsg, hok, hlife, herr, hready]

theorem State.roleAct_of_open {s : State} (v : Via) (f : State → State) (haud : s.auditBlocked = false) :
    s.roleAct v f = f s := by simp [State.roleAct, haud]

/-- A message waiting on QP0 is a fetched command. -/
theorem State.viaCmd_of_msgIs {s : State} {tag : BitVec 16} {send : Bool} {proto msg : Nat}
    (h : s.msgIs (.qp0 tag) send proto msg = true) : ∃ c, s.viaCmd (.qp0 tag) = some c := by
  cases hc : s.cmd? 0 tag with
  | none => simp [State.msgIs, hc] at h
  | some c => exact ⟨c, hc⟩

/-! ### Certificates (R389) -/

section
variable {s : State} {v : Via} {msg kind len aid : Nat} {ok good : Bool} {f : State → State}

theorem State.peercertAct_bad (hs : s.Serving) (hmsg : s.msgIs v true 4 msg = true) (hok : ok = true)
    (hbad : (s.viaData v).length ≠ len ∨ good = false) : s.peercertAct v msg kind len ok good aid f = s.secBad v 32 := by
  rw [State.peercertAct, State.secRun_of_serving _ hs hmsg hok, if_pos (by simpa using hbad)]

theorem State.peercertAct_noOperator (hs : s.Serving) (hmsg : s.msgIs v true 4 msg = true) (hok : ok = true)
    (hlen : (s.viaData v).length = len) (hgood : good = true) (haud : s.auditBlocked = false)
    (hop : s.session (s.who v) .operator = none) :
    s.peercertAct v msg kind len ok good aid f = (s.audit 0xA00C 1 [kind, aid, 0, 0]).secFail v 3 := by
  rw [State.peercertAct, State.secRun_of_serving _ hs hmsg hok, if_neg (by simp [hlen, hgood]), State.roleAct_of_open _ _ haud]
  simp only [hop]

theorem State.peercertAct_operator {x : Session} (hs : s.Serving) (hmsg : s.msgIs v true 4 msg = true) (hok : ok = true)
    (hlen : (s.viaData v).length = len) (hgood : good = true) (haud : s.auditBlocked = false)
    (hop : s.session (s.who v) .operator = some x) :
    s.peercertAct v msg kind len ok good aid f = (f (s.audit 0xA00C 1 [kind, aid, x.num.val, 0])).secOk v 0 := by
  rw [State.peercertAct, State.secRun_of_serving _ hs hmsg hok, if_neg (by simp [hlen, hgood]), State.roleAct_of_open _ _ haud]
  simp only [hop]

end

theorem exec_peercertDeviceKey_of_serving {s : State} {v : Via} (hs : s.Serving) (hmsg : s.msgIs v false 4 2 = true)
    (hlen : ∀ tag, v = .qp0 tag → s.viaLen v = 104) :
    exec (.peercertDeviceKey v) s = .next (s.secEnd v 0 0
      (leBytes 8 s.nv.nodeId.toNat ++ padTo 96 (Config.devicePub s.nv.nodeId.toNat))) := by
  show execPeercertDeviceKey v s = _
  unfold execPeercertDeviceKey
  rw [State.secRun_of_serving _ hs hmsg rfl, if_neg]
  · rfl
  · cases v with
    | qp0 tag => simp [hlen tag rfl]
    | mbox => simp

/-! ### Firmware (R390, R391) -/

section
variable {s : State} {v : Via} (hs : s.Serving) (haud : s.auditBlocked = false)
include hs haud

theorem exec_firmwareChunk_loader {x : Session} {ofs : Word} (hmsg : s.msgIs v true 5 1 = true)
    (hofs : s.viaCp v 2 = ofs.toNat) (hload : s.loader (s.who v) = .ok x) :
    exec (.firmwareChunk v ofs (s.viaData v)) s = .next (State.secOk { s.auditFree with
      nv.fwAlt := ((s.viaData v).foldl (fun (p : Tab Byte × Nat) b => (tset p.1 p.2 b, p.2 + 1))
        (s.nv.fwAlt, ofs.toNat)).1 } v 0) := by
  show execFirmwareChunk v ofs (s.viaData v) s = _
  rw [execFirmwareChunk, State.secRun_of_serving _ hs hmsg (by simp [hofs]), State.roleAct_of_open _ _ haud]
  simp only [hload]

theorem exec_firmwareChunk_refused {c : Nat} {ofs : Word} (hmsg : s.msgIs v true 5 1 = true)
    (hofs : s.viaCp v 2 = ofs.toNat) (hload : s.loader (s.who v) = .error c) :
    exec (.firmwareChunk v ofs (s.viaData v)) s = .next (s.auditFree.secFail v c) := by
  show execFirmwareChunk v ofs (s.viaData v) s = _
  rw [execFirmwareChunk, State.secRun_of_serving _ hs hmsg (by simp [hofs]), State.roleAct_of_open _ _ haud]
  simp only [hload]

variable {good : Bool} {n : Word} {k : Fin 4} (hmsg : s.msgIs v true 5 2 = true)
include hmsg

theorem exec_firmwareFinish_refused {c : Nat} (hload : s.loader (s.who v) = .error c) :
    exec (.firmwareFinish v good n k) s = .next ((s.audit 0xA007 1 [2, n.toNat, k.val, c]).secFail v c) := by
  show execFirmwareFinish v good n k s = _
  rw [execFirmwareFinish, State.secRun_of_serving _ hs hmsg rfl, State.roleAct_of_open _ _ haud]
  simp only [hload]

/-- A loader's FINISH: the image is selected unless one of its four checks fails. -/
theorem exec_firmwareFinish_loader {x : Session} (hload : s.loader (s.who v) = .ok x) :
    exec (.firmwareFinish v good n k) s = .next
      (if good = false ∨ s.nv.fwAlt = [] ∨ bitOf s.nv.revoked.toNat (4 + k.val) = true ∨ n.toNat < s.nv.fsvnMin.toNat
      then (s.audit 0xA007 1 [2, n.toNat, k.val, 1]).secFail v 1
      else State.secOk { s.audit 0xA007 1 [2, n.toNat, k.val, 0] with
        nv.fwNext := some n, nv.fwSel := (!s.nv.fwSel.1, s.nv.fwSel.2 + 1), nv.fwAlt := [] } v 0) := by
  show execFirmwareFinish v good n k s = _
  rw [execFirmwareFinish, State.secRun_of_serving _ hs hmsg rfl, State.roleAct_of_open _ _ haud]
  simp only [hload]
  exact congrArg _ (ite_congr (by simp [or_assoc]) (fun _ => rfl) (fun _ => rfl))

end

end Sys2Proof.Machine
end

section
/-! PROOFS. System records (R66, R67, R72): staging, committing, reading, loading the directory and the end of a write. -/
namespace Sys2Proof.Machine

open Sys2Proof

/-- What SYSREC_COMMIT does with a record of a known type and length once its audit record can be kept (R72, R399). -/
def State.commitRec (s : State) (v : Via) (ty a : Nat) (b : List Byte) : State :=
  if s.sysrecCause (s.who v) ty ≠ 0 then s.auditFree.secFail v (s.sysrecCause (s.who v) ty)
  else match s.checkRec ty a b with
    | some o => (if ty = 7 then s.auditFree.event 0x3000 2 [a, o]
        else if ty ≤ 2 then s.auditFree.event 0x200A 2 [ty, a, o] else s.auditFree).secBad v o
    | none =>
      if ty = 3 ∧ s.nv.life = .fielded ∧ !s.fieldedRltOk a b then s.auditFree.secFail v 5
      else if s.recs.commit.isSome then s.secWait v .waiting
      else State.secWait { s.auditFree with recs.commit := some (v, ty, fin4 a, b) } v .running

theorem sysrecType_unknown_iff {ty : Nat} :
    (!(ty == 1 || ty == 2 || ty == 3 || ty == 7)) = true ↔ ty ∉ [1, 2, 3, 7] := by simp [and_assoc]

section
variable {s : State} {v : Via} {ty a : Nat} {b : List Byte}

theorem State.commitRec_noRole (hc : s.sysrecCause (s.who v) ty ≠ 0) :
    s.commitRec v ty a b = s.auditFree.secFail v (s.sysrecCause (s.who v) ty) := if_pos hc

variable (hc : s.sysrecCause (s.who v) ty = 0)
include hc

theorem State.commitRec_bad {o : Nat} (hchk : s.checkRec ty a b = some o) :
    s.commitRec v ty a b = (if ty = 7 then s.auditFree.event 0x3000 2 [a, o]
      else if ty ≤ 2 then s.auditFree.event 0x200A 2 [ty, a, o] else s.auditFree).secBad v o := by
  simp only [State.commitRec, hc, hchk, ne_eq, not_true_eq_false, if_false]

theorem State.commitRec_good (hchk : s.checkRec ty a b = none) :
    s.commitRec v ty a b = if ty = 3 ∧ s.nv.life = .fielded ∧ s.fieldedRltOk a b = false then s.auditFree.secFail v 5
      else if s.recs.commit.isSome then s.secWait v .waiting
      else State.secWait { s.auditFree with recs.commit := some (v, ty, fin4 a, b) } v .running := by
  simp only [State.commitRec, hc, hchk, ne_eq, not_true_eq_false, if_false, Bool.not_eq_true']

end

/-! ### SYSREC messages (R72, R381) -/

section
variable {s : State} {v : Via} (hs : s.Serving)
include hs

section
variable {ofs : Word} (hmsg : s.msgIs v true 6 1 = true) (hofs : s.viaCp v 2 = ofs.toNat)
include hmsg hofs

theorem exec_sysrecStage_outside (hlong : 2097152 < ofs.toNat + (s.viaData v).length) :
    exec (.sysrecStage v ofs (s.viaData v)) s = .next (s.secBad v 44) := by
  show execSysrecStage v ofs (s.viaData v) s = _
  rw [execSysrecStage, State.secRun_of_serving _ hs hmsg (by simp [hofs]), if_pos hlong]
  rfl

theorem exec_sysrecStage_inside (hfits : ofs.toNat + (s.viaData v).length ≤ 2097152) (haud : s.auditBlocked = false) :
    exec (.sysrecStage v ofs (s.viaData v)) s = .next
      (if s.sysrecCause (s.who v) 0 ≠ 0 then s.auditFree.secFail v (s.sysrecCause (s.who v) 0)
      else State.secOk { s.auditFree with
        recs.area := ((s.viaData v).foldl (fun (p : Tab Byte × Nat) b => (tset p.1 p.2 b, p.2 + 1))
          (if ofs = 0 then [] else s.recs.area, ofs.toNat)).1 } v 0) := by
  show execSysrecStage v ofs (s.viaData v) s = _
  rw [execSysrecStage, State.secRun_of_serving _ hs hmsg (by simp [hofs]), if_neg (by omega), State.roleAct_of_open _ _ haud]

end

/-- A SYSREC_COMMIT that is not being written already is judged by its type and length, then as a role action. -/
theorem exec_sysrecCommit_of_unstarted {cp2 len : Word} (hmsg : s.msgIs v true 6 2 = true) (hcp2 : s.viaCp v 2 = cp2.toNat)
    (hcp3 : s.viaCp v 3 = len.toNat) (hcmd : ∀ c, s.viaCmd v = some c → c.st ≠ .running)
    (hbox : v = .mbox → ∀ x, s.recs.commit = some x → x.1 ≠ .mbox) :
    let ty := bitsOf cp2.toNat 0 16
    exec (.sysrecCommit v cp2 len) s = .next (if ty ∉ [1, 2, 3, 7] then s.secBad v 44
      else if 2097152 < len.toNat then s.secBad v 48
      else s.roleAct v (fun s => s.commitRec v ty (if ty = 1 then 0 else bitsOf cp2.toNat 16 2) (s.areaBytes len.toNat))) := by
  intro ty
  show execSysrecCommit v cp2 len s = _
  unfold execSysrecCommit
  dsimp only
  rw [if_neg, State.secRun_of_serving _ hs hmsg (by simp [hcp2, hcp3])]
  · exact congrArg _ (ite_congr (propext sysrecType_unknown_iff) (fun _ => rfl) (fun _ => rfl))
  · cases v with
    | qp0 tag =>
      obtain ⟨c, hc⟩ := State.viaCmd_of_msgIs hmsg
      simp [hc, hcmd c hc]
    | mbox =>
      cases hcom : s.recs.commit with
      | none => simp [State.viaCmd]
      | some x => simp [State.viaCmd, hbox rfl x hcom]

/-- SYSREC_READ answers the bytes stored, and free ones past their end (log 60). -/
theorem exec_sysrecRead_of_serving {cp2 ofs n : Word} (hmsg : s.msgIs v false 6 3 = true) (hcp2 : s.viaCp v 2 = cp2.toNat)
    (hcp3 : s.viaCp v 3 = ofs.toNat) (hlen : s.viaLen v = n.toNat) :
    let ty := bitsOf cp2.toNat 0 16
    let a := if ty = 1 then 0 else bitsOf cp2.toNat 16 2
    let out := ((if ty = 3 then s.rltBytes a else tget [] s.recs.bytes (4 * ty + a)).drop ofs.toNat).take n.toNat
    exec (.sysrecRead v cp2 ofs n) s = .next (if ty ∉ [1, 2, 3, 7] then s.secBad v 44
      else s.draw.secEnd v 0 0 (out ++ padTo (n.toNat - out.length) (Config.freeBytes (n.toNat - out.length) s.free))) := by
  intro ty a out
  show execSysrecRead v cp2 ofs n s = _
  rw [execSysrecRead, State.secRun_of_serving _ hs hmsg (by simp [hcp2, hcp3, hlen])]
  exact congrArg _ (ite_congr (propext sysrecType_unknown_iff) (fun _ => rfl) (fun _ => rfl))

end

/-- Settles O33: each message is run as it stands, and its checks, role and data are those of its own equation above. -/
theorem certificatesFirmwareAndSystemRecords : Obligations.CertificatesFirmwareAndSystemRecords := by
  intro v s hlife herr hready w d
  have hs : s.Serving := ⟨hlife, herr, hready⟩
  refine ⟨exec_peercertDeviceKey_of_serving hs, fun haud => ⟨fun hmsg hlen => ⟨fun hop => ?_, fun x hop => ?_⟩,
    fun hmsg => ⟨fun hbad => ?_, fun hlen hver hzero x hop => ?_⟩,
    fun x hload => ⟨fun ofs hmsg hofs => exec_firmwareChunk_loader hs haud hmsg hofs hload, fun good n k hmsg => ?_⟩,
    fun c hload => ⟨fun ofs hmsg hofs => exec_firmwareChunk_refused hs haud hmsg hofs hload,
      fun good n k hmsg => exec_firmwareFinish_refused hs haud hmsg hload⟩⟩,
    fun ofs hmsg hofs => ⟨exec_sysrecStage_outside hs hmsg hofs, fun hfits haud => ?_⟩,
    fun cp2 len hmsg hcp2 hcp3 hcmd hbox => ?_, fun cp2 ofs n hmsg hcp2 hcp3 hlen => ?_⟩
  · exact congrArg _ (State.peercertAct_noOperator hs hmsg (by simp [d]) hlen rfl haud hop)
  · exact congrArg _ (State.peercertAct_operator hs hmsg (by simp [d]) hlen rfl haud hop)
  · exact congrArg _ (State.peercertAct_bad hs hmsg (by simp [d]) (hbad.imp_right fun h => by simpa [Decidable.imp_iff_not_or] using h))
  · exact congrArg _ (State.peercertAct_operator hs hmsg (by simp [d]) hlen (by simp [hver, hzero]) haud hop)
  · rw [exec_firmwareFinish_loader hs haud hmsg hload]
    exact ⟨fun hbad => congrArg _ (if_pos hbad), fun hgood => congrArg _ (if_neg hgood)⟩
  · rw [exec_sysrecStage_inside hs hmsg hofs hfits haud]
    exact ⟨fun hc => congrArg _ (if_pos hc), fun hc => congrArg _ (if_neg (not_not_intro hc))⟩
  · rw [exec_sysrecCommit_of_unstarted hs hmsg hcp2 hcp3 hcmd hbox]
    refine ⟨fun hty => congrArg _ (if_pos hty), fun hty => ?_⟩
    rw [if_neg (not_not_intro hty)]
    refine ⟨fun hlong => congrArg _ (if_pos hlong), fun hfits haud => ?_⟩
    rw [if_neg (by omega), State.roleAct_of_open _ _ haud]
    refine ⟨fun hc => congrArg _ (State.commitRec_noRole hc),
      fun hc => ⟨fun o hchk => congrArg _ (State.commitRec_bad hc hchk), fun hchk => ?_⟩⟩
    rw [State.commitRec_good hc hchk]
    refine ⟨fun hty hlife hrlt => congrArg _ (if_pos ⟨hty, hlife, hrlt⟩), fun hrlt => ?_⟩
    rw [if_neg hrlt]
    exact ⟨fun hbusy => congrArg _ (if_pos hbusy), fun hfree => congrArg _ (if_neg (by simp [hfree]))⟩
  · rw [exec_sysrecRead_of_serving hs hmsg hcp2 hcp3 hlen]
    exact ⟨fun hty => congrArg _ (if_pos hty), fun hty => congrArg _ (if_neg (not_not_intro hty))⟩

/-! ### The directory and the end of a write (R66, R67, R72) -/

section
variable {s : State} {found : List SysRec}

theorem exec_systemDirectoryLoad_of_geom (hgeom : s.recs.geom ≠ none) : exec (.systemDirectoryLoad found) s = .next s :=
  congrArg Host.Outcome.next (if_pos (by simp [Option.isSome_iff_ne_none.mpr hgeom]))

variable (hgeom : s.recs.geom = none) (hfollow : ((List.range 4).any (fun a => (s.act a).st.tracks)) = true)
include hgeom hfollow

theorem exec_systemDirectoryLoad_noTable (hnone : (s.foundRec found 1 0).recs.geom = none) :
    exec (.systemDirectoryLoad found) s = .next (({ s.foundRec found 1 0 with recs.noGeom := true } : State).draw.event 0x2009 3
      [Config.freeNat (s.foundRec found 1 0).free % 65]) := by
  show execSystemDirectoryLoad found s = _
  rw [execSystemDirectoryLoad, if_neg (by simp [hgeom, hfollow])]
  simp only [hnone]

theorem exec_systemDirectoryLoad_table (hsome : (s.foundRec found 1 0).recs.geom ≠ none) :
    exec (.systemDirectoryLoad found) s = .next (upto 4 (fun a (s : State) => s.actReady a)
      (upto 4 (fun a (s : State) => ((s.foundRec found 2 a).foundRec found 3 a).foundRec found 7 a) (s.foundRec found 1 0))) := by
  obtain ⟨g, hg⟩ := Option.ne_none_iff_exists'.mp hsome
  show execSystemDirectoryLoad found s = _
  rw [execSystemDirectoryLoad, if_neg (by simp [hgeom, hfollow])]
  simp only [hg]

end

section
variable {s : State}

theorem exec_sysrecWritten_of_idle (hidle : s.recs.commit = none) (ok : Bool) : exec (.sysrecWritten ok) s = .next s := by
  show execSysrecWritten ok s = _
  simp only [execSysrecWritten, hidle]

variable {v : Via} {ty : Nat} {a : Fin 4} {b : List Byte} (hcommit : s.recs.commit = some (v, ty, a, b))
include hcommit

theorem exec_sysrecWritten_failed :
    exec (.sysrecWritten false) s = .next (State.secEnd { s with recs.commit := none } v 0xFF 0 []) := by
  show execSysrecWritten false s = _
  simp only [execSysrecWritten, hcommit]
  rfl

theorem exec_sysrecWritten_good : exec (.sysrecWritten true) s = .next ((upto 4 (fun a (s : State) => s.actReady a)
    (State.enforce { s with recs.commit := none, recs.gen := s.recs.gen + 1 } ty a.val b)).secOk v 0) := by
  show execSysrecWritten true s = _
  simp only [execSysrecWritten, hcommit]
  rfl

end

/-- Settles O34, by whether the table is in force before and after the search, and by the commit under way. -/
theorem systemRecordsLoadedAndWritten : Obligations.SystemRecordsLoadedAndWritten := fun _ =>
  ⟨fun hgeom hfollow _ => ⟨exec_systemDirectoryLoad_noTable hgeom hfollow, exec_systemDirectoryLoad_table hgeom hfollow⟩,
    fun hgeom _ => exec_systemDirectoryLoad_of_geom hgeom, exec_sysrecWritten_of_idle,
    fun _ _ _ _ hcommit => ⟨exec_sysrecWritten_failed hcommit, exec_sysrecWritten_good hcommit⟩⟩

end Sys2Proof.Machine
end

section
/-! PROOFS. Accepted action writes (R78, R98, R143, R248, R398, R428, R432, R453, R457): an action's dword is judged, audited
and starts its action; the register keeps nothing of it. -/
namespace Sys2Proof.Machine

open Sys2Proof

/-! ### What the audit record of a write changes (R398, R417, R419) -/

/-- A record for the reserve ring changes the event recorder and the counters alone. -/
theorem State.toRing_changes (s : State) (e : Ev) : ∃ evr pmc, s.toRing e = { s with evr := evr, pmc := pmc } := by
  dsimp only [State.toRing]
  split
  · exact ⟨_, _, rfl⟩
  · split
    · exact ⟨_, _, rfl⟩
    · exact ⟨_, _, rfl⟩

theorem State.auditSrc_changes (s : State) (code sev src : Nat) (par : List Nat) :
    ∃ nv evr pmc, s.auditSrc code sev src par = { s with nv := nv, evr := evr, pmc := pmc } := by
  have ring (t : State) (e : Ev) : ∃ nv evr pmc, t.toRing e = { t with nv := nv, evr := evr, pmc := pmc } := by
    obtain ⟨evr, pmc, h⟩ := t.toRing_changes e
    exact ⟨t.nv, evr, pmc, h⟩
  dsimp only [State.auditSrc]
  split
  · obtain ⟨nv, evr, pmc, h⟩ := ring _ _
    exact ⟨nv, evr, pmc, h⟩
  · split
    · exact ⟨_, _, _, rfl⟩
    · split
      · exact ⟨_, _, _, rfl⟩
      · obtain ⟨nv, evr, pmc, h⟩ := ring _ _
        exact ⟨nv, evr, pmc, h⟩

theorem State.written_changes (s : State) (x : Session) (off v : Nat) :
    ∃ nv evr pmc, s.written x off v = { s with nv := nv, evr := evr, pmc := pmc } := State.auditSrc_changes ..

@[simp] theorem State.written_srv (s : State) (x : Session) (off v : Nat) : (s.written x off v).srv = s.srv := by
  obtain ⟨_, _, _, h⟩ := s.written_changes x off v
  rw [h]
@[simp] theorem State.written_chs (s : State) (x : Session) (off v : Nat) : (s.written x off v).chs = s.chs := by
  obtain ⟨_, _, _, h⟩ := s.written_changes x off v
  rw [h]

/-! ### An action's dword -/

theorem judge_status {s : State} {w : Writer} {off v : Nat} {f : Fld} (hty : f.ty = .ro) : s.judge w off v f = .skip := by
  simp [State.judge, hty]

/-- An action field written 0 asks for nothing. -/
theorem judge_action_zero {s : State} {w : Writer} {off v : Nat} {f : Fld} (hty : f.ty = .wo) (hx : bitsOf v f.lsb f.w = 0) :
    s.judge w off v f = .skip := by simp [State.judge, hty, hx]

theorem foldl_applyFld_actions (off : Nat) {took : List (Fld × Nat × Option Session)} (h : ∀ e ∈ took, e.1.ty = .wo) (s : State) :
    took.foldl (fun (s : State) e => s.applyFld off e.1 e.2.1) s = s := by
  induction took with
  | nil => rfl
  | cons e l ih =>
    obtain ⟨he, hl⟩ := List.forall_mem_cons.mp h
    rw [List.foldl_cons, show s.applyFld off e.1 e.2.1 = s by simp [State.applyFld, he], ih hl]

theorem mirrorReg_of_actions {off : Nat} {took : List (Fld × Nat × Option Session)} (h : ∀ e ∈ took, e.1.ty = .wo) (s : State) :
    s.mirrorReg off took = s := by
  have hany : took.any (fun e => e.1.ty == .rw || e.1.ty == .ws) = false :=
    List.any_eq_false.mpr fun e he => by simp [h e he]
  simp [State.mirrorReg, hany]

/-- The value that a write took for the field at bit `lsb`. -/
def tookAt (took : List (Fld × Nat × Option Session)) (lsb : Nat) : Option Nat :=
  (took.find? (fun e => e.1.lsb == lsb)).map (·.2.1)

/-- A write that takes actions alone is audited and starts them: no field is put and nothing is mirrored. -/
theorem write1_actions {s : State} {w : Writer} {off v : Nat} {d : RegDef} {took : List (Fld × Nat × Option Session)} {x : Session}
    (hs : s.pwr.st ≠ .dark) (hb : s.auditBlocked = false) (ho : plainOff off = true ∧ off ≠ 0x1700) (hd : regAt off = some d)
    (hv : v < 2 ^ 32) (ht : s.Takes w off v d.fields took) (hw : writersOf took = [x]) (hwo : ∀ e ∈ took, e.1.ty = .wo) :
    s.write1 w off v = .next ((s.written x off v).startedBy off (s.lastWord off).toNat (tookAt took)
      ((s.sessionsOf w).map (·.role))) := by
  rw [write1_taken hs ho hd hv ht hw (.inr hb), foldl_applyFld_actions off hwo, mirrorReg_of_actions hwo]
  rfl

/-- A register that is one action at bit 0: its command, taken from a holder of the role, is audited and started. -/
theorem write1_action {s t : State} {w : Writer} {off v base stride count row n : Nat} {roles : List Role} {x : Session}
    (hs : s.pwr.st ≠ .dark) (hb : s.auditBlocked = false) (ho : plainOff off = true ∧ off ≠ 0x1700 ∧ off ≠ 0x1860)
    (hd : regAt off = some ⟨base, stride, count, row, [⟨0, n, .wo, 0, roles, 0, 2 ^ n - 1, 0, false⟩]⟩)
    (hx : s.sessionFor w roles = some x) (hv : v < 2 ^ n ∧ v < 2 ^ 32 ∧ v ≠ 0) (hcond : s.fieldCond off 0 v v = 0)
    (hstart : ∀ old took rs, took 0 = some v → (s.written x off v).startedBy off old took rs = t) :
    s.write1 w off v = .next t := by
  obtain ⟨hplain, htie, hssw⟩ := ho
  obtain ⟨hn, hv, hne⟩ := hv
  have hval : bitsOf v 0 n = v := Nat.mod_eq_of_lt hn
  have hj : s.judge w off v ⟨0, n, .wo, 0, roles, 0, 2 ^ n - 1, 0, false⟩ = .take (bitsOf v 0 n) (some x) :=
    judge_setting (.inr ⟨rfl, by rwa [hval]⟩) ⟨rfl, rfl, rfl⟩ hssw hx (.inr nofun) (by rwa [hval])
  rw [hval] at hj
  rw [write1_actions hs hb ⟨hplain, htie⟩ hd hv (.take hj .nil) (writersOf_one ..) (by simp), hstart _ _ _ rfl]

section
variable {s : State} {w : Writer} {x : Session} (hs : s.pwr.st ≠ .dark) (hb : s.auditBlocked = false)

/-! ### Park and unpark (R96, R97) -/

theorem plainOff_actCmd (a : Fin 4) : plainOff (0x181C + 16 * a.val) = true := by revert a; decide +kernel
theorem fieldCond_actCmd (s : State) (a : Fin 4) (lsb y v : Nat) : s.fieldCond (0x181C + 16 * a.val) lsb y v = 0 := by
  simp (disch := omega) only [State.fieldCond, if_neg]
theorem startedBy_actCmd (s : State) (a : Fin 4) (old : Nat) (took : Nat → Option Nat) (rs : List Role) :
    (took 0 = some 1 → s.startedBy (0x181C + 16 * a.val) old took rs = s.requestPark a.val) ∧
    (took 0 = some 2 → s.startedBy (0x181C + 16 * a.val) old took rs = s.requestUnpark a.val) := by
  have ha : (0x181C + 16 * a.val - 0x181C) / 16 = a.val := by omega
  constructor <;> intro h <;> simp (disch := omega) only [State.startedBy, if_pos, if_neg, ha, h]

section
variable (hx : s.sessionFor w [.installer] = some x)
include hs hb hx

theorem write1_actCmd (a : Fin 4) {v : Nat} {t : State} (hv : v < 4) (hne : v ≠ 0)
    (hstart : ∀ old took rs, took 0 = some v →
      (s.written x (0x181C + 16 * a.val) v).startedBy (0x181C + 16 * a.val) old took rs = t) :
    s.write1 w (0x181C + 16 * a.val) v = .next t :=
  write1_action hs hb ⟨plainOff_actCmd a, by omega, by omega⟩ (regAt_actCmd a) hx ⟨hv, by omega, hne⟩
    (fieldCond_actCmd ..) hstart

theorem exec_actParkCmd_accepted (a : Fin 4) :
    exec (.actParkCmd w a) s = .next ((s.written x (0x181C + 16 * a.val) 1).requestPark a.val) :=
  write1_actCmd hs hb hx a (by decide) (by decide) fun _ _ _ => (startedBy_actCmd ..).1

theorem exec_actUnparkCmd_accepted (a : Fin 4) :
    exec (.actUnparkCmd w a) s = .next ((s.written x (0x181C + 16 * a.val) 2).requestUnpark a.val) :=
  write1_actCmd hs hb hx a (by decide) (by decide) fun _ _ _ => (startedBy_actCmd ..).2

end

/-! ### Servo writing (R98, R99) -/

/-- On a part in INTEGRATION the installer commands servo writing (R99). -/
theorem rolesNow_integration {v : Nat} {f : Fld} (h : s.nv.life = .integration) : s.rolesNow 0x1860 f v = [.installer] := by
  simp [State.rolesNow, h]

/-- The command is one that R99 lets start, pause or abort now. -/
def State.sswMay (s : State) (a op : Nat) : Prop :=
  sswKnown op = true ∧ (s.srv.sswBusy = true → op = 14 ∨ op = 15) ∧ (op = 1 ∨ op = 2 → s.lastFld 0x1864 24 6 / 16 = a)

theorem fieldCond_sswOp {a op v : Nat} (hmay : s.sswMay a op) (hv : v / 16 % 4 = a) : s.fieldCond 0x1860 0 op v = 0 := by
  obtain ⟨hknown, hbusy, hseed⟩ := hmay
  have hbusy' : (s.srv.sswBusy && op != 14 && op != 15) = false := by
    cases h : s.srv.sswBusy with
    | false => rfl
    | true => obtain rfl | rfl := hbusy h <;> rfl
  have hseed' : ((op == 1 || op == 2) && s.lastFld 0x1864 24 6 / 16 != a) = false := by
    by_cases h : op = 1 ∨ op = 2
    · simp [hseed h]
    · simp [not_or.mp h]
  simp [State.fieldCond, hknown, hbusy', hseed', hv]

theorem fieldCond_sswAct (s : State) (y v : Nat) : s.fieldCond 0x1860 4 y v = 0 := rfl

theorem startedBy_sswCmd (s : State) {a : Fin 4} {op old : Nat} {took : Nat → Option Nat} (rs : List Role)
    (hop : took 0 = some op) (ha : (took 4).getD 0 = a.val) : s.startedBy 0x1860 old took rs = s.sswCommand a op := by
  have hfin : fin4 a.val = a := Fin.ext (Nat.mod_eq_of_lt a.isLt)
  simp [State.startedBy, hop, ha, hfin]

include hs hb in
/-- A servo-writing command that may run is audited and begins; actuator 0 is named by an ACT field that asks for nothing. -/
theorem writeSsw_accepted {a : Fin 4} {op : Nat} (hx : s.sessionFor w [.installer] = some x) (hlife : s.nv.life = .integration)
    (hop : 0 < op ∧ op < 16) (hmay : s.sswMay a.val op) :
    s.writeSsw w a op = .next ((s.written x 0x1860 (16 * a.val + op)).sswCommand a op) := by
  obtain ⟨hpos, hlt⟩ := hop
  have hv : 16 * a.val + op < 2 ^ 32 := by omega
  have hbits0 : bitsOf (16 * a.val + op) 0 4 = op := by simp only [bitsOf, Nat.shiftRight_zero]; omega
  have hbits4 : bitsOf (16 * a.val + op) 4 2 = a.val := by simp only [bitsOf, Nat.shiftRight_eq_div_pow]; omega
  have hrole (f : Fld) : s.sessionFor w (s.rolesNow 0x1860 f (16 * a.val + op)) = some x := by rw [rolesNow_integration hlife, hx]
  have hj0 : s.judge w 0x1860 (16 * a.val + op) ⟨0, 4, .wo, 0, [.maker, .installer], 0, 15, 0, false⟩ = .take op (some x) := by
    rw [judge_valid (.inr ⟨rfl, by simp only [hbits0]; omega⟩) (.inr (by simp [hrole])) (by simp only [hbits0]; omega) rfl
      (by simp only [hbits0]; exact fieldCond_sswOp hmay (by omega)), hrole]
    simp only [hbits0]
  show s.write1 w 0x1860 (16 * a.val + op) = _
  by_cases ha : a.val = 0
  · have hj4 : s.judge w 0x1860 (16 * a.val + op) ⟨4, 2, .wo, 0, [.maker, .installer], 0, 3, 0, false⟩ = .skip :=
      judge_action_zero rfl (hbits4.trans ha)
    rw [write1_actions hs hb (by decide) regAt_sswCmd hv (.skip hj4 (.take hj0 .nil)) (writersOf_one ..) (by simp)]
    exact congrArg _ (startedBy_sswCmd _ _ rfl ha.symm)
  · have hj4 : s.judge w 0x1860 (16 * a.val + op) ⟨4, 2, .wo, 0, [.maker, .installer], 0, 3, 0, false⟩ = .take a.val (some x) := by
      rw [judge_valid (.inr ⟨rfl, by simpa only [hbits4]⟩) (.inr (by simp [hrole])) (by simp only [hbits4]; omega) rfl
        (fieldCond_sswAct ..), hrole]
      simp only [hbits4]
    rw [write1_actions hs hb (by decide) regAt_sswCmd hv (.take hj4 (.take hj0 .nil)) (writersOf_two ..) (by simp)]
    exact congrArg _ (startedBy_sswCmd _ _ rfl rfl)

include hs hb in
/-- SEED CHECK, PROPAGATE, VERIFY and CALIBRATE start while no operation runs, the first two on the seed head's actuator. -/
theorem writeSsw_starts {a : Fin 4} {op : Nat} (hx : s.sessionFor w [.installer] = some x) (hlife : s.nv.life = .integration)
    (hidle : s.srv.sswBusy = false) (hop : op ∈ [1, 2, 3, 4]) (hseed : op = 1 ∨ op = 2 → s.lastFld 0x1864 24 6 / 16 = a.val) :
    s.writeSsw w a op = .next ((s.written x 0x1860 (16 * a.val + op)).sswStart a op) := by
  have hknown : ∀ n ∈ [1, 2, 3, 4], 0 < n ∧ n < 16 ∧ sswKnown n = true ∧ ¬ (n = 14 ∨ n = 15) := by decide
  obtain ⟨hpos, hlt, hknown, hstart⟩ := hknown op hop
  exact (writeSsw_accepted hs hb hx hlife ⟨hpos, hlt⟩ ⟨hknown, by simp [hidle], hseed⟩).trans (congrArg _ (if_neg hstart))

include hs hb in
/-- PAUSE and ABORT are kept for the end of the running operation's track. -/
theorem writeSsw_stops {a : Fin 4} {op : Nat} (hx : s.sessionFor w [.installer] = some x) (hlife : s.nv.life = .integration)
    (hbusy : s.srv.sswBusy = true) (hop : op = 14 ∨ op = 15) :
    s.writeSsw w a op = .next { s.written x 0x1860 (16 * a.val + op) with srv.sswStop := BitVec.ofNat 4 op } := by
  have hknown : sswKnown op = true := by obtain rfl | rfl := hop <;> rfl
  refine (writeSsw_accepted hs hb hx hlife (by omega) ⟨hknown, fun _ => hop, by omega⟩).trans (congrArg _ ?_)
  exact (if_pos hop).trans (if_pos (by rwa [State.written_srv]))

/-! ### Self-tests of a channel (R143) -/

theorem plainOff_chBist (c : Fin 16) : plainOff (0x2014 + 0x80 * c.val) = true := by revert c; decide +kernel

/-- A test may start on a fenced channel that runs none, and may be aborted while one runs. -/
theorem fieldCond_chBist {c : Fin 16} {t v : Nat} (hknown : t ∈ [1, 2, 3, 4, 14, 15]) (hfenced : (s.ch c.val).fenced = true)
    (hbist : (s.ch c.val).bist = true → t = 14) : s.fieldCond (0x2014 + 0x80 * c.val) 0 t v = 0 := by
  have ho : 0x2000 + (0x2014 + 0x80 * c.val - 0x2000) % 0x80 = 0x2014 := by omega
  have hn : (0x2014 + 0x80 * c.val - 0x2000) / 0x80 = c.val := by omega
  have hrun : ((s.ch c.val).bist && t != 14) = false := by
    cases h : (s.ch c.val).bist with
    | false => rfl
    | true => simp [hbist h]
  have hrange : 0x2000 ≤ 0x2014 + 0x80 * c.val ∧ 0x2014 + 0x80 * c.val < 0x2800 := by omega
  simp (disch := omega) only [State.fieldCond, if_neg, if_pos hrange, ho, hn, hfenced, hrun, List.contains_iff_mem.mpr hknown]
  rfl

theorem startedBy_chBist (s : State) (c : Fin 16) {t old : Nat} {took : Nat → Option Nat} {rs : List Role} (ht : took 0 = some t) :
    s.startedBy (0x2014 + 0x80 * c.val) old took rs = if t = 14 then s.abortBist c.val else s.startBist c.val t := by
  have hn : (0x2014 + 0x80 * c.val - 0x2000) / 0x80 = c.val := by omega
  simp (disch := omega) only [State.startedBy, if_pos, if_neg, hn, ht]
  split <;> simp_all

include hs hb in
theorem writeBist_accepted {c : Fin 16} {t : Nat} (hx : s.sessionFor w [.installer] = some x) (hknown : t ∈ [1, 2, 3, 4, 14, 15])
    (hfenced : (s.ch c.val).fenced = true) (hbist : (s.ch c.val).bist = true → t = 14) :
    s.writeBist w c t = .next (if t = 14 then (s.written x (0x2014 + 0x80 * c.val) t).abortBist c.val
      else (s.written x (0x2014 + 0x80 * c.val) t).startBist c.val t) := by
  have hv : t < 16 ∧ t ≠ 0 := by
    simp only [List.mem_cons, List.not_mem_nil, or_false] at hknown
    omega
  rw [State.writeBist, show chReg c.val 0x14 = 0x2014 + 0x80 * c.val by unfold chReg; omega]
  exact write1_action hs hb ⟨plainOff_chBist c, by omega, by omega⟩ (regAt_chBist c) hx ⟨hv.1, by omega, hv.2⟩
    (fieldCond_chBist hknown hfenced hbist) fun _ _ _ => startedBy_chBist _ c

include hs hb in
theorem writeBist_starts {c : Fin 16} {t : Nat} (hx : s.sessionFor w [.installer] = some x) (hfenced : (s.ch c.val).fenced = true)
    (hidle : (s.ch c.val).bist = false) (hknown : t ∈ [1, 2, 3, 4, 14, 15]) (hstart : t ≠ 14) :
    s.writeBist w c t = .next ((s.written x (0x2014 + 0x80 * c.val) t).startBist c.val t) :=
  (writeBist_accepted hs hb hx hknown hfenced (by simp [hidle])).trans (congrArg _ (if_neg hstart))

include hs hb in
theorem writeBist_aborts {c : Fin 16} (hx : s.sessionFor w [.installer] = some x) (hfenced : (s.ch c.val).fenced = true)
    (hrun : (s.ch c.val).bist = true) :
    s.writeBist w c 14 = .next ((s.written x (0x2014 + 0x80 * c.val) 14).modCh c.val (fun y => { y with
      bist := false, bistRes := 3 })) := by
  refine (writeBist_accepted hs hb hx (by decide) hfenced fun _ => rfl).trans (congrArg _ ((if_pos rfl).trans (if_pos ?_)))
  rwa [State.ch, State.written_chs]

/-! ### Map maintenance (R248) -/

/-- An operation on the map starts where none runs; LOCK_FILL needs a locked way that is free. -/
def State.maintMay (s : State) (op : Nat) : Prop :=
  op ∈ [1, 2, 3, 4, 8, 9] ∧ s.map.maint = none ∧ s.map.disabling = false ∧
    (op = 4 → (List.range 8).any (fun k => s.wayLocked k && (s.mapWay (mapSet (s.lastFld 0x300C 0 24)) k).isNone) = true)

/-- BUSY with an operation on the line that MAP_LINE names. -/
def State.maintBusy (s : State) (op : Nat) : State :=
  { s with map.maint := some (BitVec.ofNat 4 op, BitVec.ofNat 24 (s.lastFld 0x300C 0 24)) }

/-- LOCK_FILL of a line that is neither held nor being filled asks for its fill. -/
def State.lockFills (s : State) (op : Nat) : Bool :=
  op == 4 && (s.mapFind (s.lastFld 0x300C 0 24)).isNone && !s.map.fills.any (fun f => f.1 == s.lastFld 0x300C 0 24)

theorem mapMaint_of_may {op : Nat} (h : s.maintMay op) : s.mapMaint op =
    (if s.lockFills op then { s.maintBusy op with map.fills := s.map.fills ++ [(s.lastFld 0x300C 0 24, false)] }
    else s.maintBusy op, true) := by
  obtain ⟨hop, hmaint, hdis, hway⟩ := h
  have hstarts : ¬ ((!([1, 2, 3, 4, 8, 9].contains op) || s.map.maint.isSome || s.map.disabling) = true) := by
    rw [List.contains_iff_mem.mpr hop, hmaint, hdis]
    decide
  have hfree : ¬ ((decide (op = 4) && !(List.range 8).any (fun k => s.wayLocked k &&
      (s.mapWay (mapSet (s.lastFld 0x300C 0 24)) k).isNone)) = true) := by
    by_cases h4 : op = 4
    · simp only [hway h4, Bool.not_true, Bool.and_false, Bool.false_eq_true, not_false_eq_true]
    · simp [h4]
  exact (if_neg hstarts).trans (if_neg hfree)

theorem fieldCond_mapMaint {op v : Nat} (h : s.maintMay op) : s.fieldCond 0x3008 0 op v = 0 := by
  have hok : (s.mapMaint op).2 = true := by rw [mapMaint_of_may h]
  obtain ⟨_, hmaint, hdis, _⟩ := h
  simp [State.fieldCond, hmaint, hdis, hok]

theorem startedBy_mapMaint (s : State) {op old : Nat} {took : Nat → Option Nat} {rs : List Role} (h : took 0 = some op) :
    s.startedBy 0x3008 old took rs = (s.mapMaint op).1 := by simp [State.startedBy, h]

section
variable (hx : s.sessionFor w [.installer] = some x)
include hs hb hx

theorem writeMaint_accepted {op : Nat} (h : s.maintMay op) :
    let busy : State := { s.written x 0x3008 op with map.maint := some (BitVec.ofNat 4 op, BitVec.ofNat 24 (s.lastFld 0x300C 0 24)) }
    s.writeMaint w op = .next (if s.lockFills op then
      { busy with map.fills := s.map.fills ++ [(s.lastFld 0x300C 0 24, false)] } else busy) := by
  have hsmall : ∀ n ∈ [1, 2, 3, 4, 8, 9], n < 2 ^ 4 ∧ n < 2 ^ 32 ∧ n ≠ 0 := by decide
  refine write1_action hs hb (by decide) regAt_mapMaint hx (hsmall op h.1) (fieldCond_mapMaint h) fun _ _ _ htook => ?_
  obtain ⟨nv, evr, pmc, hwritten⟩ := s.written_changes x 0x3008 op
  rw [startedBy_mapMaint _ htook, hwritten, mapMaint_of_may (s := { s with nv := nv, evr := evr, pmc := pmc }) h]
  rfl

theorem writeMaint_busy {op : Nat} (h : s.maintMay op) (hheld : op = 4 → (s.mapFind (s.lastFld 0x300C 0 24)).isSome = true) :
    s.writeMaint w op = .next { s.written x 0x3008 op with
      map.maint := some (BitVec.ofNat 4 op, BitVec.ofNat 24 (s.lastFld 0x300C 0 24)) } := by
  refine (writeMaint_accepted hs hb hx h).trans (congrArg _ (if_neg ?_))
  by_cases h4 : op = 4
  · simp [State.lockFills, Option.isSome_iff_ne_none.mp (hheld h4)]
  · simp [State.lockFills, h4]

theorem writeMaint_lockFill (h : s.maintMay 4) (hnone : s.mapFind (s.lastFld 0x300C 0 24) = none) (hfills : s.map.fills = []) :
    s.writeMaint w 4 = .next { s.written x 0x3008 4 with
      map.maint := some (4, BitVec.ofNat 24 (s.lastFld 0x300C 0 24)), map.fills := [(s.lastFld 0x300C 0 24, false)] } := by
  refine (writeMaint_accepted hs hb hx h).trans (congrArg _ ?_)
  rw [if_pos (by simp [State.lockFills, hnone, hfills]), hfills]
  rfl

end

/-! ### SAVE and CLEAR (R457) -/

theorem fieldCond_genSave (y v lsb : Nat) (h : s.gen.saving = none) : s.fieldCond 0x0010 lsb y v = 0 := by
  simp [State.fieldCond, h]

theorem startedBy_genSave (s : State) {old : Nat} {took : Nat → Option Nat} {rs : List Role}
    (h : (took 31).isSome = true ∨ (took 30).isSome = true) :
    s.startedBy 0x0010 old took rs = s.saveClear (took 31).isSome (took 30).isSome rs := by
  simp [State.startedBy, h]

section
variable (hx : s.sessionFor w [.installer, .operator] = some x)
include hs hb hx

section
variable (hsaving : s.gen.saving = none)
include hsaving

theorem exec_genSave_accepted :
    exec (.genSave w) s = .next ((s.written x 0x0010 0x80000000).saveClear true false ((s.sessionsOf w).map (·.role))) := by
  have h31 : s.judge w 0x0010 0x80000000 ⟨31, 1, .wo, 0, [.installer, .operator], 0, 1, 0, false⟩ = .take 1 (some x) :=
    judge_setting (.inr ⟨rfl, by decide⟩) (by decide) (by decide) hx (.inr nofun) (fieldCond_genSave _ _ _ hsaving)
  refine (write1_actions hs hb (by decide) regAt_genSave (by decide) (.take h31 (.skip (judge_action_zero rfl rfl)
    (.skip (judge_status rfl) (.skip (judge_status rfl) (.skip (judge_status rfl) .nil))))) (writersOf_one ..) (by simp)).trans ?_
  exact congrArg _ (startedBy_genSave _ (.inl rfl))

theorem exec_genClear_accepted :
    exec (.genClear w) s = .next ((s.written x 0x0010 0x40000000).saveClear false true ((s.sessionsOf w).map (·.role))) := by
  have h30 : s.judge w 0x0010 0x40000000 ⟨30, 1, .wo, 0, [.installer, .operator], 0, 1, 0, false⟩ = .take 1 (some x) :=
    judge_setting (.inr ⟨rfl, by decide⟩) (by decide) (by decide) hx (.inr nofun) (fieldCond_genSave _ _ _ hsaving)
  refine (write1_actions hs hb (by decide) regAt_genSave (by decide) (.skip (judge_action_zero rfl rfl) (.take h30
    (.skip (judge_status rfl) (.skip (judge_status rfl) (.skip (judge_status rfl) .nil))))) (writersOf_one ..) (by simp)).trans ?_
  exact congrArg _ (startedBy_genSave _ (.inr rfl))

end

/-! ### Part reset (R432) -/

theorem exec_partResetWrite_accepted :
    exec (.partResetWrite w) s = .next (State.resetParked { (s.written x 0x500C 1).pfail with pwr.rstPend := true }) :=
  write1_action hs hb (by decide) regAt_partReset hx (by decide) rfl fun _ _ _ htook => by simp [State.startedBy, htook]

end

/-! ### Counter preset (R428) -/

theorem regAt_pmcPreset : regAt 0x4810 = some ⟨0x4810, 0x0, 1, 20, [⟨0, 16, .rw, 0, [.operator], 0, 65535, 0, false⟩]⟩ := by
  decide +kernel

theorem fieldCond_pmcPreset {v : Nat} (y : Nat) (h : s.presetOk v = true) : s.fieldCond 0x4810 0 y v = 0 := by
  simp [State.fieldCond, h]

theorem startedBy_pmcPreset (s : State) {hi old : Nat} {took : Nat → Option Nat} {rs : List Role} (h : took 0 = some hi) :
    s.startedBy 0x4810 old took rs = s.preset hi := by simp [State.startedBy, h]

include hs hb in
theorem exec_pmcPreset_accepted (hx : s.sessionFor w [.operator] = some x) (v : Word) (hok : s.presetOk v.toNat = true) :
    exec (.pmcPreset w v) s = .next (((s.written x 0x4810 v.toNat).putFld 0x4810 0 16 (bitsOf v.toNat 0 16)).preset
      (bitsOf v.toNat 0 16)) := by
  have h0 : s.judge w 0x4810 v.toNat ⟨0, 16, .rw, 0, [.operator], 0, 65535, 0, false⟩ = .take (bitsOf v.toNat 0 16) (some x) :=
    judge_setting (.inl rfl) (by decide) (by decide) hx (.inr nofun) (fieldCond_pmcPreset _ hok)
  refine (write1_taken hs (by decide) regAt_pmcPreset v.isLt (.take h0 .nil) (writersOf_one ..) (.inr hb)).trans ?_
  rw [mirrorReg_of_unmirrored _ rfl]
  exact congrArg _ (startedBy_pmcPreset _ rfl)

end

/-- Settles O16, register by register: the action is taken from the holder of its role and, past its audit record, started. -/
theorem acceptedActionWritesAct : Obligations.AcceptedActionWritesAct := by
  intro w s x hs hb written
  refine ⟨fun hx => ⟨fun a => ⟨exec_actParkCmd_accepted hs hb hx a, exec_actUnparkCmd_accepted hs hb hx a⟩,
    fun hlife hidle a => ?_, fun hlife hbusy a => ?_, fun c hfenced hidle => ?_, fun c hfenced hrun => ?_, fun hmaint hdis => ?_⟩,
    fun hx => ⟨fun hsaving => ⟨exec_genSave_accepted hs hb hx hsaving, exec_genClear_accepted hs hb hx hsaving⟩,
      exec_partResetWrite_accepted hs hb hx⟩, fun hx v hok => exec_pmcPreset_accepted hs hb hx v hok⟩
  · have start {op : Nat} := writeSsw_starts (a := a) (op := op) hs hb hx hlife hidle
    exact ⟨start (by decide) (by omega), start (by decide) (by omega), fun hseed => ⟨start (by decide) fun _ => hseed,
      start (by decide) fun _ => hseed⟩⟩
  · have stop {op : Nat} := writeSsw_stops (a := a) (op := op) hs hb hx hlife hbusy
    exact ⟨stop (.inl rfl), stop (.inr rfl)⟩
  · have start {t : Nat} := writeBist_starts (t := t) hs hb hx hfenced hidle
    exact ⟨start (by decide) (by decide), start (by decide) (by decide), start (by decide) (by decide),
      start (by decide) (by decide), start (by decide) (by decide)⟩
  · exact writeBist_aborts hs hb hx hfenced hrun
  · have busy {op : Nat} (hop : op ∈ [1, 2, 3, 4, 8, 9]) (h4 : op ≠ 4) :=
      writeMaint_busy hs hb hx (op := op) ⟨hop, hmaint, hdis, fun h => absurd h h4⟩ fun h => absurd h h4
    refine ⟨busy (by decide) (by decide), busy (by decide) (by decide), busy (by decide) (by decide), busy (by decide) (by decide),
      busy (by decide) (by decide), fun hheld hway => ?_, fun hnone hfills hway => ?_⟩
    · exact writeMaint_busy hs hb hx ⟨by decide, hmaint, hdis, fun _ => hway⟩ fun _ => hheld
    · exact writeMaint_lockFill hs hb hx ⟨by decide, hmaint, hdis, fun _ => hway⟩ hnone hfills

end Sys2Proof.Machine
end

section
/-! PROOFS. The stripe servo (R73 to R76, R81, R87, R88, R96 to R99): samples, loop updates, off-track heads, seeks, shock, unpark
retries and the end of a seed check. -/
namespace Sys2Proof.Machine

open Sys2Proof

/-! ### Samples (R73, R74) -/

section
variable {h : Fin 64} {a1 a2 : BitVec 16} {s : State}

theorem exec_pesSample_inactive (hout : (s.act (h.val / 16)).heads.contains h = false) : exec (.pesSample h a1 a2) s = .next s := by
  show execPesSample h a1 a2 s = _
  rw [execPesSample, if_pos (by rw [hout]; rfl)]

/-- A sample of an active head is counted, corrects its microactuator and the live sum, may cut a gate and may end settling. -/
theorem exec_pesSample_active (hin : (s.act (h.val / 16)).heads.contains h = true) (htracks : (s.act (h.val / 16)).st.tracks = true)
    {pes : Int} {ok : Bool} {t : State} (hpes : s.samplePes h.val a1.toNat a2.toNat = (pes, ok, t)) :
    exec (.pesSample h a1 a2) s = .next (((((t.countSample h.val pes ok).maUpdate h.val ok).liveSample h.val ok).gateCheck
      h.val).settleDone (h.val / 16)) := by
  show execPesSample h a1 a2 s = _
  rw [execPesSample, if_neg (by simp only [hin, htracks, Bool.true_or]; decide), hpes]

end

/-- A calibrated head's sample: the position and PES of R73, and the validity of R74. -/
theorem State.samplePes_of_calibrated {s : State} {h : Nat} {c : Calib} {x : CalHead} (a1 a2 : Nat) (hc : s.calib (h / 16) = some c)
    (hx : s.calHead h = some x) :
    let diff : Int := (a1 : Int) - a2
    let pos := if a1 + a2 = 0 then 0 else roundDiv (x.pesGain * diff) (a1 + a2 : Nat)
    let followed := s.headTrack (h / 16)
    s.samplePes h a1 a2 = (satSigned 16 (pos - s.headTarget c x h),
      decide (x.ampNom ≤ 2 * (a1 + a2)) && decide (20 * diff.natAbs ≤ 19 * (a1 + a2)) && decide (0 < a1 + a2) &&
        (decide ((s.head h).lastTrack.toNat ≤ followed + 1) && decide (followed ≤ (s.head h).lastTrack.toNat + 1)), s) := by
  simp only [State.samplePes, hc, hx]

/-! ### Loop updates (R75, R76; log 11) -/

theorem satSigned_bounds (w : Nat) (x : Int) : -(2 ^ (w - 1)) ≤ satSigned w x ∧ satSigned w x ≤ 2 ^ (w - 1) - 1 := by
  have hpos : (0 : Int) < 2 ^ (w - 1) := Int.pow_pos (by decide)
  unfold satSigned
  dsimp only
  split
  · omega
  · split <;> omega

theorem exec_vcmUpdate_tracking {n : Fin 4} {s : State} (htracks : (s.act n.val).st.tracks = true) :
    ∃ (v i : Int) (f : Int × Int), -131072 ≤ v ∧ v ≤ 131071 ∧
      exec (.vcmUpdate n) s = .next ((s.draw.draw.draw.draw.modAct n.val (fun x => { x with
        vcm := v, integ := i, notches := f })).mdlSend 1 (n.val * 2 ^ 38 + toTwos 18 v * 2 ^ 20)) := by
  obtain ⟨hlo, hhi⟩ := satSigned_bounds 18 (Config.freeInt s.free)
  refine ⟨_, Config.freeInt (s.free + 1), (Config.freeInt (s.free + 2), Config.freeInt (s.free + 3)), hlo, hhi, ?_⟩
  show execVcmUpdate n s = _
  rw [execVcmUpdate, if_neg (by simp [htracks])]

/-! ### Off-track heads and seeks (R81, R88) -/

/-- Head `h` off track: nothing of it is settled, and its slots are dropped (R88). -/
def State.loseHead (s : State) (h : Nat) : State :=
  (s.modHead h (fun x => { x with
    offTrack := true, rdSettled := false, wrSettled := false, rdCnt := 0, wrCnt := 0 })).dropHead h

/-- A head that coasts for too long goes off track; its actuator acquires anew once every head of it has. -/
theorem exec_offTrack_coasting {h : Fin 64} {s : State} (hin : (s.act (h.val / 16)).heads.contains h = true)
    (hon : (s.head h.val).offTrack = false) (htracks : (s.act (h.val / 16)).st.tracks = true)
    (hcoast : s.fld 0x1800 12 4 < (s.head h.val).coast) :
    exec (.offTrack h) s = .next (
      if ((s.loseHead h.val).act (h.val / 16)).heads.all (fun k => ((s.loseHead h.val).head k.val).offTrack) then
        ((s.loseHead h.val).actReadyOff (h.val / 16)).modAct (h.val / 16) (fun x => { x with st := .acquiring, seek := none })
      else s.loseHead h.val) := by
  show execOffTrack h s = _
  rw [execOffTrack, if_neg (by simp only [hin, hon, htracks, decide_eq_false (Nat.not_le.mpr hcoast)]; decide), apply_ite Host.Outcome.next]
  rfl

theorem exec_seekArrival_seeking {n : Fin 4} {s : State} {k : BitVec 6} {t : BitVec 24} {p : BitVec 5}
    (hst : (s.act n.val).st = .seeking) (hseek : (s.act n.val).seek = some (k, t, p)) :
    exec (.seekArrival n) s = .next (s.modAct n.val (fun x => { x with
      st := .settling, seek := none, track := BitVec.ofNat 24 (t.toNat + p.toNat) })) := by
  show execSeekArrival n s = _
  simp only [execSeekArrival, hst, hseek]

/-! ### Shock (R87) -/

theorem exec_shockAssert_obeyed {s : State} (hobey : s.flag 0x1800 31 = true) (hquiet : s.srv.shock = false) :
    exec .shockAssert s = .next (raise 13 (State.event { (s.cutGates 0 16).setW1c 0x180C 20 with srv.shock := true } 0x2005 2
      [bitsUpto 4 (fun a => (List.range 4).any (fun p => (s.ch (4 * a + p)).gate))])) := by
  show execShockAssert s = _
  rw [execShockAssert, if_neg (by simp [hobey, hquiet])]

/-! ### Unpark retries (R97) -/

section
variable {n : Fin 4} {s : State}

/-- A load that times out parks, and its third failure is reported. -/
theorem exec_unparkTimeout_loading (hst : (s.act n.val).st = .loading) :
    let z := (s.modAct n.val (fun x => { x with st := .unloading, tries := x.tries + 1, retryWait := true })).sendPark (2 ^ n.val) 1
    exec (.unparkTimeout n) s = .next (if (s.act n.val).tries + 1 < 3 then z
      else raise (4 + n.val) (z.event 0x2008 3 [n.val, ActState.loading.code])) := by
  show execUnparkTimeout n s = _
  rw [execUnparkTimeout, if_pos (.inl hst), apply_ite Host.Outcome.next, hst]

/-- A parked actuator that waits for its retry loads again unless it has failed three times. -/
theorem exec_unparkRetry_waiting (hwait : (s.act n.val).retryWait = true) (hst : (s.act n.val).st = .parked) :
    let z := s.modAct n.val (fun x => { x with retryWait := false })
    exec (.unparkRetry n) s = .next (if (s.act n.val).tries < 3 then z.unpark n.val else z) := by
  show execUnparkRetry n s = _
  rw [execUnparkRetry, if_pos (by simp [hwait, hst])]
  simp only [State.modAct_same]

end

/-! ### The end of a seed check (R99) -/

/-- A seed check told to abort ends so, else by its outcome; its track is 15. -/
theorem exec_sswDone_seedCheck {ok : Bool} {rec : List Byte} {skips : List (Fin 64 × Nat × Nat)} {s : State}
    (hbusy : s.srv.sswBusy = true) (hop : s.srv.sswOp = 1) (hrun : s.srv.sswStop ≠ 14) :
    exec (.sswDone ok rec skips) s = .next (if s.srv.sswStop = 15 then s.sswEnd 3 else if ok = false then s.sswEnd 2
      else State.sswEnd { s with srv.sswTrack := 15 } 1) := by
  have hop' : s.srv.sswOp.toNat = 1 := by rw [hop]; rfl
  show execSswDone ok rec skips s = _
  have hskips : (if s.srv.sswOp.toNat = 2 ∨ s.srv.sswOp.toNat = 3 then s.sswSkips skips else s) = s := if_neg (by omega)
  rw [execSswDone, if_neg (by simp [hbusy])]
  dsimp only
  rw [hskips, if_neg hrun, if_neg (by omega : ¬ s.srv.sswOp.toNat = 4), if_neg (by omega : ¬ s.srv.sswOp.toNat = 3),
    if_neg (by omega : ¬ s.srv.sswOp.toNat = 2), apply_ite Host.Outcome.next, apply_ite Host.Outcome.next]
  cases ok <;> rfl

/-- Settles O8, by the head's and the actuator's state, the tries made and what stops the servo-writing operation. -/
theorem servoSamplesAndLoops : Obligations.ServoSamplesAndLoops := by
  refine ⟨fun h a1 a2 s c x hin htracks hc hx => ?_, fun h a1 a2 s hout => exec_pesSample_inactive hout,
    fun n s htracks => exec_vcmUpdate_tracking htracks, fun h s hin hon htracks hcoast => ?_,
    fun n s k t p hst hseek => exec_seekArrival_seeking hst hseek, fun s hobey hquiet => exec_shockAssert_obeyed hobey hquiet,
    fun s => rfl, fun n s hst => ?_, fun n s hwait hst => ?_, fun ok rec skips s hbusy hop => ?_⟩
  · exact exec_pesSample_active hin htracks (State.samplePes_of_calibrated _ _ hc hx)
  · exact ⟨_, exec_offTrack_coasting hin hon htracks hcoast, fun hsome => if_neg (ne_true_of_eq_false hsome), fun hall => if_pos hall⟩
  · rw [exec_unparkTimeout_loading hst]
    exact ⟨fun hfew => congrArg _ (if_pos (by omega)), fun hmany => congrArg _ (if_neg (by omega))⟩
  · rw [exec_unparkRetry_waiting hwait hst]
    exact ⟨fun hfew => congrArg _ (if_pos hfew), fun hmany => congrArg _ (if_neg (by omega))⟩
  · refine ⟨fun hstop => ?_, fun hstop hok => ?_, fun hstop hok => ?_⟩ <;>
      rw [exec_sswDone_seedCheck hbusy hop (by rw [hstop]; decide), hstop]
    · rfl
    · rw [hok]; rfl
    · rw [hok]; rfl

end Sys2Proof.Machine
end

section
/-! PROOFS. The motor drive link (R100, R102, R103, R106): its frames in, its DUTY frames out, and its loss. -/
namespace Sys2Proof.Machine

open Sys2Proof

/-! ### Frames from the stage (R100, R102) -/

section
variable {f : BitVec 64} {s : State}

theorem State.mdlIn_of_bad (hbad : mdlOk f = false) : s.mdlIn f = { s with mdl.discards := s.mdl.discards + 1 } :=
  if_pos (by simp [hbad])

/-- A good frame that is not the first after reset is kept by its TYPE and starts nothing (R100, R105). -/
theorem State.mdlIn_of_good (hok : mdlOk f = true) (hlast : s.mdl.lastType ≠ 0) :
    let ty := bitsOf f.toNat 52 4
    let z : State := { s with mdl.lastType := BitVec.ofNat 4 ty, spn.mdlLost := false }
    s.mdlIn f = if ty = 8 then { z with mdl.cur := BitVec.ofNat 36 (bitsOf f.toNat 12 36) }
      else if ty = 9 then { z with mdl.volt := BitVec.ofNat 36 (bitsOf f.toNat 12 36) }
      else if ty = 10 then z.stageStatus f.toNat else z :=
  (if_neg (by simp [hok])).trans (if_neg (by simpa using hlast))

theorem State.resetParked_of_idle (h : s.pwr.rstPend = false) : s.resetParked = s := if_neg (by simp [h])

theorem exec_isense : exec (.isense f) s = .next (s.mdlIn f) := rfl
theorem exec_vsense : exec (.vsense f) s = .next (s.mdlIn f) := rfl
theorem exec_mdlStatus : exec (.mdlStatus f) s = .next (s.mdlIn f).resetParked := rfl

end

/-! ### The spin loop (R100, R415) -/

/-- One tick of crystal time, 2 µs (R415; log 5). -/
def State.tickCrystal (s : State) : State :=
  { s with
    pwr.ticks := s.pwr.ticks + 1
    nv2.secs := if (s.pwr.ticks + 1) % 500000 = 0 then s.nv2.secs + 1 else s.nv2.secs }

theorem exec_spinTick (s : State) :
    exec .spinTick s = .next (if s.pwr.core then s.tickCrystal.spinMode s.mdl.mode.toNat else s.tickCrystal) := rfl

/-- In a module that drives its stage, SPIN frames of the MODE already in force go out; the duties are free (log 11). -/
theorem State.spinMode_same_mode {s : State} (hown : s.shadow = false) :
    s.spinMode s.mdl.mode.toNat = { s with
      mdl.seq := s.mdl.seq + 1, free := s.free + 1
      sent := .mdl (mdlFrame 2 s.mdl.seq.toNat (s.mdl.mode.toNat * 2 ^ 36 + Config.freeNat s.free % 2 ^ 36)) :: s.sent } := by
  have hown' : ({ s with mdl.mode := s.mdl.mode } : State).draw.shadow = false := hown
  rw [State.spinMode, BitVec.ofNat_toNat, BitVec.setWidth_eq, State.mdlSend, if_neg (ne_true_of_eq_false hown')]
  rfl

theorem exec_mdlLost_first {s : State} (h : s.spn.mdlLost = false) :
    let z := ((s.setW1c 0x1C04 14).cutGates 0 16).abandonAll
    let y : State := { z with spn.mdlLost := true, spn.wanted := false, spn.newRpm := none, spn.ramping := false }
    let x := (y.eventSrc 0x2002 3 8 [z.mdl.lastType.toNat, z.mdl.stageDiscards.toNat]).lockEnds raise
    exec .mdlLost s = .next (raise 8 (({ x with spn.st := .fault } : State).spinMode 0)) := by
  show execMdlLost s = _
  rw [execMdlLost, if_neg (ne_true_of_eq_false h)]

/-- Settles O4, by the frame's check and TYPE, and by whether the spin loop runs. -/
theorem motorLinkFrames : Obligations.MotorLinkFrames := by
  refine ⟨fun f s hbad hidle => ?_, fun f s hok hlast hty => ?_, fun f s hok hlast hty => ?_, fun f s hok hlast hty => ?_,
    fun s hoff => ?_, fun s hcore hown => ?_, fun s h => exec_mdlLost_first h⟩
  · rw [exec_isense, exec_vsense, exec_mdlStatus, State.mdlIn_of_bad hbad, State.resetParked_of_idle (by exact hidle)]
    exact ⟨rfl, rfl, rfl⟩
  · rw [exec_isense, State.mdlIn_of_good hok hlast, hty]
    rfl
  · rw [exec_vsense, State.mdlIn_of_good hok hlast, hty]
    rfl
  · rw [exec_mdlStatus, State.mdlIn_of_good hok hlast, hty]
    rfl
  · rw [exec_spinTick, hoff]
    rfl
  · exact ⟨_, Config.freeNat s.free, (exec_spinTick s).trans (congrArg _ ((if_pos hcore).trans
      (State.spinMode_same_mode (s := s.tickCrystal) hown))), rfl, rfl⟩

end Sys2Proof.Machine
end

section
/-! PROOFS. Pre-heat and spin-up (R104, R105, R107 to R109): from the cold spindle to speed lock, a failed attempt or FAULT. -/
namespace Sys2Proof.Machine

open Sys2Proof

section
variable {s : State}

/-! ### Pre-heat (R108) -/

/-- A second of pre-heat passes, on the next path (R108). -/
def State.preheatSecond (s : State) : State :=
  { s with spn.preheatS := s.spn.preheatS + 1, spn.path := s.spn.path + 1 }

/-- A good thermistor ends pre-heat at the threshold, a faulty one after PREHEAT_MAX seconds (R108, R109). -/
theorem exec_preheatTick_preheat (hst : s.spn.st = .preheat) : exec .preheatTick s = .next (
    if s.spn.tempBad then if s.fld 0x1C08 12 12 ≤ s.spn.preheatS + 1 then s.preheatSecond.toWaitToken else s.preheatSecond
    else if s.thresh ≤ s.tempC then s.preheatSecond.toWaitToken else s.preheatSecond) := by
  show execPreheatTick s = _
  rw [execPreheatTick, if_neg (by simp [hst]), apply_ite Host.Outcome.next]
  rfl

theorem exec_preheatTimeout_cold (hst : s.spn.st = .preheat) (hgood : s.spn.tempBad = false)
    (hmax : s.spn.preheatS = s.fld 0x1C08 12 12) : exec .preheatTimeout s = .next ((s.setW1c 0x1C04 12).event 0x2003 2
      [toTwos 32 s.tempC, toTwos 32 s.thresh, s.fld 0x1C08 12 12]) := if_pos ⟨hst, by simp [hgood], hmax⟩

/-! ### The thermistor (R109) -/

section
variable {t : BitVec 16}

theorem exec_tempSample_inRange (hlo : -600 ≤ ofTwos 16 t.toNat) (hhi : ofTwos 16 t.toNat ≤ 1400) :
    exec (.tempSample t) s = .next { s with spn.temp := t, spn.tempBad := false } := if_neg (by omega)

/-- A sample out of range reads as no temperature, and the first of them is the thermistor's fault. -/
theorem exec_tempSample_outside (hout : ofTwos 16 t.toNat < -600 ∨ 1400 < ofTwos 16 t.toNat) :
    exec (.tempSample t) s = .next (if s.spn.tempBad then { s with spn.temp := 0x8000 } else
      raise 14 ((({ s with spn.temp := 0x8000, spn.tempBad := true } : State).setW1c 0x1C04 13).eventSrc 0x2004 3 14
        [t.toNat])) :=
  (if_pos hout).trans (apply_ite Host.Outcome.next ..).symm

end

/-! ### An attempt (R104, R105) -/

theorem exec_alignDone_align (hst : s.spn.st = .align) :
    exec .alignDone s = .next (State.spinMode { s with spn.st := .ramp } 1) := congrArg Host.Outcome.next (if_pos hst)

theorem exec_speedLock_ramp (p : Nat) (hst : s.spn.st = .ramp) :
    exec (.speedLock p) s = .next (State.lockBegins { s with spn.period := p, spn.reg := (s.speedIs p).1 }) :=
  if_neg (by simp [hst])

/-- A bound that passes during an attempt fails it: the commutation's with cause 1, the speed lock's with cause 2. -/
theorem exec_spinupTimeout_running {lock : Bool} (hst : s.spn.st = .ramp ∨ (lock = true ∧ s.spn.st = .align)) :
    exec (.spinupTimeout lock) s = .next (s.spinFail raise (if lock then 2 else 1)) := congrArg Host.Outcome.next (if_pos hst)

/-- The wait after a failed attempt ends in the next one or, after three, in FAULT. -/
theorem exec_spinupRetry_waiting (hwait : s.spn.retryWait = true) :
    let y : State := { s with spn.retryWait := false }
    exec .spinupRetry s = .next (
      if s.spn.attempts < 3 then if s.spn.wanted then y.requestSpin else y
      else raise 9 ((State.spinMode { y with spn.st := .fault, spn.wanted := false } 0).eventSrc 0x2001 3 9
        [s.spn.failCause, s.lastFld 0x1C00 0 13])) := by
  show execSpinupRetry s = _
  rw [execSpinupRetry, if_neg (by simp [hwait]), apply_ite Host.Outcome.next]
  simp only [State.spinMode_spn, State.lastFld, State.lastWord, State.spinMode_regs]

end

/-- Settles O5, by the thermistor's state and range, the part of the attempt reached and the failures counted. -/
theorem preheatAndSpinUp : Obligations.PreheatAndSpinUp := by
  refine ⟨fun s hst hgood hcold => ?_, fun s hst hgood hwarm => ?_, fun s hst hbad hmax => ?_,
    fun s hst hgood hmax => exec_preheatTimeout_cold hst hgood hmax, fun t s hlo hhi => exec_tempSample_inRange hlo hhi,
    fun t s hout hbad => ?_, fun t s hout hgood => ?_, fun s hst => exec_alignDone_align hst,
    fun p s hst => exec_speedLock_ramp p hst, fun s hst => exec_spinupTimeout_running (.inl hst),
    fun s hst => exec_spinupTimeout_running (hst.imp_right fun h => ⟨rfl, h⟩), fun s hwait hfew hwanted => ?_,
    fun s hwait hmany => ?_⟩
  · rw [exec_preheatTick_preheat hst, hgood, if_neg Bool.false_ne_true, if_neg (Int.not_le.mpr hcold)]
    rfl
  · rw [exec_preheatTick_preheat hst, hgood, if_neg Bool.false_ne_true, if_pos hwarm]
    rfl
  · rw [exec_preheatTick_preheat hst, if_pos hbad, if_pos hmax]
    rfl
  · rw [exec_tempSample_outside hout, if_pos hbad]
  · rw [exec_tempSample_outside hout, if_neg (ne_true_of_eq_false hgood)]
  · rw [exec_spinupRetry_waiting hwait, if_pos hfew, if_pos hwanted]
  · rw [exec_spinupRetry_waiting hwait, if_neg (Nat.not_lt.mpr hmany)]

end Sys2Proof.Machine
end

section
/-! PROOFS. Spin-up tokens and the shift boss's ledger (R110 to R113, R349). -/
namespace Sys2Proof.Machine

open Sys2Proof

section
variable {s : State} {k : Fin 16}

/-! ### Waiting for a token and holding one (R110, R111) -/

theorem State.waitsToken_of_waitToken (hst : s.spn.st = .waitToken) : s.waitsToken = true := by simp [State.waitsToken, hst]

theorem State.waitsToken_of_changing (hst : s.spn.st = .changing) (hramp : s.spn.ramping = false) : s.waitsToken = true := by
  simp [State.waitsToken, hst, hramp]

/-- An owner or a single module asks a boss other than itself by TOKEN_REQ. -/
theorem State.askToken_of_other_boss (hown : s.shadow = false) (haddr : s.fab.noaddr = false) (hboss : s.fab.boss ≠ 0)
    (hother : s.fab.boss ≠ s.fab.addr) :
    s.askToken = State.e2eSend { s with spn.boss := s.fab.boss } s.fab.boss 0x13 s.tokenBytes := by
  have hasks : ¬ ((s.pair.paired && !s.pair.owner) || s.fab.noaddr) = true := by
    rw [haddr, Bool.or_false]
    exact ne_true_of_eq_false hown
  rw [State.askToken, if_neg hasks]
  exact (if_neg hboss).trans (if_neg hother)

/-- The module without its token. -/
def State.tokenless (s : State) : State := { s with spn.token := false, spn.solo := false }

theorem State.giveToken_of_solo (htoken : s.spn.token = true) (hsolo : s.spn.solo = true) : s.giveToken = s.tokenless :=
  (if_neg (by simp [htoken])).trans (if_pos (by simp [hsolo]))

theorem State.giveToken_to_other_boss (htoken : s.spn.token = true) (hsolo : s.spn.solo = false) (hboss : s.fab.boss ≠ 0)
    (hother : s.fab.boss ≠ s.fab.addr) :
    s.giveToken = s.tokenless.e2eSend s.fab.boss 0x15 s.tokenless.tokenBytes :=
  (if_neg (by simp [htoken])).trans ((if_neg (by simpa [hsolo] using hboss)).trans (if_neg hother))

/-- A token that comes in WAIT_TOKEN starts ALIGN, unless a power failure met the spindle turning (R104, R116). -/
theorem State.tokenGot_of_waitToken (solo : Bool) (hst : s.spn.st = .waitToken) (hbefore : s.spn.before = none) :
    s.tokenGot solo = State.spinMode { s.draw with
      spn.token := true, spn.solo := solo, spn.st := .align, spn.before := none } 2 :=
  (if_neg (by simp [hst])).trans (if_neg (by simp [hbefore]))

theorem State.tokenGot_of_changing (solo : Bool) (hst : s.spn.st = .changing) :
    s.tokenGot solo = { s with spn.token := true, spn.solo := solo, spn.ramping := true } := if_pos hst

/-! ### Granting (R110, R112) -/

@[simp] theorem State.grantAll_of_empty (h : s.ledger.queue = []) : s.grantAll = s := by rw [State.grantAll, h]; rfl

theorem State.ledgerReturn_of_empty (hqueue : s.ledger.queue = []) :
    s.ledgerReturn k = { s with ledger.held := s.ledger.held.filter (· != k) } := State.grantAll_of_empty hqueue

/-- During the hold-off, or with every token out, nothing is granted. -/
theorem State.ledgerGrant_of_shut (n : Nat) (h : s.ledger.holdoff = true ∨ s.fld 0x1C1C 0 5 ≤ s.ledger.held.length) :
    s.ledgerGrant n = s := by
  cases n with
  | zero => rfl
  | succ n => exact if_pos (by obtain h | h := h <;> simp [h])

/-- A boss with room grants at once to another module that nobody waits before. -/
theorem State.grantAll_request (hoffice : s.ledger.office = true) (hhold : s.ledger.holdoff = false)
    (hroom : s.ledger.held.length < s.fld 0x1C1C 0 5) (hempty : s.ledger.queue = []) (hother : k ≠ s.slotNo) :
    State.grantAll { s with ledger.queue := s.ledger.queue ++ [k] } = State.e2eSend { s with
      ledger.held := s.ledger.held ++ [k] } (BitVec.ofNat 12 (s.fab.addr.toNat / 16 * 16 + k.val)) 0x14 s.tokenBytes := by
  have hopen : ¬ (!s.ledger.office || s.ledger.holdoff || decide (s.fld 0x1C1C 0 5 ≤ s.ledger.held.length)) = true := by
    simp [hoffice, hhold, hroom]
  have hnone : ({ s with ledger.queue := [] } : State) = s := by rw [← hempty]
  rw [hempty, List.nil_append]
  refine (if_neg hopen).trans ((if_neg hother).trans ?_)
  conv => rhs; rw [← hnone]
  rfl

/-! ### The commands -/

theorem exec_tokenLeaseExpiry_other (hmine : (s.spn.token && k == s.slotNo) = false) : exec (.tokenLeaseExpiry k) s =
    .next (if s.ledger.office && s.ledger.held.contains k then s.ledgerReturn k else s) := if_pos (by simp [hmine])

/-- The lease of a member that spins up ends: the attempt has failed (R111). -/
theorem exec_tokenLeaseExpiry_member (hmember : s.ledger.office = false) (htoken : s.spn.token = true)
    (hspin : s.spn.st = .align ∨ s.spn.st = .ramp ∨ s.spn.st = .changing) :
    exec (.tokenLeaseExpiry s.slotNo) s = .next (s.tokenless.spinFail raise 3) := by
  show execTokenLeaseExpiry s.slotNo s = _
  simp only [execTokenLeaseExpiry, hmember, htoken, beq_self_eq_true, Bool.false_and, Bool.true_and]
  exact congrArg Host.Outcome.next (if_pos hspin)

theorem exec_soloWaitExpiry_unlinked (hwait : s.waitsToken = true) (htoken : s.spn.token = false)
    (hdown : ∀ n < 5, (s.port n).st ≠ .up) : exec .soloWaitExpiry s = .next (s.tokenGot true) := by
  have hany : ((List.range 5).any fun n => (s.port n).st == .up) = false := by simpa [List.any_eq_false] using hdown
  exact congrArg Host.Outcome.next (if_pos (by simp only [hwait, htoken, hany]; decide))

section
variable {src : BitVec 12} {h : Byte} (hsrc : s.inShelf src = true)
include hsrc

theorem exec_tokenGrant_waiting (hwait : s.waitsToken = true) (htoken : s.spn.token = false) :
    exec (.tokenGrant src) s = .next (s.tokenGot false) :=
  congrArg Host.Outcome.next ((if_pos hsrc).trans (if_pos (by simp [hwait, htoken])))

theorem exec_ledgerHeld_new (hoffice : s.ledger.office = true) (hh : h ≠ 0) (hnew : s.ledger.held.contains k = false) :
    exec (.ledgerHeld src k h) s = .next { s with
      ledger.held := s.ledger.held ++ [k], ledger.queue := s.ledger.queue.filter (· != k) } := by
  have hh' : h.toNat ≠ 0 := fun h0 => hh (BitVec.eq_of_toNat_eq h0)
  exact congrArg Host.Outcome.next ((if_pos hsrc).trans (if_pos (by simp only [hoffice, hnew, bne_iff_ne.mpr hh']; decide)))

section
variable {shelf : Byte} (hshelf : shelf.toNat = s.fab.addr.toNat / 16) (hoffice : s.ledger.office = true)
include hshelf hoffice

/-- A request new to the boss is queued, and what the ledger allows is granted. -/
theorem exec_tokenReq_boss (hqueue : s.ledger.queue.contains k = false) (hheld : s.ledger.held.contains k = false) :
    exec (.tokenReq src shelf k h) s = .next (State.grantAll { s with ledger.queue := s.ledger.queue ++ [k] }) :=
  congrArg Host.Outcome.next ((if_pos (by simp [hsrc, hshelf])).trans ((if_pos hoffice).trans
    (if_neg (by simp only [hoffice, hqueue, hheld]; decide))))

theorem exec_tokenReturn_boss : exec (.tokenReturn src shelf k h) s = .next (s.ledgerReturn k) :=
  congrArg Host.Outcome.next ((if_pos (by simp [hsrc, hshelf])).trans (if_pos hoffice))

end

end

end

/-- Settles O6, by who holds office, what the ledger has room for and what the module waits for. -/
theorem tokensAndLedger : Obligations.TokensAndLedger := by
  refine ⟨fun s hwait hown haddr hboss hother => ?_, fun s htoken hsolo hst hboss hother => ?_, fun s htoken hsolo hst => ?_,
    fun k s hoffice hheld hmine hqueue => ?_, fun s hmember htoken hspin => exec_tokenLeaseExpiry_member hmember htoken hspin,
    fun s hoffice hhold => congrArg Host.Outcome.next (if_pos ⟨hoffice, hhold⟩), fun s hst htoken hdown hbefore => ?_,
    fun src shelf k h s hsrc hshelf hoffice hqueue hheld => ⟨fun hshut => ?_, fun hopen hroom hempty hother => ?_⟩,
    fun src s hsrc hst htoken hbefore => ?_, fun src s hsrc hst hramp htoken => ?_,
    fun src shelf k h s hsrc hshelf hoffice hqueue => ?_, fun src s hsrc => congrArg Host.Outcome.next (if_pos hsrc),
    fun src k h s hsrc hoffice hh hnew => exec_ledgerHeld_new hsrc hoffice hh hnew⟩
  · exact congrArg Host.Outcome.next ((if_pos hwait).trans (State.askToken_of_other_boss hown haddr hboss hother))
  · exact congrArg Host.Outcome.next ((if_pos ⟨htoken, hst⟩).trans (State.giveToken_to_other_boss htoken hsolo hboss hother))
  · exact congrArg Host.Outcome.next ((if_pos ⟨htoken, hst⟩).trans (State.giveToken_of_solo htoken hsolo))
  · rw [exec_tokenLeaseExpiry_other hmine, if_pos (by simp only [hoffice, hheld]; decide), State.ledgerReturn_of_empty hqueue]
  · refine ⟨_, exec_soloWaitExpiry_unlinked (State.waitsToken_of_waitToken hst) htoken hdown, ?_⟩
    simp [State.tokenGot_of_waitToken true hst hbefore]
  · exact (exec_tokenReq_boss hsrc hshelf hoffice hqueue hheld).trans (congrArg _ (State.ledgerGrant_of_shut _ hshut))
  · exact (exec_tokenReq_boss hsrc hshelf hoffice hqueue hheld).trans
      (congrArg _ (State.grantAll_request hoffice hopen hroom hempty hother))
  · refine ⟨_, exec_tokenGrant_waiting hsrc (State.waitsToken_of_waitToken hst) htoken, ?_⟩
    simp [State.tokenGot_of_waitToken false hst hbefore]
  · rw [exec_tokenGrant_waiting hsrc (State.waitsToken_of_changing hst hramp) htoken, State.tokenGot_of_changing false hst]
  · rw [exec_tokenReturn_boss hsrc hshelf hoffice, State.ledgerReturn_of_empty hqueue]

end Sys2Proof.Machine
end

section
/-! PROOFS. Speed lock and its loss (R104 to R107), the phase reference (R114, R350), power failure (R115, R116). -/
namespace Sys2Proof.Machine

open Sys2Proof

/-! ### Speed lock (R97, R105, R107) -/

theorem bitOf_eq_testBit (n b : Nat) : bitOf n b = n.testBit b := by
  rw [Nat.testBit_eq_decide_div_mod_eq, bitOf, Nat.shiftRight_eq_div_pow]
  rfl

theorem State.ready_setReady_same (s : State) {b : Nat} (hb : b < 22) : (s.setReady b true).ready b = true := by
  show bitOf (s.pwr.ready ||| 1#22 <<< b).toNat b = true
  rw [bitOf_eq_testBit, BitVec.testBit_toNat, BitVec.getLsbD_or, BitVec.getLsbD_shiftLeft]
  simp [hb]

@[simp] theorem State.unpark_spn (s : State) (n : Nat) : (s.unpark n).spn = s.spn := by
  unfold State.unpark; dsimp only; split <;> simp
@[simp] theorem State.unpark_pwr (s : State) (n : Nat) : (s.unpark n).pwr = s.pwr := by
  unfold State.unpark; dsimp only; split <;> simp
@[simp] theorem State.unparkFree_spn (s : State) (n : Nat) : (s.unparkFree n).spn = s.spn := by
  unfold State.unparkFree; split <;> simp
@[simp] theorem State.unparkFree_pwr (s : State) (n : Nat) : (s.unparkFree n).pwr = s.pwr := by
  unfold State.unparkFree; split <;> simp

@[simp] theorem State.foldl_unparkFree_spn (l : List Nat) (s : State) :
    (l.foldl (fun (t : State) a => t.unparkFree a) s).spn = s.spn :=
  List.foldlRecOn l _ (motive := fun t : State => t.spn = s.spn) rfl fun t ht a _ => (t.unparkFree_spn a).trans ht
@[simp] theorem State.foldl_unparkFree_pwr (l : List Nat) (s : State) :
    (l.foldl (fun (t : State) a => t.unparkFree a) s).pwr = s.pwr :=
  List.foldlRecOn l _ (motive := fun t : State => t.pwr = s.pwr) rfl fun t ht a _ => (t.unparkFree_pwr a).trans ht

/-- An ATB that is STOPPED has no reference to lose. -/
theorem State.atbTo_acquire_of_stopped {s : State} (r : Raise) (h : s.atb.st = .stopped) : s.atbTo r .acquire = { s with
    atb.st := .acquire, atb.lastK := none, atb.bad := false, atb.phaseErr := 0 } := by simp [State.atbTo, State.spinning, h]

/-- The ATB wakes without touching another block. -/
theorem State.atbWake_changes (s : State) : ∃ atb, s.atbWake = { s with atb := atb } := by
  by_cases h : s.atb.st = .stopped ∧ s.speedLocked ∧ !s.atb.fenced ∧ s.refAct.isSome
  · exact ⟨_, (if_pos h).trans (State.atbTo_acquire_of_stopped raise h.1)⟩
  · exact ⟨_, if_neg h⟩

@[simp] theorem State.atbWake_spn (s : State) : s.atbWake.spn = s.spn := by
  obtain ⟨atb, h⟩ := s.atbWake_changes; rw [h]
@[simp] theorem State.atbWake_pwr (s : State) : s.atbWake.pwr = s.pwr := by
  obtain ⟨atb, h⟩ := s.atbWake_changes; rw [h]

theorem State.lockBegins_spn (s : State) : s.lockBegins.spn = { s.spn with
    st := .locked, wanted := false, attempts := 0, retryWait := false, newRpm := none, ramping := false, offCnt := 0
    before := none } := by simp [State.lockBegins, State.event]

theorem State.lockBegins_ready (s : State) : s.lockBegins.ready 11 = true := by
  rw [State.ready, State.lockBegins, State.atbWake_pwr, State.foldl_unparkFree_pwr, State.event, State.eventSrc_pwr]
  exact State.ready_setReady_same _ (by decide)

/-! ### Loss of lock, braking and change of speed (R104, R106, R107) -/

section
variable {s : State}

theorem exec_brakeDone_braking (hst : s.spn.st = .stopping) (hbrake : s.mdl.mode = 3) (hdone : s.spn.wanted = false) :
    exec .brakeDone s = .next (State.spinMode { s with spn.st := .off } 0) := by
  show execBrakeDone s = _
  rw [execBrakeDone, if_neg (by simp [hst, hbrake])]
  exact congrArg Host.Outcome.next (if_neg (by simp [hdone]))

theorem exec_speedChangeDone_ramping {n : Nat} (hst : s.spn.st = .changing) (hramp : s.spn.ramping = true)
    (hnew : s.spn.newRpm = some n) : exec .speedChangeDone s = .next (s.putFld 0x1C00 0 13 n).lockBegins := by
  show execSpeedChangeDone s = _
  simp only [execSpeedChangeDone, hst, hnew, hramp, if_true]

/-- Lock lost after sixteen revolutions off speed: source 10 and, where its fence has not stopped the spindle, RAMP at half the
target or more, else a stop that is still wanted (R106). -/
theorem exec_speedLockLoss_measured (hst : s.spn.st = .locked) (hoff : 16 ≤ s.spn.offCnt) :
    let z := raise 10 (s.draw.lockEnds raise)
    exec .speedLockLoss s = .next (
      if z.spn.st = .locked then
        if s.spn.period * s.lastFld 0x1C00 0 13 ≤ 120000000000 then
          State.spinMode { z with spn.st := .ramp, spn.wanted := true } 1
        else { z.spinStop raise with spn.wanted := true }
      else z) := by
  intro z
  show execSpeedLockLoss s = _
  rw [execSpeedLockLoss, if_neg (by simp [hst])]
  simp only [if_pos hoff, decide_eq_true_eq]
  by_cases hz : z.spn.st = .locked
  · rw [if_neg (by simpa using hz), if_pos hz, apply_ite Host.Outcome.next]
  · rw [if_pos (by simpa using hz), if_neg hz]

/-! ### The phase reference (R114, R350) -/

theorem exec_phaseRefSend_boss (hoffice : s.ledger.office = true) (hst : s.spn.st = .locked) (hatb : s.atb.st = .locked) :
    exec .phaseRefSend s = .next (s.broadcast 0x12 (leBytes 2 (s.lastFld 0x1C00 0 13) ++ leBytes 2 0 ++ leBytes 4 0)) :=
  congrArg Host.Outcome.next (if_pos ⟨hoffice, hst, hatb⟩)

/-- A member at the boss's speed measures its phase against the reference; its trim is free (R114; log 11). -/
theorem exec_phaseRef_same_speed {src : BitVec 12} {rpm : BitVec 16} (a : BitVec 22) (hsrc : s.inShelf src = true)
    (hfollow : s.flag 0x1C00 30 = true) (hst : s.spn.st = .locked) (hatb : s.atb.st = .locked)
    (hrpm : rpm.toNat = s.lastFld 0x1C00 0 13) :
    let e := angDiff a.toNat ((s.slotNo.val * s.fld 0x1C10 0 22) % revAC)
    let n := if e.natAbs ≤ 16384 then s.spn.phaseGood + 1 else 0
    exec (.phaseRef src rpm a) s = .next { s.draw with
      spn.phaseErr := e, spn.phaseGood := n, spn.phaseLocked := s.spn.phaseLocked || decide (4 ≤ n)
      spn.trim := (Config.freeNat s.free % 81 : Int) - 40 } :=
  congrArg Host.Outcome.next ((if_pos hsrc).trans (if_neg (by simp [hfollow, hst, hatb, hrpm])))

/-! ### Power failure (R115, R116) -/

theorem exec_pfailAssert_high (hhigh : s.spn.pfailLow = false) :
    let z := State.actPfail { s with spn.pfailLow := true, zon.jstop := true } raise
    exec .pfailAssert s = .next (raise 115 (State.floodLsa { z with fab.leaving := true })) := by
  show execPfailAssert s = _
  rw [execPfailAssert, State.pfail, if_neg (ne_true_of_eq_false hhigh)]

/-- With every actuator parked the spindle leaves PFAIL: for FAULT under its fence, else for OFF, spinning up again where the
failure met it turning or about to turn (R116). -/
theorem exec_pfailRecover_parked (hst : s.spn.st = .pfail) (hhigh : s.spn.pfailLow = false) (hparked : s.allParked = true)
    (hstays : s.svc.removal ≠ .surprise) :
    let y : State := { s with zon.jstop := bitOf s.flt.fenced.toNat 61 }
    exec .pfailRecover s = .next (if s.spn.fenced then { y with spn.st := .fault }
      else if s.spn.before != some .off && s.spn.before != some .stopping && s.spn.before.isSome then
        State.requestSpin { y with spn.st := .off }
      else { y with spn.st := .off, spn.before := none }) :=
  congrArg Host.Outcome.next (if_neg (by simp [hst, hhigh, hparked, hstays]))

end

/-- Settles O7, by the spindle's state, the speed measured and what the power failure met. -/
theorem speedLockPhaseAndPowerFailure : Obligations.SpeedLockPhaseAndPowerFailure := by
  refine ⟨fun p s hst => ⟨_, exec_speedLock_ramp p hst, ?_⟩, fun s hst hoff => ⟨_, exec_speedLockLoss_measured hst hoff, ?_⟩,
    fun s hst hbrake hdone => exec_brakeDone_braking hst hbrake hdone,
    fun n s hst hramp hnew => ⟨_, exec_speedChangeDone_ramping hst hramp hnew, rfl, by rw [State.lockBegins_spn]⟩,
    fun s hoffice hst hatb => exec_phaseRefSend_boss hoffice hst hatb,
    fun src rpm a s hsrc hfollow hst hatb hrpm => ⟨_, ?_, ?_, exec_phaseRef_same_speed a hsrc hfollow hst hatb hrpm⟩,
    fun s => rfl, fun s hhigh => exec_pfailAssert_high hhigh, fun s => rfl, fun s hst hhigh hparked hstays => ?_⟩
  · rw [State.lockBegins_ready, State.lockBegins_spn]
    exact ⟨rfl, rfl, rfl, rfl⟩
  · exact ⟨fun hz => if_neg hz, fun hz hfast => (if_pos hz).trans (if_pos hfast),
      fun hz hslow => (if_pos hz).trans (if_neg (Nat.not_le.mpr hslow))⟩
  · omega
  · omega
  · rw [exec_pfailRecover_parked hst hhigh hparked hstays]
    refine ⟨fun hfenced => ?_, fun hfree hwas => ?_, fun hfree hwas => ?_⟩
    · rw [if_pos hfenced]
    · rw [hfree]
      obtain hwas | hwas := hwas <;> rw [hwas] <;> rfl
    · rw [hfree, hwas]
      rfl

end Sys2Proof.Machine
end

section
/-! PROOFS. Commit records, checkpoints, copies in place and locator index builds (R215 to R220, R254). -/
namespace Sys2Proof.Machine

open Sys2Proof

/-! ### Commit records (R115, R215 to R218) -/

section
variable {cs : Word} {ok1 ok2 : Bool} {s : State}

/-- After PFAIL_N no record begins, whatever its unit (R115). -/
theorem exec_commitRecordWrite_of_pfail (hlow : s.spn.pfailLow = true) : exec (.commitRecordWrite cs ok1 ok2) s = .next s := by
  show execCommitRecordWrite cs ok1 ok2 s = _
  unfold execCommitRecordWrite
  cases s.unit? cs with
  | none => rfl
  | some u => exact if_pos (by simp [hlow])

section
variable {u : CUnit} (hu : s.unit? cs = some u) (hmay : s.mayCommit u = true) (hhigh : s.spn.pfailLow = false)
include hu hmay hhigh

/-- A record that may be written waits for the journal, and else commits or fails its unit by how its two tries end. -/
theorem exec_commitRecordWrite_ready : exec (.commitRecordWrite cs ok1 ok2) s = .next (
    if s.zon.jstop then s.failCommit u else if !s.slotFree then s.jwait
    else if (s.tryRec (s.unitRec u) ok1 ok2).2 then (s.tryRec (s.unitRec u) ok1 ok2).1.commitUnit u
    else (s.tryRec (s.unitRec u) ok1 ok2).1.failCommit u) := by
  show execCommitRecordWrite cs ok1 ok2 s = _
  simp only [execCommitRecordWrite, hu]
  rw [if_neg (by simp [hmay, hhigh])]
  simp only [apply_ite Host.Outcome.next]

end

end

/-! ### Checkpoints (R217) -/

theorem exec_checkpointDone_busy {c : Ckpt} {s : State} (hbusy : s.zon.ckptBusy = some c) (hruns : s.zon.jstop = false) :
    let z : State := { s with
      nv.ckpt := some c, zon.ckptBusy := none, recs.gen := s.recs.gen + 1, rcv.clean := []
      zon.unchk := (s.jrecs.filter (fun r => decide (c.jseq.toNat < r.jseq.toNat))).length }
    exec .checkpointDone s = .next ((z.putRec { JRec.of 4 0 with firstSbi := c.jseq }).pumpWrites none) := by
  show execCheckpointDone s = _
  simp only [execCheckpointDone, hbusy]
  exact if_neg (ne_true_of_eq_false hruns)

/-! ### Copies in place (R216, R219, R220) -/

/-- The staging of a conventional unit is let go of once its copies stand (R220). -/
def State.dropStaging (s : State) (cs : Word) : State :=
  { s with
    zon.staged := s.zon.staged.filter (· != cs), cmp.units := s.cmp.units.filter (fun v => v.csec != cs)
    cmp.blks := s.cmp.blks.filter (fun b => b.csec != cs), nv2.descs := s.nv2.descs.filter (fun e => e.1 != cs.toNat) }

theorem exec_copyInPlaceDone_oldest {cs : Word} {u : CUnit} {s : State} (hu : s.unit? cs = some u) (hconv : u.conv = true)
    (hcommitted : u.committed = true) (holdest : ∀ x ∈ s.zon.staged, cs.toNat ≤ x.toNat) (hdone : s.copiesDone u = true)
    (hruns : s.zon.jstop = false) (hfree : s.slotFree = true) :
    let j := ((s.jrecs.find? (fun r => r.jtype == 2 && r.csec == cs)).map (·.jseq)).getD 0
    let z := (s.putRec { JRec.of 3 u.zone with csec := cs, firstSbi := j }).dropStaging cs
    exec (.copyInPlaceDone cs) s = .next ((z.pumpWrites none).wakeWaiters.wakeData.settle) := by
  have hall : (s.zon.staged.all fun c => decide (cs.toNat ≤ c.toNat)) = true := by simpa using holdest
  show execCopyInPlaceDone cs s = _
  simp only [execCopyInPlaceDone, hu]
  rw [if_neg (by simp only [hconv, hcommitted, hall, hdone, hruns]; decide), if_neg (by simp [hfree])]
  rfl

/-! ### Locator indexes (R254) -/

section
variable {z : Nat} {ls : List Locator} {s : State} (hbuilds : s.zon.builds.contains z = true)
include hbuilds

theorem exec_locatorIndexBuildDone_good : exec (.locatorIndexBuildDone z true ls) s = .next (State.modZone { s with
    zon.builds := s.zon.builds.filter (· != z) } z (fun x => { x with locs := mergeLocs ls x.locs })).settle := by
  show execLocatorIndexBuildDone z true ls s = _
  rw [execLocatorIndexBuildDone, if_neg (by simp only [hbuilds]; decide), if_pos rfl]

theorem exec_locatorIndexBuildDone_failed :
    let y := (raise 68 s).modZone z (fun x => { x with idx := none, locs := [] })
    let x : State := { y with zon.builds := y.zon.builds.filter (· != z), zon.used := y.zon.used.filter (· != z) }
    let waiting := s.hqi.cmds.filter (fun c => (s.readBlocks c).any (fun p => p.1 == z && s.srcOf c p == .wait))
    exec (.locatorIndexBuildDone z false ls) s =
      .next (waiting.foldl (fun (v : State) c => v.endCmd c stInternal 0) x).settle := by
  show execLocatorIndexBuildDone z false ls s = _
  rw [execLocatorIndexBuildDone, if_neg (by simp only [hbuilds]; decide), if_neg Bool.false_ne_true]

end

/-- Settles O21, by the journal's state and the outcome of what was written or built. -/
theorem commitsCheckpointsAndCopies : Obligations.CommitsCheckpointsAndCopies := by
  refine ⟨fun cs ok1 ok2 u s hu hmay hhigh => ?_, fun cs ok1 ok2 s hlow => exec_commitRecordWrite_of_pfail hlow,
    fun c s hbusy hruns => exec_checkpointDone_busy hbusy hruns, fun cs u s hu hconv hcommitted holdest hdone hruns hfree =>
      exec_copyInPlaceDone_oldest hu hconv hcommitted holdest hdone hruns hfree,
    fun z ls s hbuilds => exec_locatorIndexBuildDone_good hbuilds, fun z ls s hbuilds => exec_locatorIndexBuildDone_failed hbuilds⟩
  rw [exec_commitRecordWrite_ready hu hmay hhigh]
  refine ⟨fun hstop => ?_, fun hruns hfull => ?_, fun hruns hfree => ⟨(s.tryRec (s.unitRec u) ok1 ok2).1, (s.tryRec (s.unitRec u) ok1 ok2).2,
    rfl, ?_⟩⟩
  · rw [if_pos hstop]
  · rw [if_neg (ne_true_of_eq_false hruns), if_pos (by simp [hfull])]
  · rw [if_neg (ne_true_of_eq_false hruns), if_neg (by simp [hfree])]

end Sys2Proof.Machine
end

section
/-! PROOFS. Read and write channels (R127 to R139, R143, R150) and the preamplifier links (R465, R466): results that reach
their queue, level-1 results, self-tests, and the frames of the links. -/
namespace Sys2Proof.Machine

open Sys2Proof

/-! ### Bytes stored and slots changed -/

@[simp] theorem State.store_ch (s : State) (a : Nat) (l : List Byte) (n : Nat) : (s.store a l).ch n = s.ch n := rfl
@[simp] theorem State.store_seq (s : State) (a : Nat) (l : List Byte) : (s.store a l).seq = s.seq := rfl
@[simp] theorem State.store_pending (s : State) (a : Nat) (l : List Byte) : (s.store a l).pending = s.pending := rfl
@[simp] theorem State.store_nv (s : State) (a : Nat) (l : List Byte) : (s.store a l).nv = s.nv := rfl

/-- What a store does to buffer memory rests on the memory and on BUF_DIAG in force alone (R228, R236). -/
theorem State.store_buf_congr {s t : State} (hbuf : s.buf = t.buf) (hforce : s.regs.force = t.regs.force) (a : Nat)
    (l : List Byte) : (s.store a l).buf = (t.store a l).buf := by
  simp only [State.store, State.flag, State.fld, State.forceWord, hbuf, hforce]
  rfl

@[simp] theorem State.modSlot_chs (s : State) (k i : Nat) (f : Slot → Slot) : (s.modSlot k i f).chs = s.chs := by
  unfold State.modSlot; split <;> rfl
@[simp] theorem State.modSlot_ch (s : State) (k i : Nat) (f : Slot → Slot) (n : Nat) : (s.modSlot k i f).ch n = s.ch n := by
  simp [State.ch]
@[simp] theorem State.modSlot_regs (s : State) (k i : Nat) (f : Slot → Slot) : (s.modSlot k i f).regs = s.regs := by
  unfold State.modSlot; split <;> rfl
@[simp] theorem State.modSlot_arr (s : State) (k i : Nat) (f : Slot → Slot) : (s.modSlot k i f).seq.arr = s.seq.arr := by
  unfold State.modSlot; split <;> rfl
@[simp] theorem State.modSlot_pending (s : State) (k i : Nat) (f : Slot → Slot) : (s.modSlot k i f).pending = s.pending := by
  unfold State.modSlot; split <;> rfl
@[simp] theorem State.modSlot_nv (s : State) (k i : Nat) (f : Slot → Slot) : (s.modSlot k i f).nv = s.nv := by
  unfold State.modSlot; split <;> rfl

/-! ### The result queue (R150) -/

/-- A result that finds room is queued with its arrival number; buffer memory, the pending commands and what is kept without
power stay as they are (R150). -/
theorem State.pushRes_of_room {s : State} {r : Res} (hroom : (s.ch r.ch.val).rq.length < 16) :
    (s.pushRes r).ch r.ch.val = { s.ch r.ch.val with rq := (s.ch r.ch.val).rq ++ [{ r with arr := s.seq.arr }] } ∧
      (s.pushRes r).buf = s.buf ∧ (s.pushRes r).pending = s.pending ∧ (s.pushRes r).nv = s.nv := by
  rw [State.pushRes, if_pos hroom]
  exact ⟨State.modCh_same s r.ch.val (fun c => { c with rq := c.rq ++ [{ r with arr := s.seq.arr }] }), rfl, rfl, rfl⟩

/-! ### Read results (R127, R128, R133, R139) -/

/-- The decode of a block of slot `sl` on channel `n` passes every check (R128, R133): it converges within the iterations
allowed, and its information block is whole and names the slot's track group. -/
def State.decodes (s : State) (n : Nat) (sl : Slot) (r : ReadRes) : Bool :=
  r.converged && decide (r.iter ≤ s.fld (chReg n 8) 16 4) && r.info.length == 4128 && infoOk r.info &&
    infoTgn r.info == tgnOf (n / 4) sl.e.hs.toNat sl.e.trk.toNat

/-- What a decode that passes leaves in the slot, the channel's flags and its counters (R133, R139). -/
def State.blockDecoded (s : State) (n k i : Nat) (r : ReadRes) (sync2 : Bool) : State :=
  let z := ((s.modSlot k i (fun x => { x with res := true })).modCh n (fun c => { c with
    lastIter := BitVec.ofNat 4 r.iter
    flags := { c.flags with sync1 := true, sync2 := sync2, decOk := true, decFail := false } })).count (192 + n) r.iter
  if r.clip then (z.setW1c (chReg n 4) 7).count (240 + n) 1 else z

section
variable (s : State) (n k i : Nat) (r : ReadRes) (sync2 : Bool)

@[simp] theorem State.blockDecoded_ch : (s.blockDecoded n k i r sync2).ch n = { s.ch n with
    lastIter := BitVec.ofNat 4 r.iter
    flags := { (s.ch n).flags with sync1 := true, sync2 := sync2, decOk := true, decFail := false } } := by
  unfold State.blockDecoded
  split <;> simp [State.ch, State.modCh]
@[simp] theorem State.blockDecoded_buf : (s.blockDecoded n k i r sync2).buf = s.buf := by
  unfold State.blockDecoded; split <;> simp
@[simp] theorem State.blockDecoded_force : (s.blockDecoded n k i r sync2).regs.force = s.regs.force := by
  unfold State.blockDecoded; split <;> simp [State.setW1c]
@[simp] theorem State.blockDecoded_arr : (s.blockDecoded n k i r sync2).seq.arr = s.seq.arr := by
  unfold State.blockDecoded; split <;> simp
@[simp] theorem State.blockDecoded_pending : (s.blockDecoded n k i r sync2).pending = s.pending := by
  unfold State.blockDecoded; split <;> simp
@[simp] theorem State.blockDecoded_nv : (s.blockDecoded n k i r sync2).nv = s.nv := by
  unfold State.blockDecoded; split <;> simp

end

theorem exec_readBlockEnd_good {c : Fin 16} {b : Bool} {i : Fin 1536} {r : ReadRes} {sl : Slot} {s : State} {p1 : Nat}
    (hsl : s.slotAt (bankKey c.val b) i.val = some sl) (hread : isReadKind sl.e.kind.toNat = true) (hkind : sl.e.kind.toNat ≠ 4)
    (hsys : sl.e.sys = false) (hres : sl.res = false) (hst : sl.st = .executing)
    (hsync : inWin r.sm1 192 (s.fld (chReg c.val 0xC) 16 8) = some p1) (hok : s.decodes c.val sl r = true) (hdma : sl.dma = 1) :
    exec (.readBlockEnd c b i r) s = .next (((s.blockDecoded c.val (bankKey c.val b) i.val r
      (inWin r.sm2 (p1 + 112) (s.fld (chReg c.val 0xC) 8 4)).isSome).store (mediaBuf sl.e.bufref.toNat) r.info).pushRes
        ⟨b, i.val, false, true, false, false, c, 0, sl.work, sl.e.bufref.toNat⟩) := by
  have huser : (sl.e.kind.toNat == 4 || sl.e.sys) = false := by simp [hkind, hsys]
  rw [State.decodes] at hok
  have hgood := (Bool.and_eq_true_iff.mp hok).1
  show execReadBlockEnd c b i r s = _
  simp only [execReadBlockEnd, hsl]
  rw [if_neg (by simp [hread, hres, hst])]
  simp only [huser, Bool.false_eq_true, if_false, hok, hsync]
  simp [State.blockDecoded, hgood, hdma]

/-! ### Verify results (R137, R138) -/

/-- What a verify that matches leaves in the slot and the channel (R137, R139): the verify `v` no longer waits. -/
def State.blockVerified (s : State) (n k i : Nat) (v : Bool × Nat × Bool) : State :=
  (s.modSlot k i (fun x => { x with res := true })).modCh n (fun c => { c with
    vfy := c.vfy.erase v, flags := { c.flags with vfyOk := true, vfyFail := false } })

section
variable (s : State) (n k i : Nat) (v : Bool × Nat × Bool)

@[simp] theorem State.blockVerified_ch : (s.blockVerified n k i v).ch n = { s.ch n with
    vfy := (s.ch n).vfy.erase v, flags := { (s.ch n).flags with vfyOk := true, vfyFail := false } } := by
  simp [State.blockVerified]
@[simp] theorem State.blockVerified_buf : (s.blockVerified n k i v).buf = s.buf := by simp [State.blockVerified]
@[simp] theorem State.blockVerified_arr : (s.blockVerified n k i v).seq.arr = s.seq.arr := by simp [State.blockVerified]
@[simp] theorem State.blockVerified_nv : (s.blockVerified n k i v).nv = s.nv := by simp [State.blockVerified]

end

theorem exec_verifyResult_good {c : Fin 16} {b : Bool} {i : Fin 1536} {r : VerifyRes} {sl : Slot} {s : State}
    (hfind : (s.ch c.val).vfy.find? (fun v => v.1 == b && v.2.1 == i.val) = some (b, i.val, false))
    (hsl : s.slotAt (bankKey c.val b) i.val = some sl) (hmarks : r.marks = true) (hconv : r.converged = true)
    (hiter : r.iter ≤ s.fld (chReg c.val 0x10) 16 4) (hequal : r.equal = true)
    (hcorr : r.corrected ≤ s.fld (chReg c.val 0x10) 0 10) :
    exec (.verifyResult c b i r) s = .next ((s.blockVerified c.val (bankKey c.val b) i.val (b, i.val, false)).pushRes
      ⟨b, i.val, true, true, false, false, c, 0, sl.work, sl.e.bufref.toNat⟩) := by
  show execVerifyResult c b i r s = _
  simp only [execVerifyResult, hfind, hsl]
  simp [State.blockVerified, hmarks, hconv, hiter, hequal, hcorr]

theorem find?_eq_some_of_unique {α : Type} {p : α → Bool} {l : List α} {a : α} (hmem : a ∈ l) (ha : p a = true)
    (huniq : ∀ x ∈ l, p x = true → x = a) : l.find? p = some a := by
  obtain ⟨x, hx⟩ := Option.isSome_iff_exists.mp (List.find?_isSome.mpr ⟨a, hmem, ha⟩)
  rw [hx, huniq x (List.mem_of_find?_eq_some hx) (List.find?_some hx)]

/-! ### Level-1 results (R129, R134) -/

theorem exec_l1Done_first {a : Fin 4} {ok : Bool} {info : List Byte} {s : State} {q : Fin 16} {n : Nat} {x : Bool}
    {t : List (Fin 16 × Nat × Bool)} {w : Work} (hfirst : tget [] s.rcv.l1 a.val = (q, n, x) :: t) (hwork : s.workOf n = some w) :
    let y : State := { s with rcv.l1 := tset s.rcv.l1 a.val t }
    let z := if y.keepsSamples w then y else y.release w.head.val w.track.toNat w.pos.toNat
    exec (.l1Done a ok info) s = .next (if ok && info.length == 4128 && infoOk info && infoTgn info == w.tgn.toNat
      then (z.blockRead w info).settle else (z.blockLost w).settle) := by
  have hwork' : State.workOf { s with rcv.l1 := tset s.rcv.l1 a.val t } n = some w := hwork
  show execL1Done a ok info s = _
  simp only [execL1Done, hfirst, hwork']
  exact (apply_ite Host.Outcome.next _ _ _).symm

/-! ### Self-tests (R143) -/

/-- Failures that count for test `t` of what the test logic reports: all of them for test 15, else its own (R143). -/
def bistSeen (t f : BitVec 4) : BitVec 4 := if t = 15 then f else f &&& (1#4 <<< (t.toNat - 1))

section
variable {c : Fin 16} {f : BitVec 4} {s : State} (hbist : (s.ch c.val).bist = true) (hown : (s.ch c.val).testReq = false)
include hbist hown

theorem exec_chBistDone_passed (hseen : bistSeen (s.ch c.val).bistTest f = 0) : exec (.chBistDone c f) s =
    .next (s.modCh c.val (fun x => { x with bist := false, bistFailed := 0, bistRes := 1 })) := by
  show execChBistDone c f s = _
  rw [bistSeen] at hseen
  simp only [execChBistDone, hbist, hown, hseen]
  simp

theorem exec_chBistDone_failed (hseen : bistSeen (s.ch c.val).bistTest f ≠ 0) : exec (.chBistDone c f) s =
    .next ((s.modCh c.val (fun x => { x with
      bist := false, bistFailed := bistSeen (s.ch c.val).bistTest f, bistRes := 2, cause := 3 })).event 0x3001 3
        [c.val, (bistSeen (s.ch c.val).bistTest f).toNat, 3]) := by
  have hbad : (bistSeen (s.ch c.val).bistTest f != 0) = true := bne_iff_ne.mpr hseen
  show execChBistDone c f s = _
  rw [bistSeen] at hbad ⊢
  simp only [execChBistDone, hbist, hown, hbad]
  simp

end

/-! ### Frames of the preamplifier links (R465, R466) -/

section
variable {a : Fin 4} {f : BitVec 48} {s : State}

theorem exec_palAck_bad (hbad : palOk f = false) : exec (.palAck a f) s = .next s := if_pos (by simp [hbad])
theorem exec_palStatus_bad (hbad : palOk f = false) : exec (.palStatus a f) s = .next s := if_pos (by simp [hbad])

theorem exec_palAck_good (hok : palOk f = true) (hcmd : palCmd f = 9) : exec (.palAck a f) s =
    .next (s.modAct a.val (fun x => { x with
      palWait := x.palWait.eraseP (fun w => w.1 == palPos f && palSeqOf w.2.1 == palSeqOf f &&
        palCmd w.2.1 == bitsOf (palData f) 20 4) })) := if_neg (by simp [hok, hcmd])

theorem exec_palStatus_good (hok : palOk f = true) (hcmd : palCmd f = 8) : exec (.palStatus a f) s =
    .next (s.modAct a.val (fun x => { x with palStatus := BitVec.ofNat 24 (palData f) })) := if_neg (by simp [hok, hcmd])

section
variable {p : Fin 4} {m : Nat} (hwait : (s.act a.val).palWait.find? (fun w => w.1 == p.val) = some (p.val, f, m))
include hwait

theorem exec_palAckTimeout_repeated (hm : m < 2) : exec (.palAckTimeout a p) s = .next ((s.modAct a.val (fun x => { x with
    palWait := x.palWait.map (fun v => if v = (p.val, f, m) then (p.val, f, 2) else v) })).send (.pal a f)) := by
  show execPalAckTimeout a p s = _
  simp only [execPalAckTimeout, hwait]
  exact if_pos hm

theorem exec_palAckTimeout_missed (hm : 2 ≤ m) : exec (.palAckTimeout a p) s =
    .next (raise (16 + 2 * (4 * a.val + p.val)) (s.modAct a.val (fun x => { x with
      palWait := x.palWait.eraseP (fun v => v.1 == p.val) }))) := by
  show execPalAckTimeout a p s = _
  simp only [execPalAckTimeout, hwait]
  exact if_neg (Nat.not_lt.mpr hm)

end

end

/-- Settles O12, by the whole next state of each command; a read or verify result that finds room is then read off the queue. -/
theorem channelResultsAndPreamplifierLinks : Obligations.ChannelResultsAndPreamplifierLinks := by
  refine ⟨fun c b i r sl s p1 hsl hread hkind hsys hres hst hsm hlate hearly hconv hiter hlen hinfo htgn hdma hroom => ?_,
    fun c b i r sl s hmem huniq hsl hmarks hconv hiter hequal hcorr hroom => ?_,
    fun a ok info s q n x t w hfirst hwork => ?_,
    fun c f s hbist hown => ⟨exec_chBistDone_passed hbist hown, exec_chBistDone_failed hbist hown⟩,
    fun a f s hbad => ⟨exec_palAck_bad hbad, exec_palStatus_bad hbad⟩,
    fun a f s hok hcmd => exec_palAck_good hok hcmd, fun a f s hok hcmd => exec_palStatus_good hok hcmd,
    fun a p f m s hwait => ⟨exec_palAckTimeout_repeated hwait, exec_palAckTimeout_missed hwait⟩⟩
  · have hsync : inWin r.sm1 192 (s.fld (chReg c.val 0xC) 16 8) = some p1 := by simp [inWin, hsm, hlate, hearly]
    have hok : s.decodes c.val sl r = true := by simp [State.decodes, hconv, hiter, hlen, hinfo, htgn]
    refine ⟨_, exec_readBlockEnd_good hsl hread hkind hsys hres hst hsync hok hdma, ?_⟩
    generalize (inWin r.sm2 (p1 + 112) (s.fld (chReg c.val 0xC) 8 4)).isSome = sync2
    obtain ⟨hch, hbuf, hpending, hnv⟩ := State.pushRes_of_room
      (s := (s.blockDecoded c.val (bankKey c.val b) i.val r sync2).store (mediaBuf sl.e.bufref.toNat) r.info)
      (r := ⟨b, i.val, false, true, false, false, c, 0, sl.work, sl.e.bufref.toNat⟩)
      (by simpa using hroom)
    rw [State.store_buf_congr (t := s) (by simp) (by simp)] at hbuf
    simp only [State.store_ch, State.blockDecoded_ch] at hch
    rw [hch]
    exact ⟨by simp, rfl, rfl, rfl, hbuf, by simpa using hpending, by simpa using hnv⟩
  · have hfind := find?_eq_some_of_unique (p := fun v => v.1 == b && v.2.1 == i.val) hmem (by simp)
      (fun v hv hv' => have hkey : v.1 = b ∧ v.2.1 = i.val := by simpa using hv'
        huniq v hv hkey.1 hkey.2)
    refine ⟨_, exec_verifyResult_good hfind hsl hmarks hconv hiter hequal hcorr, ?_⟩
    obtain ⟨hch, hbuf, -, hnv⟩ := State.pushRes_of_room (s := s.blockVerified c.val (bankKey c.val b) i.val (b, i.val, false))
      (r := ⟨b, i.val, true, true, false, false, c, 0, sl.work, sl.e.bufref.toNat⟩) (by simpa using hroom)
    simp only [State.blockVerified_ch] at hch
    rw [hch]
    exact ⟨by simp, rfl, rfl, by simpa using hbuf, by simpa using hnv⟩
  · have hjudged := exec_l1Done_first (ok := ok) (info := info) hfirst hwork
    exact ⟨fun hok hlen hinfo htgn => hjudged.trans (congrArg _ (if_pos (by simp [hok, hlen, hinfo, htgn]))),
      fun hfail => hjudged.trans (congrArg _ (if_neg (by simp [hfail])))⟩

end Sys2Proof.Machine
end

section
/-! PROOFS. Slot sequencer (R148 to R163): what a microword says, and what each micro-op does to its context. -/
namespace Sys2Proof.Machine

open Sys2Proof

/-! ### Contexts -/

@[simp] theorem tset_tset {α : Type} (t : Tab α) (n : Nat) (v w : α) : tset (tset t n v) n w = tset t n w := by
  induction t with
  | nil => simp [tset]
  | cons e t ih =>
    rw [tset]
    split
    next hlt => simp [tset, hlt]
    next hge =>
      split
      next heq => simp [tset, heq]
      next hne => simp [tset, hge, hne, ih]

/-- Two changes of one context are one. -/
theorem State.modCtx_modCtx (s : State) (n : Nat) (f g : Ctx → Ctx) : (s.modCtx n f).modCtx n g = s.modCtx n (fun c => g (f c)) := by
  simp [State.modCtx, tmod]

/-- What a change makes of the context as it stands is all that counts. -/
theorem State.modCtx_congr {s : State} {n : Nat} {f g : Ctx → Ctx} (h : f (s.ctx n) = g (s.ctx n)) : s.modCtx n f = s.modCtx n g := by
  unfold State.modCtx tmod
  rw [show f (tget Ctx.init s.seq.ctx n) = g (tget Ctx.init s.seq.ctx n) from h]

/-! ### Fields of a microword (R151) -/

theorem bitsOf_mod (x l : Nat) {m n : Nat} (h : m ≤ n) : bitsOf x l n % 2 ^ m = bitsOf x l m :=
  Nat.mod_mod_of_dvd _ (Nat.pow_dvd_pow 2 h)

theorem bitsOf_bitsOf (x l : Nat) {a m n : Nat} (h : a + m ≤ n) : bitsOf (bitsOf x l n) a m = bitsOf x (l + a) m := by
  refine Nat.eq_of_testBit_eq fun i => ?_
  simp only [testBit_bitsOf, Nat.add_assoc]
  by_cases hi : i < m
  · simp [hi, show a + i < n by omega]
  · simp [hi]

theorem uA_mod (w : Word) {m : Nat} (h : m ≤ 12) : uA w % 2 ^ m = bitsOf w.toNat 16 m := bitsOf_mod _ _ h
theorem bitsOf_uA (w : Word) {a m : Nat} (h : a + m ≤ 12) : bitsOf (uA w) a m = bitsOf w.toNat (16 + a) m := bitsOf_bitsOf _ _ h
theorem bitOf_uA (w : Word) {a : Nat} (h : a < 12) : bitOf (uA w) a = bitOf w.toNat (16 + a) := by
  rw [bitOf_eq_bitsOf, bitOf_eq_bitsOf, bitsOf_uA w h]
theorem uA_flag (w : Word) : uA w % 64 = bitsOf w.toNat 16 6 := uA_mod w (m := 6) (by decide)

/-- A change that leaves the micro-PC leaves the microword. -/
theorem State.uword_modCtx {s : State} {n : Nat} {f : Ctx → Ctx} (hupc : (f (s.ctx n)).upc = (s.ctx n).upc) :
    (s.modCtx n f).uword n = s.uword n := by
  unfold State.uword
  rw [State.modCtx_same, hupc]
  rfl

/-- A jump after a change that leaves the micro-PC goes where it would have gone before it. -/
theorem State.jump_modCtx {s : State} {n : Nat} {f : Ctx → Ctx} (hupc : (f (s.ctx n)).upc = (s.ctx n).upc) :
    (s.modCtx n f).jump n = s.modCtx n (fun c => { f c with upc := BitVec.ofNat 13 (uB (s.uword n)) }) := by
  rw [State.jump, State.uword_modCtx hupc, State.modCtx_modCtx]

/-! ### Micro-ops outside a HARVEST run (R154) -/

/-- Outside a HARVEST run a micro-op the context stands on has its effect (R157). -/
theorem State.microOp_of_atOp {s : State} {n cls : Nat} (hat : s.atOp n cls = true) (hout : (s.ctx n).harvest = none)
    (f : State → State) : s.microOp n cls f = f s := by
  simp [State.microOp, hat, hout]

@[simp] theorem Ctx.putFlag_upc (c : Ctx) (f : Nat) (v : Bool) : (c.putFlag f v).upc = c.upc := by
  unfold Ctx.putFlag
  split
  · rfl
  · split <;> rfl

/-- What LOOP of microword `w` does to its context (R154). -/
def Ctx.loopStep (w : Word) (c : Ctx) : Ctx :=
  let one := bitOf w.toNat 16
  { c with
    lc0 := if one then c.lc0 else c.lc0 - 1
    lc1 := if one then c.lc1 - 1 else c.lc1
    upc := if (if one then c.lc1 - 1 else c.lc0 - 1) ≠ 0 then BitVec.ofNat 13 (bitsOf w.toNat 0 16) else c.upc + 1 }

section
variable {k : Fin 5} {s : State} (hout : (s.ctx k.val).harvest = none)
include hout

theorem exec_nop_at (hat : s.atOp k.val 0 = true) : exec (.nop k) s = .next (s.next k.val) :=
  congrArg _ (State.microOp_of_atOp hat hout _)

theorem exec_br_at (hat : s.atOp k.val 5 = true) : exec (.br k) s = .next (
    if s.flagVal k.val (bitsOf (s.uword k.val).toNat 16 6) = bitOf (s.uword k.val).toNat 27 then s.jump k.val
    else s.next k.val) := by
  show execBr k s = _
  rw [execBr, State.microOp_of_atOp hat hout, uA_flag, bitOf_uA _ (by decide)]

theorem exec_jmp_at (hat : s.atOp k.val 6 = true) : exec (.jmp k) s = .next (s.jump k.val) :=
  congrArg _ (State.microOp_of_atOp hat hout _)

theorem exec_callOp_at (hat : s.atOp k.val 7 = true) : exec (.callOp k) s = .next (
    if 4 ≤ (s.ctx k.val).stack.length then (s.setW1c 0x1404 (9 + k.val)).haltCtx k.val
    else s.modCtx k.val (fun c => { c with
      stack := (c.upc + 1) :: c.stack, upc := BitVec.ofNat 13 (uB (s.uword k.val)) })) := by
  show execCallOp k s = _
  rw [execCallOp, State.microOp_of_atOp hat hout, State.jump_modCtx rfl]

theorem exec_ret_pops {a : BitVec 13} {t : List (BitVec 13)} (hat : s.atOp k.val 8 = true) (hstack : (s.ctx k.val).stack = a :: t) :
    exec (.ret k) s = .next (s.modCtx k.val (fun c => { c with upc := a, stack := t })) := by
  show execRet k s = _
  rw [execRet, State.microOp_of_atOp hat hout]
  simp [hout, hstack]

theorem exec_ret_ends (hat : s.atOp k.val 8 = true) (hstack : (s.ctx k.val).stack = []) (hframe : (s.ctx k.val).frame = none) :
    exec (.ret k) s = .next (s.endRoutine k.val) := by
  show execRet k s = _
  rw [execRet, State.microOp_of_atOp hat hout]
  simp [hout, hstack, hframe]

theorem exec_loopOp_at (hat : s.atOp k.val 9 = true) :
    exec (.loopOp k) s = .next (s.modCtx k.val (Ctx.loopStep (s.uword k.val))) := by
  show execLoopOp k s = _
  rw [execLoopOp, State.microOp_of_atOp hat hout]
  dsimp only
  rw [bitOf_uA _ (by decide), State.jump_modCtx (by split <;> rfl), State.next, State.modCtx_modCtx]
  rw [← apply_ite (s.modCtx k.val)]
  refine congrArg _ (State.modCtx_congr ?_)
  unfold Ctx.loopStep uB
  cases bitOf (s.uword k.val).toNat 16 with
  | false =>
    simp only [Bool.false_eq_true, if_false]
    split <;> rfl
  | true =>
    simp only [if_true]
    split <;> rfl

theorem exec_ldc_at (hat : s.atOp k.val 10 = true) (hfield : bitsOf (s.uword k.val).toNat 24 2 = 0) :
    exec (.ldc k) s = .next (s.modCtx k.val (fun c => { c with
      lc0 := if bitOf (s.uword k.val).toNat 16 then c.lc0 else BitVec.ofNat 16 (uB (s.uword k.val))
      lc1 := if bitOf (s.uword k.val).toNat 16 then BitVec.ofNat 16 (uB (s.uword k.val)) else c.lc1, upc := c.upc + 1 })) := by
  show execLdc k s = _
  rw [execLdc, State.microOp_of_atOp hat hout]
  dsimp only
  rw [bitOf_uA _ (by decide), bitsOf_uA _ (by decide), if_pos hfield, State.next, State.modCtx_modCtx]
  refine congrArg _ (State.modCtx_congr ?_)
  split <;> rfl

theorem exec_setf_at (hat : s.atOp k.val 11 = true) : exec (.setf k) s = .next (s.modCtx k.val (fun c =>
    { c.putFlag (bitsOf (s.uword k.val).toNat 16 6) true with upc := c.upc + 1 })) := by
  show execSetf k s = _
  rw [execSetf, State.microOp_of_atOp hat hout, uA_flag, State.next, State.modCtx_modCtx]
  simp only [Ctx.putFlag_upc]

theorem exec_clrf_at (hat : s.atOp k.val 12 = true) : exec (.clrf k) s = .next (s.modCtx k.val (fun c =>
    { c.putFlag (bitsOf (s.uword k.val).toNat 16 6) false with upc := c.upc + 1 })) := by
  show execClrf k s = _
  rw [execClrf, State.microOp_of_atOp hat hout, uA_flag, State.next, State.modCtx_modCtx]
  simp only [Ctx.putFlag_upc]

/-- Without a group EVT records the context and the micro-PC alone (R158). -/
theorem exec_evt_at (hat : s.atOp k.val 13 = true) (hgroup : (s.ctx k.val).group = none) :
    exec (.evt k) s = .next ((s.event (0x4800 + bitsOf (s.uword k.val).toNat 16 11)
      (min 4 (bitsOf (s.uword k.val).toNat 0 3)) [k.val * 2 ^ 29 + (s.ctx k.val).upc.toNat, 0, 0, 0, 0]).next k.val) := by
  have hcode : uA (s.uword k.val) % 2048 = bitsOf (s.uword k.val).toNat 16 11 := uA_mod _ (m := 11) (by decide)
  have hsev : uB (s.uword k.val) % 8 = bitsOf (s.uword k.val).toNat 0 3 := bitsOf_mod _ _ (m := 3) (by decide)
  show execEvt k s = _
  rw [execEvt, State.microOp_of_atOp hat hout]
  simp only [hgroup, hcode, hsev]

theorem exec_halt_at (hat : s.atOp k.val 15 = true) : exec (.halt k) s = .next (s.haltCtx k.val) :=
  congrArg _ (State.microOp_of_atOp hat hout _)

end

/-- Settles O9, by the next state of each micro-op outside a HARVEST run. -/
theorem microOpsBranchCountAndFlag : Obligations.MicroOpsBranchCountAndFlag := by
  intro k s hout n c w goto pass flagMet one
  refine ⟨exec_nop_at hout, fun hat => ⟨fun hmet => ?_, fun hunmet => ?_⟩, exec_jmp_at hout, fun hat hroom => ?_,
    fun hat hfull => ?_, fun a t => exec_ret_pops hout, exec_ret_ends hout,
    fun hat => ⟨_, exec_loopOp_at hout hat, ?_⟩, exec_ldc_at hout, exec_setf_at hout, exec_clrf_at hout, exec_evt_at hout,
    exec_halt_at hout⟩
  · rw [exec_br_at hout hat, if_pos hmet]; rfl
  · rw [exec_br_at hout hat, if_neg hunmet]; rfl
  · rw [exec_callOp_at hout hat, if_neg (Nat.not_le.mpr hroom)]; rfl
  · rw [exec_callOp_at hout hat, if_pos hfull]
  · rw [State.modCtx_same]
    exact ⟨rfl, rfl, rfl⟩

end Sys2Proof.Machine
end

section
/-! PROOFS. Slot sequencer (R152 to R155): nano-words, and the waits for an acknowledgement, an angle or a flag. -/
namespace Sys2Proof.Machine

open Sys2Proof

/-! ### ISSUE and ISSUEW (R152, R153) -/

/-- The nano-word that field A of the context's microword names (R151). -/
def State.nanoAt (s : State) (n : Nat) : BitVec 160 := tget 0 s.seq.nano (bitsOf (s.uword n).toNat 16 11)

/-- The nano-word of the context is carried out and its HOLD begins (R152). -/
def State.nanoSent (s : State) (n : Nat) : State :=
  (s.nano n (s.nanoAt n)).modCtx n (fun c => { c with hold := BitVec.ofNat 8 (bitsOf (s.nanoAt n).toNat 104 8) })

section
variable {s : State} {n : Nat} (after : State → State)

theorem State.issueOp_of_held (hheld : (s.ctx n).hold ≠ 0) : s.issueOp n after = s := if_pos (by simpa using hheld)

section
variable (hfree : (s.ctx n).hold = 0)
include hfree

theorem State.issueOp_of_free : s.issueOp n after =
    if n < 4 ∧ bitsOf (s.nanoAt n).toNat 96 8 ≠ 0 then s.haltCtx n else after (s.nanoSent n) := by
  have hword : uA (s.uword n) % 2048 = bitsOf (s.uword n).toNat 16 11 := uA_mod _ (m := 11) (by decide)
  rw [State.issueOp, if_neg (by simp [hfree]), hword]
  rfl

theorem State.issueOp_sends (hallowed : n = 4 ∨ bitsOf (s.nanoAt n).toNat 96 8 = 0) :
    s.issueOp n after = after (s.nanoSent n) := by
  rw [State.issueOp_of_free after hfree, if_neg]
  rintro ⟨hrun, hssw⟩
  exact hallowed.elim (Nat.ne_of_lt hrun) hssw

theorem State.issueOp_halts (hrun : n < 4) (hssw : bitsOf (s.nanoAt n).toNat 96 8 ≠ 0) : s.issueOp n after = s.haltCtx n := by
  rw [State.issueOp_of_free after hfree, if_pos ⟨hrun, hssw⟩]

end

end

section
variable {k : Fin 5} {s : State} (hout : (s.ctx k.val).harvest = none)
include hout

theorem exec_issue_at (hat : s.atOp k.val 1 = true) :
    exec (.issue k) s = .next (s.issueOp k.val (fun s => s.next k.val)) :=
  congrArg _ (State.microOp_of_atOp hat hout _)

theorem exec_issuew_at (hat : s.atOp k.val 2 = true) :
    exec (.issuew k) s = .next (s.issueOp k.val (fun s => s.await k.val .ack)) :=
  congrArg _ (State.microOp_of_atOp hat hout _)

/-! ### WAITA and WAITC begin (R154, R155) -/

theorem exec_waita_at {g : Group} (hat : s.atOp k.val 3 = true) (hgroup : (s.ctx k.val).group = some g) :
    let t := s.waitTarget k.val g (bitsOf (s.uword k.val).toNat 26 2) (bitsOf (s.uword k.val).toNat 0 16)
    exec (.waita k) s = .next (if t < (s.posn : Int) then s.missed k.val g else s.await k.val (.angle t.toNat)) := by
  show execWaita k s = _
  rw [execWaita, State.microOp_of_atOp hat hout]
  simp only [hgroup]
  rw [bitsOf_uA _ (by decide)]
  rfl

theorem exec_waitc_at (hat : s.atOp k.val 4 = true) : exec (.waitc k) s = .next (
    if s.flagVal k.val (bitsOf (s.uword k.val).toNat 16 6) = bitOf (s.uword k.val).toNat 27 then s.next k.val
    else s.await k.val (.flag (BitVec.ofNat 6 (bitsOf (s.uword k.val).toNat 16 6)) (bitOf (s.uword k.val).toNat 27))) := by
  have hflag : BitVec.ofNat 6 (uA (s.uword k.val)) = BitVec.ofNat 6 (bitsOf (s.uword k.val).toNat 16 6) := by
    apply BitVec.eq_of_toNat_eq
    simp [← uA_flag]
  show execWaitc k s = _
  rw [execWaitc, State.microOp_of_atOp hat hout]
  simp only [uA_flag, hflag, bitOf_uA _ (show 11 < 12 by decide)]

end

/-! ### Waits end (R154, R155) -/

section
variable {k : Fin 5} {s : State}

theorem exec_issuewAck_waiting (hwait : (s.ctx k.val).wait = .ack) : exec (.issuewAck k) s = .next (s.resume k.val) :=
  congrArg _ (if_pos hwait)

theorem exec_issuewTimeout_waiting (hwait : (s.ctx k.val).wait = .ack) (hgiven : bitsOf (s.uword k.val).toNat 0 16 ≠ 0) :
    exec (.issuewTimeout k) s = .next ((s.resume k.val).modCtx k.val (fun c => { c with timeout := true })) :=
  congrArg _ (if_pos ⟨hwait, hgiven⟩)

section
variable {f : BitVec 6} {b : Bool} (hwait : (s.ctx k.val).wait = .flag f b)
include hwait

theorem exec_waitcMet_waiting (hmet : s.flagVal k.val f.toNat = b) : exec (.waitcMet k) s = .next (s.resume k.val) := by
  show execWaitcMet k s = _
  rw [execWaitcMet, hwait]
  exact congrArg _ (if_pos hmet)

theorem exec_waitcTimeout_waiting (hgiven : bitsOf (s.uword k.val).toNat 0 16 ≠ 0) :
    exec (.waitcTimeout k) s = .next ((s.resume k.val).modCtx k.val (fun c => { c with timeout := true })) := by
  show execWaitcTimeout k s = _
  simp only [execWaitcTimeout, hwait]
  exact congrArg _ (if_pos hgiven)

end

section
variable {t : Nat} (hwait : (s.ctx k.val).wait = .angle t)
include hwait

theorem exec_waitaReached_past (hpast : t ≤ s.posn) : exec (.waitaReached k) s = .next (s.resume k.val) := by
  show execWaitaReached k s = _
  rw [execWaitaReached, hwait]
  exact congrArg _ (if_pos hpast)

theorem exec_waitaReached_ahead (hahead : s.posn < t) (hspin : s.spinning = true) (hrev : t / revAC = s.atb.rev.toNat) :
    exec (.waitaReached k) s = .next ((s.toAngle (t % revAC)).resume k.val) := by
  show execWaitaReached k s = _
  rw [execWaitaReached, hwait]
  dsimp only
  rw [if_neg (Nat.not_le.mpr hahead), if_pos (by simp [hspin, hrev])]

end

/-- The shaft moves on to a position ahead of it in the revolution under way (log 3). -/
theorem State.toAngle_posn {t : Nat} (hahead : s.posn < t) (hrev : t / revAC = s.atb.rev.toNat) :
    (s.toAngle (t % revAC)).posn = t := by
  have hpos : s.atb.rev.toNat * revAC + t % revAC = t := by rw [← hrev, Nat.div_add_mod']
  have hlt : t % revAC < revAC := Nat.mod_lt _ (by decide)
  have hac : s.atb.ac.toNat < t % revAC := by
    unfold State.posn at hahead
    omega
  have hangle : max s.atb.ac.toNat (min (t % revAC) (revAC - 1)) = t % revAC := by omega
  show s.atb.rev.toNat * revAC + (BitVec.ofNat 22 (max s.atb.ac.toNat (min (t % revAC) (revAC - 1)))).toNat = t
  rw [hangle, BitVec.toNat_ofNat, Nat.mod_eq_of_lt hlt, hpos]

/-- A wait that ends leaves the shaft where it is. -/
@[simp] theorem State.resume_posn (s : State) (n : Nat) : (s.resume n).posn = s.posn := rfl

@[simp] theorem State.toAngle_ctx (s : State) (a n : Nat) : (s.toAngle a).ctx n = s.ctx n := rfl

end

/-- Settles O10, by the next state of each nano-word and each wait outside a HARVEST run. -/
theorem nanoWordsAndWaits : Obligations.NanoWordsAndWaits := by
  intro k s hout n c w v sent resumed
  refine ⟨fun hat hfree hallowed => ?_, fun hat hfree hallowed => ?_, fun hat hfree hrun hssw => ?_, fun hat hheld => ?_, rfl,
    exec_issuewAck_waiting, exec_issuewTimeout_waiting, fun g hat hgroup => ⟨fun hahead => ?_, fun hpassed => ?_⟩,
    fun t => exec_waitaReached_past, fun t hwait hahead hspin hrev => ?_, fun hat hmet => ?_, fun hat hunmet => ?_,
    fun f b => exec_waitcMet_waiting, fun f b => exec_waitcTimeout_waiting⟩
  · rw [exec_issue_at hout hat, State.issueOp_sends _ hfree hallowed]; rfl
  · rw [exec_issuew_at hout hat, State.issueOp_sends _ hfree hallowed]; rfl
  · rw [exec_issue_at hout hat, State.issueOp_halts _ hfree hrun hssw]
  · rw [exec_issue_at hout hat, State.issueOp_of_held _ hheld]
  · rw [exec_waita_at hout hat hgroup, if_neg (Int.not_lt.mpr hahead)]; rfl
  · rw [exec_waita_at hout hat hgroup, if_pos hpassed]; rfl
  · refine ⟨_, exec_waitaReached_ahead hwait hahead hspin hrev, ?_, ?_⟩
    · rw [State.resume_posn, State.toAngle_posn hahead hrev]
    · rw [State.resume, State.modCtx_same, State.toAngle_ctx]
      exact ⟨rfl, rfl⟩
  · rw [exec_waitc_at hout hat, if_pos hmet]; rfl
  · rw [exec_waitc_at hout hat, if_neg hunmet]; rfl

end Sys2Proof.Machine
end

section
/-! PROOFS. Slot sequencer (R149, R158 to R162, R165 to R167): dispatch, HARVEST runs, traps, and microcode images. -/
namespace Sys2Proof.Machine

open Sys2Proof

/-! ### Dispatch (R148, R149) -/

/-- The slots of a group are dispatched (R148). -/
def State.dispatched (s : State) (n : Nat) (g : Group) : State :=
  (s.groupSlots n g).foldl (fun s k => s.modSlot k.1 k.2 (fun sl => { sl with disp := true })) s

section
variable {k : Fin 5} {s : State} (halive : (s.ctx k.val).alive = true) (hidle : (s.ctx k.val).running = false)
  (htrap : (s.ctx k.val).trapDue = false) (hout : (s.ctx k.val).harvest = none)
include halive hidle htrap hout

theorem exec_groupDispatch_due {g : Group} (hnext : s.nextGroup k.val = some (g, true)) :
    exec (.groupDispatch k) s = .next ((s.dispatched k.val g).runVector k.val
      ((if k.val < 4 then 0x10 else 0x20) + g.kind.toNat)
      (fun c => { c with group := some g, timeout := false, late := false, abortSlot := false })) := by
  show execGroupDispatch k s = _
  simp only [execGroupDispatch]
  rw [if_neg (by simp [halive, hidle, htrap, hout])]
  simp only [hnext]
  rfl

theorem exec_harvest_waiting (hrun : k.val < 4) (hframe : (s.ctx k.val).frame = none)
    (hresult : (s.harvestHead k.val).isSome = true) (hnext : s.nextGroup k.val = none) :
    exec (.harvest k) s = .next (s.modCtx k.val (fun c => { c with
      harvest := some (c.upc, c.wait, false), upc := 5, wait := .none, running := true, st := .run, hcount := 0 })) := by
  have hhead : (s.harvestHead k.val).isNone = false := by simpa using hresult
  show execHarvest k s = _
  simp only [execHarvest, hnext]
  rw [if_neg (by simp [halive, hidle, htrap, hout, hframe, hhead, hrun])]
  refine congrArg _ (State.modCtx_congr ?_)
  simp only [hidle]

end

/-- RET ends a HARVEST run that has a micro-op left (R149, R159). -/
theorem exec_ret_harvest {k : Fin 5} {s : State} (hin : (s.ctx k.val).harvest.isSome = true) (hat : s.atOp k.val 8 = true)
    (hleft : (s.ctx k.val).hcount < 32) :
    exec (.ret k) s = .next ((s.modCtx k.val (fun c => { c with hcount := c.hcount + 1 })).endHarvest k.val) := by
  show execRet k s = _
  rw [execRet, State.microOp, if_neg (by simp [hat]), if_pos hin, if_neg (by simp [harvestOp, hleft])]
  simp only [State.modCtx_same, hin, if_true]

/-! ### Traps (R160 to R162) -/

/-- The pending trap cause of highest priority (R160). -/
def trapCause (traps : BitVec 4) : Nat :=
  if bitOf traps.toNat 0 then 0 else if bitOf traps.toNat 1 then 1 else if bitOf traps.toNat 2 then 2 else 3
/-- The vector of a trap cause (R160). -/
def trapVector (cause : Nat) : Nat := if cause = 0 then 2 else if cause = 1 then 3 else if cause = 2 then 1 else 4

theorem trapCause_eq_find? {traps : BitVec 4} (h : traps ≠ 0) :
    ((List.range 4).find? (fun b => bitOf traps.toNat b)).getD 0 = trapCause traps := by
  revert traps
  decide

theorem Ctx.traps_ne_zero_of_due {c : Ctx} (hdue : c.trapDue = true) : c.traps ≠ 0 := by
  simp only [Ctx.trapDue, Bool.and_eq_true, bne_iff_ne] at hdue
  obtain ⟨⟨⟨-, htraps⟩, -⟩, -⟩ := hdue
  exact htraps

theorem exec_trap_due {k : Fin 5} {s : State} (hdue : (s.ctx k.val).trapDue = true) :
    let cause := trapCause (s.ctx k.val).traps
    exec (.trap k) s = .next (s.modCtx k.val (fun c => { c with
      frame := some ⟨c.upc, c.lc0, c.lc1, s.flagWord k.val, c.stack, c.hold, c.wait, c.running⟩
      traps := c.traps &&& ~~~(1#4 <<< cause), lastTrap := BitVec.ofNat 3 (trapVector cause)
      upc := BitVec.ofNat 13 (trapVector cause), stack := [], hold := 0, wait := .none, running := true, st := .trap })) := by
  show execTrap k s = _
  simp only [execTrap]
  rw [if_neg (by simp [hdue]), trapCause_eq_find? (Ctx.traps_ne_zero_of_due hdue)]
  refine congrArg _ (State.modCtx_congr ?_)
  generalize trapCause (s.ctx k.val).traps = cause
  match cause with
  | 0 | 1 | 2 | _ + 3 => rfl

section
variable {k : Fin 5} {s : State} (hout : (s.ctx k.val).harvest = none) (hat : s.atOp k.val 14 = true)
include hout hat

theorem exec_trapret_framed {f : Frame} (hframe : (s.ctx k.val).frame = some f) :
    exec (.trapret k) s = .next (s.modCtx k.val (fun c => { c with
      frame := none, upc := f.upc, lc0 := f.lc0, lc1 := f.lc1, stack := f.stack, hold := f.hold, wait := .none
      timeout := bitOf f.flags.toNat 6, u := BitVec.ofNat 14 (bitsOf f.flags.toNat 18 14), running := f.running
      st := if f.running then .run else .idle })) := by
  show execTrapret k s = _
  rw [execTrapret, State.microOp_of_atOp hat hout]
  simp only [hframe]

theorem exec_trapret_unframed (hframe : (s.ctx k.val).frame = none) : exec (.trapret k) s = .next (s.next k.val) := by
  show execTrapret k s = _
  rw [execTrapret, State.microOp_of_atOp hat hout]
  simp only [hframe]

end

/-! ### Images (R165 to R167) -/

theorem exec_microcodeBoot_unready {p a : List Byte} {s : State} (hready : s.ready 3 = false) (hcore : s.domainCore = true) :
    exec (.microcodeBoot p a) s = .next (
      if (s.setReady 4 true).imageCause p = 0 then ((s.setReady 4 true).installImage p).setReady 3 true
      else if (s.setReady 4 true).imageCause a = 0 then ((s.setReady 4 true).installImage a).setReady 3 true
      else (s.setReady 4 true).event 0x4000 4 [(s.setReady 4 true).imageCause p, (s.setReady 4 true).imageCause a]) := by
  show execMicrocodeBoot p a s = _
  rw [execMicrocodeBoot, if_neg (by simp [hready, hcore])]
  simp only [apply_ite Host.Outcome.next]

theorem exec_microcodeInstall_quiet {b : List Byte} {tag : BitVec 16} {s : State} (hpend : s.seq.pendImg = some (b, tag))
    (hquiet : s.seqQuiet = true) (hspin : s.spinning = true) (hindex : s.atb.ac = 0) :
    exec .microcodeInstall s = .next ((s.installImage b).finish 0 tag stSuccess 0) := by
  show execMicrocodeInstall s = _
  rw [execMicrocodeInstall, hpend]
  exact if_neg (by simp [hquiet, hspin, hindex])

/-- Settles O11, by the next state of each sequencer event under the statement's guards. -/
theorem dispatchHarvestTrapsAndMicrocode : Obligations.DispatchHarvestTrapsAndMicrocode := by
  refine ⟨fun k s g halive hidle htrap hout hnext => ⟨_, exec_groupDispatch_due halive hidle htrap hout hnext, ?_⟩,
    fun k s hrun halive hidle htrap hframe hout hresult hnext =>
      exec_harvest_waiting halive hidle htrap hout hrun hframe hresult hnext,
    fun k s hin hat hleft => exec_ret_harvest hin hat hleft, fun k s hdue => exec_trap_due hdue,
    fun k s f hout hat hframe => exec_trapret_framed hout hat hframe,
    fun k s hout hat hframe => exec_trapret_unframed hout hat hframe,
    fun p a s hready hcore => exec_microcodeBoot_unready hready hcore,
    fun b tag s hpend hquiet hspin hindex => exec_microcodeInstall_quiet hpend hquiet hspin hindex⟩
  rw [State.runVector, State.modCtx_same]
  exact ⟨rfl, rfl, rfl, rfl, rfl, rfl⟩

end Sys2Proof.Machine
end

section
/-! PROOFS. Admin commands (R264, R288, R313 to R319, R355): how a command of queue pair 0 that is taken up answers. -/
namespace Sys2Proof.Machine

open Sys2Proof

/-! ### A command of queue pair 0 -/

/-- The command of queue pair 0 that holds tag `t` is `c`, and waits for its answer on a part that still serves it (R295, R377). -/
structure State.TakesAdmin (s : State) (t : BitVec 16) (c : Cmd) : Prop where
  cmd : s.cmd? 0 t = some c
  own : s.shadow = false
  unanswered : c.fin = none
  idle : c.st ≠ .running
  serves : s.retired c = false

theorem State.TakesAdmin.tag_eq {s : State} {t : BitVec 16} {c : Cmd} (h : s.TakesAdmin t c) : c.tag = t := by
  have hfound := List.find?_some h.cmd
  simp only [Bool.and_eq_true, beq_iff_eq] at hfound
  exact hfound.2

/-- A command that is taken up answers as the body of its opcode says. -/
theorem State.TakesAdmin.next_adminCmd {s z : State} {t : BitVec 16} {c : Cmd} {o : Nat} {f : Cmd → State}
    (h : s.TakesAdmin t c) (hopc : c.opc.toNat = o) (hf : f c = z) : (.next (s.adminCmd o t f) : Result) = .next z := by
  obtain ⟨hcmd, hown, hunanswered, hidle, hserves⟩ := h
  rw [← hf]
  simp [State.adminCmd, hcmd, hopc, hown, hunanswered, hidle, hserves]

section
variable {s : State} {t : BitVec 16} {c : Cmd} (h : s.TakesAdmin t c)
include h

/-! ### IDENTIFY (R313) -/

section
variable (hopc : c.opc = 0x01)
include hopc

theorem exec_identify_bad (hbad : c.pf 0 0 8 ≠ 0) : exec (.identify t) s = .next (s.finish 0 t stInvalidField 36) :=
  h.next_adminCmd (congrArg _ hopc) (if_pos hbad)

theorem exec_identify_page (hgood : c.pf 0 0 8 = 0) : exec (.identify t) s = .next (s.reply c stSuccess 0 s.modulePage) :=
  h.next_adminCmd (congrArg _ hopc) (if_neg (not_not_intro hgood))

end

/-! ### CREATE QP (R314) -/

section
variable (hopc : c.opc = 0x02)
include hopc

theorem exec_createQp_pair (hbad : c.pf 3 0 7 = 0 ∨ (s.qp (c.pf 3 0 7)).st ≠ .disabled) :
    exec (.createQp t) s = .next (s.finish 0 t stInvalidField 48) :=
  h.next_adminCmd (congrArg _ hopc) (if_pos hbad)

section
variable (hk : c.pf 3 0 7 ≠ 0) (hfree : (s.qp (c.pf 3 0 7)).st = .disabled)
include hk hfree

theorem exec_createQp_ring (hring : c.addr.toNat % 4096 ≠ 0) : exec (.createQp t) s = .next (s.finish 0 t stInvalidField 24) :=
  h.next_adminCmd (congrArg _ hopc) ((if_neg (by simp [hk, hfree])).trans (if_pos hring))

section
variable (hring : c.addr.toNat % 4096 = 0)
include hring

theorem exec_createQp_completions (hcq : (BitVec.ofNat 64 (c.p 0 + c.p 1 * 2 ^ 32)).toNat % 4096 ≠ 0) :
    exec (.createQp t) s = .next (s.finish 0 t stInvalidField 36) :=
  h.next_adminCmd (congrArg _ hopc)
    ((if_neg (by simp [hk, hfree])).trans ((if_neg (not_not_intro hring)).trans (if_pos hcq)))

section
variable (hcq : (BitVec.ofNat 64 (c.p 0 + c.p 1 * 2 ^ 32)).toNat % 4096 = 0)
include hcq

theorem exec_createQp_depth (hdepth : c.pf 2 0 4 < 1 ∨ 12 < c.pf 2 0 4) :
    exec (.createQp t) s = .next (s.finish 0 t stInvalidField 44) :=
  h.next_adminCmd (congrArg _ hopc) ((if_neg (by simp [hk, hfree])).trans
    ((if_neg (not_not_intro hring)).trans ((if_neg (not_not_intro hcq)).trans (if_pos hdepth))))

theorem exec_createQp_made (hlow : 1 ≤ c.pf 2 0 4) (hhigh : c.pf 2 0 4 ≤ 12) :
    let rights := BitVec.ofNat 6 (c.pf 2 24 6) &&& (s.qp 0).rights
    exec (.createQp t) s = .next (State.finish (s.modQp (c.pf 3 0 7) (fun _ => { Qp.init with
      st := .active, log2 := BitVec.ofNat 4 (c.pf 2 0 4), sq := c.addr, cq := BitVec.ofNat 64 (c.p 0 + c.p 1 * 2 ^ 32)
      vector := BitVec.ofNat 8 (c.pf 2 8 8), ien := c.pf 2 16 1 == 1, rights := rights, phase := true }))
      0 t stSuccess rights.toNat).mirrorQ :=
  h.next_adminCmd (congrArg _ hopc) ((if_neg (by simp [hk, hfree])).trans
    ((if_neg (not_not_intro hring)).trans ((if_neg (not_not_intro hcq)).trans (if_neg (by omega)))))

end
end
end
end

/-! ### DELETE QP (R288) -/

section
variable (hopc : c.opc = 0x03)
include hopc

theorem exec_deleteQp_pair (hbad : c.pf 3 0 7 = 0 ∨ (s.qp (c.pf 3 0 7)).st = .disabled ∨ (s.qp (c.pf 3 0 7)).st = .deleting) :
    exec (.deleteQp t) s = .next (s.finish 0 t stInvalidField 48) :=
  h.next_adminCmd (congrArg _ hopc) (if_pos hbad)

theorem exec_deleteQp_active (hk : c.pf 3 0 7 ≠ 0) (hactive : (s.qp (c.pf 3 0 7)).st = .active) (f : Fin 128)
    (hf : f.val = c.pf 3 0 7) :
    let z := s.modQp (c.pf 3 0 7) (fun x => { x with st := .deleting, delTag := some t, reading := none })
    exec (.deleteQp t) s = .next (((z.modCmd 0 t (fun x => { x with st := .running })).endCmds
      (fun x => x.qp.val == c.pf 3 0 7) stAborted).endDelete f).mirrorQ := by
  have hfound : (List.finRange 128).find? (fun n => n.val == c.pf 3 0 7) = some f :=
    find?_eq_some_of_unique (List.mem_finRange f) (by simp [hf])
      (fun x _ hx => Fin.ext ((beq_iff_eq.mp hx).trans hf.symm))
  refine h.next_adminCmd (congrArg _ hopc) ((if_neg (by simp [hk, hactive])).trans ?_)
  simp only [hfound]

end

/-! ### Pages (R316, R355) -/

/-- A page command with a page that no table lists. -/
theorem State.pageCmd_none : s.pageCmd c none = s.finish 0 t stInvalidField 36 := by
  rw [State.pageCmd, h.tag_eq]; rfl

section
variable (l : List Byte)

theorem State.pageCmd_offset (hofs : c.addr.toNat % 4 ≠ 0) : s.pageCmd c (some l) = s.finish 0 t stInvalidField 24 := by
  rw [State.pageCmd, h.tag_eq]
  exact if_pos hofs

theorem State.pageCmd_length (hofs : c.addr.toNat % 4 = 0)
    (hlen : c.count.toNat % 4 ≠ 0 ∨ c.count.toNat < 4 ∨ 4194304 < c.count.toNat) :
    s.pageCmd c (some l) = s.finish 0 t stInvalidField 32 := by
  rw [State.pageCmd, h.tag_eq]
  exact (if_neg (not_not_intro hofs)).trans (if_pos hlen)

omit h in
theorem State.pageCmd_part (hofs : c.addr.toNat % 4 = 0) (hlen : c.count.toNat % 4 = 0) (hlow : 4 ≤ c.count.toNat)
    (hhigh : c.count.toNat ≤ 4194304) :
    s.pageCmd c (some l) = s.reply c stSuccess l.length (pagePart l c.addr.toNat c.count.toNat) :=
  (if_neg (not_not_intro hofs)).trans (if_neg (by omega))

end

omit h in
theorem State.logPage_unlisted {n : Nat} (hn : n = 0 ∨ 5 < n) : s.logPage n = none := by
  match n with
  | 0 => rfl
  | 1 | 2 | 3 | 4 | 5 => omega
  | _ + 6 => rfl

section
variable (hopc : c.opc = 0x04)
include hopc

theorem exec_getLog_unauthorised (haudit : c.pf 0 0 8 = 2) (hnone : s.anySession (.pcie, 0) = none) :
    exec (.getLog t) s = .next (s.finish 0 t stRoleRequired 0) :=
  h.next_adminCmd (congrArg _ hopc) (if_pos ⟨haudit, Option.isNone_iff_eq_none.mpr hnone⟩)

/-- A log page but the health page is served by anyone, and the audit page where a session is open. -/
theorem exec_getLog_page (hhealth : c.pf 0 0 8 ≠ 3) (hsession : c.pf 0 0 8 = 2 → s.anySession (.pcie, 0) ≠ none) :
    exec (.getLog t) s = .next (s.pageCmd c (s.logPage (c.pf 0 0 8))) := by
  refine h.next_adminCmd (congrArg _ hopc) ((if_neg ?_).trans (congrArg (State.pageCmd · c _) (if_neg hhealth)))
  rintro ⟨haudit, hnone⟩
  exact hsession haudit (Option.isNone_iff_eq_none.mp hnone)

end

section
variable (hopc : c.opc = 0x0F)
include hopc

theorem exec_fabricQuery_page : exec (.fabricQuery t) s = .next
    ((if c.pf 0 0 8 = 1 then s.draw.draw.draw.draw.draw else s).pageCmd c (s.fabPage (c.pf 0 0 8))) :=
  h.next_adminCmd (congrArg _ hopc) rfl

end

/-! ### GET COUNTERS (R317) -/

section
variable (hopc : c.opc = 0x05)
include hopc

theorem exec_getCounters_first (hfirst : 255 < c.addr.toNat) :
    exec (.getCounters t) s = .next (s.finish 0 t stInvalidField 24) :=
  h.next_adminCmd (congrArg _ hopc) (if_pos hfirst)

section
variable (hfirst : c.addr.toNat ≤ 255)
include hfirst

theorem exec_getCounters_count (hcount : c.count.toNat < 1 ∨ 256 < c.addr.toNat + c.count.toNat) :
    exec (.getCounters t) s = .next (s.finish 0 t stInvalidField 32) :=
  h.next_adminCmd (congrArg _ hopc) ((if_neg (Nat.not_lt.mpr hfirst)).trans (if_pos hcount))

theorem exec_getCounters_entries (hlow : 1 ≤ c.count.toNat) (hhigh : c.addr.toNat + c.count.toNat ≤ 256) :
    exec (.getCounters t) s = .next (s.reply c stSuccess 0 ((List.range c.count.toNat).map (fun i =>
      leBytes 8 (s.ctr (c.addr.toNat + i) + 2 ^ 63 * b2n (bitOf s.pmc.ovf.toNat (c.addr.toNat + i))))).flatten) :=
  h.next_adminCmd (congrArg _ hopc) ((if_neg (Nat.not_lt.mpr hfirst)).trans (if_neg (by omega)))

end
end

/-! ### SET RIGHTS (R264, R314) -/

section
variable (hopc : c.opc = 0x06)
include hopc

theorem exec_setRights_unauthorised (hnone : s.session (.pcie, 0) .operator = none) :
    exec (.setRights t) s = .next (s.finish 0 t stRoleRequired 0) :=
  h.next_adminCmd (congrArg _ hopc) (by simp only [hnone])

section
variable {x : Session} (hx : s.session (.pcie, 0) .operator = some x)
include hx

theorem exec_setRights_blocked (hblocked : s.auditBlocked = true) :
    exec (.setRights t) s = .next (s.finish 0 t stSecurityError 8) :=
  h.next_adminCmd (congrArg _ hopc) (by simp only [hx]; exact if_pos hblocked)

theorem exec_setRights_audited (hroom : s.auditBlocked = false) :
    let k := c.pf 3 0 7
    let m := BitVec.ofNat 6 (c.pf 0 0 6)
    exec (.setRights t) s =
      .next (((s.audit 0xA006 1 [k, (s.qp k).rights.toNat, m.toNat, x.num.val]).setRights k m).finish 0 t stSuccess 0) :=
  h.next_adminCmd (congrArg _ hopc) (by simp only [hx]; exact if_neg (ne_true_of_eq_false hroom))

end
end

/-! ### SELF-TEST (R318) -/

section
variable (hopc : c.opc = 0x08)
include hopc

section
variable (e : Bool) (hact : c.pf 0 0 4 = if e then 2 else 1)
include hact

theorem exec_selfTest_starts (hidle : s.gen.selfTest = none) :
    exec (if e then .selfTestExtended t else .selfTestShort t) s = .next (State.testNext
      { s.modCmd 0 t (fun x => { x with st := .running }) with
        gen.selfTest := some (t, e), gen.testRes := 0, gen.testAt := 0 }) := by
  have hstart : (.next (s.testStart t e) : Result) = _ :=
    h.next_adminCmd (congrArg _ hopc) ((if_neg (not_not_intro hact)).trans (if_neg (by simp [hidle])))
  cases e <;> exact hstart

theorem exec_selfTest_busy (hbusy : s.gen.selfTest ≠ none) :
    exec (if e then .selfTestExtended t else .selfTestShort t) s = .next (s.finish 0 t stInvalidField 36) := by
  have hstart : (.next (s.testStart t e) : Result) = _ :=
    h.next_adminCmd (congrArg _ hopc)
      ((if_neg (not_not_intro hact)).trans (if_pos (Option.isSome_iff_ne_none.mpr hbusy)))
  cases e <;> exact hstart

end

section
variable (hact : c.pf 0 0 4 = 15)
include hact

theorem exec_selfTestAbort_idle (hidle : s.gen.selfTest = none) :
    exec (.selfTestAbort t) s = .next (s.finish 0 t stInvalidField 36) :=
  h.next_adminCmd (congrArg _ hopc) ((if_neg (not_not_intro hact)).trans (by simp only [hidle]; rfl))

theorem exec_selfTestAbort_stops {u : BitVec 16} {e : Bool} (hbusy : s.gen.selfTest = some (u, e)) :
    exec (.selfTestAbort t) s =
      .next ((s.testStop.finish 0 u stAborted s.gen.testRes.toNat).finish 0 t stSuccess 0) :=
  h.next_adminCmd (congrArg _ hopc) ((if_neg (not_not_intro hact)).trans (by simp only [hbusy]))

end
end

/-! ### ABORT (R285, R315) -/

section
variable (hopc : c.opc = 0x07)
include hopc

theorem exec_abortCmd_absent (hnone : s.cmd? (c.pf 3 0 7) (BitVec.ofNat 16 (c.pf 0 0 16)) = none) (hfirst : c.st ≠ .waiting) :
    exec (.abortCmd t) s = .next (s.finish 0 t
      (if s.hqi.posts.any (fun p => p.qp.val == c.pf 3 0 7 && p.tag == BitVec.ofNat 16 (c.pf 0 0 16)) then stAbortDone
        else stAbortUnknown) 0) := by
  refine h.next_adminCmd (congrArg _ hopc) ?_
  simp only [hnone, Option.filter_none, hfirst, false_or]
  exact (apply_ite (s.finish 0 t · 0) _ _ _).symm

section
variable {x : Cmd} (hx : s.cmd? (c.pf 3 0 7) (BitVec.ofNat 16 (c.pf 0 0 16)) = some x) (hhost : x.peer = false)
include hx hhost

/-- An ABORT of a command that is outstanding, by what that command is (R315). -/
theorem exec_abortCmd_found : exec (.abortCmd t) s = .next (
    if x.qp.val = 0 ∧ x.opc = 0x07 then s.finish 0 t stInvalidField 36
    else if s.runsOn x then s.modCmd 0 t (fun y => { y with st := .waiting })
    else ((s.abortOne x).finish 0 t stSuccess 0).wakeWaiters) := by
  refine h.next_adminCmd (congrArg _ hopc) ?_
  simp only [hx, Option.filter_some, hhost, Bool.not_false, if_true]
  rfl

end
end

/-! ### MICROCODE LOAD (R167, R319) -/

section
variable (hopc : c.opc = 0x0D) (image : List Byte)
include hopc

theorem exec_microcodeLoad_unauthorised (hnone : (s.loader (.pcie, 0)).toOption = none) :
    exec (.microcodeLoad t image) s = .next (s.finish 0 t stRoleRequired 0) := by
  refine h.next_adminCmd (congrArg _ hopc) ?_
  cases hloader : s.loader (.pcie, 0) with
  | error e => rfl
  | ok x =>
    rw [hloader] at hnone
    cases hnone

section
variable (hmay : (s.loader (.pcie, 0)).toOption ≠ none)
include hmay

omit h hopc in
theorem State.loader_ok_of_toOption : ∃ x, s.loader (.pcie, 0) = .ok x := by
  cases hloader : s.loader (.pcie, 0) with
  | error e =>
    rw [hloader] at hmay
    exact absurd rfl hmay
  | ok x => exact ⟨x, rfl⟩

theorem exec_microcodeLoad_length (hlen : c.count.toNat < 436 ∨ 73888 < c.count.toNat) :
    exec (.microcodeLoad t image) s = .next (s.finish 0 t stInvalidField 32) := by
  obtain ⟨x, hx⟩ := State.loader_ok_of_toOption hmay
  refine h.next_adminCmd (congrArg _ hopc) ?_
  simp only [hx]
  exact if_pos hlen

/-- An image of a length R319 allows, once it is in the buffer and none waits to be installed, is checked and audited. -/
theorem exec_microcodeLoad_judged (hlow : 436 ≤ c.count.toNat) (hhigh : c.count.toNat ≤ 73888) (hready : s.readyCode [2, 3] = 0)
    (hneed : c.need = 0) (hdata : c.data = image) (hpend : s.seq.pendImg = none) :
    let cause := s.imageCause image
    let z := s.audit 0xA007 1 [1, imgSvn image, leAt image 24 1, cause]
    exec (.microcodeLoad t image) s = .next (
      if s.auditBlocked then s.finish 0 t stSecurityError 8
      else if cause ≠ 0 then z.finish 0 t stSecurityError cause
      else State.modCmd { z with seq.pendImg := some (image, t) } 0 t (fun x => { x with st := .running })) := by
  obtain ⟨x, hx⟩ := State.loader_ok_of_toOption hmay
  refine h.next_adminCmd (congrArg _ hopc) ?_
  simp only [hx, hready]
  rw [if_neg (by omega), if_neg (by simp [hneed, hdata, hpend])]

end
end
end

/-- Settles O27, command by command, by the first test of its rule that fails and else by its effect. -/
theorem adminCommandsAnswer : Obligations.AdminCommandsAnswer := by
  intro s t c hcmd hown hunanswered hidle hserves done n
  have h : s.TakesAdmin t c := ⟨hcmd, hown, hunanswered, hidle, hserves⟩
  refine ⟨fun hopc => ⟨exec_identify_bad h hopc, exec_identify_page h hopc⟩,
    fun hopc => ⟨exec_createQp_pair h hopc, fun hk hfree => ⟨exec_createQp_ring h hopc hk hfree, fun hring =>
      ⟨exec_createQp_completions h hopc hk hfree hring, fun hcq =>
        ⟨exec_createQp_depth h hopc hk hfree hring hcq, exec_createQp_made h hopc hk hfree hring hcq⟩⟩⟩⟩,
    fun hopc => ⟨exec_deleteQp_pair h hopc, exec_deleteQp_active h hopc⟩,
    fun hopc => ⟨exec_getLog_unauthorised h hopc, fun hpage => ?_, fun l hpage => ?_⟩,
    fun hopc => ⟨exec_getCounters_first h hopc, exec_getCounters_count h hopc, exec_getCounters_entries h hopc⟩,
    fun hopc => ⟨exec_setRights_unauthorised h hopc, fun x hx =>
      ⟨exec_setRights_blocked h hopc hx, exec_setRights_audited h hopc hx⟩⟩,
    fun hopc hpage => ?_, fun hopc hpage => ?_,
    fun hopc hfree => ⟨fun e hact => exec_selfTest_starts h hopc e hact hfree, fun hact => exec_selfTestAbort_idle h hopc hact hfree⟩,
    fun hopc u e hbusy => ?_,
    fun hopc => ⟨exec_abortCmd_absent h hopc, fun x hx hhost => ?_⟩,
    fun hopc image => ⟨exec_microcodeLoad_unauthorised h hopc image, fun hmay =>
      ⟨exec_microcodeLoad_length h hopc image hmay, fun hlow hhigh hready hneed hdata hpend => ?_⟩⟩⟩
  · rw [exec_getLog_page h hopc (by omega) (by omega), State.logPage_unlisted hpage, State.pageCmd_none h]
    rfl
  · have hlog : exec (.getLog t) s = .next (s.pageCmd c (some l)) := by
      obtain ⟨hp, rfl⟩ | ⟨hp, hsession, rfl⟩ | ⟨hp, rfl⟩ := hpage
      · rw [exec_getLog_page h hopc (by omega) (by omega), hp]; rfl
      · rw [exec_getLog_page h hopc (by omega) (fun _ => hsession), hp]; rfl
      · rw [exec_getLog_page h hopc (by omega) (by omega), hp]; rfl
    exact ⟨fun hofs => hlog.trans (congrArg _ (State.pageCmd_offset h l hofs)),
      fun hofs hlen => hlog.trans (congrArg _ (State.pageCmd_length h l hofs hlen)),
      fun hofs hlen hlow hhigh => hlog.trans (congrArg _ (State.pageCmd_part l hofs hlen hlow hhigh))⟩
  · rw [exec_fabricQuery_page h hopc, if_neg hpage]
  · rw [exec_fabricQuery_page h hopc, if_pos hpage, hpage]
  · have hsome : s.gen.selfTest ≠ none := by simp [hbusy]
    exact ⟨fun hact => exec_selfTest_busy h hopc false hact hsome, fun hact => exec_selfTest_busy h hopc true hact hsome,
      fun hact => exec_selfTestAbort_stops h hopc hact hbusy⟩
  · rw [exec_abortCmd_found h hopc hx hhost]
    refine ⟨fun hzero hself => congrArg _ (if_pos ⟨hzero, hself⟩), fun hother => ?_⟩
    rw [if_neg (fun hboth => hother.elim (· hboth.1) (· hboth.2))]
    exact ⟨fun hruns => congrArg _ (if_pos hruns), fun hends => congrArg _ (if_neg (ne_true_of_eq_false hends))⟩
  · rw [exec_microcodeLoad_judged h hopc image hmay hlow hhigh hready hneed hdata hpend]
    exact ⟨fun hblocked => congrArg _ (if_pos hblocked), fun hroom => congrArg _ (if_neg (ne_true_of_eq_false hroom))⟩

end Sys2Proof.Machine
end

section
/-! PROOFS. What the chunk path's units answer: compression and decompression engines (R198 to R202, R212), crypto lanes
(R204, R205) and reconstruction (R182, R183). -/
namespace Sys2Proof.Machine

open Sys2Proof

/-! ### Compression (R199, R201) -/

/-- A stored length is the least multiple of 256 bytes that holds the deflated bytes (R199). -/
theorem paddedLen_least (n : Nat) : 256 ∣ paddedLen n ∧ n ≤ paddedLen n ∧ paddedLen n < n + 256 := by
  have hpad : paddedLen n = 256 * ((n + 255) / 256) := rfl
  exact ⟨Nat.dvd_mul_right .., by omega, by omega⟩

/-- The job of chunk `c` of zone `z` and unit `cs` is as `x` says; the other jobs are as they were. -/
def State.setJob (s : State) (z c : Nat) (cs : Word) (x : ChunkJob) : State :=
  { s with cmp.jobs := s.cmp.jobs.map (fun y => if y.zone = z ∧ y.chunk = c ∧ y.csec = cs then x else y) }

section
variable {k : Fin 4} {z c : Nat} {cs : Word} {s : State} (n : Nat) (hjob : (s.engine k.val).job = .compress z c cs)
  (hfenced : (s.engine k.val).fenced = false) (hruns : (s.engine k.val).stalled = false)
include hjob hfenced hruns

/-- An engine with a full output path keeps its chunk (R201; that a busy channel is the full path is log 36). -/
theorem exec_chunkCompressDone_busy (hbusy : (s.dmaCh (16 + k.val)).busy = true) :
    exec (.chunkCompressDone k n) s = .next (s.modEngine k.val (fun e => { e with stalled := true })) := by
  show execChunkCompressDone k n s = _
  simp only [execChunkCompressDone, hjob]
  rw [if_neg (by simp [hfenced, hruns]), if_pos hbusy]

section
variable {j : ChunkJob} (hfree : (s.dmaCh (16 + k.val)).busy = false)
  (hfind : s.cmp.jobs.find? (fun j => j.zone == z && j.chunk == c && j.csec == cs) = some j)
include hfree hfind

theorem exec_chunkCompressDone_free : exec (.chunkCompressDone k n) s = .next (
    if 4096 * j.nblk ≤ paddedLen n then ((s.setJob z c cs (rawJob j)).count (156 + k.val) 1).engineFree k.val
    else ((s.setJob z c cs { j with slen := some (paddedLen n) }).count (152 + k.val) 1).engineFree k.val) := by
  show execChunkCompressDone k n s = _
  simp only [execChunkCompressDone, hjob, hfind]
  rw [if_neg (by simp [hfenced, hruns]), if_neg (ne_true_of_eq_false hfree)]
  by_cases hraw : 4096 * j.nblk ≤ paddedLen n
  · rw [if_pos hraw]
    simp only [decide_eq_true hraw, if_true, State.setJob]
  · rw [if_neg hraw]
    simp only [decide_eq_false hraw, Bool.false_eq_true, if_false, State.setJob]

end
end

/-! ### Decompression (R200, R212, R213) -/

theorem exec_decompressDone_ends {k : Fin 4} {z c : Nat} {q : Fin 128} {t : BitVec 16} {cmd : Cmd} {l : Locator} {s : State}
    (hjob : (s.engine k.val).job = .inflate z c q t) (hfenced : (s.engine k.val).fenced = false)
    (hcmd : s.cmd? q.val t = some cmd) (hloc : s.locator z c = some l) : exec (.decompressDone k) s =
      .next ((s.endChunk cmd (z, c) (inflateEnd l (s.storedBytes z l))).engineFree k.val) := by
  show execDecompressDone k s = _
  simp only [execDecompressDone, hjob, hcmd, hloc]
  exact if_neg (ne_true_of_eq_false hfenced)

/-! ### Crypto lanes (R204, R205) -/

section
variable {n : Fin 4} {s : State}

theorem exec_cryUnitDone_busy (hbusy : (s.dmaCh (20 + n.val)).busy = true) : exec (.cryUnitDone n) s = .next s :=
  if_pos hbusy

theorem exec_cryUnitDone_free {z b : Nat} {dec : Bool} (hfree : (s.dmaCh (20 + n.val)).busy = false)
    (hfind : s.cry.lane.find? (fun e => e.1 == n.val) = some (n.val, z, b, dec)) :
    let y : State := State.count { s with cry.lane := s.cry.lane.filter (fun e => e.1 != n.val) } (161 + n.val) 1
    let x := if dec then y.decryptUnit z b else y.encryptUnit z b
    exec (.cryUnitDone n) s =
      .next ((((x.cryRequested n.val).startLanes).pumpWrites (some (20 + n.val))).pumpParity.settle) := by
  show execCryUnitDone n s = _
  rw [execCryUnitDone, if_neg (ne_true_of_eq_false hfree), hfind]

end

/-! ### Reconstruction (R182, R183) -/

section
variable {a : Fin 4} {s : State}

theorem exec_reconstructDone_fenced (hfenced : s.xtp.fenced = true) : exec (.reconstructDone a) s = .next s := if_pos hfenced

theorem exec_reconstructDone_ready {e : RecEnt} (hruns : s.xtp.fenced = false) (hready : s.readyL6 a.val = some e) :
    exec (.reconstructDone a) s = .next (s.reconstruct e).settle := by
  show execReconstructDone a s = _
  rw [execReconstructDone, if_neg (ne_true_of_eq_false hruns), hready]

end

/-- Settles O20, by what the unit's channel, chunk or fence allows; a chunk's padded length decides between stored and raw. -/
theorem chunkPathUnits : Obligations.ChunkPathUnits := by
  refine ⟨fun k n z c cs j s hjob hfenced hruns => ⟨exec_chunkCompressDone_busy n hjob hfenced hruns, fun hfree hfind => ?_⟩,
    paddedLen_least, fun k s => rfl, fun k z c q t cmd l s hjob hfenced hcmd hloc => exec_decompressDone_ends hjob hfenced hcmd hloc,
    fun n z b dec s hfree hfind => exec_cryUnitDone_free hfree hfind, fun n s hbusy => exec_cryUnitDone_busy hbusy,
    fun a e s hruns hready => exec_reconstructDone_ready hruns hready, fun a s hfenced => exec_reconstructDone_fenced hfenced⟩
  have hdone := exec_chunkCompressDone_free n hjob hfenced hruns hfree hfind
  exact ⟨fun hshort => hdone.trans (congrArg _ (if_neg (Nat.not_le.mpr hshort))),
    fun hraw => hdone.trans (congrArg _ (if_pos hraw))⟩

end Sys2Proof.Machine
end

section
/-! PROOFS. Power-up and reset (R332, R359, R432, R433, R455, R457), and the replay of the journal (R221, R394). -/
namespace Sys2Proof.Machine

open Sys2Proof

/-! ### What the end of a replay leaves of MRAM's second part

A replay drops the record of a sanitize (R394), then indexes the open zones, ends the rebuilds and wakes the actuators: none of
these writes `nv2` again. -/

@[simp] theorem ite_nv2 (c : Prop) [Decidable c] (a b : State) : (if c then a else b).nv2 = if c then a.nv2 else b.nv2 :=
  apply_ite State.nv2 c a b

@[simp] theorem foldl_nv2 {α : Type} {f : State → α → State} (hf : ∀ s x, (f s x).nv2 = s.nv2) (l : List α) (s : State) :
    (l.foldl f s).nv2 = s.nv2 := by
  induction l generalizing s with
  | nil => rfl
  | cons x l ih => exact (ih (f s x)).trans (hf s x)

@[simp] theorem upto_nv2 {f : Nat → State → State} (hf : ∀ k s, (f k s).nv2 = s.nv2) (n : Nat) (s : State) :
    (upto n f s).nv2 = s.nv2 := by
  induction n with
  | zero => rfl
  | succ n ih => exact (hf n _).trans ih

section
variable (s : State)

@[simp] theorem State.emit_nv2 (n : Fin 5) (p : Pkt) : (s.emit n p).nv2 = s.nv2 := rfl

@[simp] theorem State.drainVc_nv2 (n : Fin 5) (v fuel : Nat) : (s.drainVc n v fuel).nv2 = s.nv2 := by
  induction fuel generalizing s with
  | zero => rfl
  | succ fuel ih => unfold State.drainVc; split <;> simp [ih]

@[simp] theorem State.drainRound_nv2 (n : Fin 5) : (s.drainRound n).nv2 = s.nv2 :=
  foldl_nv2 (fun s v => by dsimp only; split <;> simp) _ s

@[simp] theorem State.drainPort_nv2 (n : Fin 5) : (s.drainPort n).nv2 = s.nv2 := by simp [State.drainPort]

@[simp] theorem State.sendOn_nv2 (n : Fin 5) (p : Pkt) : (s.sendOn n p).nv2 = s.nv2 := State.drainPort_nv2 _ n

@[simp] theorem State.flood_nv2 (i : Option (Fin 5)) (p : Pkt) : (s.flood i p).nv2 = s.nv2 := by simp [State.flood]

@[simp] theorem State.floodLsa_nv2 : s.floodLsa.nv2 = s.nv2 := by simp [State.floodLsa, State.broadcast]

@[simp] theorem State.wakeIdle_nv2 : s.wakeIdle.nv2 = s.nv2 := by simp [State.wakeIdle]

@[simp] theorem State.addWork_nv2 (w : Work) : (s.addWork w).nv2 = s.nv2 := State.wakeIdle_nv2 _

@[simp] theorem State.modGroup_nv2 (z : Nat) (t : Word) (f : ZGroup → ZGroup) : (s.modGroup z t f).nv2 = s.nv2 := rfl

@[simp] theorem State.dropAcc_nv2 (k : Option (Fin 256)) : (s.dropAcc k).nv2 = s.nv2 := by cases k <;> rfl

@[simp] theorem State.pumpParity_nv2 : s.pumpParity.nv2 = s.nv2 := by simp [State.pumpParity]

@[simp] theorem State.rebuildEnd_nv2 (z : Nat) (g : ZGroup) : (s.rebuildEnd z g).nv2 = s.nv2 := by simp [State.rebuildEnd]

@[simp] theorem State.rebuildAll_nv2 : s.rebuildAll.nv2 = s.nv2 := by simp [State.rebuildAll]

@[simp] theorem State.takeIdx_nv2 (z : Nat) : (s.takeIdx z).nv2 = s.nv2 := by
  unfold State.takeIdx
  split
  · rfl
  · dsimp only
    split
    · rfl
    · split <;> rfl

@[simp] theorem State.needIdx_nv2 (z : Nat) : (s.needIdx z).nv2 = s.nv2 := by simp [State.needIdx, State.touchIdx]

@[simp] theorem State.actReady_nv2 (n : Nat) : (s.actReady n).nv2 = s.nv2 := by simp [State.actReady]

end

section
variable {s : State}

/-! ### Power-up (R332, R359, R433) -/

theorem exec_aonReady_again (haon : s.pwr.aon = true) (l : BitVec 12) (p b o : Bool) : exec (.aonReady l p b o) s = .next s :=
  if_pos haon

theorem exec_aonReady_first (haon : s.pwr.aon = false) (l : BitVec 12) (p b o : Bool) :
    let z : State := { s.draw with
      pwr.aon := true, pwr.core := true, pwr.bufActive := true, pwr.on := if p then 0x0FFF else 0x3FFF
      pair.paired := !p, pair.sideB := b, pair.peerLow := !o, pair.peerSeen := !o
      fab.loc := l, fab.inst := BitVec.ofNat 16 (Config.freeNat s.free), svc.seated := true }
    let y := ((z.setReady 0 true).setReady 8 true).firstOwner.portEnables
    exec (.aonReady l p b o) s = .next ((if p then y else y.restartPort 4).setPin).powerUpSpin := by
  show execAonReady l p b o s = _
  rw [execAonReady, if_neg (ne_true_of_eq_false haon)]
  cases p <;> rfl

theorem exec_readyBoundExpiry_quiet {k : Fin 22} (hquiet : readyBound k.val = none ∨ s.ready k.val = true) :
    exec (.readyBoundExpiry k) s = .next s := by
  show execReadyBoundExpiry k s = _
  unfold execReadyBoundExpiry
  split
  · rfl
  · next hbound => exact congrArg _ (if_pos (hquiet.resolve_left (by simp [hbound])))

theorem exec_readyBoundExpiry_missed {k : Fin 22} {ms : Nat} (hbound : readyBound k.val = some ms)
    (hmissed : s.ready k.val = false) : exec (.readyBoundExpiry k) s =
      .next (raise 117 ((State.setW1c { s with pwr.missed := s.pwr.missed ||| (1#22 <<< k.val) } 0x0008 30).event
        0x1001 2 [k.val, ms])) := by
  show execReadyBoundExpiry k s = _
  simp only [execReadyBoundExpiry, hbound]
  exact congrArg _ (if_neg (ne_true_of_eq_false hmissed))

/-! ### Resets and the set-up image (R432, R455, R457) -/

theorem exec_partResetDelayExpiry_pending (hpend : s.pwr.rstPend = true) :
    exec .partResetDelayExpiry s = .next (s.partReset 2) := congrArg _ (if_pos hpend)

theorem exec_partResetDelayExpiry_idle (hidle : s.pwr.rstPend = false) : exec .partResetDelayExpiry s = .next s :=
  congrArg _ (if_neg (ne_true_of_eq_false hidle))

theorem exec_saveDone_idle (hidle : s.gen.saving = none) (ok : Bool) : exec (.saveDone ok) s = .next s := by
  show execSaveDone ok s = _
  rw [execSaveDone, hidle]

section
variable {i : Tab Word} {c : Tab (BitVec 3)} (hsaving : s.gen.saving = some (i, c))
include hsaving

theorem exec_saveDone_verified : exec (.saveDone true) s = .next { s with
    gen.saving := none, gen.result := 1, nv.image := i, nv.imageCls := c, nv.imageBad := false
    nv.imageGen := s.nv.imageGen + 1 } := by
  show execSaveDone true s = _
  rw [execSaveDone, hsaving]
  rfl

theorem exec_saveDone_failed : exec (.saveDone false) s = .next (raise 122 { s with gen.saving := none, gen.result := 2 }) := by
  show execSaveDone false s = _
  rw [execSaveDone, hsaving]
  rfl

end

/-! ### Replay (R221, R394) -/

theorem exec_journalReplay_idle (l : List (List Byte)) (hidle : s.ready 2 = false ∨ s.recs.geom = none ∨ s.ready 21 = true) :
    exec (.journalReplay l) s = .next s := by
  refine congrArg Host.Outcome.next (if_pos ?_)
  obtain h | h | h := hidle <;> simp [h]

theorem exec_journalReplay_ends_sanitize (l : List (List Byte)) (hbuf : s.ready 2 = true)
    (hgeom : s.recs.geom.isSome = true) (hfirst : s.ready 21 = false) :
    ∃ t, exec (.journalReplay l) s = .next t ∧ t.nv2.sanitize = none := by
  have hruns : ¬(!s.ready 2 || s.recs.geom.isNone || s.ready 21) = true := by simp [hbuf, hfirst, ← Option.not_isSome, hgeom]
  refine ⟨_, congrArg Host.Outcome.next (if_neg hruns), ?_⟩
  simp only [State.event_nv2, upto_nv2, State.actReady_nv2, State.setReady_nv2, State.rebuildAll_nv2, foldl_nv2, ite_nv2,
    State.needIdx_nv2, ite_self, implies_true]
  split
  case h_1 hnone => exact hnone
  case h_2 => rfl

end

/-- Settles O46, clause by clause; after a replay has dropped the record of a sanitize, nothing it does writes one. -/
theorem powerUpAndReset : Obligations.PowerUpAndReset := fun _ =>
  ⟨exec_aonReady_again, exec_aonReady_first,
    fun _ => ⟨exec_readyBoundExpiry_quiet, fun _ => exec_readyBoundExpiry_missed⟩,
    rfl, exec_partResetDelayExpiry_pending, exec_partResetDelayExpiry_idle, exec_saveDone_idle,
    fun _ _ hsaving => ⟨exec_saveDone_verified hsaving, exec_saveDone_failed hsaving⟩,
    exec_journalReplay_idle, exec_journalReplay_ends_sanitize⟩

end Sys2Proof.Machine
end

section
/-! PROOFS. What no command changes (R225, R376, R390, R424; `State.Kept`), and the canonical form of buffer memory that every step
therefore keeps (R225, R229, R230; log 15). -/
namespace Sys2Proof.Machine

open Sys2Proof

/-- What a state keeps, every command keeps: by the law of its own meaning (Sys2Proof/Laws). -/
theorem exec_kept {z s : State} (c : Instr) (h : z.Kept s) : z.KeptBy (exec c s) :=
  match c with
  | .index _ => execIndex_kept h
  | .angleWord _ _ => execAngleWord_kept h
  | .coastEntry => execCoastEntry_kept h
  | .coastMaxExpiry => execCoastMaxExpiry_kept h
  | .atbNowAcRead => execAtbNowAcRead_kept h
  | .seqCtxRead _ => execSeqCtxRead_kept h
  | .evrStatusRead => execEvrStatusRead_kept h
  | .cutoff => execCutoff_kept h
  | .rplCommit _ _ => execRplCommit_kept h
  | .slotDeadline _ _ => execSlotDeadline_kept h
  | .bufferGrant _ _ _ => execBufferGrant_kept h
  | .completionPulse _ => execCompletionPulse_kept h
  | .slotStart _ _ => execSlotStart_kept h
  | .slotEnd _ _ => execSlotEnd_kept h
  | .registerWrite _ _ _ => execRegisterWrite_kept h
  | .systemDirectoryLoad _ => execSystemDirectoryLoad_kept h
  | .sysrecStage _ _ _ => execSysrecStage_kept h
  | .sysrecCommit _ _ _ => execSysrecCommit_kept h
  | .sysrecWritten _ => execSysrecWritten_kept h
  | .sysrecRead _ _ _ _ => execSysrecRead_kept h
  | .pesSample _ _ _ => execPesSample_kept h
  | .vcmUpdate _ => execVcmUpdate_kept h
  | .offTrack _ => execOffTrack_kept h
  | .seekArrival _ => execSeekArrival_kept h
  | .shockAssert => execShockAssert_kept h
  | .shockHoldExpiry => execShockHoldExpiry_kept h
  | .actParkCmd _ _ => execActParkCmd_kept h
  | .actUnparkCmd _ _ => execActUnparkCmd_kept h
  | .unparkTimeout _ => execUnparkTimeout_kept h
  | .unparkRetry _ => execUnparkRetry_kept h
  | .sswSeedCheck _ _ => execSswSeedCheck_kept h
  | .sswPropagate _ _ => execSswPropagate_kept h
  | .sswVerify _ _ => execSswVerify_kept h
  | .sswCalibrate _ _ => execSswCalibrate_kept h
  | .sswPause _ _ => execSswPause_kept h
  | .sswAbort _ _ => execSswAbort_kept h
  | .sswDone _ _ _ => execSswDone_kept h
  | .spinTick => execSpinTick_kept h
  | .isense _ => execIsense_kept h
  | .vsense _ => execVsense_kept h
  | .mdlStatus _ => execMdlStatus_kept h
  | .mdlLost => execMdlLost_kept h
  | .preheatTick => execPreheatTick_kept h
  | .preheatTimeout => execPreheatTimeout_kept h
  | .alignDone => execAlignDone_kept h
  | .speedLock _ => execSpeedLock_kept h
  | .spinupTimeout _ => execSpinupTimeout_kept h
  | .spinupRetry => execSpinupRetry_kept h
  | .speedLockLoss => execSpeedLockLoss_kept h
  | .brakeDone => execBrakeDone_kept h
  | .speedChangeDone => execSpeedChangeDone_kept h
  | .tokenRequestRepeat => execTokenRequestRepeat_kept h
  | .tokenReturnTimer => execTokenReturnTimer_kept h
  | .tokenLeaseExpiry _ => execTokenLeaseExpiry_kept h
  | .bossHoldExpiry => execBossHoldExpiry_kept h
  | .soloWaitExpiry => execSoloWaitExpiry_kept h
  | .phaseRefSend => execPhaseRefSend_kept h
  | .phaseRefLoss => execPhaseRefLoss_kept h
  | .pfailAssert => execPfailAssert_kept h
  | .pfailDeassert => execPfailDeassert_kept h
  | .pfailRecover => execPfailRecover_kept h
  | .tempSample _ => execTempSample_kept h
  | .readBlockEnd _ _ _ _ => execReadBlockEnd_kept h
  | .verifyResult _ _ _ _ => execVerifyResult_kept h
  | .l1Done _ _ _ => execL1Done_kept h
  | .chFenceReq _ _ _ => execChFenceReq_kept h
  | .chBistMemory _ _ => execChBistMemory_kept h
  | .chBistAdc _ _ => execChBistAdc_kept h
  | .chBistLoopback _ _ => execChBistLoopback_kept h
  | .chBistDecoder _ _ => execChBistDecoder_kept h
  | .chBistAll _ _ => execChBistAll_kept h
  | .chBistAbort _ _ => execChBistAbort_kept h
  | .chBistDone _ _ => execChBistDone_kept h
  | .groupDispatch _ => execGroupDispatch_kept h
  | .harvest _ => execHarvest_kept h
  | .trap _ => execTrap_kept h
  | .nop _ => execNop_kept h
  | .issue _ => execIssue_kept h
  | .issuew _ => execIssuew_kept h
  | .issuewAck _ => execIssuewAck_kept h
  | .issuewTimeout _ => execIssuewTimeout_kept h
  | .holdExpiry _ => execHoldExpiry_kept h
  | .waita _ => execWaita_kept h
  | .waitaReached _ => execWaitaReached_kept h
  | .waitc _ => execWaitc_kept h
  | .waitcMet _ => execWaitcMet_kept h
  | .waitcTimeout _ => execWaitcTimeout_kept h
  | .br _ => execBr_kept h
  | .jmp _ => execJmp_kept h
  | .callOp _ => execCallOp_kept h
  | .ret _ => execRet_kept h
  | .loopOp _ => execLoopOp_kept h
  | .ldc _ => execLdc_kept h
  | .setf _ => execSetf_kept h
  | .clrf _ => execClrf_kept h
  | .evt _ => execEvt_kept h
  | .trapret _ => execTrapret_kept h
  | .halt _ => execHalt_kept h
  | .microcodeBoot _ _ => execMicrocodeBoot_kept h
  | .microcodeInstall => execMicrocodeInstall_kept h
  | .reconstructDone _ => execReconstructDone_kept h
  | .xtpFenceReq _ _ => execXtpFenceReq_kept h
  | .chunkCompressDone _ _ => execChunkCompressDone_kept h
  | .cmpOutputResume _ => execCmpOutputResume_kept h
  | .cryUnitDone _ => execCryUnitDone_kept h
  | .decompressDone _ => execDecompressDone_kept h
  | .cmpFenceReq _ _ => execCmpFenceReq_kept h
  | .cryFenceReq _ _ => execCryFenceReq_kept h
  | .commitRecordWrite _ _ _ => execCommitRecordWrite_kept h
  | .checkpointDone => execCheckpointDone_kept h
  | .copyInPlaceDone _ => execCopyInPlaceDone_kept h
  | .journalReplay _ => execJournalReplay_kept h
  | .bufInitDone => execBufInitDone_kept h
  | .sheepdogStep _ _ => execSheepdogStep_kept h
  | .sheepdogRewrite _ => execSheepdogRewrite_kept h
  | .dmaBurst _ => execDmaBurst_kept h
  | .dmaPauseWrite _ _ => execDmaPauseWrite_kept h
  | .dmaPauseDrained _ => execDmaPauseDrained_kept h
  | .mapFillDone _ _ => execMapFillDone_kept h
  | .mapClean _ => execMapClean_kept h
  | .mapCleanInv _ => execMapCleanInv_kept h
  | .mapZero _ => execMapZero_kept h
  | .mapLockFill _ => execMapLockFill_kept h
  | .mapCleanAll _ => execMapCleanAll_kept h
  | .mapCleanInvAll _ => execMapCleanInvAll_kept h
  | .mapMaintDone => execMapMaintDone_kept h
  | .mapDisable _ => execMapDisable_kept h
  | .mapDisableDone => execMapDisableDone_kept h
  | .bufDiagWrite _ _ => execBufDiagWrite_kept h
  | .locatorIndexBuildDone _ _ _ => execLocatorIndexBuildDone_kept h
  | .perstAssert => execPerstAssert_kept h
  | .perstDeassert => execPerstDeassert_kept h
  | .functionLevelReset => execFunctionLevelReset_kept h
  | .hotReset => execHotReset_kept h
  | .hqiEnable _ => execHqiEnable_kept h
  | .hqiDisable _ => execHqiDisable_kept h
  | .gwEnable _ => execGwEnable_kept h
  | .gwDisable _ => execGwDisable_kept h
  | .gwPollPass => execGwPollPass_kept h
  | .summaryReadDone _ => execSummaryReadDone_kept h
  | .summarySwapDone _ _ => execSummarySwapDone_kept h
  | .swapTimeout _ => execSwapTimeout_kept h
  | .doorbellPageReadDone _ => execDoorbellPageReadDone_kept h
  | .descriptorReadDone _ _ => execDescriptorReadDone_kept h
  | .completionPost => execCompletionPost_kept h
  | .cqFullPoll => execCqFullPoll_kept h
  | .holdTimeout _ _ => execHoldTimeout_kept h
  | .identify _ => execIdentify_kept h
  | .createQp _ => execCreateQp_kept h
  | .deleteQp _ => execDeleteQp_kept h
  | .getLog _ => execGetLog_kept h
  | .getCounters _ => execGetCounters_kept h
  | .setRights _ => execSetRights_kept h
  | .abortCmd _ => execAbortCmd_kept h
  | .selfTestShort _ => execSelfTestShort_kept h
  | .selfTestExtended _ => execSelfTestExtended_kept h
  | .selfTestAbort _ => execSelfTestAbort_kept h
  | .setPowerState _ => execSetPowerState_kept h
  | .domainsOff _ => execDomainsOff_kept h
  | .domainsOn _ => execDomainsOn_kept h
  | .domainSwitchDone => execDomainSwitchDone_kept h
  | .powerPark _ => execPowerPark_kept h
  | .powerUnpark _ => execPowerUnpark_kept h
  | .spinUp _ => execSpinUp_kept h
  | .spinDown _ => execSpinDown_kept h
  | .locateOn _ => execLocateOn_kept h
  | .locateOff _ => execLocateOff_kept h
  | .safeRemovalRequest _ => execSafeRemovalRequest_kept h
  | .safeRemovalCancel _ => execSafeRemovalCancel_kept h
  | .microcodeLoad _ _ => execMicrocodeLoad_kept h
  | .sanitizeCryptoEraseAll _ => execSanitizeCryptoEraseAll_kept h
  | .sanitizeCryptoEraseRange _ => execSanitizeCryptoEraseRange_kept h
  | .sanitizeOverwrite _ => execSanitizeOverwrite_kept h
  | .fabricQuery _ => execFabricQuery_kept h
  | .readBlocks _ _ => execReadBlocks_kept h
  | .verifyBlocks _ _ => execVerifyBlocks_kept h
  | .zoneWrite _ _ => execZoneWrite_kept h
  | .zoneAppend _ _ => execZoneAppend_kept h
  | .zoneOpen _ _ => execZoneOpen_kept h
  | .zoneClose _ _ => execZoneClose_kept h
  | .zoneFinish _ _ => execZoneFinish_kept h
  | .zoneReset _ _ => execZoneReset_kept h
  | .zoneOffline _ _ => execZoneOffline_kept h
  | .zoneReport _ _ => execZoneReport_kept h
  | .flush _ _ => execFlush_kept h
  | .peerMove _ _ => execPeerMove_kept h
  | .convRead _ _ => execConvRead_kept h
  | .convWrite _ _ => execConvWrite_kept h
  | .authChallenge _ => execAuthChallenge_kept h
  | .authResponse _ _ _ _ => execAuthResponse_kept h
  | .authEnd _ _ => execAuthEnd_kept h
  | .authSetKey _ _ _ _ _ => execAuthSetKey_kept h
  | .integrate _ _ => execIntegrate_kept h
  | .claim _ _ _ _ => execClaim_kept h
  | .returnLifecycle _ => execReturnLifecycle_kept h
  | .decommission _ => execDecommission_kept h
  | .consent _ _ => execConsent_kept h
  | .commitSvn _ _ => execCommitSvn_kept h
  | .keysCreate _ _ _ => execKeysCreate_kept h
  | .keysLock _ _ => execKeysLock_kept h
  | .keysUnlock _ _ => execKeysUnlock_kept h
  | .keysDestroy _ _ => execKeysDestroy_kept h
  | .keysSetConv _ _ => execKeysSetConv_kept h
  | .keysQuery _ => execKeysQuery_kept h
  | .peercertAnchor _ _ => execPeercertAnchor_kept h
  | .peercertDeviceKey _ => execPeercertDeviceKey_kept h
  | .peercertCert _ _ => execPeercertCert_kept h
  | .firmwareChunk _ _ _ => execFirmwareChunk_kept h
  | .firmwareFinish _ _ _ _ => execFirmwareFinish_kept h
  | .mailboxGo _ => execMailboxGo_kept h
  | .mailboxRelease _ => execMailboxRelease_kept h
  | .mailboxTimeout => execMailboxTimeout_kept h
  | .sessionIdleTimeout _ => execSessionIdleTimeout_kept h
  | .challengeExpiry _ _ => execChallengeExpiry_kept h
  | .consentExpiry => execConsentExpiry_kept h
  | .lockoutExpiry _ => execLockoutExpiry_kept h
  | .entropyHealthFail => execEntropyHealthFail_kept h
  | .portTrained _ => execPortTrained_kept h
  | .trainingTimeout _ => execTrainingTimeout_kept h
  | .helloTick _ => execHelloTick_kept h
  | .hello _ _ _ _ side boot => execHello_kept (pairState := side) (inst5 := boot) h
  | .heartbeatTick => execHeartbeatTick_kept h
  | .heartbeat _ _ => execHeartbeat_kept h
  | .delayTick => execDelayTick_kept h
  | .delayReq _ _ _ => execDelayReq_kept h
  | .delayResp _ _ _ _ _ => execDelayResp_kept h
  | .linkPacket _ _ _ _ => execLinkPacket_kept h
  | .linkNak _ _ => execLinkNak_kept h
  | .ackTimeout _ => execAckTimeout_kept h
  | .portDown _ _ => execPortDown_kept h
  | .partnerWaitExpiry => execPartnerWaitExpiry_kept h
  | .upHoldExpiry _ => execUpHoldExpiry_kept h
  | .lsaTick => execLsaTick_kept h
  | .lsa _ _ => execLsa_kept h
  | .lsaExpiry _ _ => execLsaExpiry_kept h
  | .routeCompute => execRouteCompute_kept h
  | .routeInstallDone => execRouteInstallDone_kept h
  | .takeover _ _ => execTakeover_kept h
  | .phaseRef _ _ _ => execPhaseRef_kept h
  | .tokenReq _ _ _ held => execTokenReq_kept (_held := held) h
  | .tokenGrant _ => execTokenGrant_kept h
  | .tokenReturn _ _ _ held => execTokenReturn_kept (_held := held) h
  | .ledgerQuery _ => execLedgerQuery_kept h
  | .ledgerHeld _ _ _ => execLedgerHeld_kept h
  | .dbHint src => execDbHint_kept (_src := src) h
  | .rmaRead _ _ _ _ => execRmaRead_kept h
  | .gwPcieReadDone _ _ _ _ _ _ => execGwPcieReadDone_kept h
  | .rmaWrite _ _ _ => execRmaWrite_kept h
  | .rmaIrq src _ => execRmaIrq_kept (_src := src) h
  | .rmaRdata _ _ _ _ _ _ => execRmaRdata_kept h
  | .e2eAck _ _ => execE2eAck_kept h
  | .e2eRetxTimeout _ => execE2eRetxTimeout_kept h
  | .gwRetryTick => execGwRetryTick_kept h
  | .gwHoldExpiry => execGwHoldExpiry_kept h
  | .mgmtRd _ _ _ => execMgmtRd_kept h
  | .mgmtWr _ _ _ _ => execMgmtWr_kept h
  | .mgmtRsp src _ _ => execMgmtRsp_kept (_src := src) h
  | .pmOpen _ _ _ _ _ _ _ _ => execPmOpen_kept h
  | .pmAccept _ _ _ _ _ => execPmAccept_kept h
  | .pmData _ _ _ _ _ => execPmData_kept h
  | .pmDone _ _ _ _ _ => execPmDone_kept h
  | .pmRefuse _ _ _ => execPmRefuse_kept h
  | .pmSessionTimeout _ => execPmSessionTimeout_kept h
  | .portFenceReq _ _ _ => execPortFenceReq_kept h
  | .canaryTick => execCanaryTick_kept h
  | .canaryWindow _ _ => execCanaryWindow_kept h
  | .handoverNFall _ => execHandoverNFall_kept h
  | .ownPeerReleaseTimeout => execOwnPeerReleaseTimeout_kept h
  | .sideBPowerupTimeout => execSideBPowerupTimeout_kept h
  | .ownCheck _ => execOwnCheck_kept h
  | .handoverPullRelease => execHandoverPullRelease_kept h
  | .takeoverSendAsDrive _ => execTakeoverSendAsDrive_kept h
  | .takeoverRebuildDone => execTakeoverRebuildDone_kept h
  | .pairAck _ => execPairAck_kept h
  | .alignFrame _ _ _ => execAlignFrame_kept h
  | .selectFrame _ _ _ _ _ _ => execSelectFrame_kept h
  | .pairData _ _ _ => execPairData_kept h
  | .jrnl _ _ => execJrnl_kept h
  | .qstate _ _ => execQstate_kept h
  | .cfgFrame _ _ _ => execCfgFrame_kept h
  | .snapshotFrame _ _ => execSnapshotFrame_kept h
  | .pairFrameRetry => execPairFrameRetry_kept h
  | .alignSend => execAlignSend_kept h
  | .alignLate => execAlignLate_kept h
  | .yield _ => execYield_kept h
  | .yieldHandover => execYieldHandover_kept h
  | .faultRaise _ => execFaultRaise_kept h
  | .fltStatusClear _ _ _ => execFltStatusClear_kept h
  | .faultPinPulseEnd => execFaultPinPulseEnd_kept h
  | .maskWindowEnd _ => execMaskWindowEnd_kept h
  | .evrRecordWritten _ => execEvrRecordWritten_kept h
  | .auditCopyDone => execAuditCopyDone_kept h
  | .reserveCopyDone => execReserveCopyDone_kept h
  | .pmcSnapTake _ => execPmcSnapTake_kept h
  | .pmcPreset _ _ => execPmcPreset_kept h
  | .partReset => execPartReset_kept h
  | .partResetWrite _ => execPartResetWrite_kept h
  | .aonReady _ _ _ _ => execAonReady_kept h
  | .readyBoundExpiry _ => execReadyBoundExpiry_kept h
  | .idleTimeout => execIdleTimeout_kept h
  | .darkEntry => execDarkEntry_kept h
  | .darkWake _ => execDarkWake_kept h
  | .attnRelease _ => execAttnRelease_kept h
  | .attnLongPress => execAttnLongPress_kept h
  | .locateTimeout => execLocateTimeout_kept h
  | .removalSafe => execRemovalSafe_kept h
  | .prepTimeout => execPrepTimeout_kept h
  | .latchRise => execLatchRise_kept h
  | .prsntRise => execPrsntRise_kept h
  | .surpriseEnd => execSurpriseEnd_kept h
  | .genSave _ => execGenSave_kept h
  | .genClear _ => execGenClear_kept h
  | .saveDone _ => execSaveDone_kept h
  | .smbWrite _ _ _ => execSmbWrite_kept h
  | .smbSetRead _ _ _ => execSmbSetRead_kept h
  | .smbRead _ => execSmbRead_kept h
  | .smbStatus _ => execSmbStatus_kept h
  | .palAck _ _ => execPalAck_kept h
  | .palStatus _ _ => execPalStatus_kept h
  | .palAckTimeout _ _ => execPalAckTimeout_kept h
  | .pcieLinkUp _ _ => execPcieLinkUp_kept h
  | .pcieLinkDown => execPcieLinkDown_kept h
  | .hostDataReadDone _ _ _ => execHostDataReadDone_kept h
  | .powerUpSelfTests _ _ _ => execPowerUpSelfTests_kept h
  | .partResetDelayExpiry => execPartResetDelayExpiry_kept h

/-- A step keeps everything but the command it takes off the queue. -/
theorem step_kept (s : State) : ({ s with pending := s.pending.tail } : State).KeptBy (step s) := by
  cases hp : s.pending with
  | nil =>
    rw [step_of_idle hp]
    have hs : ({ s with pending := [] } : State) = s := by rw [← hp]
    exact keptBy_next (tick_kept (hs ▸ kept_refl _))
  | cons c rest =>
    rw [step_of_pending hp]
    exact exec_kept c (kept_refl _)

/-- Settles O54: memory does not rest on the queue, and what a step keeps includes its canonical form. -/
theorem stepKeepsMemoryCanonical : Obligations.StepKeepsMemoryCanonical :=
  fun s t hmem hstep => ((step_kept s).next t hstep).mem hmem

end Sys2Proof.Machine
end

section
/-! PROOFS. Every command answers a next state, but for a pair frame that would store outside memory (R230, R369). -/
namespace Sys2Proof.Machine

open Sys2Proof

/-! ### A meaning is a tree of tests whose ends are next states -/

/-- The command runs: its result is a next state, neither a fault nor a refusal. -/
def Answers (r : Result) : Prop := ∃ t, r = .next t

theorem answers_next (t : State) : Answers (.next t) := ⟨t, rfl⟩

theorem answers_ite {p : Prop} [Decidable p] {a b : Result} (ha : Answers a) (hb : Answers b) : Answers (if p then a else b) := by
  split <;> assumption

/-- Every command but PAIR_DATA answers a next state: most do at once, the others after the tests and searches of their rule. -/
theorem exec_answers {c : Instr} (hc : ∀ q a l, c ≠ .pairData q a l) (s : State) : Answers (exec c s) := by
  cases c
  case pairData q a l => exact absurd rfl (hc q a l)
  -- one test
  case index | cutoff | slotDeadline | pesSample | vcmUpdate | shockAssert | unparkRetry | mdlLost | preheatTimeout | speedLock
      | brakeDone | tokenLeaseExpiry | harvest | trap | bufInitDone | sheepdogStep | dmaPauseDrained | mapDisableDone | delayResp
      | ownCheck | aonReady | attnRelease | attnLongPress | palAck | palStatus =>
    exact answers_ite (answers_next _) (answers_next _)
  -- several tests
  case angleWord | rplCommit | offTrack | unparkTimeout | sswDone | preheatTick | spinupRetry | speedLockLoss | tempSample
      | chBistDone | locatorIndexBuildDone =>
    repeat' first
      | exact answers_next _
      | refine answers_ite ?_ ?_
  -- tests on what a search finds
  case bufferGrant | completionPulse | slotStart | slotEnd | seekArrival | speedChangeDone | readBlockEnd | verifyResult | l1Done
      | groupDispatch | waitaReached | waitcMet | waitcTimeout | microcodeBoot | microcodeInstall | reconstructDone | chunkCompressDone
      | cryUnitDone | decompressDone | commitRecordWrite | checkpointDone | copyInPlaceDone | sheepdogRewrite | dmaBurst
      | mapFillDone | mapMaintDone | canaryWindow | pairAck | evrRecordWritten | reserveCopyDone | readyBoundExpiry | saveDone
      | smbRead | palAckTimeout =>
    dsimp only [exec]
    delta execBufferGrant execCompletionPulse execSlotStart execSlotEnd execSeekArrival execSpeedChangeDone execReadBlockEnd
      execVerifyResult execL1Done execGroupDispatch execWaitaReached execWaitcMet execWaitcTimeout execMicrocodeBoot
      execMicrocodeInstall execReconstructDone execChunkCompressDone execCryUnitDone execDecompressDone execCommitRecordWrite
      execCheckpointDone execCopyInPlaceDone execSheepdogRewrite execDmaBurst execMapFillDone execMapMaintDone
      execCanaryWindow execPairAck execEvrRecordWritten execReserveCopyDone execReadyBoundExpiry execSaveDone execSmbRead
      execPalAckTimeout
    repeat' first
      | exact answers_next _
      | refine answers_ite ?_ ?_
      | extract_lets
      | split
  all_goals exact answers_next _

/-! ### A pair DATA frame (R369) -/

section
variable {q : BitVec 16} {a : BitVec 64} {l : List Byte} {s : State}

theorem exec_pairData_outside (hpaired : s.pair.paired = true) (hshadow : s.pair.owner = false)
    (hout : memTop < a.toNat + l.length) : exec (.pairData q a l) s = .fault .addressOutside :=
  if_pos ⟨hpaired, by simp [hshadow], hout⟩

theorem exec_pairData_inside (hin : ¬ (s.pair.paired = true ∧ s.pair.owner = false ∧ memTop < a.toNat + l.length)) :
    exec (.pairData q a l) s = .next (s.pairTake q (fun s => if s.pair.owner then s else s.store a.toNat l)) :=
  if_neg (by simpa using hin)

end

/-- Settles O57: the one branch without a next state is that of a shadow's DATA frame that reaches beyond memory. -/
theorem commandsAnswerNextStates : Obligations.CommandsAnswerNextStates := by
  refine fun c s => ⟨fun hc => exec_answers hc s, ?_⟩
  rintro q a l rfl
  exact ⟨exec_pairData_outside, fun hin => ⟨_, exec_pairData_inside hin⟩⟩

end Sys2Proof.Machine
end

section
/-! PROOFS. What a pair DATA frame does to the shadow's memory (R227, R228, R236, R366, R369). -/
namespace Sys2Proof.Machine

open Sys2Proof

/-! ### Poisoned words (R228) -/

theorem mem_insertNat {w n : Nat} {p : List Nat} : w ∈ insertNat n p ↔ w = n ∨ w ∈ p := by
  induction p with
  | nil => exact List.mem_cons
  | cons x p ih =>
    unfold insertNat
    split
    · exact List.mem_cons
    · split
      · next heq => simp [heq]
      · simp only [List.mem_cons, ih, or_left_comm]

theorem mem_foldl_insertNat {w : Nat} {l : List (Nat × Byte)} {p : List Nat} :
    w ∈ l.foldl (fun p e => insertNat e.1 p) p ↔ (∃ e ∈ l, w = e.1) ∨ w ∈ p := by
  induction l generalizing p with
  | nil => simp
  | cons e l ih =>
    simp only [List.foldl_cons, ih, mem_insertNat, List.mem_cons, or_and_right, exists_or, exists_eq_left, or_assoc,
      or_left_comm]

theorem not_and_of_not_decide {p q : Prop} [Decidable p] [Decidable q] (h : (!(decide p && decide q)) = true) : ¬ (p ∧ q) := by
  rw [Bool.not_eq_true', ← Bool.not_eq_true, Bool.and_eq_true, decide_eq_true_eq, decide_eq_true_eq] at h
  exact h

/-- A store leaves a word poisoned only if it was or held a chosen check byte, and only if the bytes do not cover it. -/
theorem State.store_poison {s : State} {a w : Nat} {l : List Byte} (hw : w ∈ (s.store a l).buf.poison) :
    (w ∈ s.buf.poison ∨ s.buf.chk.any (fun e => e.1 == w) = true) ∧ ¬ (a ≤ 8 * w ∧ 8 * w + 8 ≤ a + l.length) := by
  obtain ⟨e, he, rfl⟩ | hw := mem_foldl_insertNat.mp hw
  · obtain ⟨he, hpart⟩ := List.mem_filter.mp he
    refine ⟨.inr (List.any_eq_true.mpr ⟨e, he, beq_self_eq_true _⟩), ?_⟩
    rw [Bool.and_eq_true, Bool.and_eq_true] at hpart
    obtain ⟨⟨-, hcover⟩, -⟩ := hpart
    exact not_and_of_not_decide hcover
  · obtain ⟨hold, hcover⟩ := List.mem_filter.mp hw
    exact ⟨.inl hold, not_and_of_not_decide hcover⟩

/-! ### The frame is taken (R366, R369) -/

/-- The shadow takes the frame in sequence: it stores the bytes, and counts and sends an acknowledgement. -/
theorem exec_pairData_taken {q : BitVec 16} {a : BitVec 64} {l : List Byte} {s : State} (hpaired : s.pair.paired = true)
    (hlink : s.pfr.fenced = false) (hshadow : s.pair.owner = false) (hq : q = s.pfr.pack + 1)
    (hin : a.toNat + l.length ≤ memTop) : exec (.pairData q a l) s =
      .next (((State.store { s with pfr.pack := q } a.toNat l).count 184 1).send (.pair s.pfr.pseq 0 [])) := by
  rw [exec_pairData_inside fun ⟨_, _, hout⟩ => absurd hin (Nat.not_le.mpr hout)]
  simp [State.pairTake, State.pairSend, State.store, State.count, hpaired, hlink, hshadow, hq]

/-- Settles O58, by the whole next state: what it holds of memory is what a store does, and nothing else of it is written. -/
theorem pairDataStoresItsBytesAlone : Obligations.PairDataStoresItsBytesAlone :=
  fun _ _ _ _ hmem hpaired hlink hshadow hq hin =>
    ⟨_, exec_pairData_taken hpaired hlink hshadow hq hin, memLoad_memStore hmem, fun _ hk => memGet_memStore_other hmem hk, rfl,
      memStore_wf hmem, rfl, rfl, rfl, rfl, rfl, fun _ hw => State.store_poison hw⟩

end Sys2Proof.Machine
end

section
/-! PROOFS. Faults as they are raised, the FAULT_N pulse and mask windows, and the event recorder's own work (R251, R403, R411,
R412, R416 to R419, R421; log 62). -/
namespace Sys2Proof.Machine

open Sys2Proof

/-! ### A fault is raised (R251, R403) -/

theorem exec_faultRaise_of_ne {n : Fin 128} (hline : n.val ≠ 64) (hbit : n.val ≠ 65) (s : State) :
    exec (.faultRaise n) s = .next (raise n.val s).wakeUnits := by
  show execFaultRaise n s = _
  simp only [execFaultRaise, if_neg hline, if_neg hbit]

theorem exec_faultRaise_65 (s : State) : exec (.faultRaise 65) s = .next (raise 65 (s.setW1c 0x3004 30)).wakeUnits := rfl
theorem exec_faultRaise_64 (s : State) : exec (.faultRaise 64) s = .next (raise 64 s.loseLine).wakeUnits := rfl

/-! ### The pulse and the masks end (R411, R412) -/

section
variable {s : State}

theorem exec_faultPinPulseEnd_pulsing (h : s.flt.pulsing = true) :
    exec .faultPinPulseEnd s = .next (State.setPin { s with flt.pulsing := false }) := congrArg _ (if_pos h)

theorem exec_faultPinPulseEnd_quiet (h : s.flt.pulsing = false) : exec .faultPinPulseEnd s = .next s :=
  congrArg _ (if_neg (ne_true_of_eq_false h))

end

/-- Clearing bit `u` of a mask leaves every other bit. -/
theorem getLsbD_clearBit (m : BitVec 64) (u : Fin 64) {k : Nat} (hk : k < 64) :
    (m &&& ~~~(1#64 <<< u.val)).getLsbD k = (m.getLsbD k && decide (k ≠ u.val)) := by
  simp only [BitVec.getLsbD_and, BitVec.getLsbD_not, BitVec.getLsbD_shiftLeft, BitVec.getLsbD_one, hk, decide_true, Bool.true_and]
  congr 1
  by_cases h : k = u.val
  · simp [h]
  · simp [h]
    omega

/-! ### The event recorder (R416 to R419) -/

section
variable {s : State}

theorem exec_evrRecordWritten_idle (hidle : s.domainCore = false ∨ s.evr.queue = []) (ok : Bool) :
    exec (.evrRecordWritten ok) s = .next s := by
  show execEvrRecordWritten ok s = _
  obtain hcore | hempty := hidle
  · rw [execEvrRecordWritten, hcore]; rfl
  · rw [execEvrRecordWritten, hempty]; exact ite_self _

theorem exec_evrRecordWritten_head (hcore : s.domainCore = true) {e : Ev} {l : List Ev} (hqueue : s.evr.queue = e :: l) (ok : Bool) :
    exec (.evrRecordWritten ok) s =
      .next (if s.evr.degraded then s.toRing e else if ok then s.toLog e else s.degrade e).leaveQueue := by
  show execEvrRecordWritten ok s = _
  rw [execEvrRecordWritten, hcore, hqueue]
  rfl

/-! ### Copies to media (R417, R419) -/

theorem someAct_of_ready (h : bitsOf s.pwr.ready.toNat 12 4 ≠ 0) : s.someAct = true := bne_iff_ne.mpr h
theorem someAct_of_none (h : bitsOf s.pwr.ready.toNat 12 4 = 0) : s.someAct = false := by rw [State.someAct, h]; rfl

theorem exec_auditCopyDone_idle (h : (s.nv.audit.filter (fun x => !x.2)).map (·.1) = [] ∨ bitsOf s.pwr.ready.toNat 12 4 = 0) :
    exec .auditCopyDone s = .next s := by
  refine congrArg Host.Outcome.next (if_pos ?_)
  obtain hnone | hact := h
  · simp [hnone]
  · simp [someAct_of_none hact]

theorem exec_auditCopyDone_copies (hsome : (s.nv.audit.filter (fun x => !x.2)).map (·.1) ≠ [])
    (hact : bitsOf s.pwr.ready.toNat 12 4 ≠ 0) : exec .auditCopyDone s = .next
      (State.toMedia { s with nv.audit := s.nv.audit.map (fun x => (x.1, true)) } ((s.nv.audit.filter (fun x => !x.2)).map (·.1))) := by
  refine congrArg Host.Outcome.next (if_neg ?_)
  simpa [someAct_of_ready hact] using hsome

theorem exec_reserveCopyDone_idle (h : (∀ x ∈ s.evr.ring, x.2 = true) ∨ bitsOf s.pwr.ready.toNat 12 4 = 0) :
    exec .reserveCopyDone s = .next s := by
  show execReserveCopyDone s = _
  rw [execReserveCopyDone]
  obtain hcopied | hact := h
  · rw [List.find?_eq_none.mpr fun x hx => by simp [hcopied x hx]]
  · split
    · rfl
    · exact if_pos (by rw [someAct_of_none hact]; rfl)

theorem exec_reserveCopyDone_copies {x : Ev × Bool} (hfirst : s.evr.ring.find? (fun x => !x.2) = some x)
    (hact : bitsOf s.pwr.ready.toNat 12 4 ≠ 0) :
    let z := State.toMedia { s with evr.ring := markCopied s.evr.ring } [x.1]
    exec .reserveCopyDone s = .next (if z.evr.copied102 then z else ({ z with evr.copied102 := true } : State).event 0xB102 1 [1]) := by
  show execReserveCopyDone s = _
  rw [execReserveCopyDone, hfirst]
  exact if_neg (by simp [someAct_of_ready hact])

end

/-- Settles O39, command by command, by the source raised, the queue's head and the copies still due. -/
theorem faultsEventsAndLogs : Obligations.FaultsEventsAndLogs := by
  refine fun s => ⟨fun _ hline hbit => exec_faultRaise_of_ne hline hbit s, exec_faultRaise_65 s, exec_faultRaise_64 s,
    exec_faultPinPulseEnd_pulsing, exec_faultPinPulseEnd_quiet,
    fun u => ⟨_, rfl, fun _ hk => getLsbD_clearBit s.flt.masking u hk, rfl⟩,
    exec_evrRecordWritten_idle, fun hcore e l hqueue => ?_, ⟨exec_auditCopyDone_idle, exec_auditCopyDone_copies⟩,
    exec_reserveCopyDone_idle, fun _ hfirst hact => exec_reserveCopyDone_copies hfirst hact⟩
  have hhead := exec_evrRecordWritten_head hcore hqueue
  exact ⟨fun hdegraded ok => by simp [hhead, hdegraded], fun hworks => by simp [hhead, hworks]⟩

end Sys2Proof.Machine
end

section
/-! PROOFS. Resets of the PCIe function, the PCIe link, and the gateway's poll of the doorbell summary (R258, R261, R274 to R277,
R290; log 33, log 52). -/
namespace Sys2Proof.Machine

open Sys2Proof

/-! ### Units withdrawn leave the sessions (R286, R287)

A reset ends the outstanding commands; what that withdraws is planned work and its blocks, never a session. -/

@[simp] theorem foldl_sec {α : Type} {f : State → α → State} (hf : ∀ s x, (f s x).sec = s.sec) (l : List α) (s : State) :
    (l.foldl f s).sec = s.sec := by
  induction l generalizing s with
  | nil => rfl
  | cons x l ih => exact (ih (f s x)).trans (hf s x)

section
variable (s : State)

@[simp] theorem State.modSlot_sec (k i : Nat) (f : Slot → Slot) : (s.modSlot k i f).sec = s.sec := by
  unfold State.modSlot; split <;> rfl

@[simp] theorem State.sample_sec (ch : Nat) (e : SlotEntry) : (s.sample ch e).sec = s.sec := by
  unfold State.sample
  split
  · rfl
  · dsimp only
    split <;> simp [apply_ite State.sec, State.capture]

@[simp] theorem State.endSlot_sec (k i : Nat) (c : EndClass) (late : Bool) : (s.endSlot k i c late).sec = s.sec := by
  unfold State.endSlot
  split
  · rfl
  · simp [apply_ite State.sec, State.returnWork]

@[simp] theorem State.endWhere_sec (k : Nat) (p : Slot → Bool) (c : EndClass) : (s.endWhere k p c).sec = s.sec :=
  foldl_sec (fun s i => by
    split
    · split <;> simp
    · rfl) _ s

@[simp] theorem State.withdraw_sec (k : Nat) (p : Slot → Bool) : (s.withdraw k p).sec = s.sec := by
  simp [State.withdraw, apply_ite State.sec]

@[simp] theorem State.xtpToggle_sec (z sbi : Nat) (l : List Byte) : (s.xtpToggle z sbi l).sec = s.sec := by
  unfold State.xtpToggle
  split
  · split <;> rfl
  · rfl

@[simp] theorem State.unlay_sec (u : CUnit) : (s.unlay u).sec = s.sec := by
  simp [State.unlay, apply_ite State.sec]

@[simp] theorem State.withdrawUnit_sec (cs : Word) : (s.withdrawUnit cs).sec = s.sec := by
  unfold State.withdrawUnit
  split
  · rfl
  · simp [apply_ite State.sec, State.withdrawWork]

@[simp] theorem State.dropCmdUnit_sec (c : Cmd) : (s.dropCmdUnit c).sec = s.sec := by
  unfold State.dropCmdUnit
  split
  · rfl
  · split <;> simp

@[simp] theorem State.disableQps_sec : s.disableQps.sec = s.sec := by
  simp [State.disableQps, State.endSilently]

end

/-! ### Resets of the function (R260, R261, R384) -/

/-- A table that lists nothing at a key reads there as its default. -/
theorem tget_of_absent {α : Type} (d : α) {t : Tab α} {n : Nat} (h : ∀ e ∈ t, e.1 ≠ n) : tget d t n = d := by
  induction t with
  | nil => rfl
  | cons e t ih =>
    obtain ⟨hkey, hrest⟩ := List.forall_mem_cons.mp h
    simp [tget, hkey.symm, ih hrest]

theorem foldl_audit_changes {α : Type} (code sev : Nat) (par : α → List Nat) (l : List α) (s : State) :
    ∃ nv evr pmc, l.foldl (fun (s : State) x => s.audit code sev (par x)) s = { s with nv := nv, evr := evr, pmc := pmc } := by
  induction l generalizing s with
  | nil => exact ⟨_, _, _, rfl⟩
  | cons x l ih =>
    obtain ⟨nv, evr, pmc, hrest⟩ := ih (s.audit code sev (par x))
    obtain ⟨_, _, _, haudit⟩ := s.auditSrc_changes code sev 0xFF (par x)
    exact ⟨nv, evr, pmc, by rw [List.foldl_cons, hrest, State.audit, haudit]⟩

/-- The sessions that `p` picks end; beside them only audit records change. -/
theorem State.endSessions_changes (s : State) (p : Session → Bool) (cause : Nat) : ∃ nv evr pmc, s.endSessions p cause =
    { s with nv := nv, evr := evr, pmc := pmc, sec.sessions := s.sec.sessions.filter (fun x => !p x) } := by
  obtain ⟨nv, evr, pmc, h⟩ := foldl_audit_changes 0xA001 1 (fun x : Session => [x.role.code, x.num.val, cause, 0])
    (s.sec.sessions.filter p) s
  exact ⟨nv, evr, pmc, by rw [State.endSessions, h]⟩

section
variable (s : State) (cause : Nat)

@[simp] theorem State.endSessions_hqi (p : Session → Bool) : (s.endSessions p cause).hqi = s.hqi := by
  obtain ⟨_, _, _, h⟩ := s.endSessions_changes p cause
  rw [h]
@[simp] theorem State.endSessions_regs (p : Session → Bool) : (s.endSessions p cause).regs = s.regs := by
  obtain ⟨_, _, _, h⟩ := s.endSessions_changes p cause
  rw [h]
theorem State.endSessions_sessions (p : Session → Bool) :
    (s.endSessions p cause).sec.sessions = s.sec.sessions.filter (fun x => !p x) := by
  obtain ⟨_, _, _, h⟩ := s.endSessions_changes p cause
  rw [h]

theorem State.functionReset_hqi : (s.functionReset cause).hqi = s.disableQps.resetHqi.hqi := by simp [State.functionReset]
theorem State.functionReset_regs : (s.functionReset cause).regs = s.disableQps.resetHqi.regs := by simp [State.functionReset]

theorem State.functionReset_qp (q : Nat) : ((s.functionReset cause).qp q).st = .disabled := by
  rw [State.qp, State.functionReset_hqi]; rfl

theorem State.functionReset_gw : (s.functionReset cause).hqi.gw = .off := by rw [State.functionReset_hqi]; rfl

theorem State.functionReset_lastWord {off : Nat} (hoff : hqiReg off = true) :
    (s.functionReset cause).lastWord off = regReset off := by
  rw [State.lastWord, State.functionReset_regs]
  refine tget_of_absent _ fun e he heq => ?_
  obtain ⟨-, hother⟩ := List.mem_filter.mp he
  rw [heq, hoff] at hother
  exact absurd hother (by decide)

theorem State.functionReset_sessions :
    (s.functionReset cause).sec.sessions = s.sec.sessions.filter (fun x => x.chan != .pcie) := by
  rw [State.functionReset, State.event_sec, State.endSessions_sessions, ← s.disableQps_sec]
  rfl

theorem State.ready_setReady_false {b : Nat} (hb : b < 22) : (s.setReady b false).ready b = false := by
  show bitOf (s.pwr.ready &&& ~~~(1#22 <<< b)).toNat b = false
  rw [bitOf_eq_testBit, BitVec.testBit_toNat, BitVec.getLsbD_and, BitVec.getLsbD_not, BitVec.getLsbD_shiftLeft]
  simp [hb]

end

section
variable {s : State}

theorem exec_perstAssert_first (hfirst : s.hqi.perst = false) :
    exec .perstAssert s = .next (State.setReady { s.functionReset 3 with hqi.perst := true } 5 false) :=
  congrArg Host.Outcome.next (if_neg (ne_true_of_eq_false hfirst))

theorem exec_perstDeassert_on (hon : s.domainOn 5 = true) :
    exec .perstDeassert s = .next (State.setReady { s with hqi.perst := false } 5 true) := congrArg Host.Outcome.next (if_pos hon)

theorem exec_perstDeassert_off (hoff : s.domainOn 5 = false) : exec .perstDeassert s = .next { s with hqi.perst := false } :=
  congrArg Host.Outcome.next (if_neg (ne_true_of_eq_false hoff))

/-! ### The link (R275, R289, R290) -/

/-- Gateway polling does not start while GW_EN is 0. -/
theorem State.startGw_of_disabled (hgw : s.flag 0x0400 1 = false) : s.startGw = s := by simp [State.startGw, hgw]

theorem State.startGw_of_enabled (hgw : s.flag 0x0400 1 = true) (hlink : s.hqi.link.1 ≠ 0) (hswap : s.hqi.swapFail = false)
    (hrun : s.hqi.fenced = false) (hoff : s.hqi.gw = .off) :
    s.startGw = { s with hqi.gw := .waiting, hqi.seen := s.pwr.ticks } :=
  if_pos (by simpa [hgw, State.linkUp, hswap, hrun, hoff] using hlink)

/-- The link comes up: event 0x7000, before polling may start. -/
def State.linkRises (s : State) (g w : BitVec 4) : State :=
  State.event { s with hqi.link := (g, w) } 0x7000 1 [g.toNat, w.toNat]

theorem State.linkRises_flag (g w : BitVec 4) (off b : Nat) : (s.linkRises g w).flag off b = s.flag off b :=
  State.flag_congr (State.event_regs ..) off b
theorem State.linkRises_hqi (g w : BitVec 4) : (s.linkRises g w).hqi = { s.hqi with link := (g, w) } := State.event_hqi ..
theorem State.linkRises_pwr (g w : BitVec 4) : (s.linkRises g w).pwr = s.pwr := State.event_pwr ..

theorem exec_pcieLinkUp (g w : BitVec 4) : exec (.pcieLinkUp g w) s = .next (s.linkRises g w).startGw := rfl

theorem exec_pcieLinkUp_disabled (hgw : s.flag 0x0400 1 = false) (g w : BitVec 4) :
    exec (.pcieLinkUp g w) s = .next (s.linkRises g w) := by
  rw [exec_pcieLinkUp, State.startGw_of_disabled ((s.linkRises_flag g w _ _).trans hgw)]

theorem exec_pcieLinkUp_enabled {g : BitVec 4} (hg : g ≠ 0) (hgw : s.flag 0x0400 1 = true) (hswap : s.hqi.swapFail = false)
    (hrun : s.hqi.fenced = false) (hoff : s.hqi.gw = .off) (w : BitVec 4) : exec (.pcieLinkUp g w) s =
      .next { s.linkRises g w with hqi.gw := .waiting, hqi.seen := s.pwr.ticks } := by
  have hqi := s.linkRises_hqi g w
  rw [exec_pcieLinkUp, State.startGw_of_enabled ((s.linkRises_flag g w _ _).trans hgw) (by rwa [hqi]) (by rwa [hqi]) (by rwa [hqi])
    (by rwa [hqi])]
  simp only [State.linkRises_pwr]

/-- The link goes down: polling ends with event 0x7001. -/
def State.linkDown (s : State) : State :=
  State.event { s with hqi.link := (0, 0), hqi.gw := .off, hqi.words := [], hqi.active := false } 0x7001 2
    [(s.hqi.cmds.filter (fun c => !c.peer)).length]

theorem exec_pcieLinkDown : exec .pcieLinkDown s =
    .next (if s.flag 0x0400 0 then raise 104 s.linkDown else s.linkDown) := by
  rw [← State.flag_congr (s := s.linkDown) (t := s) (State.event_regs ..)]
  rfl

/-! ### The poll of the summary (R275, R276; log 33) -/

theorem exec_gwPollPass_waiting (hgw : s.hqi.gw = .waiting) : exec .gwPollPass s = .next
    ((State.count { s with hqi.gw := .reading, hqi.words := [], hqi.found := false } 183 1).send
      (.hostRead (BitVec.ofNat 64 s.sumBase) 512)) := congrArg Host.Outcome.next (if_pos hgw)

/-- Numbers of the summary's words that are not 0. -/
def setWords (l : List (BitVec 64)) : List (Fin 64) := (List.finRange 64).filter (fun w => (l[w.val]?).getD 0 != 0)

theorem setWords_of_zero {l : List (BitVec 64)} (hzero : ∀ w ∈ l, w = 0) : setWords l = [] := by
  refine List.filter_eq_nil_iff.mpr fun w _ => ?_
  cases hw : l[w.val]? with
  | none => simp
  | some v => simp [hzero v (List.mem_of_getElem? hw)]

theorem exec_summaryReadDone_reading (hgw : s.hqi.gw = .reading) (l : List (BitVec 64)) :
    exec (.summaryReadDone (some l)) s = .next (State.nextSwap { s with hqi.words := setWords l }) :=
  congrArg Host.Outcome.next (if_pos hgw)

theorem exec_summaryReadDone_zero (hgw : s.hqi.gw = .reading) {l : List (BitVec 64)} (hzero : ∀ w ∈ l, w = 0) :
    exec (.summaryReadDone (some l)) s = .next (State.endPass { s with hqi.words := [] }) := by
  rw [exec_summaryReadDone_reading hgw, setWords_of_zero hzero]
  rfl

theorem exec_summaryReadDone_word (hgw : s.hqi.gw = .reading) {l : List (BitVec 64)} {w : Fin 64} {r : List (Fin 64)}
    (hwords : setWords l = w :: r) : exec (.summaryReadDone (some l)) s = .next (State.send { s with
      hqi.words := w :: r, hqi.gw := .swapping } (.swap (BitVec.ofNat 64 (s.sumBase + 8 * w.val)))) := by
  rw [exec_summaryReadDone_reading hgw, hwords]
  rfl

variable {w : Fin 64} {r : List (Fin 64)}

theorem exec_summarySwapDone_due (hgw : s.hqi.gw = .swapping) (hwords : s.hqi.words = w :: r) (old : BitVec 64) :
    exec (.summarySwapDone w old) s = .next (((setBits 64 old.toNat).foldl (fun (z : State) b => z.hintFor (64 * w.val + b))
      { s with hqi.words := r, hqi.found := s.hqi.found || old != 0 }).nextSwap) := by
  show execSummarySwapDone w old s = _
  rw [execSummarySwapDone, hgw, hwords]
  exact congrArg Host.Outcome.next (if_neg (not_not_intro rfl))

theorem exec_swapTimeout_swapping (hgw : s.hqi.gw = .swapping) (hwords : s.hqi.words = w :: r) (st : Byte) :
    exec (.swapTimeout st) s = .next (raise 106 ((State.setW1c { s with
      hqi.gw := .off, hqi.words := [], hqi.active := false, hqi.swapFail := true } 0x0404 7).event 0x7003 3 [st.toNat, w.val])) := by
  show execSwapTimeout st s = _
  rw [execSwapTimeout, hgw, hwords]

end

/-- Settles O23: the resets by what they leave of queue pairs, gateway, registers and sessions, the rest by the next state. -/
theorem functionResetsAndGatewayPolling : Obligations.FunctionResetsAndGatewayPolling := by
  refine ⟨fun s hfirst => ⟨_, exec_perstAssert_first hfirst, ?_, State.ready_setReady_false _ (by decide), fun q => ?_, ?_, ?_⟩,
    fun _ => exec_perstDeassert_on, fun _ => exec_perstDeassert_off,
    fun s => ⟨_, _, rfl, rfl, rfl, rfl, s.functionReset_qp 1, s.functionReset_qp 2, s.functionReset_gw 1, s.functionReset_gw 2,
      s.functionReset_lastWord 1 rfl, s.functionReset_lastWord 2 rfl, s.functionReset_sessions 1, s.functionReset_sessions 2⟩,
    fun g w _ hgw => exec_pcieLinkUp_disabled hgw g w,
    fun _ w _ hg hgw hswap hrun hoff => exec_pcieLinkUp_enabled hg hgw hswap hrun hoff w,
    fun s => ⟨fun hen => ?_, fun hen => ?_⟩,
    fun s hgw => ⟨_, exec_gwPollPass_waiting hgw, rfl, rfl, rfl⟩,
    fun l s hgw hzero => ⟨_, exec_summaryReadDone_zero hgw hzero, rfl, rfl, rfl⟩,
    fun _ _ _ _ hgw hwords => exec_summaryReadDone_word hgw hwords,
    fun _ _ old _ hgw hwords => exec_summarySwapDone_due hgw hwords old,
    fun _ _ st _ hgw hwords => exec_swapTimeout_swapping hgw hwords st⟩
  · rw [State.setReady_hqi]
  · rw [State.qp, State.setReady_hqi]
    exact s.functionReset_qp 3 q
  · rw [State.setReady_hqi]
    exact s.functionReset_gw 3
  · rw [State.lastWord, State.setReady_regs]
    exact s.functionReset_lastWord 3 rfl
  · rw [exec_pcieLinkDown, hen]; rfl
  · rw [exec_pcieLinkDown, hen]; rfl

end Sys2Proof.Machine
end

section
/-! PROOFS. The Fraolt rings: doorbell page, descriptor and data reads, and the Completion Poster (R271, R277 to R283, R369; log 34,
log 39). -/
namespace Sys2Proof.Machine

open Sys2Proof

section
variable {s : State}

/-! ### The doorbell page (R277, R279, R281) -/

/-- Every entry the page holds is taken, queue pair by queue pair. -/
def State.takePage (s : State) (page : List (BitVec 16 × BitVec 16)) : State :=
  (List.range 128).foldl (fun (z : State) q => match page[q]? with
    | some e => z.takeDoorbell q e.1.toNat e.2.toNat
    | none => z) s

/-- A page that was read while no other read of it was asked for: its entries are taken, and fetching goes on. -/
theorem exec_doorbellPageReadDone_once (hread : s.hqi.dbRead = true) (honce : s.hqi.dbAgain = false)
    (page : List (BitVec 16 × BitVec 16)) :
    exec (.doorbellPageReadDone (some page)) s = .next (State.takePage { s with hqi.dbRead := false } page).fetchAll := by
  have hclear : ({ s with hqi.dbRead := false, hqi.dbAgain := false } : State) = { s with hqi.dbRead := false } := by simp [honce]
  show Host.Outcome.next (s.pageDone (some page)) = _
  rw [State.pageDone, if_neg (by simp [hread]), honce, hclear]
  rfl

section
variable {q tail head : Nat} (hactive : (s.qp q).st = .active)
include hactive

theorem State.takeDoorbell_inside (htail : tail < (s.qp q).depth) (hhead : head < (s.qp q).depth) :
    s.takeDoorbell q tail head = s.modQp q (fun x => { x with tail := tail, cqHead := head }) := by
  rw [State.takeDoorbell, if_pos hactive, if_neg (Nat.not_le.mpr htail), if_neg (Nat.not_le.mpr hhead)]

theorem State.takeDoorbell_tail_outside (htail : (s.qp q).depth ≤ tail) : s.takeDoorbell q tail head = s.qpError q 1 tail := by
  rw [State.takeDoorbell, if_pos hactive, if_pos htail]

end

theorem State.qpError_st (s : State) (q cause v : Nat) : ((s.qpError q cause v).qp q).st = .error := by
  simp [State.qpError, State.qp, State.modQp]

/-! ### Descriptor reads (R278, R280, R281) -/

section
variable {q : Fin 128} (hactive : (s.qp q.val).st = .active)
include hactive

/-- Entries of a read that ends well are passed over in the ring, counted, and taken in order. -/
theorem exec_descriptorReadDone_entries {l : List (List Byte)} (hreading : (s.qp q.val).reading = some l.length) :
    let z := (s.modQp q.val (fun x => { x with reading := none })).modQp q.val (fun x => { x with
      fetch := (x.fetch + l.length) % x.depth })
    exec (.descriptorReadDone q (some l)) s =
      .next ((l.foldl (fun (v : State) b => v.fetchEntry q b) (z.count 165 l.length)).mirrorQ.fetchAll) := by
  show Host.Outcome.next (if (s.qp q.val).reading = some l.length then s.descDone q (some l) else s) = _
  simp [State.descDone, hreading, hactive]

theorem exec_descriptorReadDone_failed {n : Nat} (hreading : (s.qp q.val).reading = some n) :
    exec (.descriptorReadDone q none) s =
      .next (raise 107 ((s.modQp q.val (fun x => { x with reading := none })).qpError q.val 3 0)) := by
  show Host.Outcome.next (s.descDone q none) = _
  simp [State.descDone, hreading, hactive]

end

/-! ### Data of a command (R282, R283) -/

section
variable {q : Fin 128} {tag : BitVec 16} {c : Cmd} (hcmd : s.cmd? q.val tag = some c) (hneed : c.need = 2)
include hcmd hneed

theorem exec_hostDataReadDone_whole {l : List Byte} (hlen : l.length = c.len) :
    exec (.hostDataReadDone q tag (some l)) s = .next (s.dataDone c l) := by
  show execHostDataReadDone q tag (some l) s = _
  simp [execHostDataReadDone, State.cmdReadDone, hcmd, hneed, hlen]

theorem exec_hostDataReadDone_failed : exec (.hostDataReadDone q tag none) s = .next (s.hostFail c) := by
  show execHostDataReadDone q tag none s = _
  simp [execHostDataReadDone, State.cmdReadDone, hcmd, hneed]

end

/-! ### The Completion Poster (R271, R283, R369) -/

theorem exec_completionPost_idle (hnone : s.nextPost = none) : exec .completionPost s = .next s := by
  show execCompletionPost s = _
  rw [execCompletionPost, hnone]

section
variable {p : Post} (hnext : s.nextPost = some p)
include hnext

theorem exec_completionPost_fenced (hfenced : s.hqi.fenced = true) : exec .completionPost s = .next s := by
  show execCompletionPost s = _
  rw [execCompletionPost, hnext]
  exact congrArg Host.Outcome.next (if_pos hfenced)

theorem exec_completionPost_alone (hruns : s.hqi.fenced = false) (halone : s.mirroring = false) :
    exec .completionPost s = .next (s.writePost p) := by
  show execCompletionPost s = _
  simp [execCompletionPost, hnext, hruns, halone]

/-- In a pair the partner is told first, and the completion waits for the frame's acknowledgement. -/
theorem exec_completionPost_untold (hruns : s.hqi.fenced = false) (hpair : s.mirroring = true) (huntold : p.told = false) :
    exec .completionPost s = .next { s.mirrorQ with
      hqi.posts := s.mirrorQ.hqi.posts.map (fun x => if x = p then { x with need := some s.pfr.pseq, told := true } else x) } := by
  show execCompletionPost s = _
  simp [execCompletionPost, hnext, hruns, hpair, huntold]

end

theorem exec_cqFullPoll_waiting (hwait : s.hqi.posts.any (fun p => !s.cqRoom p.qp.val) = true) :
    exec .cqFullPoll s = .next s.readPage := congrArg Host.Outcome.next (if_pos hwait)

theorem exec_cqFullPoll_room (hroom : s.hqi.posts.any (fun p => !s.cqRoom p.qp.val) = false) :
    exec .cqFullPoll s = .next s := congrArg Host.Outcome.next (if_neg (ne_true_of_eq_false hroom))

end

/-- Settles O24, by how each read ends and by what the poster's next completion waits for. -/
theorem ringReadsAndCompletions : Obligations.RingReadsAndCompletions :=
  ⟨fun page _ hread honce => exec_doorbellPageReadDone_once hread honce page,
    fun q tail _ s hactive => ⟨State.takeDoorbell_inside hactive, fun htail =>
      State.takeDoorbell_tail_outside hactive htail ▸ s.qpError_st q 1 tail⟩,
    fun _ _ _ hreading hactive => exec_descriptorReadDone_entries hactive hreading,
    fun _ _ _ hreading hactive => exec_descriptorReadDone_failed hactive hreading,
    fun _ _ _ _ _ hcmd hneed hlen => exec_hostDataReadDone_whole hcmd hneed hlen,
    fun _ _ _ _ hcmd hneed => exec_hostDataReadDone_failed hcmd hneed,
    fun _ _ hnext hruns halone => exec_completionPost_alone hnext hruns halone,
    fun _ _ hnext hruns hpair huntold => exec_completionPost_untold hnext hruns hpair huntold,
    fun _ _ hnext hfenced => exec_completionPost_fenced hnext hfenced,
    fun _ => exec_completionPost_idle, fun _ => exec_cqFullPoll_waiting, fun _ => exec_cqFullPoll_room⟩

end Sys2Proof.Machine
end

section
/-! PROOFS. What the gateway does for other modules, and what a module does with what comes back (R277, R345, R346, R354, R440,
R459; log 52, log 53). -/
namespace Sys2Proof.Machine

open Sys2Proof

section
variable {s : State} {src : BitVec 12}

/-! ### Reads (R345, R346) -/

section
variable {a : BitVec 64} {n : Word} {tag : BitVec 16}

theorem exec_rmaRead_gatewayOff (hgw : s.flag 0x0400 1 = false) :
    exec (.rmaRead src a n tag) s = .next (s.e2eSend src 0x24 (rdataBytes tag 6 true 0 [])) :=
  congrArg Host.Outcome.next (if_pos (by simp [State.gwOn, hgw]))

variable (hgw : s.flag 0x0400 1 = true)
include hgw

theorem exec_rmaRead_outside (hout : s.rmaWithin a.toNat n.toNat = false) :
    exec (.rmaRead src a n tag) s = .next (s.e2eSend src 0x24 (rdataBytes tag 5 true 0 [])) := by
  show Host.Outcome.next (s.gotRmaRead src a.toNat n.toNat tag) = _
  simp [State.gotRmaRead, State.gwOn, hgw, hout]

theorem exec_rmaRead_inside (hin : s.rmaWithin a.toNat n.toNat = true) : exec (.rmaRead src a n tag) s =
    .next (State.send { s with fab.serving := s.fab.serving ++ [(src, tag, a, n)] } (.hostRead a n.toNat)) := by
  show Host.Outcome.next (s.gotRmaRead src a.toNat n.toNat tag) = _
  simp [State.gotRmaRead, State.gwOn, hgw, hin]

end

section
variable {tag : BitVec 16} {st : Byte} {ofs : Word} {last : Bool} {l : List Byte}

theorem exec_gwPcieReadDone_unknown (hnone : s.fab.serving.find? (fun x => x.1 == src && x.2.1 == tag) = none) :
    exec (.gwPcieReadDone src tag st ofs last l) s = .next s := by
  show execGwPcieReadDone src tag st ofs last l s = _
  rw [execGwPcieReadDone, hnone]

theorem exec_gwPcieReadDone_failed {x : BitVec 12 × BitVec 16 × BitVec 64 × Word}
    (hsome : s.fab.serving.find? (fun x => x.1 == src && x.2.1 == tag) = some x) (hst : st ≠ 0) :
    exec (.gwPcieReadDone src tag st ofs last l) s = .next (State.e2eSend { s with
      fab.serving := s.fab.serving.erase x } src 0x24 (rdataBytes tag st.toNat true 0 [])) := by
  show execGwPcieReadDone src tag st ofs last l s = _
  rw [execGwPcieReadDone, hsome]
  exact congrArg Host.Outcome.next (if_pos hst)

end

/-! ### Writes and interrupts (R345, R346) -/

section
variable {a : BitVec 64} {l : List Byte}

theorem exec_rmaWrite_gatewayOff (hgw : s.flag 0x0400 1 = false) : exec (.rmaWrite src a l) s = .next s :=
  congrArg Host.Outcome.next (if_pos (by simp [State.gwOn, hgw]))

variable (hgw : s.flag 0x0400 1 = true)
include hgw

theorem exec_rmaWrite_outside (hout : s.rmaWithin a.toNat l.length = false) : exec (.rmaWrite src a l) s =
    .next (s.event 0x8008 2 [src.toNat, a.toNat % 2 ^ 32, a.toNat / 2 ^ 32]) := by
  show Host.Outcome.next (s.gotRmaWrite src a.toNat l) = _
  simp [State.gotRmaWrite, State.gwOn, hgw, hout]

theorem exec_rmaWrite_inside (hin : s.rmaWithin a.toNat l.length = true) :
    exec (.rmaWrite src a l) s = .next (s.send (.hostWrite a l)) := by
  show Host.Outcome.next (s.gotRmaWrite src a.toNat l) = _
  simp [State.gotRmaWrite, State.gwOn, hgw, hin]

end

/-! ### Read data comes back (R345) -/

section
variable {tag : BitVec 16} {st : Byte} {last : Bool} {ofs : Word} {l : List Byte}

theorem exec_rmaRdata_unknown (hnone : s.fab.rtags.find? (fun x => x.1 == tag) = none) :
    exec (.rmaRdata src tag st last ofs l) s = .next s := by
  show Host.Outcome.next (s.gotRdata src tag st.toNat last ofs.toNat l) = _
  rw [State.gotRdata, hnone]

variable {x : BitVec 16 × RPurpose × List Byte × Bool} (hsome : s.fab.rtags.find? (fun x => x.1 == tag) = some x)
include hsome

theorem exec_rmaRdata_unexpected (hnot : src ≠ s.gw ∨ x.2.2.2 = true) : exec (.rmaRdata src tag st last ofs l) s = .next s := by
  show Host.Outcome.next (s.gotRdata src tag st.toNat last ofs.toNat l) = _
  rw [State.gotRdata, hsome]
  exact congrArg Host.Outcome.next (if_pos hnot)

variable (hsrc : src = s.gw) (hopen : x.2.2.2 = false)
include hsrc hopen

theorem exec_rmaRdata_failed (hst : st ≠ 0) : exec (.rmaRdata src tag st last ofs l) s = .next (s.purposeFailed x.2.1) := by
  have hcode : st.toNat ≠ 0 := fun h => hst (BitVec.eq_of_toNat_eq h)
  show Host.Outcome.next (s.gotRdata src tag st.toNat last ofs.toNat l) = _
  simp [State.gotRdata, hsome, hsrc, hopen, hcode]

theorem exec_rmaRdata_outOfPlace (hst : st = 0) (hofs : ofs.toNat ≠ x.2.2.1.length) :
    exec (.rmaRdata src tag st last ofs l) s = .next s := by
  show Host.Outcome.next (s.gotRdata src tag st.toNat last ofs.toNat l) = _
  simp [State.gotRdata, hsome, hsrc, hopen, hst, hofs]

/-- Data in its place is collected; with the last of its purpose's reads the purpose is done. -/
theorem exec_rmaRdata_inPlace (hst : st = 0) (hofs : ofs.toNat = x.2.2.1.length) :
    let z : State := { s with fab.rtags := s.fab.rtags.map (fun y =>
      if y.1 = tag then (y.1, y.2.1, y.2.2.1 ++ l, last) else y) }
    let mine := z.fab.rtags.filter (fun y => y.2.1 == x.2.1)
    exec (.rmaRdata src tag st last ofs l) s = .next (if mine.all (fun y => y.2.2.2) then
      State.purposeDone { z with fab.rtags := z.fab.rtags.filter (fun y => y.2.1 != x.2.1) } x.2.1
        (some (mine.map (fun y => y.2.2.1)).flatten) else z) := by
  show Host.Outcome.next (s.gotRdata src tag st.toNat last ofs.toNat l) = _
  rw [State.gotRdata, hsome]
  refine congrArg Host.Outcome.next ?_
  dsimp only
  rw [if_neg (by simp [hsrc, hopen]), if_neg (by simp [hst]), if_neg (by simp [hofs])]

end

/-! ### Doorbell hints (R277, R440) -/

theorem exec_dbHint_awake (hst : s.pwr.st ≠ .dark) : exec (.dbHint src) s = .next s.readPage :=
  congrArg Host.Outcome.next (if_neg hst)

theorem exec_dbHint_wakes (hst : s.pwr.st = .dark) (hwake : s.flag 0x5000 30 = true) :
    exec (.dbHint src) s = .next (s.leaveDark.applyLatched raise) := by
  show Host.Outcome.next s.gotHint = _
  rw [State.gotHint, if_pos hst, if_pos hwake, State.darkWake, if_pos hst]

theorem exec_dbHint_dark (hst : s.pwr.st = .dark) (hsleep : s.flag 0x5000 30 = false) : exec (.dbHint src) s = .next s := by
  show Host.Outcome.next s.gotHint = _
  rw [State.gotHint, if_pos hst, if_neg (ne_true_of_eq_false hsleep)]

/-! ### Management (R354, R459; log 53) -/

section
variable {off : BitVec 16} {len : Byte}

theorem exec_mgmtRd_unaligned (hlen : len.toNat % 4 ≠ 0) : exec (.mgmtRd src off len) s = .next (s.mgmtAnswer src 0 2 []) :=
  congrArg Host.Outcome.next (if_pos hlen)

theorem exec_mgmtRd_aligned (hlen : len.toNat % 4 = 0) :
    let r := s.readReq .fabric off.toNat (len.toNat / 4)
    exec (.mgmtRd src off len) s = .next (r.2.2.mgmtAnswer src 0 r.1 (if r.1 = 0 then r.2.1 else [])) :=
  congrArg Host.Outcome.next (if_neg (not_not_intro hlen))

end

end

/-- Settles O48, request by request, by the gateway's window and by the place of the data that comes back. -/
theorem gatewayServesRemoteModules : Obligations.GatewayServesRemoteModules :=
  fun _ _ => ⟨
    fun _ _ _ => ⟨exec_rmaRead_gatewayOff, exec_rmaRead_outside, fun hgw hin =>
      ⟨_, exec_rmaRead_inside hgw hin, rfl, rfl, rfl⟩⟩,
    fun _ _ => ⟨exec_rmaWrite_gatewayOff, exec_rmaWrite_outside, exec_rmaWrite_inside⟩,
    fun _ => rfl,
    fun _ _ _ _ _ => ⟨exec_gwPcieReadDone_unknown, fun _ => exec_gwPcieReadDone_failed⟩,
    fun _ _ _ _ _ => ⟨exec_rmaRdata_unknown, fun _ hsome => ⟨exec_rmaRdata_unexpected hsome, fun hsrc hopen =>
      ⟨exec_rmaRdata_failed hsome hsrc hopen, exec_rmaRdata_outOfPlace hsome hsrc hopen, exec_rmaRdata_inPlace hsome hsrc hopen⟩⟩⟩,
    exec_dbHint_awake, exec_dbHint_wakes, exec_dbHint_dark,
    fun _ _ => ⟨exec_mgmtRd_unaligned, exec_mgmtRd_aligned⟩,
    fun _ _ _ => rfl, fun _ _ => rfl⟩

end Sys2Proof.Machine
end

section
/-! PROOFS. The slot accounting sums (R423, R424, R427; log 67) and what is permanent (R376, R377, R390, R391, R397; log 4): both
stand in what every step keeps. -/
namespace Sys2Proof.Machine

open Sys2Proof

/-- Settles O55: the sums do not rest on the queue, and what a step keeps includes them. -/
theorem stepKeepsSlotsAccountedFor : Obligations.StepKeepsSlotsAccountedFor :=
  fun s t htally hstep => ((step_kept s).next t hstep).tally htally

/-- Settles O56: of what a step keeps, the lifecycle, the minimum versions, the node id, the fuse, the outputs and the queue. -/
theorem stepUndoesNothingPermanent : Obligations.StepUndoesNothingPermanent := by
  intro s t hstep
  obtain ⟨hqueue, -, -, ⟨hlife, hisvn, hfsvn, hnode, hfuse⟩, hsent⟩ := (step_kept s).next t hstep
  exact ⟨hlife, hisvn, hfsvn, hnode, hfuse, hsent, hqueue⟩

end Sys2Proof.Machine
end

section
/-! PROOFS. GET COUNTERS (R317): the entries of the reply, byte by byte. -/
namespace Sys2Proof.Machine

open Sys2Proof

/-- Among pieces of one length `n` laid end to end, piece `i` starts at byte `n * i`. -/
theorem drop_flatten_map_range {n m i : Nat} {f : Nat → List Byte} (hf : ∀ k, (f k).length = n) (hi : i < m) :
    (((List.range m).map f).flatten.drop (n * i)).take n = f i := by
  have hlen : ∀ k ≤ m, (((List.range m).map f).map List.length).take k = List.replicate k n := fun k hk =>
    List.eq_replicate_iff.mpr ⟨by simpa using hk, by simp +contextual [hf, List.mem_take_iff_getElem]⟩
  have h := List.drop_take_succ_flatten_eq_getElem ((List.range m).map f) i (by simpa using hi)
  rw [hlen _ hi, hlen _ hi.le, List.sum_replicate, List.sum_replicate, List.getElem_map, List.getElem_range, List.drop_take] at h
  simpa [Nat.mul_comm n i, Nat.succ_mul] using h

/-- A number of 8 bytes laid among others of 8 bytes reads back. -/
theorem leAt_flatten_leBytes {v : Nat → Nat} {m i : Nat} (hv : v i < 2 ^ 64) (hi : i < m) :
    leAt ((List.range m).map (fun k => leBytes 8 (v k))).flatten (8 * i) 8 = v i := by
  rw [leAt, drop_flatten_map_range (fun _ => Laws.leBytes_length _ _) hi, Laws.ofLe_leBytes, Nat.mod_eq_of_lt (by simpa using hv)]

/-- A counter's entry holds its 48 bits, its overflow in bit 63 and zeros between (R317). -/
theorem counterEntry_fields {x : Nat} (hx : x < 2 ^ 48) (b : Bool) :
    let e := x + 2 ^ 63 * b2n b
    e % 2 ^ 48 = x ∧ bitOf e 63 = b ∧ bitsOf e 48 15 = 0 := by
  intro e
  cases b <;> simp only [e, b2n, bitOf, bitsOf, Nat.shiftRight_eq_div_pow, beq_eq_false_iff_ne, beq_iff_eq] <;> norm_num <;> omega

/-- Settles O60: by the reply of GET COUNTERS, whose entries stand 8 bytes apart. -/
theorem getCountersWritesEntries : Obligations.GetCountersWritesEntries := by
  intro s tag c hcmd hown hunanswered hidle hlife hopc a n
  have h : s.TakesAdmin tag c := ⟨hcmd, hown, hunanswered, hidle, by simp [State.retired, hlife]⟩
  refine ⟨fun hfirst hlow hhigh => ⟨_, exec_getCounters_entries h hopc hfirst hlow hhigh, ?_, fun i hi => ?_⟩,
    fun hfirst => exec_getCounters_first h hopc hfirst, fun hfirst hcount => exec_getCounters_count h hopc hfirst hcount⟩
  · simp [List.length_flatten, Function.comp_def, Nat.mul_comm, n]
  · have hctr : s.ctr (a + i) < 2 ^ 48 := (tget 0 s.pmc.ctr (a + i)).isLt
    obtain ⟨hvalue, hovf, hzero⟩ := counterEntry_fields hctr (bitOf s.pmc.ovf.toNat (a + i))
    have hentry : s.ctr (a + i) + 2 ^ 63 * b2n (bitOf s.pmc.ovf.toNat (a + i)) < 2 ^ 64 := by
      have := b2n_lt_two (bitOf s.pmc.ovf.toNat (a + i))
      omega
    rw [leAt_flatten_leBytes (v := fun k => s.ctr (a + k) + 2 ^ 63 * b2n (bitOf s.pmc.ovf.toNat (a + k))) hentry hi]
    exact ⟨hvalue, hovf, hzero⟩

end Sys2Proof.Machine
end

section
/-! PROOFS. The fabric's ports: bring-up, heartbeats and delays, and how a port goes down (R321, R324, R326, R334, R335, R339;
log 5, log 42, log 49). -/
namespace Sys2Proof.Machine

open Sys2Proof

/-! ### Bring-up (R321) -/

section
variable {n : Fin 5} {s : State}

section
variable (hst : (s.port n.val).st = .training)
include hst

theorem exec_portTrained_training :
    exec (.portTrained n) s = .next (s.modPort n.val (fun q => { q with st := .hello })) :=
  congrArg Host.Outcome.next (if_pos hst)

theorem exec_trainingTimeout_training :
    exec (.trainingTimeout n) s = .next (s.modPort n.val (fun _ => { Port.init with st := .training })) :=
  congrArg Host.Outcome.next (if_pos hst)

end

section
variable (hst : (s.port n.val).st = .hello)
include hst

theorem exec_helloTick_hello : exec (.helloTick n) s = .next (s.ctlSend n 1 false [s.nv.nodeId,
    BitVec.ofNat 64 (s.fab.addr.toNat + 2 ^ 16 * n.val + 2 ^ 24 * s.pairCode + 2 ^ 32 * s.fab.inst.toNat)]) :=
  congrArg Host.Outcome.next (if_neg (not_not_intro hst))

section
variable (id : BitVec 64) (ad : BitVec 12) (np ps : Byte) (ins : BitVec 16)

/-- The neighbour that a HELLO names (R321). -/
def State.greeted (s : State) (n : Fin 5) : State :=
  s.modPort n.val (fun q => { q with nodeId := id, nbr := ad, nport := np })

theorem exec_hello_other (hid : id ≠ s.nv.nodeId) : exec (.hello n id ad np ps ins) s =
    .next (((s.greeted id ad np n).ctlSend n 3 false [s.nsNow]).ctlSend n 3 false [s.nsNow]) :=
  congrArg Host.Outcome.next ((if_neg (not_not_intro hst)).trans (if_neg hid))

theorem exec_hello_own_again (hid : id = s.nv.nodeId) (hagain : (s.port n.val).nodeId = id ∧ (s.port n.val).nport = np) :
    exec (.hello n id ad np ps ins) s = .next s :=
  congrArg Host.Outcome.next ((if_neg (not_not_intro hst)).trans ((if_pos hid).trans (if_pos hagain)))

theorem exec_hello_own_first (hid : id = s.nv.nodeId) (hfirst : ¬ ((s.port n.val).nodeId = id ∧ (s.port n.val).nport = np)) :
    exec (.hello n id ad np ps ins) s = .next ((s.greeted id ad np n).event 0x8001 2 [n.val, 6, ad.toNat]) :=
  congrArg Host.Outcome.next ((if_neg (not_not_intro hst)).trans ((if_pos hid).trans (if_neg hfirst)))

end
end

/-! ### Delays (R321, R326) -/

theorem exec_delayReq_linked (hst : (s.port n.val).st = .up ∨ (s.port n.val).st = .hello) (t1 t2 : BitVec 64) :
    exec (.delayReq n t1 t2) s = .next (s.ctlSend n 4 false [t1, t2, s.nsNow]) :=
  congrArg Host.Outcome.next (if_pos hst)

/-- One delay measured joins the last eight (R326). -/
def State.measured (s : State) (n : Fin 5) (t1 t2 t3 t4 : BitVec 64) : State :=
  s.modPort n.val (fun q => { q with delays := (((t4 - t1) - (t3 - t2)).toNat / 2 :: q.delays).take 8 })

section
variable (hnode : (s.port n.val).nodeId ≠ s.nv.nodeId) (t1 t2 t3 t4 : BitVec 64)
include hnode

/-- A delay answer at a linked port is measured; the second one of a port in HELLO brings it up. -/
theorem exec_delayResp_linked (hst : (s.port n.val).st = .up ∨ (s.port n.val).st = .hello) :
    exec (.delayResp n t1 t2 t3 t4) s =
      .next (if (s.port n.val).st = .hello ∧ (s.port n.val).delays ≠ [] then (s.measured n t1 t2 t3 t4).portUp n
        else s.measured n t1 t2 t3 t4) := by
  have hgo : ¬ ((s.port n.val).st ≠ .up ∧ (s.port n.val).st ≠ .hello ∨ (s.port n.val).nodeId = s.nv.nodeId) := by
    rintro (⟨hup, hhello⟩ | h)
    · exact hst.elim hup hhello
    · exact hnode h
  have hsecond : 2 ≤ ((s.measured n t1 t2 t3 t4).port n.val).delays.length ↔ (s.port n.val).delays ≠ [] := by
    rw [State.measured, State.modPort_same, List.length_take, List.length_cons, ← List.length_pos_iff]
    omega
  refine (if_neg hgo).trans (congrArg Host.Outcome.next (if_congr (and_congr_right' hsecond) rfl rfl))

end

/-! ### A port that is up (R324, R326, R335, R337) -/

section
variable (hst : (s.port n.val).st = .up)
include hst

theorem exec_heartbeat_up (h : LinkHdr) : exec (.heartbeat n h) s = .next (s.takeHdr n h) :=
  congrArg Host.Outcome.next (if_pos hst)
theorem exec_linkNak_up (h : LinkHdr) : exec (.linkNak n h) s = .next ((s.takeHdr n h).replayAll n) :=
  congrArg Host.Outcome.next (if_pos hst)
theorem exec_ackTimeout_up : exec (.ackTimeout n) s = .next (s.replayAll n) :=
  congrArg Host.Outcome.next (if_pos hst)
theorem exec_upHoldExpiry_up : exec (.upHoldExpiry n) s = .next (s.modPort n.val (fun q => { q with ready := true })) :=
  congrArg Host.Outcome.next (if_pos hst)
theorem exec_lsa_up (l : Lsa) : exec (.lsa n l) s = .next (s.gotLsa l) :=
  congrArg Host.Outcome.next (if_pos hst)

end

section
variable (hst : (s.port n.val).st ≠ .up)
include hst

theorem exec_heartbeat_down (h : LinkHdr) : exec (.heartbeat n h) s = .next s := congrArg Host.Outcome.next (if_neg hst)
theorem exec_linkNak_down (h : LinkHdr) : exec (.linkNak n h) s = .next s := congrArg Host.Outcome.next (if_neg hst)
theorem exec_ackTimeout_down : exec (.ackTimeout n) s = .next s := congrArg Host.Outcome.next (if_neg hst)
theorem exec_upHoldExpiry_down : exec (.upHoldExpiry n) s = .next s := congrArg Host.Outcome.next (if_neg hst)
theorem exec_lsa_down (l : Lsa) : exec (.lsa n l) s = .next s := congrArg Host.Outcome.next (if_neg hst)

end

/-! ### A port goes down (R339) -/

theorem exec_portDown_holds {c : DownCause} (hc : s.downHolds n c = true) : exec (.portDown n c) s = .next (s.portDown raise n c) :=
  congrArg Host.Outcome.next (if_pos hc)

theorem exec_portDown_replays_left (hleft : (s.port n.val).again < 16) : exec (.portDown n .replays) s = .next s :=
  congrArg Host.Outcome.next (if_neg (by simp [State.downHolds, hleft]))

end

/-- Settles O40, by the port's state: the causes of R339 are those that `State.downHolds` decides. -/
theorem portsComeUpAndGoDown : Obligations.PortsComeUpAndGoDown := by
  intro n s q set
  refine ⟨fun hst => ⟨exec_portTrained_training hst, exec_trainingTimeout_training hst⟩,
    fun hst => ⟨exec_helloTick_hello hst, fun id ad np ps ins => ⟨exec_hello_other hst id ad np ps ins,
      exec_hello_own_again hst id ad np ps ins, exec_hello_own_first hst id ad np ps ins⟩,
      fun t1 t2 t3 t4 hnode => ⟨fun hfirst => ?_, fun hsecond => ?_⟩⟩,
    exec_delayReq_linked,
    fun hst => ⟨fun h => ⟨exec_heartbeat_up hst h, exec_linkNak_up hst h⟩, exec_ackTimeout_up hst, exec_upHoldExpiry_up hst,
      exec_lsa_up hst, fun t1 t2 t3 t4 hnode => ?_⟩,
    fun hst h l => ⟨exec_heartbeat_down hst h, exec_linkNak_down hst h, exec_ackTimeout_down hst, exec_upHoldExpiry_down hst,
      exec_lsa_down hst l⟩,
    fun c hc => exec_portDown_holds ?_, exec_portDown_replays_left⟩
  · exact (exec_delayResp_linked hnode t1 t2 t3 t4 (.inr hst)).trans (congrArg _ (if_neg fun h => h.2 hfirst))
  · exact (exec_delayResp_linked hnode t1 t2 t3 t4 (.inr hst)).trans (congrArg _ (if_pos ⟨hst, hsecond⟩))
  · exact (exec_delayResp_linked hnode t1 t2 t3 t4 (.inl hst)).trans (congrArg _ (if_neg fun h => nomatch h.1.symm.trans hst))
  · obtain rfl | rfl | ⟨rfl, hreps⟩ | ⟨rfl, hfenced⟩ | ⟨rfl, hoff⟩ := hc
    · rfl
    · rfl
    · exact decide_eq_true hreps
    · exact beq_iff_eq.mpr hfenced
    · exact congrArg (!·) hoff

/-! ### Ticks of every port (R326; log 49) -/

section
variable {s : State} (hdown : ∀ n : Fin 5, (s.port n.val).st ≠ .up)
include hdown

theorem exec_heartbeatTick_down : exec .heartbeatTick s = .next s :=
  congrArg Host.Outcome.next (List.foldl_fixed' (fun n => if_neg (hdown n)) _)
theorem exec_delayTick_down : exec .delayTick s = .next s :=
  congrArg Host.Outcome.next (List.foldl_fixed' (fun n => if_neg (hdown n)) _)

end

/-- Settles O41: both ticks go through the five ports, and pass over those that are not up. -/
theorem lanesTickTogether : Obligations.LanesTickTogether :=
  fun _ => ⟨rfl, rfl, fun hdown => ⟨exec_heartbeatTick_down hdown, exec_delayTick_down hdown⟩⟩

end Sys2Proof.Machine
end

section
/-! PROOFS. The link-state database, routes and takeover notices (R334 to R337, R340, R348, R358; log 50). -/
namespace Sys2Proof.Machine

open Sys2Proof

section
variable {s : State}

/-! ### Adverts age and expire (R335) -/

theorem exec_lsaTick (s : State) :
    exec .lsaTick s = .next (State.floodLsa { s with fab.age := if s.fab.noaddr then 0 else satInc s.fab.age }) := rfl

section
variable {ad : BitVec 12} {id : BitVec 64}

theorem any_lsa_iff : s.fab.lsas.any (fun l => l.origin == ad && l.nodeId == id) = true ↔
    ∃ l ∈ s.fab.lsas, l.origin = ad ∧ l.nodeId = id := by simp

theorem exec_lsaExpiry_known (hknown : ∃ l ∈ s.fab.lsas, l.origin = ad ∧ l.nodeId = id) :
    exec (.lsaExpiry ad id) s = .next (State.routeWake { s with
      fab.lsas := s.fab.lsas.filter (fun l => !(l.origin == ad && l.nodeId == id)) }) :=
  congrArg Host.Outcome.next (if_pos (any_lsa_iff.mpr hknown))

theorem exec_lsaExpiry_unknown (hunknown : ∀ l ∈ s.fab.lsas, ¬ (l.origin = ad ∧ l.nodeId = id)) :
    exec (.lsaExpiry ad id) s = .next s :=
  congrArg Host.Outcome.next (if_neg fun h => by
    obtain ⟨l, hl, hsame⟩ := any_lsa_iff.mp h
    exact hunknown l hl hsame)

end

/-! ### Routes are computed and installed (R336, R340, R433, R441) -/

theorem exec_routeCompute_powered (hon : s.domainCore = true ∨ s.pwr.routeWake = true) :
    exec .routeCompute s = .next { s with fab.computed := some s.computeRoutes } :=
  congrArg Host.Outcome.next (if_pos (Bool.or_eq_true_iff.mpr hon))

theorem exec_routeInstallDone_none (hnone : s.fab.computed = none) : exec .routeInstallDone s = .next s := by
  show execRouteInstallDone s = _
  simp only [execRouteInstallDone, hnone]

/-- A computed table in force, with the repairs of the ports that are down, and event 0x8004 of its size (R336, R340, R358). -/
def State.installed (s : State) (t : Tab Route) : State :=
  let r := ((List.range 5).filter (fun n => (s.port n).st != .up)).foldl (fun y n => repair n y) t
  ({ s with fab.routes := r, fab.computed := none } : State).event 0x8004 1
    [(r.filter (fun e => e.2.valid)).length, (r.filter (fun e => e.2.altValid)).length]

theorem exec_routeInstallDone_some {t : Tab Route} (hsome : s.fab.computed = some t) :
    exec .routeInstallDone s = .next (if (s.installed t).pwr.routeWake then { s.installed t with
        pwr.routeWake := false, pwr.core := (s.installed t).pwr.st != .dark }
      else ((s.installed t).setReady 7 true).findBoss) := by
  show execRouteInstallDone s = _
  simp only [execRouteInstallDone, hsome]
  rfl

end

/-- Settles O42: an expiry asks whether the database holds the advert, an installation whether a table waits and for what. -/
theorem linkStateAndRoutes : Obligations.LinkStateAndRoutes := by
  refine fun s => ⟨rfl, fun hno => ?_, fun hown => ?_, fun _ _ => exec_lsaExpiry_known, fun _ _ => exec_lsaExpiry_unknown,
    exec_routeCompute_powered, exec_routeInstallDone_none, fun t hsome => ?_,
    fun a b hmine => congrArg Host.Outcome.next (if_pos hmine),
    fun a b hother => congrArg Host.Outcome.next (if_neg (ne_true_of_eq_false hother))⟩
  · rw [exec_lsaTick, hno]; rfl
  · rw [exec_lsaTick, hown]; rfl
  · exact ⟨fun hwake => (exec_routeInstallDone_some hsome).trans (congrArg _ (if_pos hwake)),
      fun hplain => (exec_routeInstallDone_some hsome).trans (congrArg _ (if_neg (ne_true_of_eq_false hplain)))⟩

end Sys2Proof.Machine
end

section
/-! PROOFS. Redundant pair operation: ownership, takeover and planned handover (R362, R363, R365, R371, R373; log 54), and the
canary (R364, R365, R425). -/
namespace Sys2Proof.Machine

open Sys2Proof

/-! ### Ownership (R362, R363) -/

section
variable {s : State}

theorem exec_sideBPowerupTimeout_takes (hpaired : s.pair.paired = true) (hside : s.pair.sideB = true)
    (hhigh : s.pair.peerLow = false) : exec .sideBPowerupTimeout s = .next (s.takeOwner 1) :=
  congrArg Host.Outcome.next (if_pos ⟨hpaired, hside, by simp [hhigh]⟩)

theorem exec_sideBPowerupTimeout_stays (h : s.pair.paired = false ∨ s.pair.sideB = false ∨ s.pair.peerLow = true) :
    exec .sideBPowerupTimeout s = .next s :=
  congrArg Host.Outcome.next (if_neg (by rcases h with h | h | h <;> simp [h]))

/-- The partner's pin as OWN_CHECK reads it. -/
def State.peerPin (s : State) (low : Bool) : State :=
  { s with pair.peerLow := low, pair.peerSeen := s.pair.peerSeen || low }

section
variable (hpaired : s.pair.paired = true) (low : Bool)
include hpaired

theorem exec_ownCheck_paired :
    exec (.ownCheck low) s = .next (if s.pair.owner ∧ low ∧ s.pair.sideB then
      raise 101 (((s.peerPin low).releaseOwn.setW1c 0x0C04 23).event 0x9003 3 [1]) else s.peerPin low) := by
  refine (if_neg ?_).trans rfl
  simp [hpaired]

end

theorem exec_handoverPullRelease_pulling (hpull : s.pair.pulling = true) :
    exec .handoverPullRelease s = .next { s with pair.pulling := false, pair.handoverLow := false } :=
  congrArg Host.Outcome.next (if_pos hpull)
theorem exec_handoverPullRelease_idle (hidle : s.pair.pulling = false) : exec .handoverPullRelease s = .next s :=
  congrArg Host.Outcome.next (if_neg (ne_true_of_eq_false hidle))

/-! ### The steps of a takeover (R371) -/

theorem exec_takeoverSendAsDrive_due (hdue : s.pfr.takeStep = 1) (l : List (Fin 128 × BitVec 16)) :
    let z := (l.filter (fun p => s.hqi.posting.contains p)).foldl (fun (y : State) p => y.countPosted p.1 p.2) s
    exec (.takeoverSendAsDrive l) s =
      .next (State.readPage { z with pfr.takeStep := 2, hqi.noFetch := false, hqi.posting := [] }).fetchAll :=
  congrArg Host.Outcome.next (if_neg (not_not_intro hdue))
theorem exec_takeoverSendAsDrive_idle (hidle : s.pfr.takeStep ≠ 1) (l : List (Fin 128 × BitVec 16)) :
    exec (.takeoverSendAsDrive l) s = .next s :=
  congrArg Host.Outcome.next (if_pos hidle)

theorem exec_takeoverRebuildDone_owner (hdue : s.pfr.takeStep ≠ 0) (hown : s.pair.owner = true) :
    let z : State := { s.mirroredData with pfr.takeStep := 0, rpl.halt := false }
    let y := (z.zon.zones.foldl (fun (a : State) e => (a.zone e.1).groups.foldl (fun (b : State) g =>
      if g.isOpen && g.acc.isNone then b.startRebuild e.1 g else b) a) z).rebuildAll
    let x := y.hqi.cmds.foldl (fun (a : State) c => if isReadOpc c.opc.toNat && c.st == .running then a.goRead c else a) y
    exec .takeoverRebuildDone s = .next ((x.pumpWrites none).wakeData.pumpReads).wakeWaiters :=
  congrArg Host.Outcome.next (if_neg (by simp [hdue, hown]))

/-! ### A planned handover (R373) -/

section
variable (hyield : s.pair.yielding = true) (hempty : s.seq.banks.all (fun e => e.2.all (·.isOver)) = true)
include hyield hempty

/-- With every bank empty a yielding owner sends its last state, and pulls the handover once that is acknowledged. -/
theorem exec_yieldHandover_empty :
    exec .yieldHandover s = .next (if s.pfr.takeStep ≠ 5 then { (s.pairSend 1 s.alignBytes).mirrorQ with pfr.takeStep := 5 }
      else if s.pfr.unacked = [] then s.pullHandover else s) :=
  congrArg Host.Outcome.next (if_neg (by rw [hyield, hempty]; decide))

end
end

/-- Settles O43, by who holds the part, the takeover's step and what the partner has acknowledged. -/
theorem ownershipChangesHands : Obligations.OwnershipChangesHands := by
  refine fun s => ⟨exec_sideBPowerupTimeout_takes, exec_sideBPowerupTimeout_stays,
    fun low hpaired => ⟨fun hown hlow hside => ?_, fun hkeeps => ?_⟩,
    exec_handoverPullRelease_pulling, exec_handoverPullRelease_idle,
    exec_takeoverSendAsDrive_due, exec_takeoverSendAsDrive_idle, exec_takeoverRebuildDone_owner,
    fun hyield hempty => ⟨fun hstep => ?_, fun hstep hacked => ?_, fun hstep hunacked => ?_⟩⟩
  · exact (exec_ownCheck_paired hpaired low).trans (congrArg _ (if_pos ⟨hown, hlow, hside⟩))
  · refine (exec_ownCheck_paired hpaired low).trans (congrArg _ (if_neg ?_))
    rcases hkeeps with h | h | h <;> simp [h]
  · exact (exec_yieldHandover_empty hyield hempty).trans (congrArg _ (if_pos hstep))
  · exact (exec_yieldHandover_empty hyield hempty).trans (congrArg _ ((if_neg (not_not_intro hstep)).trans (if_pos hacked)))
  · exact (exec_yieldHandover_empty hyield hempty).trans (congrArg _ ((if_neg (not_not_intro hstep)).trans (if_neg hunacked)))

/-! ### The canary (R364, R365) -/

/-- A window that brought a good canary: its bits taken, one more good window in a row (R365). -/
def State.goodWindow (s : State) (d2 : Nat) : State := { s with
  pair.missRun := 0, pair.goodRun := s.pair.goodRun + 1, pair.canaryOk := true, pair.peerAligned := bitOf d2 1
  pair.peerYield := bitOf d2 2, pair.peerLow := bitOf d2 0, pair.peerSeen := s.pair.peerSeen || bitOf d2 0 }

/-- A window that brought none: one more miss in a row (R365, R425). -/
def State.missedWindow (s : State) : State := { s.count 185 1 with
  pair.missRun := s.pair.missRun + 1, pair.goodRun := 0, pair.canaryOk := false, pair.missed := satInc s.pair.missed }

section
variable {s : State} (hpaired : s.pair.paired = true)
include hpaired

theorem exec_canaryTick_linked (hup : (s.port 4).st = .up) :
    let d2 := BitVec.ofNat 8 (b2n s.pair.owner + 2 * b2n s.pair.aligned + 4 * b2n s.pair.yielding)
    exec .canaryTick s = .next (({ s with pair.canary := s.pair.canary + 1 } : State).send
      (.canary s.pair.canary d2 (s.pair.canary ^^^ d2 ^^^ 0xA5))) :=
  congrArg Host.Outcome.next (if_neg (by simp [hpaired, hup]))

variable {l0 l1 : Option (BitVec 24)}

theorem exec_canaryWindow_good {d2 : Nat} (hcanary : (canaryOf l0).or (canaryOf l1) = some d2)
    (hrun : s.pair.goodRun + 1 ≠ 1000) : exec (.canaryWindow l0 l1) s = .next (s.goodWindow d2) := by
  show execCanaryWindow l0 l1 s = _
  rw [execCanaryWindow, if_neg (by simp [hpaired])]
  simp only [hcanary]
  exact if_neg hrun

theorem exec_canaryWindow_missed (hcanary : (canaryOf l0).or (canaryOf l1) = none) :
    exec (.canaryWindow l0 l1) s = .next (if s.pair.missRun ≠ 7 then s.missedWindow
      else if s.pair.owner then s.missedWindow.partnerLost raise 1
      else if s.flag 0x0C00 1 ∧ s.pair.aligned ∧ !s.pair.noPull then s.missedWindow.pullHandover
      else s.missedWindow.event 0x9001 2 [1]) := by
  have hrun : s.missedWindow.pair.missRun ≠ 8 ↔ s.pair.missRun ≠ 7 := by
    show s.pair.missRun + 1 ≠ 8 ↔ _
    omega
  show execCanaryWindow l0 l1 s = _
  rw [execCanaryWindow, if_neg (by simp [hpaired])]
  simp only [hcanary, apply_ite Host.Outcome.next]
  exact if_congr hrun rfl rfl

end

/-- Settles O44, by what the lanes brought and, at the eighth miss, by who owns the part and whether the shadow may fail over. -/
theorem canariesCrossTheBridge : Obligations.CanariesCrossTheBridge := by
  refine fun s => ⟨fun hpaired hup => ⟨_, exec_canaryTick_linked hpaired hup, rfl, rfl, rfl⟩,
    fun hpaired l0 l1 => ⟨fun d2 hcanary => exec_canaryWindow_good hpaired hcanary, fun hcanary => ?_⟩⟩
  rw [exec_canaryWindow_missed hpaired hcanary]
  refine ⟨fun hrun => congrArg _ (if_pos hrun), fun hrun hown => ?_, fun hrun hshadow => ?_⟩
  · rw [if_neg (not_not_intro hrun), if_pos hown]; rfl
  · rw [if_neg (not_not_intro hrun), if_neg (ne_true_of_eq_false hshadow)]
    refine ⟨fun hfail haligned hpull => congrArg _ (if_pos ⟨hfail, haligned, by simp [hpull]⟩), fun h => congrArg _ (if_neg ?_)⟩
    rcases h with h | h | h <;> simp [h]

end Sys2Proof.Machine
end

section
/-! PROOFS. Pair frames (R366 to R369, R375; log 21, log 55): when a frame is taken, what each kind does, and how the sender
keeps and repeats its own. -/
namespace Sys2Proof.Machine

open Sys2Proof

/-! ### Frames sent (R366) -/

/-- A completion that waits for a frame, with the frames acknowledged up to `pack` (R369). -/
def Post.released (pack : BitVec 16) (p : Post) : Post :=
  match p.need with
  | some q => if decide ((pack - q).toNat < 32768) then { p with need := none } else p
  | none => p

theorem Post.need_released {pack q : BitVec 16} {p : Post} (h : (p.released pack).need = some q) :
    decide ((pack - q).toNat < 32768) = false := by
  unfold Post.released at h
  split at h
  · split at h
    · cases h
    · next hneed hnot => rw [hneed] at h; cases h; simpa using hnot
  · next hnone => rw [hnone] at h; cases h

theorem exec_pairFrameRetry_none {s : State} (hnone : s.pfr.unacked = []) : exec .pairFrameRetry s = .next s :=
  congrArg Host.Outcome.next (if_pos (.inr hnone))

theorem State.pairTake_past {s : State} {q : BitVec 16} (f : State → State)
    (h : s.pfr.fenced = true ∨ (q ≠ s.pfr.pack + 1 ∧ 32768 ≤ (s.pfr.pack - q).toNat)) : s.pairTake q f = s := by
  unfold State.pairTake
  obtain h | ⟨hq, hold⟩ := h
  · rw [if_pos (by simp [h])]
  · rw [if_neg hq, if_neg (Nat.not_lt.mpr hold), ite_self]

section
variable {s : State} (hpaired : s.pair.paired = true)
include hpaired

theorem exec_pairFrameRetry_some (hsome : s.pfr.unacked ≠ []) :
    exec .pairFrameRetry s = .next (if 4 ≤ s.pfr.reps then
        raise 102 (State.partnerLost { s with pfr.reps := 0, pfr.unacked := [] } raise 2)
      else s.pfr.unacked.foldl (fun (y : State) f => (y.count 184 1).send (.pair f.1 f.2.1 f.2.2))
        { s with pfr.reps := s.pfr.reps + 1 }) :=
  congrArg Host.Outcome.next (if_neg (by simp [hpaired, hsome]))

/-- Frames that an acknowledgement covers leave, and what waited for them goes on (R366, R369). -/
theorem exec_pairAck_plain (hsnap : s.pfr.snap = none) (pack : BitVec 16) :
    let done := fun (q : BitVec 16) => decide ((pack - q).toNat < 32768)
    exec (.pairAck pack) s = .next { s with
      pfr.unacked := s.pfr.unacked.filter (fun f => !done f.1)
      pfr.reps := if s.pfr.unacked.any (fun f => done f.1) then 0 else s.pfr.reps
      hqi.posts := s.hqi.posts.map (Post.released pack) } := by
  intro done
  show execPairAck pack s = _
  rw [execPairAck, if_neg (by simp [hpaired])]
  simp only [hsnap]
  rfl

theorem exec_alignLate_paired :
    exec .alignLate s = .next (if s.pair.owner then s else s.alignLost 0 0) := by
  refine congrArg Host.Outcome.next ?_
  cases s.pair.owner <;> simp [hpaired]

theorem exec_alignSend_owner (howner : s.pair.owner = true) (hout : ∃ n < 4, (s.act n).st ≠ .parked) :
    exec .alignSend s = .next (s.pairSend 1 s.alignBytes) :=
  congrArg Host.Outcome.next (if_pos ⟨hpaired, howner, by simpa using hout⟩)

/-! ### Frames received (R366) -/

variable {q : BitVec 16} (f : State → State)

theorem State.pairTake_again (hlink : s.pfr.fenced = false) (hq : q ≠ s.pfr.pack + 1)
    (hold : (s.pfr.pack - q).toNat < 32768) : s.pairTake q f = s.pairSend 0 [] :=
  (if_neg (by simp [hpaired, hlink])).trans ((if_neg hq).trans (if_pos hold))

theorem State.pairTake_next (hlink : s.pfr.fenced = false) (hq : q = s.pfr.pack + 1) :
    s.pairTake q f = (f { s with pfr.pack := s.pfr.pack + 1 }).pairSend 0 [] := by
  simp [State.pairTake, hpaired, hlink, hq]

end

/-- The frames that carry state to the shadow, each with its number; a DATA frame within memory (R366 to R369). -/
def IsStateFrame (q : BitVec 16) (x : Instr) : Prop :=
  (∃ r l, x = .alignFrame q r l) ∨ (∃ a h k p l, x = .selectFrame q a h k p l) ∨ (∃ r, x = .jrnl q r) ∨
    (∃ c, x = .qstate q c) ∨ (∃ m, x = .snapshotFrame q m) ∨ (∃ o v, x = .cfgFrame q o v) ∨
    (∃ a b, x = .pairData q a b ∧ a.toNat + b.length ≤ memTop)

/-- Each frame is taken by its number, and its effect, but for a CFG frame's, is none at the owner. -/
theorem exec_stateFrame {q : BitVec 16} {x : Instr} (hx : IsStateFrame q x) (s : State) :
    ∃ f, exec x s = .next (s.pairTake q f) ∧
      ((∀ o v, x ≠ .cfgFrame q o v) → ∀ z : State, z.pair.owner = true → f z = z) := by
  obtain ⟨r, l, rfl⟩ | ⟨a, h, k, p, l, rfl⟩ | ⟨r, rfl⟩ | ⟨c, rfl⟩ | ⟨m, rfl⟩ | ⟨o, v, rfl⟩ | ⟨a, b, rfl, hin⟩ := hx
  · exact ⟨_, rfl, fun _ z hz => if_pos hz⟩
  · exact ⟨_, rfl, fun _ z hz => if_pos hz⟩
  · exact ⟨_, rfl, fun _ z hz => if_pos (by simp [hz])⟩
  · exact ⟨_, rfl, fun _ z hz => if_pos hz⟩
  · exact ⟨_, rfl, fun _ z hz => if_pos hz⟩
  · exact ⟨_, rfl, fun hne => absurd rfl (hne o v)⟩
  · exact ⟨_, exec_pairData_inside fun ⟨_, _, hout⟩ => absurd hin (Nat.not_le.mpr hout), fun _ z hz => if_pos hz⟩

/-! ### Frames in sequence at the shadow (R367 to R369) -/

section
variable {s : State} (hpaired : s.pair.paired = true) (hlink : s.pfr.fenced = false) (hshadow : s.pair.owner = false)
include hpaired hlink

/-- The state that has taken the next frame's number. -/
def State.nextFrame (s : State) : State := { s with pfr.pack := s.pfr.pack + 1 }

theorem exec_cfgFrame_next (o : BitVec 16) (v : Word) :
    exec (.cfgFrame (s.pfr.pack + 1) o v) s = .next ((s.nextFrame.takeCfg o.toNat v.toNat).pairSend 0 []) :=
  congrArg Host.Outcome.next (State.pairTake_next hpaired _ hlink rfl)

theorem exec_jrnl_bad {r : List Byte} (hbad : recOk r = false) :
    exec (.jrnl (s.pfr.pack + 1) r) s = .next (s.nextFrame.pairSend 0 []) :=
  congrArg Host.Outcome.next ((State.pairTake_next hpaired _ hlink rfl).trans
    (congrArg (State.pairSend · 0 []) (if_pos (by simp [hbad]))))

include hshadow

theorem State.pairTake_shadow (f : State → State) :
    s.pairTake (s.pfr.pack + 1) (fun z => if z.pair.owner then z else f z) = (f s.nextFrame).pairSend 0 [] :=
  (State.pairTake_next hpaired _ hlink rfl).trans
    (congrArg (State.pairSend · 0 []) (if_neg (ne_true_of_eq_false hshadow)))

theorem exec_selectFrame_next (a : Fin 4) (h : BitVec 6) (k : BitVec 24) (p : BitVec 5) (l : List (Fin 64)) :
    exec (.selectFrame (s.pfr.pack + 1) a h k p l) s = .next ((s.nextFrame.modAct a.val (fun y => { y with
      lastSet := some h, heads := l, track := k + p.setWidth 24 })).pairSend 0 []) :=
  congrArg Host.Outcome.next (State.pairTake_shadow hpaired hlink hshadow _)

theorem exec_qstate_next (c : QChange) :
    exec (.qstate (s.pfr.pack + 1) c) s = .next ((s.nextFrame.takeQ c).pairSend 0 []) :=
  congrArg Host.Outcome.next (State.pairTake_shadow hpaired hlink hshadow _)

theorem exec_snapshotFrame_next (m : Byte) :
    exec (.snapshotFrame (s.pfr.pack + 1) m) s = .next (State.pairSend { s.nextFrame with pfr.snapIn := m == 1 } 0 []) :=
  congrArg Host.Outcome.next (State.pairTake_shadow hpaired hlink hshadow _)

/-- The shadow writes the record with FLAGS[2] set, applies it, and drops the unit it commits (R221, R369). -/
theorem exec_jrnl_good {r : List Byte} (hgood : recOk r = true) :
    let j : JRec := { parseRec r with flags := (parseRec r).flags ||| 4 }
    let y := State.replayRec { s.nextFrame with
      nv.journal := tset s.nv.journal s.nv.jslot (some j), nv.jslot := (s.nv.jslot + 1) % 1024, nv.jseq := j.jseq + 1
      zon.unchk := s.zon.unchk + 1 } j
    exec (.jrnl (s.pfr.pack + 1) r) s = .next (State.pairSend { y with
      cmp.units := y.cmp.units.filter (fun u => !(u.csec == j.csec && (j.jtype == 1 || j.jtype == 2))) } 0 []) :=
  congrArg Host.Outcome.next ((State.pairTake_next hpaired _ hlink rfl).trans
    (congrArg (State.pairSend · 0 []) (if_neg (by simp [hgood, hshadow]))))

theorem exec_pairData_next {a : BitVec 64} {b : List Byte} (hin : a.toNat + b.length ≤ memTop) :
    exec (.pairData (s.pfr.pack + 1) a b) s = .next ((s.nextFrame.store a.toNat b).pairSend 0 []) :=
  (exec_pairData_inside fun ⟨_, _, hout⟩ => absurd hin (Nat.not_le.mpr hout)).trans
    (congrArg Host.Outcome.next (State.pairTake_shadow hpaired hlink hshadow _))

theorem exec_alignFrame_next (r : Word) (l : List AlignAct) :
    let y := l.foldl (fun (w : State) a => w.alignAct a) ({ s.nextFrame with atb.rev := r, pfr.aligns := 0 } : State)
    let all := (List.range 4).all (fun n => (y.act n).st == .parked || (y.act n).st == .fenced ||
      decide (2 ≤ tget 0 y.pfr.agree n))
    exec (.alignFrame (s.pfr.pack + 1) r l) s = .next ((if all && y.pfr.apart = 0 && !y.pair.aligned then
      ({ y with pair.aligned := true, pair.noPull := false } : State).setReady 20 true else y).pairSend 0 []) :=
  congrArg Host.Outcome.next (State.pairTake_shadow hpaired hlink hshadow _)

end

/-- Settles O45: a frame is judged by its number alone, and in sequence at the shadow each kind has its own effect. -/
theorem pairFramesInSequence : Obligations.PairFramesInSequence := by
  refine fun s hpaired => ⟨fun pack => ?_, exec_pairFrameRetry_none, fun hsome => ⟨fun hreps => ?_, fun hreps => ?_⟩,
    fun hshadow => ?_, fun howner => ?_, exec_alignSend_owner hpaired, fun q => ⟨fun x hx => ⟨fun hpast => ?_, fun hagain => ?_,
      fun hlink hq howner => ?_⟩, fun hlink hshadow hq => ?_⟩⟩
  · by_cases hsnap : s.pfr.snap = none
    · refine ⟨_, exec_pairAck_plain hpaired hsnap pack, fun _ => ⟨rfl, fun p hp q hq => ?_, List.length_map .., rfl⟩⟩
      obtain ⟨p, -, rfl⟩ := List.mem_map.mp hp
      exact Post.need_released hq
    · obtain ⟨t, ht⟩ := exec_answers (c := .pairAck pack) (fun _ _ _ => by simp) s
      exact ⟨t, ht, fun h => absurd h hsnap⟩
  · exact (exec_pairFrameRetry_some hpaired hsome).trans (congrArg _ (if_neg (Nat.not_le.mpr hreps)))
  · exact (exec_pairFrameRetry_some hpaired hsome).trans (congrArg _ (if_pos hreps))
  · exact (exec_alignLate_paired hpaired).trans (congrArg _ (if_neg (ne_true_of_eq_false hshadow)))
  · exact (exec_alignLate_paired hpaired).trans (congrArg _ (if_pos howner))
  · obtain ⟨f, hf, -⟩ := exec_stateFrame hx s
    rw [hf, State.pairTake_past f hpast]
  · obtain ⟨f, hf, -⟩ := exec_stateFrame hx s
    obtain ⟨hlink, hq, hold⟩ := hagain
    rw [hf, State.pairTake_again hpaired f hlink hq hold]
  · obtain ⟨f, hf, hid⟩ := exec_stateFrame hx s
    exact ⟨f s.nextFrame, hf.trans (congrArg _ (State.pairTake_next hpaired f hlink hq)), fun hne => hid hne _ howner⟩
  · subst hq
    exact ⟨exec_selectFrame_next hpaired hlink hshadow, exec_cfgFrame_next hpaired hlink, exec_qstate_next hpaired hlink hshadow,
      exec_snapshotFrame_next hpaired hlink hshadow, fun r hbad => exec_jrnl_bad hpaired hlink hbad,
      fun r hgood => exec_jrnl_good hpaired hlink hshadow hgood, fun a b hin => exec_pairData_next hpaired hlink hshadow hin,
      exec_alignFrame_next hpaired hlink hshadow⟩

end Sys2Proof.Machine
end

section
/-! PROOFS. End-to-end delivery and a lost gateway (R342, R344, R347, R348, R425), packets of a link (R323, R324; log 49), and the pins
of a redundant pair (R362, R363, R365; log 54). -/
namespace Sys2Proof.Machine

open Sys2Proof

/-! ### End to end (R342, R344) -/

section
variable {s : State}

/-- Packets to `d` that an acknowledgement of `q` leaves unacknowledged (R342). -/
def State.unackedAfter (s : State) (d : Nat) (q : Word) : List Pkt :=
  (s.tx d).unacked.filter (fun p => decide (2 ^ 31 ≤ (q - p.seq).toNat))

/-- An acknowledgement of `q` has freed what it covers, and what waited has been sent (R342). -/
def State.acked (s : State) (d : Nat) (q : Word) : State :=
  let z := s.modTx d (fun x => { x with unacked := s.unackedAfter d q, tries := 0 })
  z.pumpTx d (z.tx d).queue.length

section
variable {src : BitVec 12} {q : Word}

theorem exec_e2eAck_old (hold : s.unackedAfter src.toNat q = (s.tx src.toNat).unacked) : exec (.e2eAck src q) s = .next s :=
  congrArg Host.Outcome.next (if_pos (congrArg List.length hold))

theorem exec_e2eAck_new (hnew : s.unackedAfter src.toNat q ≠ (s.tx src.toNat).unacked) :
    exec (.e2eAck src q) s = .next (if (s.acked src.toNat q).fab.gwDown && src == (s.acked src.toNat q).gw then
      State.flushGw { s.acked src.toNat q with fab.gwDown := false } else s.acked src.toNat q) :=
  congrArg Host.Outcome.next (if_neg fun hlen => hnew (List.filter_sublist.eq_of_length hlen))

end

section
variable {d : BitVec 12}

theorem exec_e2eRetxTimeout_acked (hall : (s.tx d.toNat).unacked = []) : exec (.e2eRetxTimeout d) s = .next s :=
  congrArg Host.Outcome.next (if_pos hall)

/-- Unacknowledged packets are repeated with their flag while tries are left, and then their destination is unreachable. -/
theorem exec_e2eRetxTimeout_unacked (hsome : (s.tx d.toNat).unacked ≠ []) :
    exec (.e2eRetxTimeout d) s = .next (if s.fld 0x0860 0 4 ≤ (s.tx d.toNat).tries then s.unreachable d
      else (s.tx d.toNat).unacked.foldl (fun (y : State) p => y.forward none { p with flags := p.flags ||| 4 })
        ((s.modTx d.toNat (fun y => { y with tries := y.tries + 1 })).count 181 (s.tx d.toNat).unacked.length)) :=
  congrArg Host.Outcome.next (if_neg hsome)

end

/-! ### A lost gateway (R347) -/

section
variable (hup : s.fab.gwDown = false)
include hup

theorem exec_gwRetryTick_reachable : exec .gwRetryTick s = .next s := congrArg Host.Outcome.next (if_neg (by simp [hup]))
theorem exec_gwHoldExpiry_reachable : exec .gwHoldExpiry s = .next s := congrArg Host.Outcome.next (if_pos (by simp [hup]))

end

section
variable (hdown : s.fab.gwDown = true)
include hdown

theorem exec_gwRetryTick_lost :
    exec .gwRetryTick s = .next (if (s.tx s.gw.toNat).unacked = [] then s.flushGw else s) :=
  congrArg Host.Outcome.next (if_congr (and_iff_right hdown) rfl rfl)

theorem exec_gwHoldExpiry_lost :
    let n := (s.hqi.cmds.filter (fun c => !c.peer)).length + s.hqi.posts.length
    let z := ({ s.endSilently with fab.gwHeld := [], fab.rtags := [] } : State)
    let y := z.modTx z.gw.toNat (fun x => { x with unacked := [], queue := [], tries := 0, resync := true })
    exec .gwHoldExpiry s = .next (raise 98 (y.eventSrc 0x8009 3 98 [y.gw.toNat, n])) :=
  congrArg Host.Outcome.next (if_neg (by simp [hdown]))

end

/-! ### Packets of a link (R323, R324) -/

section
variable {n : Fin 5} (h : LinkHdr) (p : Pkt)

theorem exec_linkPacket_down (hst : (s.port n.val).st ≠ .up) (c : LCrc) : exec (.linkPacket n h c p) s = .next s :=
  congrArg Host.Outcome.next (if_pos hst)

section
variable (hst : (s.port n.val).st = .up)
include hst

theorem exec_linkPacket_inverted : exec (.linkPacket n h .inverted p) s = .next s :=
  congrArg Host.Outcome.next (if_neg (not_not_intro hst))
theorem exec_linkPacket_bad : exec (.linkPacket n h .bad p) s = .next (s.nak n) :=
  congrArg Host.Outcome.next (if_neg (not_not_intro hst))

/-- A packet with a good check tells its header, and is taken when it is the next in order (R324). -/
theorem exec_linkPacket_good : let z := s.takeHdr n h
    exec (.linkPacket n h .good p) s = .next (if h.lseq ≠ (z.port n.val).rxSeq then z.nak n
      else (z.modPort n.val (fun q => { q with rxSeq := q.rxSeq + 1, naked := false
                                               freed := tset q.freed h.vc.toNat (tget 0 q.freed h.vc.toNat + pktUnits p) })).takePkt
        (some n) p) :=
  congrArg Host.Outcome.next (if_neg (not_not_intro hst))

end
end

/-! ### The pins of a pair (R362, R363) -/

theorem State.takeWaiting_of_own_address (haddr : s.fab.takeover = false) : s.takeWaiting = s :=
  if_pos (by simp [haddr])

section
variable (hsingle : s.pair.paired = false) (haddr : s.fab.takeover = false)
include hsingle haddr

theorem exec_handoverNFall_single (b : Bool) : exec (.handoverNFall b) s = .next s :=
  congrArg Host.Outcome.next ((congrArg State.takeWaiting (if_pos (by simp [hsingle]))).trans
    (State.takeWaiting_of_own_address haddr))
theorem exec_ownPeerReleaseTimeout_single : exec .ownPeerReleaseTimeout s = .next s :=
  congrArg Host.Outcome.next ((congrArg State.takeWaiting (if_neg (by simp [hsingle]))).trans
    (State.takeWaiting_of_own_address haddr))

end

section
variable (hpaired : s.pair.paired = true)
include hpaired

theorem exec_ownPeerReleaseTimeout_paired :
    exec .ownPeerReleaseTimeout s = .next (if s.pair.peerSeen ∧ !s.pair.handoverLow then
      ({ s with pair.peerLow := false } : State).takeOwner 4 else s).takeWaiting :=
  congrArg (fun z => Host.Outcome.next (State.takeWaiting z)) (if_congr (and_iff_right hpaired) rfl rfl)

section
variable (b : Bool)

/-- The pin HANDOVER_N is low: an owner releases, and a shadow takes over unless it sees a silent owner in place and neither pulls
itself nor is told by the enclosure (R362, R363). -/
theorem exec_handoverNFall_paired : let z : State := { s with pair.handoverLow := true }
    exec (.handoverNFall b) s = .next (if s.pair.owner then z.releaseOwn
      else if s.pair.peerLow && !s.pair.canaryOk && !s.pair.pulling && !b then z
      else ({ z with pair.peerLow := false } : State).takeOwner
        (if s.pair.pulling then 2 else if b then 3 else if s.pair.peerYield then 5 else 6)).takeWaiting :=
  congrArg (fun z => Host.Outcome.next (State.takeWaiting z)) (if_neg (by simp [hpaired]))

end
end
end

/-- Settles O50, by what an acknowledgement leaves, the tries made, the packet's check and number, and the pins seen. -/
theorem deliveryEndToEndAndLinks : Obligations.DeliveryEndToEndAndLinks := by
  refine fun s => ⟨fun src q => ⟨exec_e2eAck_old, fun hnew => ⟨fun hkeep => ?_, fun hdown hsrc => ?_⟩⟩,
    fun d => ⟨exec_e2eRetxTimeout_acked, fun hsome hspent => ?_, fun hsome hleft => ?_⟩,
    fun hup => ⟨exec_gwRetryTick_reachable hup, exec_gwHoldExpiry_reachable hup⟩,
    fun hdown => ⟨fun hacked => ?_, fun hsome => ?_, exec_gwHoldExpiry_lost hdown⟩,
    fun n h p => ⟨exec_linkPacket_down h p, fun hst => ⟨exec_linkPacket_inverted h p hst, exec_linkPacket_bad h p hst,
      fun hseq => ?_, fun hseq => ?_⟩⟩,
    fun hsingle b haddr => ⟨exec_handoverNFall_single hsingle haddr b, exec_ownPeerReleaseTimeout_single hsingle haddr⟩,
    fun hpaired => ⟨fun howner b => ?_, fun hshadow => ?_, fun hshadow hpull => ⟨fun hlow hsilent => ?_, fun hclear => ?_⟩,
      fun hseen hhigh => ?_, fun hstays => ?_⟩⟩
  · refine (exec_e2eAck_new hnew).trans (congrArg _ (if_neg fun h => ?_))
    rw [Bool.and_eq_true, beq_iff_eq] at h
    exact hkeep.elim (fun hup => absurd h.1 (ne_true_of_eq_false hup)) (fun hne => hne h.2)
  · exact (exec_e2eAck_new hnew).trans (congrArg _ (if_pos (Bool.and_eq_true_iff.mpr ⟨hdown, beq_iff_eq.mpr hsrc⟩)))
  · exact (exec_e2eRetxTimeout_unacked hsome).trans (congrArg _ (if_pos hspent))
  · exact (exec_e2eRetxTimeout_unacked hsome).trans (congrArg _ (if_neg (Nat.not_le.mpr hleft)))
  · exact (exec_gwRetryTick_lost hdown).trans (congrArg _ (if_pos hacked))
  · exact (exec_gwRetryTick_lost hdown).trans (congrArg _ (if_neg hsome))
  · exact (exec_linkPacket_good h p hst).trans (congrArg _ (if_pos hseq))
  · exact (exec_linkPacket_good h p hst).trans (congrArg _ (if_neg (not_not_intro hseq)))
  · rw [exec_handoverNFall_paired hpaired, if_pos howner]
  · rw [exec_handoverNFall_paired hpaired, if_neg (ne_true_of_eq_false hshadow), if_neg (by simp)]; rfl
  · rw [exec_handoverNFall_paired hpaired, if_neg (ne_true_of_eq_false hshadow), if_pos (by simp [hlow, hsilent, hpull])]
  · rw [exec_handoverNFall_paired hpaired, if_neg (ne_true_of_eq_false hshadow), if_neg (by rcases hclear with h | h <;> simp [h]),
      if_neg (ne_true_of_eq_false hpull)]
    rfl
  · rw [exec_ownPeerReleaseTimeout_paired hpaired, if_pos ⟨hseen, by simp [hhigh]⟩]
  · rw [exec_ownPeerReleaseTimeout_paired hpaired, if_neg (by rcases hstays with h | h <;> simp [h])]

end Sys2Proof.Machine
end

section
/-! PROOFS. PEER MOVE sessions on both sides (R312, R352, R353, R389; log 10, log 41, log 42, log 51). -/
namespace Sys2Proof.Machine

open Sys2Proof

theorem ite_bnot {α : Type} (b : Bool) (x y : α) : (if !b then x else y) = if b then y else x := by cases b <;> rfl

section
variable {s : State} {src : BitVec 12} {num : Word}

/-! ### PM_OPEN at the target (R352, R353, R389) -/

section
variable (cp1 cp2 : Word) (fl : Byte) (pub cert sig : List Byte)

theorem exec_pmOpen_ninth (hfull : 8 ≤ (s.fab.pm.filter (fun x => !x.isSrc)).length) :
    exec (.pmOpen src num cp1 cp2 fl pub cert sig) s = .next (s.pmRefuse src num stInternal) :=
  congrArg Host.Outcome.next (if_pos hfull)

/-- A session that has room is opened and answered when certificate and signature are good (R389). -/
theorem exec_pmOpen_room (hroom : (s.fab.pm.filter (fun x => !x.isSrc)).length < 8) :
    let peer := (s.nodeOf src).getD 0
    let own := Config.ephPub s.free
    let key := Config.ecdhKey s.free pub (pmInfo peer s.nv.nodeId pub own)
    exec (.pmOpen src num cp1 cp2 fl pub cert sig) s = .next (if s.pmGood src num pub cert sig peer s.nv.nodeId then
        State.e2eSend { s.draw with fab.pm := s.fab.pm ++ [⟨num, src, false, 3, none, [], key, own, cp1, cp2, fl, 0⟩] } src 0x41
          (leBytes 4 num.toNat ++ own ++ s.nv.cert ++ Config.deviceSign s.nv.nodeId.toNat (pmMsg own num peer s.nv.nodeId))
      else s.pmRefuse src num stPeerRefused) :=
  congrArg Host.Outcome.next ((if_neg (Nat.not_le.mpr hroom)).trans (ite_bnot _ _ _))

end

/-! ### PM_ACCEPT at the source (R352, R353, R389) -/

section
variable (pub cert sig : List Byte)

theorem exec_pmAccept_unknown (hnone : s.pmFind true src num = none) : exec (.pmAccept src num pub cert sig) s = .next s := by
  show execPmAccept src num pub cert sig s = _
  simp only [execPmAccept, State.gotPmAccept, hnone]

variable {x : PmSess} (hx : s.pmFind true src num = some x)
include hx

theorem exec_pmAccept_unexpected (hstep : x.step ≠ 1) : exec (.pmAccept src num pub cert sig) s = .next s := by
  show execPmAccept src num pub cert sig s = _
  simp only [execPmAccept, State.gotPmAccept, hx, if_pos hstep]

/-- The session that waits for its answer is keyed and its data sent, when certificate and signature are good (R352, R389). -/
theorem exec_pmAccept_waiting (hstep : x.step = 1) :
    let peer := (s.nodeOf src).getD 0
    let key := Config.ecdhKey x.keyNo pub (pmInfo s.nv.nodeId peer x.pub pub)
    exec (.pmAccept src num pub cert sig) s = .next (if s.pmGood src num pub cert sig s.nv.nodeId peer then
        State.pmSend { s with fab.pm := s.fab.pm.map (fun y => if y = x then { y with step := 3, keyNo := key, data := [] } else y) }
          x key
      else s.pmFail x stPeerRefused) := by
  show execPmAccept src num pub cert sig s = _
  simp only [execPmAccept, State.gotPmAccept, hx, if_neg (not_not_intro hstep), ite_bnot]

end

/-! ### PM_DATA at the target (R352, R353) -/

section
variable (pno : BitVec 64) (ct tag : List Byte)

theorem exec_pmData_unknown (hnone : s.pmFind false src num = none) : exec (.pmData src num pno ct tag) s = .next s := by
  show execPmData src num pno ct tag s = _
  simp only [execPmData, State.gotPmData, hnone]

variable {x : PmSess} (hx : s.pmFind false src num = some x)
include hx

theorem exec_pmData_unexpected (hstep : x.step ≠ 3) : exec (.pmData src num pno ct tag) s = .next s := by
  show execPmData src num pno ct tag s = _
  simp only [execPmData, State.gotPmData, hx, if_pos hstep]

/-- What a PM_DATA holds once opened is the next packet's data, or the session is refused (R352, R353). -/
def State.pmOpened (s : State) (src : BitVec 12) (num : Word) (pno : BitVec 64) (x : PmSess) (opened : Option (List Byte)) : State :=
  match opened with
  | none => s.pmRefuse src num stPeerRefused
  | some d => if pno.toNat ≠ x.pno ∨ 4194304 < x.data.length + d.length then s.pmRefuse src num stPeerRefused
      else { s with fab.pm := s.fab.pm.map (fun y => if y = x then { y with data := y.data ++ d, pno := y.pno + 1 } else y) }

theorem exec_pmData_keyed (hstep : x.step = 3) :
    exec (.pmData src num pno ct tag) s = .next (s.pmOpened src num pno x (Config.gcmOpen x.keyNo (pmIv num pno.toNat)
      (pmAad s.fab.addr src (((tget E2eRx.init s.fab.rx src.toNat).inst).getD 0) (ct.length + 28)) ct tag)) := by
  show execPmData src num pno ct tag s = _
  simp only [execPmData, State.gotPmData, hx, if_neg (not_not_intro hstep)]
  rfl

end

/-! ### PM_DONE on both sides (R312, R352) -/

section
variable (blocks : Nat) (st : BitVec 16) (lba : BitVec 64)

theorem exec_pmDone_unknown (hsrc : s.pmFind true src num = none) (hdst : s.pmFind false src num = none) :
    exec (.pmDone src num blocks st lba) s = .next s := by
  show execPmDone src num blocks st lba s = _
  simp only [execPmDone, State.gotPmDone, hsrc, hdst]

theorem exec_pmDone_target {x : PmSess} (hsrc : s.pmFind true src num = none) (hx : s.pmFind false src num = some x) :
    exec (.pmDone src num blocks st lba) s =
      .next (if x.step = 3 ∧ x.data.length = 4096 * blocks then s.pmAppend x else s) := by
  show execPmDone src num blocks st lba s = _
  simp only [execPmDone, State.gotPmDone, hsrc, hx]

/-- The source's command ends with the rank its blocks reached, or with the target's status in RESULT (R312). -/
theorem exec_pmDone_source {x : PmSess} {q : Fin 128} {t : BitVec 16} {c : Cmd} (hx : s.pmFind true src num = some x)
    (hcmd : x.cmd = some (q, t)) (hc : s.cmd? q.val t = some c) :
    exec (.pmDone src num blocks st lba) s = .next (if st.toNat = stSuccess then (s.pmDrop x).finish q t (rankStatus c.rank) lba.toNat
      else (s.pmDrop x).finish q t stPeerRefused (st.toNat + 131072)) := by
  have hc' : (s.pmDrop x).cmd? q.val t = some c := hc
  show execPmDone src num blocks st lba s = _
  simp only [execPmDone, State.gotPmDone, hx, hcmd, hc']

end

/-! ### Sessions refused or timed out (R312, R353) -/

section
variable {st : BitVec 16}

theorem exec_pmRefuse_source {x : PmSess} (hx : s.pmFind true src num = some x) :
    exec (.pmRefuse src num st) s = .next (s.pmFail x st.toNat) := by
  show execPmRefuse src num st s = _
  simp only [execPmRefuse, State.gotPmRefuse, hx]

theorem exec_pmRefuse_unknown (hnone : s.pmFind true src num = none) : exec (.pmRefuse src num st) s = .next s := by
  show execPmRefuse src num st s = _
  simp only [execPmRefuse, State.gotPmRefuse, hnone]

end

theorem exec_pmSessionTimeout_open {x : PmSess} (hx : s.fab.pm.find? (fun x => !x.isSrc && x.num == num && x.step != 4) = some x) :
    exec (.pmSessionTimeout num) s = .next (s.pmRefuse x.peer x.num stPeerRefused) := by
  show execPmSessionTimeout num s = _
  simp only [execPmSessionTimeout, hx]

theorem exec_pmSessionTimeout_none (hnone : s.fab.pm.find? (fun x => !x.isSrc && x.num == num && x.step != 4) = none) :
    exec (.pmSessionTimeout num) s = .next s := by
  show execPmSessionTimeout num s = _
  simp only [execPmSessionTimeout, hnone]

end

/-- Settles O49, message by message, by the session it names and the step that session has reached. -/
theorem peerMoveSessions : Obligations.PeerMoveSessions := by
  refine fun s src num => ⟨fun cp1 cp2 fl pub cert sig => ⟨exec_pmOpen_ninth cp1 cp2 fl pub cert sig,
      exec_pmOpen_room cp1 cp2 fl pub cert sig⟩,
    fun pub cert sig => ⟨exec_pmAccept_unknown pub cert sig, fun x hx => ⟨exec_pmAccept_unexpected pub cert sig hx,
      exec_pmAccept_waiting pub cert sig hx⟩⟩,
    fun pno ct tag => ⟨exec_pmData_unknown pno ct tag, fun x hx => ⟨exec_pmData_unexpected pno ct tag hx, fun hstep => ?_⟩⟩,
    fun blocks st lba => ⟨fun x q t c hx hcmd hc => ⟨?_, fun hst => ?_⟩, exec_pmDone_unknown blocks st lba,
      fun x => exec_pmDone_target blocks st lba⟩,
    fun st => ⟨fun x => exec_pmRefuse_source, exec_pmRefuse_unknown⟩,
    fun x => exec_pmSessionTimeout_open, exec_pmSessionTimeout_none⟩
  · refine (exec_pmData_keyed pno ct tag hx hstep).trans (congrArg _ ?_)
    unfold State.pmOpened
    rfl
  · rintro rfl
    exact (exec_pmDone_source blocks 0 lba hx hcmd hc).trans (congrArg _ (if_pos rfl))
  · have hfailed : st.toNat ≠ stSuccess := fun h => hst (BitVec.eq_of_toNat_eq h)
    exact (exec_pmDone_source blocks st lba hx hcmd hc).trans (congrArg _ (if_neg hfailed))

end Sys2Proof.Machine
end

section
/-! PROOFS. The button, the locate light, the SERVICE actions and both kinds of removal (R319, R442 to R446, R448; log 46,
log 64). -/
namespace Sys2Proof.Machine

open Sys2Proof

section
variable {s : State}

/-! ### The button (R442) -/

theorem exec_attnRelease_long (ms : Nat) (hlong : s.svc.longDone = true) :
    exec (.attnRelease ms) s = .next { s with svc.longDone := false } := if_pos hlong

theorem exec_attnRelease_short (ms : Nat) (hshort : s.svc.longDone = false) :
    exec (.attnRelease ms) s =
      .next (if ms < 1000 ∧ (s.policy = 1 ∨ s.policy = 2) then s.setLocate (!s.svc.locate) 1 else s.ignorePress ms) :=
  if_neg (ne_true_of_eq_false hshort)

theorem exec_attnLongPress_policy (hpol : s.policy = 2) (hfirst : s.svc.longDone = false) :
    let z : State := { s with svc.longDone := true }
    exec .attnLongPress s = .next (if s.svc.removal = .normal then z.startRemoval 1 else z.ignorePress 3000) :=
  if_neg (by simp [hpol, hfirst])

theorem exec_attnLongPress_ignored (h : s.policy ≠ 2 ∨ s.svc.longDone = true) : exec .attnLongPress s = .next s := if_pos h

/-! ### Locate times out (R443) -/

theorem exec_locateTimeout_set (hset : s.fld 0x5400 16 8 ≠ 0) : exec .locateTimeout s = .next (s.setLocate false 3) :=
  congrArg Host.Outcome.next (if_neg hset)
theorem exec_locateTimeout_unset (hunset : s.fld 0x5400 16 8 = 0) : exec .locateTimeout s = .next s :=
  congrArg Host.Outcome.next (if_pos hunset)

/-! ### SERVICE (R319, R443, R444; log 46) -/

section
variable {t : BitVec 16} {c : Cmd} (h : s.TakesAdmin t c) (hopc : c.opc = 0x0C)
include h hopc

/-- A SERVICE command that is taken up has its action's effect and completes. -/
theorem State.TakesAdmin.next_service {a : Nat} (ha : c.pf 0 0 4 = a) (f : State → State) :
    (.next (s.service t a f) : Result) = .next ((f s).finish 0 t stSuccess 0) :=
  h.next_adminCmd (congrArg BitVec.toNat hopc) (if_pos ha)

theorem exec_locateOn_taken (ha : c.pf 0 0 4 = 1) :
    exec (.locateOn t) s = .next ((s.setLocate true 2).finish 0 t stSuccess 0) := h.next_service hopc ha _
theorem exec_locateOff_taken (ha : c.pf 0 0 4 = 2) :
    exec (.locateOff t) s = .next ((s.setLocate false 2).finish 0 t stSuccess 0) := h.next_service hopc ha _
theorem exec_safeRemovalRequest_taken (ha : c.pf 0 0 4 = 3) : exec (.safeRemovalRequest t) s =
    .next ((if s.svc.removal = .normal then s.startRemoval 2 else s).finish 0 t stSuccess 0) := h.next_service hopc ha _

section
variable (ha : c.pf 0 0 4 = 4)
include ha

/-- What a cancel does: it ends the removal under way, and else nothing (R444; log 46). -/
theorem exec_safeRemovalCancel_taken : exec (.safeRemovalCancel t) s =
    .next ((if s.svc.removal = .preparing ∨ s.svc.removal = .safe then
      (if s.svc.removal == .safe then s.endRemoval else s.endRemoval.floodLsa).event 0xC005 1 [s.svc.removal.code]
      else s).finish 0 t stSuccess 0) := h.next_service hopc ha _

theorem exec_safeRemovalCancel_preparing (hprep : s.svc.removal = .preparing) : exec (.safeRemovalCancel t) s =
    .next ((s.endRemoval.floodLsa.event 0xC005 1 [Removal.preparing.code]).finish 0 t stSuccess 0) := by
  rw [exec_safeRemovalCancel_taken h hopc ha, if_pos (.inl hprep), hprep]; rfl

theorem exec_safeRemovalCancel_safe (hsafe : s.svc.removal = .safe) : exec (.safeRemovalCancel t) s =
    .next ((s.endRemoval.event 0xC005 1 [Removal.safe.code]).finish 0 t stSuccess 0) := by
  rw [exec_safeRemovalCancel_taken h hopc ha, if_pos (.inr hsafe), hsafe]; rfl

theorem exec_safeRemovalCancel_none (hnone : s.svc.removal = .normal ∨ s.svc.removal = .surprise) :
    exec (.safeRemovalCancel t) s = .next (s.finish 0 t stSuccess 0) := by
  rw [exec_safeRemovalCancel_taken h hopc ha, if_neg]
  rcases hnone with h | h <;> rw [h] <;> decide

end
end

/-! ### Safe removal runs out of time (R444) -/

theorem exec_prepTimeout_preparing (hprep : s.svc.removal = .preparing) : exec .prepTimeout s =
    .next ((s.setW1c 0x5404 25).event 0xC004 3 [if s.svc.step = 2 then 4 else 3]).endRemoval :=
  congrArg Host.Outcome.next (if_neg (not_not_intro hprep))
theorem exec_prepTimeout_idle (hidle : s.svc.removal ≠ .preparing) : exec .prepTimeout s = .next s :=
  congrArg Host.Outcome.next (if_pos hidle)

/-! ### Surprise removal (R116, R445, R446) -/

theorem exec_latchRise (s : State) : let z : State := { s with svc.latchOpen := true }
    exec .latchRise s = .next (if s.svc.removal = .safe then z.event 0xC006 0 [] else if s.svc.removal = .surprise then z
      else z.surprise 1) := by
  show execLatchRise s = _
  cases hr : s.svc.removal <;> simp only [execLatchRise, hr, reduceCtorEq, if_true, if_false]

theorem exec_prsntRise (s : State) : let z : State := { s with svc.seated := false }
    exec .prsntRise s = .next (if s.svc.removal = .safe ∨ s.svc.removal = .surprise then z else z.surprise 2) := rfl

theorem exec_surpriseEnd_surprise (hsur : s.svc.removal = .surprise) :
    exec .surpriseEnd s = .next ((State.pfailEnds { s with
      svc.removal := .normal, svc.latchOpen := false, svc.seated := true, hqi.noFetch := false
      fab.leaving := s.spn.pfailLow }).floodLsa.event 0xC008 1 []) :=
  congrArg Host.Outcome.next (if_neg (not_not_intro hsur))
theorem exec_surpriseEnd_idle (hidle : s.svc.removal ≠ .surprise) : exec .surpriseEnd s = .next s :=
  congrArg Host.Outcome.next (if_pos hidle)

end

/-- Settles O47, by the button's policy, the command's action and the state of the removal. -/
theorem buttonLocateAndRemoval : Obligations.ButtonLocateAndRemoval := by
  refine fun s => ⟨fun ms => ⟨exec_attnRelease_long ms, fun hshort hms hpol => ?_, fun hshort hno => ?_⟩,
    fun hpol hfirst => ⟨fun hnormal => ?_, fun hbusy => ?_⟩,
    exec_attnLongPress_ignored, exec_locateTimeout_set, exec_locateTimeout_unset,
    fun t c hcmd hopc hown hunanswered hidle hserves => ?_, rfl, exec_prepTimeout_preparing, exec_prepTimeout_idle,
    ⟨fun hsafe => ?_, fun hsur => ?_, fun hin => ?_⟩, ⟨fun hout => ?_, fun hin => ?_⟩,
    exec_surpriseEnd_surprise, exec_surpriseEnd_idle⟩
  · exact (exec_attnRelease_short ms hshort).trans (congrArg _ (if_pos ⟨hms, hpol⟩))
  · refine (exec_attnRelease_short ms hshort).trans (congrArg _ (if_neg ?_))
    rintro ⟨hms, hpol⟩
    omega
  · exact (exec_attnLongPress_policy hpol hfirst).trans (congrArg _ (if_pos hnormal))
  · exact (exec_attnLongPress_policy hpol hfirst).trans (congrArg _ (if_neg hbusy))
  · have h : s.TakesAdmin t c := ⟨hcmd, hown, hunanswered, hidle, hserves⟩
    exact ⟨exec_locateOn_taken h hopc, exec_locateOff_taken h hopc, exec_safeRemovalRequest_taken h hopc,
      fun ha => ⟨exec_safeRemovalCancel_preparing h hopc ha, exec_safeRemovalCancel_safe h hopc ha,
        exec_safeRemovalCancel_none h hopc ha⟩⟩
  · exact (exec_latchRise s).trans (congrArg _ (if_pos hsafe))
  · rw [exec_latchRise, hsur]; rfl
  · rw [exec_latchRise, if_neg, if_neg] <;> obtain h | h := hin <;> rw [h] <;> decide
  · exact (exec_prsntRise s).trans (congrArg _ (if_pos hout))
  · refine (exec_prsntRise s).trans (congrArg _ (if_neg ?_))
    obtain h | h := hin <;> rw [h] <;> decide

end Sys2Proof.Machine
end

section
/-! PROOFS. Sessions by challenge and signature, and public keys (R379, R381 to R384, R399; log 10, log 32, log 59). -/
namespace Sys2Proof.Machine

open Sys2Proof

/-! ### Challenges (R382) -/

section
variable {s : State} {v : Via} (hs : s.Serving) (hmsg : s.msgIs v false 1 1 = true)
include hs hmsg

theorem exec_authChallenge_bad {tag : BitVec 16} (hv : v = .qp0 tag) (hlen : s.viaLen v ≠ 64) :
    exec (.authChallenge v) s = .next (s.secBad v 32) := by
  subst hv
  show execAuthChallenge _ s = _
  rw [execAuthChallenge, State.secRun_of_serving _ hs hmsg rfl, if_pos (by simpa using hlen)]

theorem exec_authChallenge_nonce (hlen : ∀ tag, v = .qp0 tag → s.viaLen v = 64) :
    let w := s.who v
    let z := ({ s with sec.nextCid := s.sec.nextCid + 1 } : State).draw.dropChallenge w
    exec (.authChallenge v) s = .next (State.secEnd { z with
        sec.challenges := z.sec.challenges ++ [⟨w.1, w.2, Config.drbg s.free, s.sec.nextCid⟩] } v stSuccess 0
      (leBytes 48 (Config.drbg s.free).toNat ++ leBytes 4 s.sec.nextCid.toNat ++ leBytes 8 s.nv.nodeId.toNat ++
        leBytes 4 s.nv.life.code)) := by
  intro w z
  have herr : s.sec.error = false := hs.2.1
  have hz : z.sec.error = false := herr
  show execAuthChallenge v s = _
  unfold execAuthChallenge
  rw [State.secRun_of_serving _ hs hmsg rfl, if_neg]
  · simp only [if_neg (ne_true_of_eq_false herr)]
    exact congrArg (fun y : State => Host.Outcome.next (y.secEnd v stSuccess 0 (leBytes 48 (Config.drbg s.free).toNat ++
      leBytes 4 s.sec.nextCid.toNat ++ leBytes 8 y.nv.nodeId.toNat ++ leBytes 4 y.nv.life.code)))
      (if_neg (ne_true_of_eq_false hz))
  · cases v with
    | qp0 tag => simp [hlen tag rfl]
    | mbox => simp

end

/-! ### Responses (R382 to R384) -/

/-- The signature over a challenge of `w` verifies under `key` (R382). -/
abbrev State.signed (s : State) (w : Chan × BitVec 12) (role : Nat) (cid : Word) (key sig : List Byte) (c : Challenge) : Prop :=
  key ≠ [] ∧ Config.sigOk key (s.authMsg c.nonce role w cid) sig = true

theorem State.proof_none {s : State} {w : Chan × BitVec 12} {role : Nat} {cid : Word} {key sig : List Byte}
    (hnone : s.challenge w cid = none) : s.proof w role cid key sig = (2, s) := by
  simp only [State.proof, hnone]

theorem State.proof_some {s : State} {w : Chan × BitVec 12} {role : Nat} {cid : Word} {key sig : List Byte} {c : Challenge}
    (hc : s.challenge w cid = some c) :
    s.proof w role cid key sig = (if s.signed w role cid key sig c then 0 else 1, s.dropChallenge w) := by
  simp only [State.proof, hc]

/-- The session of role `r` opens under number `n`, audited, and the role's failures are forgotten (R382, R384, R398). -/
def State.openSession (s : State) (v : Via) (w : Chan × BitVec 12) (r : Role) (n : Fin 16) : State :=
  let a := s.audit 0xA000 1 [r.code, n.val, chanCode w.1, w.2.toNat]
  State.secOk { a with
    sec.sessions := a.sec.sessions ++ [⟨n, r, w.1, w.2⟩]
    sec.fails := tset a.sec.fails (r.code - 1) 0, sec.period := tset a.sec.period (r.code - 1) 0 } v n.val

/-- A response is judged once its proof is known: `cause` is 0, 1 for its signature or 2 for its challenge (R382 to R384). -/
def State.judgeResponse (s : State) (v : Via) (w : Chan × BitVec 12) (r : Role) (cause : Nat) : State :=
  if cause = 2 then s.authFail v r 2
  else if r = .maker ∧ s.nv.life = .fielded ∧ !s.sec.consent then s.authFail v r 3
  else if cause = 1 then s.authFail v r 1
  else match s.freeSession with
    | none => s.authFail v r 7
    | some n => if (s.session w r).isSome then s.authFail v r 7 else s.openSession v w r n

section
variable {s : State} {v : Via} {w : Chan × BitVec 12} {r : Role} {cause : Nat}

theorem State.judgeResponse_noConsent (hcause : cause ≠ 2) (hr : r = .maker) (hlife : s.nv.life = .fielded)
    (hno : s.sec.consent = false) : s.judgeResponse v w r cause = s.authFail v r 3 := by
  rw [State.judgeResponse, if_neg hcause, if_pos ⟨hr, hlife, by simp [hno]⟩]

section
variable (hmay : ¬ (r = .maker ∧ s.nv.life = .fielded ∧ s.sec.consent = false))
include hmay

theorem State.judgeResponse_badSignature : s.judgeResponse v w r 1 = s.authFail v r 1 := by
  rw [State.judgeResponse, if_neg (by decide), if_neg (by simpa using hmay), if_pos rfl]

theorem State.judgeResponse_noRoom (hfull : s.freeSession = none ∨ (s.session w r).isSome = true) :
    s.judgeResponse v w r 0 = s.authFail v r 7 := by
  rw [State.judgeResponse, if_neg (by decide), if_neg (by simpa using hmay), if_neg (by decide)]
  cases hn : s.freeSession with
  | none => rfl
  | some n => exact if_pos (hfull.resolve_left (by simp [hn]))

theorem State.judgeResponse_opens {n : Fin 16} (hn : s.freeSession = some n) (hnew : s.session w r = none) :
    s.judgeResponse v w r 0 = s.openSession v w r n := by
  rw [State.judgeResponse, if_neg (by decide), if_neg (by simpa using hmay), if_neg (by decide)]
  simp only [hn, hnew, Option.isSome_none, Bool.false_eq_true, if_false]

end
end

section
variable {s : State} {v : Via} (hs : s.Serving) {role : Byte} {cid : Word} {sig : List Byte}
  (hmsg : s.msgIs v true 1 2 = true) (hrole : leAt (s.viaData v) 0 1 = role.toNat) (hcid : leAt (s.viaData v) 4 4 = cid.toNat)
  (hsig : (s.viaData v).drop 8 = sig)
include hs hmsg hrole hcid hsig

theorem exec_authResponse_bad (hbad : roleOf role.toNat = none ∨ (s.viaData v).length ≠ 104 ∨ zeros (s.viaData v) 1 3 = false) :
    exec (.authResponse v role cid sig) s = .next (s.secBad v 32) := by
  show execAuthResponse v role cid sig s = _
  rw [execAuthResponse, State.secRun_of_serving _ hs hmsg (by simp [hrole, hcid, hsig])]
  cases hr : roleOf role.toNat with
  | none => rfl
  | some r => exact congrArg _ (if_pos (by simpa [hr] using hbad))

section
variable {r : Role} (hr : roleOf role.toNat = some r) (hlen : (s.viaData v).length = 104) (hzero : zeros (s.viaData v) 1 3 = true)
include hr hlen hzero

/-- A response in its layout is refused for a while, or judged with its proof (R382, R384). -/
theorem exec_authResponse_good : let p := s.proof (s.who v) r.code cid (tget [] s.nv.keys (r.code - 1)) sig
    exec (.authResponse v role cid sig) s = .next (if tget 0 s.sec.refuse (r.code - 1) ≠ 0 then s.authFail v r 4
      else p.2.judgeResponse v (s.who v) r p.1) := by
  show execAuthResponse v role cid sig s = _
  rw [execAuthResponse, State.secRun_of_serving _ hs hmsg (by simp [hrole, hcid, hsig])]
  simp only [hr]
  rw [if_neg (by simp [hlen, hzero])]
  rfl

end
end

/-! ### Sessions end on request (R384; log 32) -/

section
variable {s : State} {v : Via} (hs : s.Serving) (hmsg : s.msgIs v true 1 3 = true)
include hs hmsg

theorem exec_authEnd_none (hnone : s.anySession (s.who v) = none) (n : Fin 16) :
    exec (.authEnd v n) s = .next (s.secFail v 3) := by
  show execAuthEnd v n s = _
  rw [execAuthEnd, State.secRun_of_serving _ hs hmsg rfl]
  simp only [hnone]

theorem exec_authEnd_some {x : Session} (hx : s.anySession (s.who v) = some x) :
    exec (.authEnd v x.num) s = .next ((s.endSessions (fun y => y.num == x.num) 1).secOk v 0) := by
  show execAuthEnd v x.num s = _
  rw [execAuthEnd, State.secRun_of_serving _ hs hmsg rfl]
  simp only [hx, if_true]

end

/-! ### Public keys are replaced (R379, R381, R382) -/

/-- Who may replace the public key of role `r`: the installer its own, the operator the installer's and its own (R379). -/
abbrev State.maySetKey (s : State) (v : Via) (r : Role) : Prop :=
  (r = .installer ∧ (s.session (s.who v) .installer).isSome = true) ∨
    (r ≠ .maker ∧ (s.session (s.who v) .operator).isSome = true)

/-- A key message for role `r` is refused with a cause, and recorded (R384, R398). -/
def State.keyRefused (s : State) (v : Via) (w : Chan × BitVec 12) (r : Role) (cause : Nat) : State :=
  (s.audit 0xA002 2 [r.code, chanCode w.1, w.2.toNat, cause]).secFail v cause

section
variable {s : State} {v : Via} (hs : s.Serving) {role : Byte} {r : Role} {cid : Word} {key sig : List Byte}
  (hmsg : s.msgIs v true 1 4 = true) (hrole : leAt (s.viaData v) 0 1 = role.toNat) (hcid : leAt (s.viaData v) 4 4 = cid.toNat)
  (hkey : ((s.viaData v).drop 8).take 96 = key) (hsig : (s.viaData v).drop 104 = sig) (hr : roleOf role.toNat = some r)
  (hlen : (s.viaData v).length = 200) (hzero : zeros (s.viaData v) 1 3 = true)
include hs hmsg hrole hcid hkey hsig hr hlen hzero

/-- A key message in its layout is a role action: its sender's role first, then its proof under the key it brings. -/
theorem exec_authSetKey_good : let p := s.proof (s.who v) r.code cid key sig
    exec (.authSetKey v role cid key sig) s = .next (if s.auditBlocked then s.secFail v 8
      else if ¬ s.maySetKey v r then s.keyRefused v (s.who v) r 3
      else if p.1 ≠ 0 then p.2.keyRefused v (s.who v) r p.1
      else State.secOk { p.2.auditFree with nv.keys := tset p.2.nv.keys (r.code - 1) key } v 0) := by
  intro p
  have hmay : (!((r == .installer && (s.session (s.who v) .installer).isSome) ||
      (r != .maker && (s.session (s.who v) .operator).isSome))) = true ↔ ¬ s.maySetKey v r := by
    simp only [Bool.not_eq_true', ← Bool.not_eq_true, Bool.or_eq_true, Bool.and_eq_true, beq_iff_eq, bne_iff_ne]
  show execAuthSetKey v role cid key sig s = _
  rw [execAuthSetKey, State.secRun_of_serving _ hs hmsg (by simp [hrole, hcid, hkey, hsig])]
  simp only [hr]
  rw [if_neg (by simp [hlen, hzero])]
  refine congrArg Host.Outcome.next (ite_congr rfl (fun _ => rfl) fun _ => ?_)
  exact ite_congr (propext hmay) (fun _ => rfl) (fun _ => rfl)

end

/-- Settles O28, message by message: each proof is that of a challenge that is not there, or of one used up here. -/
theorem sessionsByChallengeAndSignature : Obligations.SessionsByChallengeAndSignature := by
  intro v s hlife herr hready w d
  have hs : s.Serving := ⟨hlife, herr, hready⟩
  refine ⟨fun hmsg => ⟨fun tag => exec_authChallenge_bad hs hmsg, exec_authChallenge_nonce hs hmsg⟩,
    fun role cid sig hmsg hrole hcid hsig => ⟨exec_authResponse_bad hs hmsg hrole hcid hsig, fun r hr hlen hzero => ?_⟩,
    fun x hmsg => ⟨exec_authEnd_none hs hmsg, exec_authEnd_some hs hmsg⟩,
    fun role r cid key sig hmsg hrole hcid hkey hsig hr hlen hzero => ?_⟩
  · dsimp only
    rw [exec_authResponse_good hs hmsg hrole hcid hsig hr hlen hzero]
    refine ⟨fun hrefuse => congrArg _ (if_pos hrefuse), fun hopen => ?_⟩
    rw [if_neg (not_not_intro hopen)]
    refine ⟨fun hnone => ?_, fun c hc => ⟨fun hmaker hlife hno => ?_, fun hmay => ⟨fun hfull => ?_, fun n hn hnew => ?_⟩⟩⟩
    · rw [State.proof_none hnone]; rfl
    · have hcause : (if s.signed w r.code cid (tget [] s.nv.keys (r.code - 1)) sig c then 0 else 1) ≠ 2 := by split <;> decide
      rw [State.proof_some hc]
      exact congrArg _ (State.judgeResponse_noConsent (s := s.dropChallenge w) hcause hmaker hlife hno)
    all_goals
      rw [State.proof_some hc]
      by_cases hgood : s.signed w r.code cid (tget [] s.nv.keys (r.code - 1)) sig c
    · rw [if_pos hgood, if_pos hgood]
      exact congrArg _ (State.judgeResponse_noRoom (s := s.dropChallenge w) hmay hfull)
    · rw [if_neg hgood, if_neg hgood]
      exact congrArg _ (State.judgeResponse_badSignature (s := s.dropChallenge w) hmay)
    · rw [if_pos hgood, if_pos hgood]
      exact congrArg _ (State.judgeResponse_opens (s := s.dropChallenge w) hmay hn hnew)
    · rw [if_neg hgood, if_neg hgood]
      exact congrArg _ (State.judgeResponse_badSignature (s := s.dropChallenge w) hmay)
  · dsimp only
    rw [exec_authSetKey_good hs hmsg hrole hcid hkey hsig hr hlen hzero]
    refine ⟨fun hblocked => congrArg _ (if_pos hblocked), fun hroom hno => ?_, fun hroom hmay => ?_⟩
    · rw [if_neg (ne_true_of_eq_false hroom), if_pos hno]; rfl
    · rw [if_neg (ne_true_of_eq_false hroom), if_neg (not_not_intro hmay)]
      refine ⟨fun hnone => ?_, fun c hc => ?_⟩
      · rw [State.proof_none hnone]; rfl
      · rw [State.proof_some hc]
        by_cases hgood : s.signed w r.code cid key sig c
        · rw [if_pos hgood, if_pos hgood]; rfl
        · rw [if_neg hgood, if_neg hgood]; rfl

end Sys2Proof.Machine
end

section
/-! PROOFS. Sessions, challenges, consent, lockouts and the mailbox claim end at their time-outs (R382 to R384, R402; log 6). -/
namespace Sys2Proof.Machine

open Sys2Proof

theorem State.mem_dropChallenge {s : State} {w : Chan × BitVec 12} {c : Challenge} :
    c ∈ (s.dropChallenge w).sec.challenges ↔ c ∈ s.sec.challenges ∧ (c.chan = w.1 → c.src ≠ w.2) := by
  simp [State.dropChallenge, imp_iff_not_or]

theorem State.endSessions_consent (s : State) (p : Session → Bool) (cause : Nat) :
    (s.endSessions p cause).sec.consent = s.sec.consent := by
  obtain ⟨_, _, _, h⟩ := s.endSessions_changes p cause
  rw [h]

theorem State.endConsent_consent (s : State) : s.endConsent.sec.consent = false := State.endSessions_consent _ _ _

theorem State.mem_endConsent_sessions {s : State} {x : Session} :
    x ∈ s.endConsent.sec.sessions ↔ x ∈ s.sec.sessions ∧ x.role ≠ .maker := by
  rw [State.endConsent, State.endSessions_sessions, List.mem_filter, Bool.not_eq_true', beq_eq_false_iff_ne]

/-- Settles O29, timer by timer. -/
theorem sessionTimersAndMailbox : Obligations.SessionTimersAndMailbox := by
  intro s
  refine ⟨fun n => rfl,
    fun ch src => ⟨s.dropChallenge (ch, src), rfl, fun c hc => (State.mem_dropChallenge.mp hc).2, fun c hc hother => ?_, rfl⟩,
    fun hno => congrArg _ (if_neg (ne_true_of_eq_false hno)),
    fun hyes => ⟨s.endConsent, congrArg _ (if_pos hyes), s.endConsent_consent,
      fun x hx => State.mem_endConsent_sessions.mp hx, fun x hx hrole => State.mem_endConsent_sessions.mpr ⟨hx, hrole⟩⟩,
    fun r hr => congrArg _ (if_neg hr), fun hbusy => congrArg _ (if_pos hbusy),
    fun hfree => congrArg _ (if_neg (ne_true_of_eq_false hfree))⟩
  exact State.mem_dropChallenge.mpr ⟨hc, fun hch => hother.resolve_left (not_not_intro hch)⟩

end Sys2Proof.Machine
end

section
/-! PROOFS. Key range messages (R379, R381, R386, R387, R398, R399; log 59). -/
namespace Sys2Proof.Machine

open Sys2Proof

/-! ### What every action on a range is run through (R379, R387, R398) -/

section
variable {s : State} {v : Via} {act r : Nat} {judge : State → Nat} {waits : Bool} {f : State → State}
  (hs : s.Serving) (hr : s.viaCp v 2 % 256 = r) (hmsg : s.msgIs v true 3 act = true)
include hs hr hmsg

theorem State.keysAct_blocked (haud : s.auditBlocked = true) : s.keysAct v act r judge waits f = s.secFail v 8 := by
  rw [State.keysAct, State.secRun_of_serving _ hs hmsg (by simp [hr]), State.roleAct, if_pos haud]

section
variable (haud : s.auditBlocked = false)
include haud

theorem State.keysAct_notOperator (hop : s.session (s.who v) .operator = none)
    (hrole : ((s.anySession (s.who v)).map (·.role.code)).getD 0 ≠ 3) : s.keysAct v act r judge waits f =
      (s.audit 0xA004 1 [r, act, ((s.anySession (s.who v)).map (·.role.code)).getD 0, 3]).secFail v 3 := by
  rw [State.keysAct, State.secRun_of_serving _ hs hmsg (by simp [hr]), State.roleAct_of_open _ _ haud]
  simp only [hop]
  rw [if_pos hrole, if_pos (by decide)]

section
variable (hop : (s.session (s.who v) .operator).isSome = true)
include hop

/-- An operator's action is judged by the range, waits for commands that use it, or acts. -/
theorem State.keysAct_operator : s.keysAct v act r judge waits f =
    if judge s ≠ 0 then (s.audit 0xA004 1 [r, act, 3, judge s]).secFail v (judge s)
    else if waits = true ∧ s.rangeBusy r (s.viaOrd v) = true then s.secWait v .waiting
    else (f (s.audit 0xA004 1 [r, act, 3, 0])).secOk v 0 := by
  obtain ⟨x, hx⟩ := Option.isSome_iff_exists.mp hop
  rw [State.keysAct, State.secRun_of_serving _ hs hmsg (by simp [hr]), State.roleAct_of_open _ _ haud]
  simp only [hx]
  rw [if_neg (not_not_intro rfl)]

theorem State.keysAct_refused (hjudge : judge s = 6) :
    s.keysAct v act r judge waits f = (s.audit 0xA004 1 [r, act, 3, 6]).secFail v 6 := by
  rw [State.keysAct_operator hs hr hmsg haud hop, hjudge, if_pos (by decide)]

theorem State.keysAct_waits (hjudge : judge s = 0) (hbusy : s.rangeBusy r (s.viaOrd v) = true) :
    s.keysAct v act r judge true f = s.secWait v .waiting := by
  rw [State.keysAct_operator hs hr hmsg haud hop, hjudge, if_neg (by decide), if_pos ⟨rfl, hbusy⟩]

theorem State.keysAct_acts (hjudge : judge s = 0) (hfree : waits = true → s.rangeBusy r (s.viaOrd v) = false) :
    s.keysAct v act r judge waits f = (f (s.audit 0xA004 1 [r, act, 3, 0])).secOk v 0 := by
  rw [State.keysAct_operator hs hr hmsg haud hop, hjudge, if_neg (by decide),
    if_neg fun hbusy => ne_true_of_eq_false (hfree hbusy.1) hbusy.2]

end
end
end

/-! ### The messages -/

theorem exec_keysQuery_table {s : State} {v : Via} (hs : s.Serving) (hmsg : s.msgIs v false 3 6 = true)
    (hlen : ∀ tag, v = .qp0 tag → s.viaLen v = 256) :
    exec (.keysQuery v) s = .next (s.secEnd v 0 0 ((List.range 256).map (fun i =>
      BitVec.ofNat 8 ((s.range i).st.toNat + 4 * b2n (s.range i).auto +
        8 * b2n (s.nv.convRange == some (BitVec.ofNat 8 i)))))) := by
  show execKeysQuery v s = _
  unfold execKeysQuery
  rw [State.secRun_of_serving _ hs hmsg rfl, if_neg]
  · rfl
  · cases v with
    | qp0 tag => simp [hlen tag rfl]
    | mbox => simp

theorem exec_keysCreate_eq (s : State) (v : Via) (rg : Byte) : exec (.keysCreate v rg (bitOf (s.viaCp v 2) 8)) s =
    .next (s.keysAct v 1 rg.toNat (fun s => if (s.range rg.toNat).st = 0 then 0 else 6) false (fun y =>
      (y.modRange rg.toNat (fun _ => ⟨2, bitOf (s.viaCp v 2) 8, 0⟩)).newKey rg.toNat)) :=
  congrArg Host.Outcome.next (if_neg (by simp))

/-- The four messages that need a configured range, with the bytes that name them. -/
def rangeMessages (v : Via) (rg : Byte) : List (Instr × Nat) :=
  [(.keysLock v rg, 2), (.keysUnlock v rg, 3), (.keysDestroy v rg, 4), (.keysSetConv v rg, 5)]

/-- Each of the four is an action on the range that is refused where the range is not configured. -/
theorem exec_rangeMessages (s : State) (v : Via) (rg : Byte) : ∀ x ∈ rangeMessages v rg, ∃ judge waits f,
    exec x.1 s = .next (s.keysAct v x.2 rg.toNat judge waits f) ∧ ((s.range rg.toNat).st = 0 → judge s = 6) := by
  simp only [rangeMessages, List.forall_mem_cons]
  exact ⟨⟨_, _, _, rfl, fun he => if_pos he⟩, ⟨_, _, _, rfl, fun he => if_pos he⟩, ⟨_, _, _, rfl, fun he => if_pos (.inl he)⟩,
    ⟨_, _, _, rfl, fun he => if_pos he⟩, List.forall_mem_nil _⟩

theorem exec_keysMessages (s : State) (v : Via) (rg : Byte) :
    ∀ x ∈ (Instr.keysCreate v rg (bitOf (s.viaCp v 2) 8), 1) :: rangeMessages v rg, ∃ judge waits f,
      exec x.1 s = .next (s.keysAct v x.2 rg.toNat judge waits f) :=
  List.forall_mem_cons.mpr ⟨⟨_, _, _, exec_keysCreate_eq s v rg⟩, fun x hx =>
    let ⟨judge, waits, f, hexec, _⟩ := exec_rangeMessages s v rg x hx
    ⟨judge, waits, f, hexec⟩⟩

/-- Settles O30: each message is an action on its range, and the range's state is its judgement. -/
theorem keyRangeMessages : Obligations.KeyRangeMessages := by
  intro v rg s hlife herr hready
  have hs : s.Serving := ⟨hlife, herr, hready⟩
  refine ⟨exec_keysQuery_table hs, fun hr => ⟨fun haud x hx hmsg => ?_, fun haud hop x hx hmsg => ?_, fun haud hop => ?_⟩⟩
  · obtain ⟨judge, waits, f, hexec⟩ := exec_keysMessages s v rg x hx
    rw [hexec, State.keysAct_blocked hs hr hmsg haud]
  · obtain ⟨judge, waits, f, hexec⟩ := exec_keysMessages s v rg x hx
    exact fun hrole => hexec.trans (congrArg _ (State.keysAct_notOperator hs hr hmsg haud hop hrole))
  refine ⟨fun hmsg => ⟨fun he => ?_, fun he => ?_⟩, fun he x hx hmsg => ?_, fun he =>
    ⟨fun hmsg => ⟨fun hbusy => ?_, fun hfree => ?_⟩, fun hmsg => ?_, fun hmsg => ⟨fun hused => ?_, fun hconv hzones => ⟨fun hbusy => ?_, fun hfree => ?_⟩⟩, fun hmsg => ?_⟩⟩
  · exact (exec_keysCreate_eq s v rg).trans (congrArg _ (State.keysAct_refused hs hr hmsg haud hop (if_neg he)))
  · exact (exec_keysCreate_eq s v rg).trans (congrArg _ (State.keysAct_acts hs hr hmsg haud hop (if_pos he) nofun))
  · obtain ⟨judge, waits, f, hexec, hjudge⟩ := exec_rangeMessages s v rg x hx
    rw [hexec, State.keysAct_refused hs hr hmsg haud hop (hjudge he)]
  · exact congrArg Host.Outcome.next (State.keysAct_waits hs hr hmsg haud hop (if_neg he) hbusy)
  · exact congrArg Host.Outcome.next (State.keysAct_acts hs hr hmsg haud hop (if_neg he) fun _ => hfree)
  · exact congrArg Host.Outcome.next (State.keysAct_acts hs hr hmsg haud hop (if_neg he) nofun)
  · exact congrArg Host.Outcome.next (State.keysAct_refused hs hr hmsg haud hop (if_pos (.inr hused)))
  · exact congrArg Host.Outcome.next (State.keysAct_waits hs hr hmsg haud hop (if_neg (by simp_all)) hbusy)
  · exact congrArg Host.Outcome.next (State.keysAct_acts hs hr hmsg haud hop (if_neg (by simp_all)) fun _ => hfree)
  · exact congrArg Host.Outcome.next (State.keysAct_acts hs hr hmsg haud hop (if_neg he) nofun)

end Sys2Proof.Machine
end

section
/-! PROOFS. CONSENT and COMMIT SVN (R376, R379, R381, R383, R390, R391, R398, R399). -/
namespace Sys2Proof.Machine

open Sys2Proof

/-! ### CONSENT (R383) -/

section
variable {s : State} {v : Via} {n : Word} (hs : s.Serving) (hmsg : s.msgIs v true 2 5 = true) (hn : s.viaCp v 2 = n.toNat)
include hs hmsg hn

theorem exec_consent_tooLong (hlong : 86400 < n.toNat) : exec (.consent v n) s = .next (s.secBad v 44) := by
  show execConsent v n s = _
  rw [execConsent, State.secRun_of_serving _ hs hmsg (by simp [hn]), if_pos hlong]

section
variable (hlong : ¬ 86400 < n.toNat)
include hlong

theorem exec_consent_blocked (haud : s.auditBlocked = true) : exec (.consent v n) s = .next (s.secFail v 8) := by
  show execConsent v n s = _
  rw [execConsent, State.secRun_of_serving _ hs hmsg (by simp [hn]), if_neg hlong, State.roleAct, if_pos haud]

variable (haud : s.auditBlocked = false)
include haud

theorem exec_consent_noOperator (hop : s.session (s.who v) .operator = none) :
    exec (.consent v n) s = .next ((s.audit 0xA009 1 [n.toNat, 0, 0, 0]).secFail v 3) := by
  show execConsent v n s = _
  rw [execConsent, State.secRun_of_serving _ hs hmsg (by simp [hn]), if_neg hlong, State.roleAct_of_open _ _ haud]
  simp only [hop]

theorem exec_consent_operator {x : Session} (hop : s.session (s.who v) .operator = some x) :
    exec (.consent v n) s = .next (State.secOk (if n = 0 then (s.audit 0xA009 1 [n.toNat, x.num.val, 0, 0]).endConsent
      else { s.audit 0xA009 1 [n.toNat, x.num.val, 0, 0] with sec.consent := true }) v 0) := by
  show execConsent v n s = _
  rw [execConsent, State.secRun_of_serving _ hs hmsg (by simp [hn]), if_neg hlong, State.roleAct_of_open _ _ haud]
  simp only [hop]

end
end

/-! ### COMMIT SVN (R390, R391) -/

/-- The minimum version of the firmware or of the microcode. -/
def State.minSvn (s : State) (fw : Bool) : Word := if fw then s.nv.fsvnMin else s.nv.isvnMin
/-- The version of the firmware or of the microcode that runs. -/
def State.runningSvn (s : State) (fw : Bool) : Word := if fw then s.nv.fsvn else s.seq.isvn
/-- The record of COMMIT SVN: the old minimum, the new one and the session. -/
def State.auditSvn (s : State) (fw : Bool) (new : Word) (n : Nat) : State :=
  s.audit 0xA008 1 [if fw then 2 else 1, (s.minSvn fw).toNat, new.toNat, n]

section
variable {s : State} {v : Via} {fw : Bool} (hs : s.Serving) (hmsg : s.msgIs v true 2 6 = true) (hfw : bitOf (s.viaCp v 2) 0 = fw)
include hs hmsg hfw

theorem exec_commitSvn_blocked (haud : s.auditBlocked = true) : exec (.commitSvn v fw) s = .next (s.secFail v 8) := by
  show execCommitSvn v fw s = _
  rw [execCommitSvn, State.secRun_of_serving _ hs hmsg (by simp [hfw]), State.roleAct, if_pos haud]

variable (haud : s.auditBlocked = false)
include haud

theorem exec_commitSvn_blank (hlife : s.nv.life = .blank) : exec (.commitSvn v fw) s =
    .next ((s.auditSvn fw (s.minSvn fw) (((s.anySession (s.who v)).map (·.num.val)).getD 0)).secFail v 5) := by
  show execCommitSvn v fw s = _
  rw [execCommitSvn, State.secRun_of_serving _ hs hmsg (by simp [hfw]), State.roleAct_of_open _ _ haud]
  exact congrArg _ (if_pos (by simp [hlife]))

section
variable (hlife : s.nv.life ≠ .blank)
include hlife

/-- Beyond BLANK the session of the role that owns the part decides. -/
theorem exec_commitSvn_owned : exec (.commitSvn v fw) s = .next
    (match s.session (s.who v) (if s.nv.life = .fielded then .operator else .installer) with
    | none => (s.auditSvn fw (s.minSvn fw) (((s.anySession (s.who v)).map (·.num.val)).getD 0)).secFail v 3
    | some x =>
      let new := if (s.runningSvn fw).toNat < (s.minSvn fw).toNat then s.minSvn fw else s.runningSvn fw
      State.secOk (if fw then { s.auditSvn fw new x.num.val with nv.fsvnMin := new }
        else { s.auditSvn fw new x.num.val with nv.isvnMin := new }) v 0) := by
  have howned : ¬ (s.nv.life ≠ .integration ∧ s.nv.life ≠ .fielded) := by
    have hfinal := hs.1
    cases hl : s.nv.life <;> simp_all
  show execCommitSvn v fw s = _
  rw [execCommitSvn, State.secRun_of_serving _ hs hmsg (by simp [hfw]), State.roleAct_of_open _ _ haud]
  exact congrArg _ (if_neg howned)

end
end

/-- Settles O32: both messages are judged by length, audit log, lifecycle and session in this order. -/
theorem consentAndMinimumVersions : Obligations.ConsentAndMinimumVersions := by
  intro v s hlife herr hready w
  have hs : s.Serving := ⟨hlife, herr, hready⟩
  refine ⟨fun n hmsg hn => ⟨exec_consent_tooLong hs hmsg hn, fun hshort => ?_⟩, fun fw hmsg hfw => ?_⟩
  · have hlong : ¬ 86400 < n.toNat := Nat.not_lt.mpr hshort
    refine ⟨exec_consent_blocked hs hmsg hn hlong, fun haud => ⟨exec_consent_noOperator hs hmsg hn hlong haud, fun x hop => ?_⟩⟩
    rw [exec_consent_operator hs hmsg hn hlong haud hop]
    exact congrArg _ (apply_ite (fun y : State => y.secOk v 0) _ _ _)
  · refine ⟨exec_commitSvn_blocked hs hmsg hfw, fun haud => ⟨exec_commitSvn_blank hs hmsg hfw haud, fun hblank => ?_⟩⟩
    dsimp only
    rw [exec_commitSvn_owned hs hmsg hfw haud hblank]
    refine ⟨fun hnone => ?_, fun x hx => ⟨fun htrue => ?_, fun hfalse => ?_⟩⟩
    · rw [hnone]; rfl
    · subst htrue
      rw [hx]; rfl
    · subst hfalse
      rw [hx]; rfl

end Sys2Proof.Machine
end

section
/-! PROOFS. Lifecycle messages (R376, R378, R379, R381, R385, R397 to R399; log 60). -/
namespace Sys2Proof.Machine

open Sys2Proof

/-! ### What every lifecycle message is run through (R376, R378, R398) -/

/-- A lifecycle message is refused with a cause, and recorded with the session its sender has. -/
def State.lifeRefused (s : State) (v : Via) (cause : Nat) : State :=
  (s.audit 0xA003 1 [s.nv.life.code, s.nv.life.code, ((s.anySession (s.who v)).map (·.role.code)).getD 0,
    ((s.anySession (s.who v)).map (·.num.val)).getD 0]).secFail v cause

/-- The part enters a lifecycle state and every session ends. -/
def State.lifeEnds (s : State) (v : Via) (dest : Life) : State :=
  (State.endSessions { s with nv.life := dest } (fun _ => true) 4).secOk v 0

/-- A lifecycle message of session `x` is recorded and moves the part to `dest`. -/
def State.lifeMoves (s : State) (v : Via) (dest : Life) (x : Session) (f : State → State) : State :=
  (f (s.audit 0xA003 1 [s.nv.life.code, dest.code, x.role.code, x.num.val])).lifeEnds v dest

section
variable {s : State} {v : Via} {msg len : Nat} {ok : Bool} {frm : List Life} {dest : Life} {role : Life → Role}
  {chk : State → Session → Nat × State} {f : State → State} (hs : s.Serving) (hmsg : s.msgIs v true 2 msg = true) (hok : ok = true)
include hs hmsg hok

theorem State.lifeAct_badLength (hlen : len ≠ 0 ∧ (s.viaData v).length ≠ len) :
    s.lifeAct v msg ok len frm dest role chk f = s.secBad v 32 := by
  rw [State.lifeAct, State.secRun_of_serving _ hs hmsg hok, if_pos hlen]

section
variable (hlen : ¬ (len ≠ 0 ∧ (s.viaData v).length ≠ len))
include hlen

theorem State.lifeAct_blocked (haud : s.auditBlocked = true) : s.lifeAct v msg ok len frm dest role chk f = s.secFail v 8 := by
  rw [State.lifeAct, State.secRun_of_serving _ hs hmsg hok, if_neg hlen, State.roleAct, if_pos haud]

section
variable (haud : s.auditBlocked = false)
include haud

theorem State.lifeAct_wrongState (hlife : s.nv.life ∉ frm) :
    s.lifeAct v msg ok len frm dest role chk f = s.lifeRefused v 5 := by
  rw [State.lifeAct, State.secRun_of_serving _ hs hmsg hok, if_neg hlen, State.roleAct_of_open _ _ haud]
  exact if_pos (by simpa using hlife)

section
variable (hlife : s.nv.life ∈ frm)
include hlife

theorem State.lifeAct_noRole (hrole : s.session (s.who v) (role s.nv.life) = none) :
    s.lifeAct v msg ok len frm dest role chk f = s.lifeRefused v 3 := by
  rw [State.lifeAct, State.secRun_of_serving _ hs hmsg hok, if_neg hlen, State.roleAct_of_open _ _ haud]
  refine (if_neg (by simpa using hlife)).trans ?_
  simp only [hrole]
  rfl

/-- A message in its state and role is judged by its own check and else moves the part. -/
theorem State.lifeAct_role {x : Session} (hx : s.session (s.who v) (role s.nv.life) = some x) :
    s.lifeAct v msg ok len frm dest role chk f =
      if (chk s x).1 ≠ 0 then
        (if msg = 2 then (chk s x).2.audit 0xA002 2 [3, chanCode (s.who v).1, (s.who v).2.toNat, (chk s x).1]
          else (chk s x).2).secFail v (chk s x).1
      else (chk s x).2.lifeMoves v dest x f := by
  rw [State.lifeAct, State.secRun_of_serving _ hs hmsg hok, if_neg hlen, State.roleAct_of_open _ _ haud]
  refine (if_neg (by simpa using hlife)).trans ?_
  simp only [hx]
  rfl

end
end
end
end

/-! ### The messages -/

/-- What INTEGRATE does: the installer's key and the integration range (R387). -/
def State.integrates (s : State) (key : List Byte) : State :=
  State.integrationRange { s with nv.devKey := true, nv.keys := tset s.nv.keys 1 key }
/-- What CLAIM does: the zones empty, the operator's key stands alone (R387). -/
def State.claims (s : State) (key : List Byte) : State :=
  let y := (s.emptyZones (fun _ _ => true)).wipeKeys
  { y with nv.keys := tset y.nv.keys 2 key, nv.kekGen := y.nv.kekGen + 1 }
/-- The operator's part of the set-up image and its key go, and the key generation rises (R376, R456). -/
def State.dropOperator (s : State) : State :=
  let s : State := { s with nv.image := dropKeys [.operator] s.nv.image }
  { s with nv.keys := tset s.nv.keys 2 [], nv.kekGen := s.nv.kekGen + 1 }
theorem State.dropOperator_eq (s : State) : s.dropOperator = { s with
    nv.image := dropKeys [.operator] s.nv.image, nv.keys := tset s.nv.keys 2 [], nv.kekGen := s.nv.kekGen + 1 } := rfl
/-- What RETURN does: SANITIZE action 1, and the operator's part goes (R395, R456). -/
def State.returns (s : State) : State :=
  ((s.replaceKeys 1 0).1.sanZones 1 0).startCkpt.wipeKeys.dropOperator.integrationRange
/-- What DECOMMISSION does: every key, the images and the fuse (R397). -/
def State.decommissions (s : State) : State :=
  let y := s.wipeKeys
  { y with
    nv.devKey := false, nv.keys := tset (tset y.nv.keys 1 []) 2 [], nv.anchor := [], nv.cert := []
    nv.image := [], nv.imageCls := [], nv.imageBad := true
    nv.drkFuse := true, sec.challenges := [], fab.pm := [] }

section
variable (s : State) (v : Via)

theorem exec_integrate_eq : exec (.integrate v (s.viaData v)) s =
    .next (s.lifeAct v 1 (s.viaData v == s.viaData v) 96 [.blank] .integration (fun _ => .maker) (fun y _ => (0, y))
      (fun y => y.integrates (s.viaData v))) := rfl

theorem exec_claim_eq (key : List Byte) (cid : Word) (sig : List Byte) : exec (.claim v key cid sig) s =
    .next (s.lifeAct v 2 ((s.viaData v).take 96 == key && leAt (s.viaData v) 96 4 == cid.toNat && (s.viaData v).drop 100 == sig)
      196 [.integration] .fielded (fun _ => .installer) (fun y x => y.proof (x.chan, x.src) 3 cid key sig)
      (fun y => y.claims key)) := rfl

theorem exec_returnLifecycle_eq : exec (.returnLifecycle v) s =
    .next (s.lifeAct v 3 true 0 [.fielded] .integration (fun _ => .operator) (fun y _ => (0, y)) State.returns) := rfl

theorem exec_decommission_eq : exec (.decommission v) s =
    .next (s.lifeAct v 4 true 0 [.integration, .fielded] .decommissioned (fun l => if l = .fielded then .operator else .installer)
      (fun y _ => (0, y)) State.decommissions) := rfl

end

section
variable {s : State} {v : Via} {x : Session} (hs : s.Serving) (haud : s.auditBlocked = false)
include hs haud

theorem exec_integrate_maker (hmsg : s.msgIs v true 2 1 = true) (hlife : s.nv.life = .blank) (hlen : (s.viaData v).length = 96)
    (hx : s.session (s.who v) .maker = some x) :
    exec (.integrate v (s.viaData v)) s = .next (s.lifeMoves v .integration x (fun y => y.integrates (s.viaData v))) := by
  rw [exec_integrate_eq, State.lifeAct_role hs hmsg (beq_self_eq_true _) (by simp [hlen]) haud (by simp [hlife]) hx,
    if_neg (not_not_intro rfl)]

/-- An installer's CLAIM is accepted with its proof under the key it brings, and else refused and recorded as a failed one. -/
theorem exec_claim_installer {key : List Byte} {cid : Word} {sig : List Byte} (hkey : (s.viaData v).take 96 = key)
    (hcid : leAt (s.viaData v) 96 4 = cid.toNat) (hsig : (s.viaData v).drop 100 = sig) (hmsg : s.msgIs v true 2 2 = true)
    (hlife : s.nv.life = .integration) (hlen : (s.viaData v).length = 196) (hx : s.session (s.who v) .installer = some x) :
    let p := s.proof (x.chan, x.src) 3 cid key sig
    exec (.claim v key cid sig) s = .next (if p.1 ≠ 0 then p.2.keyRefused v (s.who v) .operator p.1
      else p.2.lifeMoves v .fielded x (fun y => y.claims key)) := by
  intro p
  rw [exec_claim_eq, State.lifeAct_role hs hmsg (by simp [hkey, hcid, hsig]) (by simp [hlen]) haud (by simp [hlife]) hx]
  rfl

theorem exec_returnLifecycle_operator (hmsg : s.msgIs v true 2 3 = true) (hlife : s.nv.life = .fielded)
    (hx : s.session (s.who v) .operator = some x) :
    exec (.returnLifecycle v) s = .next (s.lifeMoves v .integration x State.returns) := by
  rw [exec_returnLifecycle_eq, State.lifeAct_role hs hmsg rfl (by simp) haud (by simp [hlife]) hx, if_neg (not_not_intro rfl)]

theorem exec_decommission_owner (hmsg : s.msgIs v true 2 4 = true)
    (hx : (s.nv.life = .fielded ∧ s.session (s.who v) .operator = some x) ∨
      (s.nv.life = .integration ∧ s.session (s.who v) .installer = some x)) :
    exec (.decommission v) s = .next (s.lifeMoves v .decommissioned x State.decommissions) := by
  have hrole : s.session (s.who v) (if s.nv.life = .fielded then .operator else .installer) = some x := by
    obtain ⟨hlife, hx⟩ | ⟨hlife, hx⟩ := hx
    · rw [if_pos hlife, hx]
    · rw [if_neg (by simp [hlife]), hx]
  have hfrom : s.nv.life ∈ [Life.integration, .fielded] := by
    obtain ⟨hlife, -⟩ | ⟨hlife, -⟩ := hx <;> simp [hlife]
  rw [exec_decommission_eq, State.lifeAct_role hs hmsg rfl (by simp) haud hfrom hrole, if_neg (not_not_intro rfl)]

end

theorem ofLe_lt (l : List Byte) : ofLe l < 256 ^ l.length := by
  induction l with
  | nil => simp [ofLe]
  | cons b t ih =>
    have hb : b.toNat < 256 := b.isLt
    rw [ofLe, List.length_cons, Nat.pow_succ]
    omega

theorem toNat_leAt_four (d : List Byte) (i : Nat) : (BitVec.ofNat 32 (leAt d i 4)).toNat = leAt d i 4 := by
  refine (BitVec.toNat_ofNat ..).trans (Nat.mod_eq_of_lt ((ofLe_lt _).trans_le ?_))
  exact Nat.pow_le_pow_right (n := 256) (by decide) (List.length_take_le 4 _)

/-- What refuses a lifecycle message, in order: its length `n`, the audit log, the lifecycle state and the role. -/
theorem exec_lifeAct_refusals {s : State} {v : Via} {i : Instr} {msg len n : Nat} {ok : Bool} {frm : List Life} {dest : Life}
    {role : Life → Role} {chk : State → Session → Nat × State} {f : State → State}
    (hexec : exec i s = .next (s.lifeAct v msg ok len frm dest role chk f)) (hs : s.Serving) (hok : ok = true)
    (hn : len ≠ 0 ∧ n = len ∨ len = 0 ∧ n = (s.viaData v).length) : s.msgIs v true 2 msg = true →
      ((s.viaData v).length ≠ n → exec i s = .next (s.secBad v 32)) ∧
      ((s.viaData v).length = n → s.auditBlocked = true → exec i s = .next (s.secFail v 8)) ∧
      ((s.viaData v).length = n → s.auditBlocked = false →
        (s.nv.life ∉ frm → exec i s = .next (s.lifeRefused v 5)) ∧
        (s.nv.life ∈ frm → s.session (s.who v) (role s.nv.life) = none → exec i s = .next (s.lifeRefused v 3))) := by
  intro hmsg
  have hgood (hlen : (s.viaData v).length = n) : ¬ (len ≠ 0 ∧ (s.viaData v).length ≠ len) := by omega
  refine ⟨fun hlen => ?_, fun hlen haud => ?_, fun hlen haud => ⟨fun hlife => ?_, fun hlife hrole => ?_⟩⟩
  · rw [hexec, State.lifeAct_badLength hs hmsg hok (by omega)]
  · rw [hexec, State.lifeAct_blocked hs hmsg hok (hgood hlen) haud]
  · rw [hexec, State.lifeAct_wrongState hs hmsg hok (hgood hlen) haud hlife]
  · rw [hexec, State.lifeAct_noRole hs hmsg hok (hgood hlen) haud hlife hrole]

/-- Settles O31: each message is refused in one order, and what is left of it is its own effect. -/
theorem lifecycleMessages : Obligations.LifecycleMessages := by
  intro v s hlife herr hready w d code rows
  have hs : s.Serving := ⟨hlife, herr, hready⟩
  have hcid : (d.take 96 == d.take 96 && leAt d 96 4 == (BitVec.ofNat 32 (leAt d 96 4)).toNat &&
      d.drop 100 == d.drop 100) = true := by
    rw [toNat_leAt_four]
    simp
  refine ⟨?_, ?_⟩
  · refine List.forall_mem_cons.mpr ⟨?_, List.forall_mem_cons.mpr ⟨?_, List.forall_mem_cons.mpr ⟨?_, List.forall_mem_cons.mpr
      ⟨?_, List.forall_mem_nil _⟩⟩⟩⟩
    exacts [exec_lifeAct_refusals (exec_integrate_eq s v) hs (beq_self_eq_true _) (.inl ⟨by decide, rfl⟩),
      exec_lifeAct_refusals (exec_claim_eq s v _ _ _) hs hcid (.inl ⟨by decide, rfl⟩),
      exec_lifeAct_refusals (exec_returnLifecycle_eq s v) hs rfl (.inr ⟨rfl, rfl⟩),
      exec_lifeAct_refusals (exec_decommission_eq s v) hs rfl (.inr ⟨rfl, rfl⟩)]
  · intro haud moved ends
    have hends (z : State) (l : Life) : ends z l = z.lifeEnds v l := rfl
    refine ⟨fun hmsg hblank hlen x hx => ?_, fun hmsg hint hlen x hx => ?_, fun hmsg hfield x hx => ?_, fun hmsg x hx => ?_⟩
    · intro z
      rw [hends]
      exact exec_integrate_maker hs haud hmsg hblank hlen hx
    · intro key cid run refused
      refine ⟨fun hnone => ?_, fun c hc => ?_⟩
      · refine (exec_claim_installer hs haud rfl (toNat_leAt_four _ _).symm rfl hmsg hint hlen hx).trans ?_
        rw [State.proof_none hnone]; rfl
      · intro z y
        rw [hends]
        refine (exec_claim_installer hs haud rfl (toNat_leAt_four _ _).symm rfl hmsg hint hlen hx).trans ?_
        rw [State.proof_some hc]
        by_cases hgood : s.signed (x.chan, x.src) 3 (BitVec.ofNat 32 (leAt d 96 4)) (d.take 96) (d.drop 100) c
        · rw [if_pos hgood, if_pos hgood]; rfl
        · rw [if_neg hgood, if_neg hgood]; rfl
    · intro y
      rw [hends, ← y.dropOperator_eq]
      exact exec_returnLifecycle_operator hs haud hmsg hfield hx
    · intro y
      rw [hends]
      exact exec_decommission_owner hs haud hmsg hx

end Sys2Proof.Machine
end

section
/-! PROOFS. SANITIZE is tested, waits, runs and ends in its order (R377, R394 to R396, R398, R399; log 61). -/
namespace Sys2Proof.Machine

open Sys2Proof

/-! ### SANITIZE (R394 to R396) -/

/-- The zones of the ranges that took new keys are emptied and the command runs till its checkpoint is written. -/
def State.sanitizeRuns (t : BitVec 16) (act : BitVec 4) (rg : Byte) (z : State × Nat) : State :=
  (z.1.sanZones act rg).startCkpt.modCmd 0 t (fun q => { q with st := .running, fin := some (0, z.2) })

section
variable {s : State} {t : BitVec 16} {act : BitVec 4} {c : Cmd} (hc : s.cmd? 0 t = some c) (hopc : c.opc = 0x0E)
  (hact : c.pf 0 0 4 = act.toNat)
include hc hopc hact

section
variable (hrun : c.st = .running)
include hrun

theorem State.sanitize_done (hckpt : s.zon.ckptBusy = none) : s.sanitize t act =
    State.finish { s.audit 0xA00B 1 [act.toNat, (c.fin.map (·.2)).getD 0, 0, 0] with nv2.sanitize := none, sec.sanAction := 0 }
      0 t 0 ((c.fin.map (·.2)).getD 0) := by
  simp only [State.sanitize, hc]
  rw [if_neg (by simp [hopc, hact]), if_pos hrun, if_neg (by simp [hckpt])]
  rfl

theorem State.sanitize_unfinished (hckpt : s.zon.ckptBusy ≠ none) : s.sanitize t act = s := by
  simp only [State.sanitize, hc]
  rw [if_neg (by simp [hopc, hact]), if_pos hrun, if_pos (Option.isSome_iff_ne_none.mpr hckpt)]

end

section
variable (hnew : c.st ≠ .running)
include hnew

theorem State.sanitize_decommissioned (hlife : s.nv.life = .decommissioned) : s.sanitize t act = s.finish 0 t 0x70 5 := by
  simp only [State.sanitize, hc]
  rw [if_neg (by simp [hopc, hact]), if_neg hnew, if_pos hlife]
  rfl

section
variable (hlife : s.nv.life ≠ .decommissioned)
include hlife

theorem State.sanitize_noOperator (hop : s.session (.pcie, 0) .operator = none) : s.sanitize t act = s.finish 0 t 0x23 0 := by
  simp only [State.sanitize, hc]
  rw [if_neg (by simp [hopc, hact]), if_neg hnew, if_neg hlife]
  simp only [hop]
  rfl

/-- An operator's new SANITIZE: its range, the audit log, readiness and earlier work are looked at in this order. -/
theorem State.sanitize_operator {x : Session} (hop : s.session (.pcie, 0) .operator = some x) :
    let rg := BitVec.ofNat 8 (c.pf 1 0 8)
    s.sanitize t act =
      if act = 2 ∧ (s.range rg.toNat).st = 0 then s.finish 0 t stSecurityError 6
      else if s.auditBlocked then s.finish 0 t stSecurityError 8
      else if !s.ready 9 || !s.ready 21 then s.modCmd 0 t (fun q => { q with st := .waiting })
      else if s.hqi.cmds.any (fun y => decide (y.ord < c.ord)) || s.zon.ckptBusy.isSome ||
          bitsOf s.pwr.ready.toNat 12 4 == 0 ||
          s.cmp.units.any (fun u => !u.committed && u.dead.isNone && decide (u.ord < c.ord)) then
        s.modCmd 0 t (fun q => { q with st := .waiting })
      else State.sanitizeRuns t act rg (State.replaceKeys { s.audit 0xA00A 1 [act.toNat, rg.toNat, x.num.val, 0] with
        nv2.sanitize := some (act, rg), sec.sanAction := act } act rg) := by
  simp only [State.sanitize, hc]
  rw [if_neg (by simp [hopc, hact]), if_neg hnew, if_neg hlife]
  simp only [hop]
  rfl

end
end
end

/-- Settles O35, test by test in the order of R395. -/
theorem sanitizeStepsInOrder : Obligations.SanitizeStepsInOrder := by
  intro s t c hc hopc x hx hact rg answers
  have hexec : exec x.1 s = .next (s.sanitize t x.2) := by
    simp only [List.mem_cons, List.not_mem_nil, or_false] at hx
    obtain rfl | rfl | rfl := hx <;> rfl
  refine ⟨fun hrun hckpt => hexec.trans (congrArg _ (State.sanitize_done hc hopc hact hrun hckpt)),
    fun hrun hckpt => hexec.trans (congrArg _ (State.sanitize_unfinished hc hopc hact hrun hckpt)), fun hnew =>
    ⟨fun hlife => hexec.trans (congrArg _ (State.sanitize_decommissioned hc hopc hact hnew hlife)), fun hlife =>
    ⟨fun hop => hexec.trans (congrArg _ (State.sanitize_noOperator hc hopc hact hnew hlife hop)), fun y hop => ?_⟩⟩⟩
  have hstep := hexec.trans (congrArg _ (State.sanitize_operator hc hopc hact hnew hlife hop))
  refine ⟨fun hact2 hrange => hstep.trans (congrArg _ (if_pos ⟨hact2, hrange⟩)), fun hrange => ?_⟩
  rw [if_neg hrange] at hstep
  refine ⟨fun haud => hstep.trans (congrArg _ (if_pos haud)), fun haud => ?_⟩
  rw [if_neg (ne_true_of_eq_false haud)] at hstep
  refine ⟨fun hwait => hstep.trans ?_, fun h9 h21 hearlier hckpt hacts => hstep.trans ?_⟩
  · by_cases hready : (!s.ready 9 || !s.ready 21) = true
    · rw [if_pos hready]
    · rw [if_neg hready, if_pos]
      simp only [Bool.or_eq_true, Bool.not_eq_true', not_or, Bool.not_eq_false] at hready hwait ⊢
      simp only [hready.1, hready.2, Bool.true_eq_false, false_or] at hwait
      tauto
  · simp only [Bool.or_eq_false_iff] at hearlier
    rw [if_neg (by simp [h9, h21]), if_neg (by simp [hearlier.1, hearlier.2, hckpt, hacts])]
    rfl

end Sys2Proof.Machine
end

section
/-! PROOFS. Self-tests and the error state (R386, R391 to R393, R401): no packet, no fence and no fault reaches the crypto lanes
once they are empty. -/
namespace Sys2Proof.Machine

open Sys2Proof

/-! ### Packets, fences and STOP leave `sec` -/

@[simp] theorem ite_sec (c : Prop) [Decidable c] (a b : State) : (if c then a else b).sec = if c then a.sec else b.sec :=
  apply_ite State.sec c a b

@[simp] theorem upto_sec {f : Nat → State → State} (hf : ∀ k s, (f k s).sec = s.sec) (n : Nat) (s : State) :
    (upto n f s).sec = s.sec := by
  induction n with
  | zero => rfl
  | succ n ih => exact (hf n _).trans ih

section
variable (s : State)

@[simp] theorem State.emit_sec (n : Fin 5) (p : Pkt) : (s.emit n p).sec = s.sec := rfl

@[simp] theorem State.drainVc_sec (n : Fin 5) (v fuel : Nat) : (s.drainVc n v fuel).sec = s.sec := by
  induction fuel generalizing s with
  | zero => rfl
  | succ fuel ih => unfold State.drainVc; split <;> simp [ih]

@[simp] theorem State.drainRound_sec (n : Fin 5) : (s.drainRound n).sec = s.sec :=
  foldl_sec (fun s v => by dsimp only; split <;> simp) _ s

@[simp] theorem State.sendOn_sec (n : Fin 5) (p : Pkt) : (s.sendOn n p).sec = s.sec := by simp [State.sendOn, State.drainPort]

@[simp] theorem State.forward_sec (inp : Option (Fin 5)) (p : Pkt) : (s.forward inp p).sec = s.sec := by
  unfold State.forward
  dsimp only
  split
  · rfl
  · split
    · rfl
    · split <;> simp [State.discard]

@[simp] theorem State.pumpTx_sec (d fuel : Nat) : (s.pumpTx d fuel).sec = s.sec := by
  induction fuel generalizing s with
  | zero => rfl
  | succ fuel ih => unfold State.pumpTx; split <;> simp [ih]

@[simp] theorem State.e2eSend_sec (dst : BitVec 12) (ty : Nat) (l : List Byte) : (s.e2eSend dst ty l).sec = s.sec := by
  simp [State.e2eSend, State.e2eSendSess]

@[simp] theorem State.finish_sec (q : Fin 128) (t : BitVec 16) (st r : Nat) : (s.finish q t st r).sec = s.sec := by
  unfold State.finish
  split
  · rfl
  · dsimp only
    split
    · unfold State.pmEnd
      split <;> simp
    · rfl

@[simp] theorem State.endCmds_sec (p : Cmd → Bool) (st : Nat) : (s.endCmds p st).sec = s.sec :=
  foldl_sec (fun s c => by simp [State.endCmd]) _ s

@[simp] theorem State.cutGate_sec (ch : Nat) : (s.cutGate ch).sec = s.sec := by
  unfold State.cutGate
  dsimp only
  split
  · rfl
  · split <;> simp

@[simp] theorem State.abandonCh_sec (ch : Nat) : (s.abandonCh ch).sec = s.sec := by simp [State.abandonCh, State.wasteBank]

@[simp] theorem State.abandonAct_sec (n : Nat) : (s.abandonAct n).sec = s.sec := by simp [State.abandonAct, State.idleCtx]

@[simp] theorem State.parkNow_sec (n : Nat) : (s.parkNow n).sec = s.sec := by simp [State.parkNow, State.actReadyOff]

@[simp] theorem State.doStop_sec : s.doStop.sec = s.sec := by
  simp [State.doStop, State.abandonAll, State.abandonMaint, State.wasteBank, State.idleCtx, State.parkAll]

@[simp] theorem State.fenceLane_sec (k : Nat) : (s.fenceLane k).sec = s.sec := by simp [State.fenceLane]

/-! ### A fault of the crypto unit leaves `sec` (R392, R408) -/

theorem State.fenceUnit_crypto_sec (r : Raise) : (s.fenceUnit r 40).sec = s.sec := by
  simp [State.fenceUnit]

theorem State.applyClass_crypto_sec (r : Raise) (c : Nat) : (s.applyClass r 40 c).sec = s.sec := by
  simp [State.applyClass, State.maskUnit, State.fenceUnit_crypto_sec, State.pullHandover]

theorem State.mergeRec_crypto_sec (r : Raise) (i c : Nat) (rc : FRec) : (s.mergeRec r i 124 c rc).sec = s.sec := by
  simp [State.mergeRec, srcUnit, State.applyClass_crypto_sec]

theorem State.openRec_crypto_sec (r : Raise) (i c : Nat) : (s.openRec r i 124 c).sec = s.sec := by
  simp [State.openRec, srcUnit, State.applyClass_crypto_sec]

@[simp] theorem State.setPin_sec : s.setPin.sec = s.sec := by simp [State.setPin]

theorem State.raiseOn_crypto_sec (r : Raise) : (s.raiseOn r 124).sec = s.sec := by
  unfold State.raiseOn
  dsimp only
  repeat' split
  all_goals simp [State.mergeRec_crypto_sec, State.openRec_crypto_sec, State.markFault]

theorem raise_crypto_sec : (raise 124 s).sec = s.sec := by
  have hdark : darkSource 124 = false := by decide
  show (State.raise1 (raiseN 3) 124 s).sec = s.sec
  simp [State.raise1, State.raiseOn_crypto_sec, hdark]

/-- The error state has no key in the lanes (R393). -/
theorem State.toError_lanes : s.toError.sec.lanes = [] := by simp [State.toError, raise_crypto_sec]

end

/-- Settles O36: each run of the self-tests takes one of its branches. -/
theorem selfTestsAndErrorState : Obligations.SelfTestsAndErrorState := by
  intro s
  refine ⟨fun herr => ⟨congrArg _ (if_pos herr), fun f k l => congrArg _ (if_pos (by simp [herr]))⟩, fun herr =>
    ⟨congrArg _ (if_neg (ne_true_of_eq_false herr)), s.toError_lanes, fun hready f k l => congrArg _ (if_pos (by simp [hready])),
      fun hready => ?_⟩⟩
  have hrun : ¬ (s.sec.error || s.ready 1) = true := by simp [herr, hready]
  exact ⟨fun k l => congrArg Host.Outcome.next (if_neg hrun), fun l => congrArg Host.Outcome.next (if_neg hrun),
    fun l => congrArg Host.Outcome.next (if_neg hrun)⟩

end Sys2Proof.Machine
end

section
/-! PROOFS. Register requests and SMBus transfers, and the action writes that need no role (R402, R413, R427, R440, R447, R450 to
R454, R458; log 65, log 66). -/
namespace Sys2Proof.Machine

open Sys2Proof

/-! ### Requests (R450, R451) -/

section
variable {s : State} {w : Writer} {off : Nat}

/-- One dword at an aligned offset of the index is within the limits, where the part serves the offset. -/
theorem limits_dword {c : Chan} (hserved : s.pwr.st = .dark → darkReg off = true) (hal : off % 4 = 0)
    (hrow : (indexRow off).isSome = true) : s.limits c off 1 = 0 := by
  have hmax : ¬ maxDwords c < 1 := by cases c <;> decide
  rw [State.limits, if_neg (by simpa using hserved), if_neg (by simp [hmax]), if_neg (by simp [hal]),
    if_neg (by simp [Option.isSome_iff_ne_none.mp hrow])]

/-- A request of one such dword is that dword's write. -/
theorem writeReq_dword (v : Word) (hserved : s.pwr.st = .dark → darkReg off = true) (hal : off % 4 = 0)
    (hrow : (indexRow off).isSome = true) : (s.writeReq w off [v]).1 = (s.writeDword w off v.toNat).1 := by
  have hlim : s.limits w.chan off 1 = 0 := limits_dword hserved hal hrow
  simp [State.writeReq, hlim, State.writeDwords]

theorem writeReq_notServed {l : List Word} (hs : s.pwr.st = .dark) (hoff : darkReg off = false) :
    (s.writeReq w off l).1 = s := by
  simp [State.writeReq, State.limits, hs, hoff]

theorem writeReq_badLength {l : List Word} (hs : s.pwr.st ≠ .dark) (hlen : l = [] ∨ maxDwords w.chan < l.length) :
    (s.writeReq w off l).1 = s.ignoreWrite w off 5 := by
  have hlim : s.limits w.chan off l.length = 2 := by
    rw [State.limits, if_neg (by simp [hs]), if_pos (by simpa using hlen)]
  simp [State.writeReq, hlim]

variable (hbox : isMailbox off = false) (hctl : off ≠ 0x3824)
include hbox hctl

theorem writeDword_register {d : RegDef} (hd : regAt off = some d) (v : Nat) :
    s.writeDword w off v = s.writeReg w d off v := by simp [State.writeDword, hbox, hctl, hd]

theorem writeDword_unmapped (hd : regAt off = none) (v : Nat) : s.writeDword w off v = (s.ignoreWrite w off 4, 1) := by
  simp [State.writeDword, hbox, hctl, hd]

end

/-! ### SMBus (R458) -/

/-- The answer to a READ is its status and as many bytes as SET_READ asked for. -/
theorem exec_smbRead_words {s : State} {off : BitVec 16} {len : Byte} (hnext : s.gen.smbNext = some (off, len))
    (hlen : len.toNat % 4 = 0) : let r := s.readReq .smbus off.toNat (len.toNat / 4)
    exec (.smbRead true) s = .next { r.2.2 with gen.smbOut := BitVec.ofNat 8 r.1 ::
      (r.2.1.flatMap (fun (v : Word) => leBytes 4 v.toNat) ++ List.replicate len.toNat 0).take len.toNat } := by
  show execSmbRead true s = _
  simp only [execSmbRead, hnext, if_pos hlen]

theorem exec_smbRead_oddLength {s : State} {off : BitVec 16} {len : Byte} (hnext : s.gen.smbNext = some (off, len))
    (hlen : len.toNat % 4 ≠ 0) :
    exec (.smbRead true) s = .next { s with gen.smbOut := 2 :: List.replicate len.toNat 0 } := by
  show execSmbRead true s = _
  simp only [execSmbRead, hnext, if_neg hlen, List.flatMap_nil, List.nil_append, List.take_replicate, Nat.min_self]
  rfl

/-- Settles O19, request by request. -/
theorem registerRequestsAndSmbus : Obligations.RegisterRequestsAndSmbus := by
  refine ⟨fun w off data s hs hoff => congrArg _ (writeReq_notServed hs hoff),
    fun w off data s hs hlen => congrArg _ (writeReq_badLength hs hlen),
    fun w off v s hs hal hrow hmap hctl => congrArg Host.Outcome.next ?_,
    fun w off v s d hs hal hrow hbox hctl hd => congrArg Host.Outcome.next ?_,
    fun off data s => rfl, fun off data s => rfl, fun off len s => ⟨rfl, rfl⟩, fun s hnone => ?_,
    fun off len s hnext hlen => exec_smbRead_oddLength hnext hlen,
    fun off len s hnext hlen => ⟨_, exec_smbRead_words hnext hlen, rfl, rfl, ?_⟩, fun s => rfl⟩
  · obtain ⟨hreg, hbox⟩ := Bool.or_eq_false_iff.mp hmap
    rw [writeReq_dword v (absurd · hs) hal hrow, writeDword_unmapped hbox hctl (by simpa using hreg)]
  · rw [writeReq_dword v (absurd · hs) hal hrow, writeDword_register hbox hctl hd]
  · show execSmbRead true s = _
    simp only [execSmbRead, hnone]
  · simp

/-! ### Action registers without a role -/

section
variable {s : State} {w : Writer} {d : RegDef} {off v : Nat} {took : List (Fld × Nat × Option Session)}

/-- A dword of which no field is refused, and none taken with a role or put into the register, only starts what it starts. -/
theorem writeReg_started (htie : off ≠ 0x1700) (ht : s.Takes w off v d.fields took) (hw : writersOf took = [])
    (hput : took.foldl (fun (s : State) e => s.applyFld off e.1 e.2.1) s = s) (hmirror : s.mirrorReg off took = s) :
    (s.writeReg w d off v).1 =
      s.startedBy off (s.lastWord off).toNat (tookAt took) ((s.sessionsOf w).map (·.role)) := by
  unfold writersOf at hw
  simp only [State.writeReg, ht.takenOf_eq, ht.causesOf_eq, hw, tieBroken, beq_eq_false_iff_ne.mpr htie, Bool.false_and,
    Bool.false_eq_true, if_false, ne_eq, not_true_eq_false, false_and, State.auditWrite, List.foldl_nil, hput, hmirror]
  rfl

/-- The same of a dword that takes one action of nobody's. -/
theorem writeReg_action {f : Fld} {x : Nat} (htie : off ≠ 0x1700) (ht : s.Takes w off v d.fields [(f, x, none)])
    (hwo : f.ty = .wo) : (s.writeReg w d off v).1 =
      s.startedBy off (s.lastWord off).toNat (tookAt [(f, x, none)]) ((s.sessionsOf w).map (·.role)) := by
  have hall : ∀ e ∈ [(f, x, (none : Option Session))], e.1.ty = .wo := by simpa using hwo
  exact writeReg_started htie ht rfl (foldl_applyFld_actions off hall s) (mirrorReg_of_actions hall s)

end

section
variable {s : State} {w : Writer}

/-! ### DARK wake (R440) -/

/-- The action that leaves DARK. -/
abbrev wakeFld : Fld := ⟨8, 1, .wo, 0, [], 0, 1, 0, false⟩

/-- The register of the power state. -/
abbrev pwrStateReg : RegDef := ⟨0x5004, 0x0, 1, 21, [Fld.status 31 1 0, wakeFld, Fld.status 0 2 0]⟩

theorem regAt_pwrState : regAt 0x5004 = some pwrStateReg := by decide +kernel

theorem exec_darkWake_eq : exec (.darkWake w) s =
    .next (s.writeReg w pwrStateReg 0x5004 0x100).1 := by
  show Host.Outcome.next (s.writeReq w 0x5004 [BitVec.ofNat 32 0x100]).1 = _
  rw [writeReq_dword _ (fun _ => rfl) rfl rfl, writeDword_register rfl (by decide) regAt_pwrState]
  rfl

theorem exec_darkWake_dark (hs : s.pwr.st = .dark) : exec (.darkWake w) s = .next (s.leaveDark.applyLatched raise) := by
  have hwake : s.judge w 0x5004 0x100 wakeFld = .take 1 none :=
    judge_setting (.inr ⟨rfl, by decide⟩) (by decide) (by decide) rfl (.inl rfl) (by simp [State.fieldCond, hs])
  rw [exec_darkWake_eq, writeReg_action (by decide) (.skip (judge_status rfl) (.take hwake (.skip (judge_status rfl) .nil))) rfl]
  exact congrArg _ (if_pos hs)

theorem exec_darkWake_awake (hs : s.pwr.st ≠ .dark) : exec (.darkWake w) s = .next (s.ignoreWrite w 0x5004 2) := by
  have hwake : s.judge w 0x5004 0x100 wakeFld = .refuse 2 := by
    simp [State.judge, State.fieldNow, State.fieldCond, State.idleOk, hs, bitsOf]
  have hstatus {lsb n : Nat} : s.judge w 0x5004 0x100 (Fld.status lsb n 0) = .skip := judge_status rfl
  rw [exec_darkWake_eq]
  simp [State.writeReg, hwake, hstatus, causesOf, takenOf, tieBroken, State.auditWrite, State.mirrorReg,
    startedBy_untaken (show 0x5004 ∉ startsAlways by decide)]

/-! ### The counter snapshot and fault status (R413, R427) -/

theorem regAt_pmcSnap : regAt 0x4800 = some ⟨0x4800, 0x0, 1, 20, [⟨31, 1, .wo, 0, [], 0, 1, 0, false⟩, Fld.status 0 31 0]⟩ := by
  decide +kernel

theorem regAt_fltStatus (k : Fin 4) : regAt (0x4000 + 4 * k.val) = some ⟨0x4000, 0x4, 4, 18, [Fld.clear 0 32 0]⟩ := by
  revert k; decide +kernel

theorem plainOff_fltStatus (k : Fin 4) : plainOff (0x4000 + 4 * k.val) = true := by revert k; decide +kernel

section
variable (hs : s.pwr.st ≠ .dark)
include hs

theorem exec_pmcSnapTake_awake : exec (.pmcSnapTake w) s = .next s.snapTake := by
  have htake : s.judge w 0x4800 0x80000000 ⟨31, 1, .wo, 0, [], 0, 1, 0, false⟩ = .take 1 none :=
    judge_setting (.inr ⟨rfl, by decide⟩) (by decide) (by decide) rfl (.inl rfl) rfl
  refine (write1_eq_writeReg w hs (by decide) regAt_pmcSnap (by decide)).trans ?_
  rw [writeReg_action (by decide) (.take htake (.skip (judge_status rfl) .nil)) rfl]
  rfl

theorem exec_fltStatusClear_awake (k : Fin 4) {v : Word} (hv : v ≠ 0) : exec (.fltStatusClear w k v) s =
    .next ((s.clearStatus (BitVec.ofNat 128 (v.toNat * 2 ^ (32 * k.val)))).wakeUnits) := by
  have hall : bitsOf v.toNat 0 32 = v.toNat := Nat.mod_eq_of_lt v.isLt
  have hne : v.toNat ≠ 0 := fun h => hv (BitVec.eq_of_toNat_eq h)
  have htake : s.judge w (0x4000 + 4 * k.val) v.toNat (Fld.clear 0 32 0) = .take v.toNat none := by
    simp [State.judge, Fld.clear, hall, hne]
  have hput : [(Fld.clear 0 32 0, v.toNat, (none : Option Session))].foldl
      (fun (s : State) e => s.applyFld (0x4000 + 4 * k.val) e.1 e.2.1) s = s := if_pos (by omega)
  have hshift : 8 * (0x4000 + 4 * k.val - 0x4000) = 32 * k.val := by omega
  refine (write1_eq_writeReg w hs (plainOff_fltStatus k) (regAt_fltStatus k) v.isLt).trans ?_
  rw [writeReg_started (by omega) (.take htake .nil) rfl hput (by simp [State.mirrorReg, Fld.clear])]
  simp (disch := omega) only [State.startedBy, if_neg, if_pos, hshift]
  rfl

end

/-! ### The mailbox (R402) -/

/-- The action that starts the mailbox's message. -/
abbrev goFld : Fld := ⟨31, 1, .wo, 0, [], 0, 1, 0, false⟩
/-- The action that drops the mailbox's claim. -/
abbrev releaseFld : Fld := ⟨30, 1, .wo, 0, [], 0, 1, 0, false⟩

/-- The mailbox's control register. -/
abbrev mboxCtlReg : RegDef :=
  ⟨0x3824, 0x0, 1, 16, [goFld, releaseFld, Fld.status 29 1 0, Fld.status 28 1 0, Fld.status 0 16 0]⟩

theorem regAt_mboxCtl : regAt 0x3824 = some mboxCtlReg := by decide +kernel

section
variable (hs : s.pwr.st ≠ .dark)
include hs

theorem write1_mboxCtl_other {v : Nat} (hother : s.mboxOther w = true) :
    s.write1 w 0x3824 v = .next (s.ignoreWrite w 0x3824 6) := by
  rw [State.write1, writeReq_dword _ (absurd · hs) rfl rfl]
  simp [State.writeDword, hother]

/-- A write of the claimer's, or of the first writer, is judged with the claim its own. -/
theorem write1_mboxCtl_own {v : Nat} (hv : v < 2 ^ 32) (hown : s.mboxOther w = false) : s.write1 w 0x3824 v =
    .next (State.writeReg { s with sec.mbox.claim := some (origin w) } w mboxCtlReg 0x3824 v).1 := by
  have hbox : isMailbox 0x3824 = false := by decide
  rw [State.write1, writeReq_dword _ (absurd · hs) rfl rfl, BitVec.toNat_ofNat, Nat.mod_eq_of_lt hv]
  simp [State.writeDword, hown, hbox, regAt_mboxCtl]

end

theorem writeReg_mboxGo (hidle : s.sec.mbox.busy = false) : (s.writeReg w mboxCtlReg 0x3824 0x80000000).1 = s.mboxGo := by
  have hgo : s.judge w 0x3824 0x80000000 goFld = .take 1 none :=
    judge_setting (.inr ⟨rfl, by decide⟩) (by decide) (by decide) rfl (.inl rfl) (by simp [State.fieldCond, hidle])
  rw [writeReg_action (by decide) (.take hgo (.skip (judge_action_zero rfl (by decide)) (.skip (judge_status rfl)
    (.skip (judge_status rfl) (.skip (judge_status rfl) .nil))))) rfl]
  rfl

theorem writeReg_mboxRelease : (s.writeReg w mboxCtlReg 0x3824 0x40000000).1 = s.mboxFree := by
  have hrelease : s.judge w 0x3824 0x40000000 releaseFld = .take 1 none :=
    judge_setting (.inr ⟨rfl, by decide⟩) (by decide) (by decide) rfl (.inl rfl) rfl
  rw [writeReg_action (by decide) (.skip (judge_action_zero rfl (by decide)) (.take hrelease (.skip (judge_status rfl)
    (.skip (judge_status rfl) (.skip (judge_status rfl) .nil))))) rfl]
  rfl

end

/-- Settles O17: each write is one action of its register, taken or refused. -/
theorem actionWritesWithoutARole : Obligations.ActionWritesWithoutARole := by
  intro w s
  refine ⟨exec_darkWake_dark, exec_darkWake_awake, fun hs => ⟨exec_pmcSnapTake_awake hs, fun k v => exec_fltStatusClear_awake hs k,
    fun hother => ⟨write1_mboxCtl_other hs hother, write1_mboxCtl_other hs hother⟩,
    fun hown hidle => ⟨?_, ?_⟩, fun hown hbusy => ?_⟩⟩
  · refine (write1_mboxCtl_own hs (by decide) hown).trans ?_
    rw [writeReg_mboxGo (by exact hidle)]
  · refine (write1_mboxCtl_own hs (by decide) hown).trans ?_
    rw [writeReg_mboxRelease]
    exact congrArg _ (if_neg (ne_true_of_eq_false hidle))
  · refine (write1_mboxCtl_own hs (by decide) hown).trans ?_
    rw [writeReg_mboxRelease]
    exact congrArg _ (if_pos hbusy)

end Sys2Proof.Machine
end

section
/-! PROOFS. POWER CONTROL is taken one action at a time and begins its change (R319, R435 to R437, R439; log 63). -/
namespace Sys2Proof.Machine

open Sys2Proof

/-! ### One at a time (R295, R319) -/

/-- No change of power is under way, and no earlier POWER CONTROL is outstanding. -/
def State.powerFree (s : State) (c : Cmd) : Prop :=
  s.pwr.req = none ∧ ∀ y ∈ s.hqi.cmds, y.opc = 0x0B → c.ord ≤ y.ord

section
variable {s : State} {t : BitVec 16} {c : Cmd} {a : Nat} {f : Cmd → State → State} (hc : s.cmd? 0 t = some c) (hopc : c.opc = 0x0B)
  (hsh : s.shadow = false) (ha : c.pf 0 0 4 = a)
include hc hopc hsh ha

theorem State.powerCtl_waiting (hst : c.st = .waiting) : s.powerCtl t a f = s.powerStep := by
  simp only [State.powerCtl, hc]
  rw [if_neg (by simp [hopc, ha, hsh]), if_pos hst]

theorem State.powerCtl_busy (hst : c.st ≠ .waiting)
    (hbusy : s.pwr.req.isSome = true ∨ ∃ y ∈ s.hqi.cmds, y.opc = 0x0B ∧ y.ord < c.ord) : s.powerCtl t a f = s := by
  simp only [State.powerCtl, hc]
  rw [if_neg (by simp [hopc, ha, hsh]), if_neg hst, if_pos (by simpa using hbusy)]

theorem State.powerCtl_begins (hst : c.st ≠ .waiting) (hfree : s.powerFree c) :
    s.powerCtl t a f = (f c (s.modCmd 0 t (fun x => { x with st := .waiting }))).powerStep := by
  obtain ⟨hreq, hfirst⟩ := hfree
  simp only [State.powerCtl, hc]
  rw [if_neg (by simp [hopc, ha, hsh]), if_neg hst, if_neg (by simpa [hreq] using hfirst)]

end

/-- The seven actions with the codes that name them. -/
def powerActions (t : BitVec 16) : List (Instr × Nat) :=
  [(.setPowerState t, 1), (.domainsOff t, 2), (.domainsOn t, 3), (.powerPark t, 4), (.powerUnpark t, 5), (.spinUp t, 6),
    (.spinDown t, 7)]

theorem exec_powerActions (s : State) (t : BitVec 16) :
    ∀ x ∈ powerActions t, ∃ f, exec x.1 s = .next (s.powerCtl t x.2 f) := by
  simp only [powerActions, List.forall_mem_cons]
  exact ⟨⟨_, rfl⟩, ⟨_, rfl⟩, ⟨_, rfl⟩, ⟨_, rfl⟩, ⟨_, rfl⟩, ⟨_, rfl⟩, ⟨_, rfl⟩, List.forall_mem_nil _⟩

/-! ### Each action -/

/-- The command that is taken waits from then on. -/
def State.powerTaken (s : State) (t : BitVec 16) : State := s.modCmd 0 t (fun x => { x with st := .waiting })

/-- May the domains of a mask not be switched off: servo writing uses an actuator of it, or the gateway is in use (R436)? -/
def State.domainsUsed (s : State) (m : Nat) : Prop :=
  (∃ n < 4, bitOf m n = true ∧ (s.act n).st = .ssw) ∨ bitOf m 5 = true ∧ (s.flag 0x0400 1 = true ∨ s.selfGw = true)

section
variable {s : State} {t : BitVec 16} {c : Cmd} (hc : s.cmd? 0 t = some c) (hopc : c.opc = 0x0B)
  (hsh : s.shadow = false) (hst : c.st ≠ .waiting) (hfree : s.powerFree c)
include hc hopc hsh hst hfree

/-- An action that is one change of the state begins it. -/
theorem exec_power_begins {i : Instr} {a : Nat} {f : Cmd → State → State} (hexec : exec i s = .next (s.powerCtl t a f))
    (ha : c.pf 0 0 4 = a) : exec i s = .next (f c (s.powerTaken t)).powerStep :=
  hexec.trans (congrArg _ (State.powerCtl_begins hc hopc hsh ha hst hfree))

section
variable (ha : c.pf 0 0 4 = 1) {dest : PwrSt}
  (hdest : (c.pf 1 0 2, dest) ∈ [(0, PwrSt.active), (1, .activeIdle), (2, .spunDown), (3, .dark)])
include ha hdest

theorem exec_setPowerState_begins : exec (.setPowerState t) s = .next (if s.pwr.st = dest then (s.powerTaken t).finish 0 t 0 0
    else (s.powerTaken t).beginState (some t) dest).powerStep := by
  simp only [List.mem_cons, Prod.mk.injEq, List.not_mem_nil, or_false] at hdest
  refine (exec_power_begins hc hopc hsh hst hfree rfl ha).trans ?_
  obtain ⟨h, rfl⟩ | ⟨h, rfl⟩ | ⟨h, rfl⟩ | ⟨h, rfl⟩ := hdest <;> rw [h] <;> rfl

end

section
variable (ha : c.pf 0 0 4 = 2)
include ha

theorem exec_domainsOff_begins : exec (.domainsOff t) s = .next (State.powerStep
    (if (List.range 4).any (fun n => bitOf (c.pf 1 0 14) n && (s.act n).st == .ssw) ||
      (bitOf (c.pf 1 0 14) 5 && (s.flag 0x0400 1 || s.selfGw)) then (s.powerTaken t).badField 0 t 40
    else if c.pf 1 0 14 = 0 then (s.powerTaken t).finish 0 t 0 0
    else (List.range 4).foldl (fun (y : State) n => if bitOf (c.pf 1 0 14) n then y.requestPark n else y)
      (State.dropFor { s.powerTaken t with pwr.req := some ⟨some t, BitVec.ofNat 14 (c.pf 1 0 14), 0, none, 0⟩ }
        (c.pf 1 0 14)))) :=
  (exec_power_begins hc hopc hsh hst hfree rfl ha).trans rfl

theorem exec_domainsOff_used (hused : s.domainsUsed (c.pf 1 0 14)) :
    exec (.domainsOff t) s = .next ((s.powerTaken t).badField 0 t 40).powerStep := by
  rw [exec_domainsOff_begins hc hopc hsh hst hfree ha, if_pos (by simpa [State.domainsUsed] using hused)]

theorem exec_domainsOff_free (hfree' : ¬ s.domainsUsed (c.pf 1 0 14)) :
    exec (.domainsOff t) s = .next (State.powerStep
      (if c.pf 1 0 14 = 0 then (s.powerTaken t).finish 0 t 0 0
      else (List.range 4).foldl (fun (y : State) n => if bitOf (c.pf 1 0 14) n then y.requestPark n else y)
        (State.dropFor { s.powerTaken t with pwr.req := some ⟨some t, BitVec.ofNat 14 (c.pf 1 0 14), 0, none, 0⟩ }
          (c.pf 1 0 14)))) := by
  rw [exec_domainsOff_begins hc hopc hsh hst hfree ha, if_neg (by simpa [State.domainsUsed] using hfree')]

end

theorem exec_spinUp_begins (ha : c.pf 0 0 4 = 6) : exec (.spinUp t) s = .next (State.requestSpin { s.powerTaken t with
    spn.attempts := 0, spn.retryWait := false
    spn.st := if s.spn.st = .fault ∧ s.spn.fenced = false then .off else s.spn.st }).powerStep := by
  refine (exec_power_begins hc hopc hsh hst hfree rfl ha).trans ?_
  by_cases hfault : s.spn.st = .fault ∧ s.spn.fenced = false
  · have hclear : s.spn.st = .fault ∧ (!s.spn.fenced) = true := by simpa using hfault
    refine (congrArg (fun y : State => Host.Outcome.next y.requestSpin.powerStep) (if_pos hclear)).trans ?_
    rw [if_pos hfault]
  · have hkeep : ¬ (s.spn.st = .fault ∧ (!s.spn.fenced) = true) := by simpa using hfault
    refine (congrArg (fun y : State => Host.Outcome.next y.requestSpin.powerStep) (if_neg hkeep)).trans ?_
    rw [if_neg hfault]
    rfl

end

/-- Settles O37: an action waits, proceeds or begins, and each begins its own change. -/
theorem powerControlBegins : Obligations.PowerControlBegins := by
  intro s t c hc hopc hsh
  refine ⟨fun hst x hx ha => ?_, fun hst hbusy x hx ha => ?_, fun hst hreq hfirst => ?_⟩
  · obtain ⟨f, hexec⟩ := exec_powerActions s t x hx
    rw [hexec, State.powerCtl_waiting hc hopc hsh ha hst]
  · obtain ⟨f, hexec⟩ := exec_powerActions s t x hx
    rw [hexec, State.powerCtl_busy hc hopc hsh ha hst hbusy]
  have hfree : s.powerFree c := ⟨hreq, hfirst⟩
  have begins {i : Instr} {a : Nat} {f : Cmd → State → State} (hexec : exec i s = .next (s.powerCtl t a f))
      (ha : c.pf 0 0 4 = a) := exec_power_begins hc hopc hsh hst hfree hexec ha
  refine ⟨fun ha dest hdest => ⟨fun hsame => ?_, fun hother => ?_⟩, fun ha => ⟨fun hused => ?_, fun hssw hgw hm => ?_,
    fun hssw hgw hm => ?_⟩, fun ha => (begins rfl ha).trans rfl, fun ha => (begins rfl ha).trans rfl,
    fun ha => (begins rfl ha).trans rfl,
    fun ha => exec_spinUp_begins hc hopc hsh hst hfree ha, fun ha => (begins rfl ha).trans rfl⟩
  · rw [exec_setPowerState_begins hc hopc hsh hst hfree ha hdest, if_pos hsame]; rfl
  · rw [exec_setPowerState_begins hc hopc hsh hst hfree ha hdest, if_neg hother]; rfl
  · exact exec_domainsOff_used hc hopc hsh hst hfree ha hused
  · rw [exec_domainsOff_free hc hopc hsh hst hfree ha (not_or.mpr ⟨hssw, hgw⟩), if_pos hm]; rfl
  · rw [exec_domainsOff_free hc hopc hsh hst hfree ha (not_or.mpr ⟨hssw, hgw⟩), if_neg hm]; rfl

end Sys2Proof.Machine
end

section
/-! PROOFS. Changes of power step by step: domains, SPUN_DOWN and DARK, idling and the hold time-out (R295, R434, R436 to R441;
log 63). -/
namespace Sys2Proof.Machine

open Sys2Proof

section
variable {s : State}

/-! ### The step that is looked at (R436, R437, R439) -/

theorem State.powerStep_off {t : BitVec 16} {off : BitVec 14} {k : Nat} (hoff : off ≠ 0)
    (hreq : s.pwr.req = some ⟨some t, off, 0, none, k⟩) : s.powerStep = s.offStep ⟨some t, off, 0, none, k⟩ := by
  simp only [State.powerStep, hreq]
  exact if_pos hoff

theorem State.powerStep_on {t : BitVec 16} {on : BitVec 14} {k : Nat}
    (hreq : s.pwr.req = some ⟨some t, 0, on, none, k⟩) : s.powerStep = s.onStep ⟨some t, 0, on, none, k⟩ := by
  simp only [State.powerStep, hreq]
  exact if_neg (not_not_intro rfl)

theorem State.powerStep_down {r : PwrReq} (hreq : s.pwr.req = some r)
    (hdown : r.target = some .spunDown ∨ r.target = some .dark) : ∃ dest, s.powerStep = s.downStep r dest := by
  obtain htarget | htarget := hdown
  · exact ⟨.spunDown, by simp only [State.powerStep, hreq, htarget]⟩
  · exact ⟨.dark, by simp only [State.powerStep, hreq, htarget]⟩

theorem State.onStep_switches {r : PwrReq} (hstep : r.step = 0) :
    s.onStep r = { (s.domainsOn r.on.toNat).event 0x1002 1 [r.on.toNat, 0] with pwr.req := some { r with step := 1 } } :=
  if_pos hstep

theorem State.onStep_switched {r : PwrReq} (hstep : r.step ≠ 0) : let code := s.readyCode (maskBits r.on.toNat)
    s.onStep r = if code = 0 then s.endReq r stSuccess else if code = 2 then s.endReq r stNotReady else s := by
  refine (if_neg hstep).trans ?_
  split
  · next hcode => rw [if_pos hcode]
  · next hcode => rw [if_neg (by simp [hcode]), if_pos hcode]
  · next h0 h2 => rw [if_neg h0, if_neg h2]

theorem State.downStep_checkpointed {r : PwrReq} {dest : PwrSt} (hstep : r.step = 1) (hckpt : s.zon.ckptBusy = none) :
    s.downStep r dest = { s.parkAll.spinStop raise with pwr.req := some { r with step := 2 } } := by
  simp only [State.downStep, hstep, hckpt, Nat.one_ne_zero, if_false, if_true, Option.isSome_none, Bool.false_eq_true]

/-! ### Domains (R436, R437) -/

theorem exec_domainSwitchDone_notQuiet {t : BitVec 16} {off : BitVec 14} {k : Nat} (hoff : off ≠ 0)
    (hreq : s.pwr.req = some ⟨some t, off, 0, none, k⟩) (hquiet : s.quiet off.toNat = false) :
    exec .domainSwitchDone s = .next s :=
  congrArg _ ((State.powerStep_off hoff hreq).trans (if_neg (ne_true_of_eq_false hquiet)))

theorem exec_domainSwitchDone_quiet {t : BitVec 16} {off : BitVec 14} {k : Nat} (hoff : off ≠ 0)
    (hreq : s.pwr.req = some ⟨some t, off, 0, none, k⟩) (hquiet : s.quiet off.toNat = true) :
    let z := (s.domainsOff off.toNat).event 0x1002 1 [0, off.toNat]
    exec .domainSwitchDone s = .next (State.finish { z with pwr.req := none } 0 t 0 0) :=
  congrArg _ ((State.powerStep_off hoff hreq).trans (if_pos hquiet))

theorem exec_domainSwitchDone_switchesOn {t : BitVec 16} {on : BitVec 14} (hreq : s.pwr.req = some ⟨some t, 0, on, none, 0⟩) :
    let z := (s.domainsOn on.toNat).event 0x1002 1 [on.toNat, 0]
    exec .domainSwitchDone s = .next { z with pwr.req := some ⟨some t, 0, on, none, 1⟩ } :=
  congrArg _ ((State.powerStep_on hreq).trans (State.onStep_switches rfl))

theorem exec_domainSwitchDone_switchedOn {t : BitVec 16} {on : BitVec 14} (hreq : s.pwr.req = some ⟨some t, 0, on, none, 1⟩) :
    let z : State := { s with pwr.req := none }
    let code := s.readyCode (maskBits on.toNat)
    exec .domainSwitchDone s = .next (if code = 0 then z.finish 0 t 0 0 else if code = 2 then z.finish 0 t 0x50 0 else s) :=
  congrArg _ ((State.powerStep_on hreq).trans (State.onStep_switched (Nat.one_ne_zero)))

/-! ### Towards SPUN_DOWN and DARK (R439) -/

section
variable {r : PwrReq} (hreq : s.pwr.req = some r) (hdown : r.target = some .spunDown ∨ r.target = some .dark)
include hreq hdown

theorem exec_domainSwitchDone_writing (hstep : r.step = 0)
    (hbusy : s.cmp.units.any (fun u => !u.committed && u.dead.isNone) = true ∨ s.zon.ckptBusy.isSome = true) :
    exec .domainSwitchDone s = .next s := by
  obtain ⟨dest, hpower⟩ := State.powerStep_down hreq hdown
  exact congrArg _ (hpower.trans ((if_pos hstep).trans (if_pos hbusy)))

theorem exec_domainSwitchDone_written (hstep : r.step = 0)
    (hunits : s.cmp.units.any (fun u => !u.committed && u.dead.isNone) = false) (hckpt : s.zon.ckptBusy = none) :
    exec .domainSwitchDone s = .next (if (List.range 4).all s.actQuiet then
        { ({ s with rpl.halt := true } : State).startCkpt with pwr.req := some { r with step := 1 } }
      else { s with rpl.halt := true }) := by
  obtain ⟨dest, hpower⟩ := State.powerStep_down hreq hdown
  refine congrArg Host.Outcome.next (hpower.trans ((if_pos hstep).trans ((if_neg (by simp [hunits, hckpt])).trans ?_)))
  by_cases hquiet : (List.range 4).all s.actQuiet = true
  · rw [if_neg (by simp [hquiet]), if_pos hquiet]
  · rw [if_pos (by simp [hquiet]), if_neg hquiet]

theorem exec_domainSwitchDone_checkpointed (hstep : r.step = 1) (hckpt : s.zon.ckptBusy = none) :
    exec .domainSwitchDone s = .next { s.parkAll.spinStop raise with pwr.req := some { r with step := 2 } } := by
  obtain ⟨dest, hpower⟩ := State.powerStep_down hreq hdown
  exact congrArg Host.Outcome.next (hpower.trans (State.downStep_checkpointed hstep hckpt))

end

/-! ### DARK entry and holds (R295, R434, R439, R440) -/

theorem exec_darkEntry_idle (hpend : s.pwr.darkPend = false) : exec .darkEntry s = .next s :=
  congrArg _ (if_pos (by simp [hpend]))

section
variable (hpend : s.pwr.darkPend = true) (hsent : s.allSent = true)
include hpend hsent

theorem exec_darkEntry_enters (hstop : s.flt.stop = false) :
    let y := State.setPower { s with pwr.darkPend := false, pwr.req := none } .dark 1
    exec .darkEntry s = .next { y with
      pwr.core := false, pwr.on := y.pwr.on &&& ~~~(0x20#14), pwr.bufActive := false, buf.selfRefresh := true
      pwr.darkReady := y.pwr.ready &&& coreBits, pwr.ready := y.pwr.ready &&& ~~~coreBits } :=
  congrArg Host.Outcome.next ((if_neg (by simp [hpend, hsent])).trans (if_neg (ne_true_of_eq_false hstop)))

theorem exec_darkEntry_stopped (hstop : s.flt.stop = true) :
    let y : State := { s with pwr.darkPend := false, pwr.req := none, hqi.noFetch := false }
    exec .darkEntry s = .next (if s.pwr.st = .spunDown then y.event 0x1000 1 [2, 2, 1] else y.setPower .spunDown 1) :=
  congrArg Host.Outcome.next ((if_neg (by simp [hpend, hsent])).trans (if_pos hstop))

end

theorem exec_holdTimeout_held {q : Fin 128} {t : BitVec 16} {c : Cmd} (hc : s.cmd? q.val t = some c) (hst : c.st = .held) :
    exec (.holdTimeout q t) s = .next (s.endCmd c 0x50 0) := by
  show execHoldTimeout q t s = _
  simp only [execHoldTimeout, hc, if_pos hst]
  rfl

theorem exec_holdTimeout_notHeld {q : Fin 128} {t : BitVec 16} (hnot : ∀ c, s.cmd? q.val t = some c → c.st ≠ .held) :
    exec (.holdTimeout q t) s = .next s := by
  show execHoldTimeout q t s = _
  unfold execHoldTimeout
  split
  · next c hc => exact congrArg _ (if_neg (hnot c hc))
  · rfl

end

/-- Settles O38, step by step. -/
theorem powerChangesStep : Obligations.PowerChangesStep := by
  intro s
  refine ⟨fun t off k hoff hreq => ⟨exec_domainSwitchDone_notQuiet hoff hreq, exec_domainSwitchDone_quiet hoff hreq⟩,
    fun t on => ⟨exec_domainSwitchDone_switchesOn, exec_domainSwitchDone_switchedOn⟩,
    fun r hreq hdown => ⟨exec_domainSwitchDone_writing hreq hdown, exec_domainSwitchDone_written hreq hdown,
      exec_domainSwitchDone_checkpointed hreq hdown⟩,
    fun hst hidle hreq hquiet => congrArg _ (if_pos ⟨hst, hidle, by simp [hreq], hquiet⟩),
    fun hnot => congrArg _ (if_neg fun hall => hnot.elim (absurd hall.1) (absurd · hall.2.1)),
    exec_darkEntry_idle, fun hpend hsent => ⟨exec_darkEntry_enters hpend hsent, exec_darkEntry_stopped hpend hsent⟩,
    fun q t => ⟨fun c hc hst => exec_holdTimeout_held hc hst, exec_holdTimeout_notHeld⟩⟩

end Sys2Proof.Machine
end

section
/-! PROOFS. Media commands are tested in the order of R293 (R293 to R295, R377, R434; log 38). -/
namespace Sys2Proof.Machine

open Sys2Proof

/-! ### What each test decides (R295) -/

section
variable {s : State} {c : Cmd}

theorem State.admitTest_retired (hret : s.retired c = true) : s.admitTest c = .stop 0x70 5 := if_pos hret

section
variable (hret : s.retired c = false)
include hret

theorem State.admitTest_badField {ofs : Nat} (hfield : s.fieldTest c = some ofs) : s.admitTest c = .stop 0x21 ofs := by
  rw [State.admitTest, if_neg (ne_true_of_eq_false hret)]
  simp only [hfield]
  rfl

variable (hfield : s.fieldTest c = none)
include hfield

theorem State.admitTest_locked (hlock : s.lockTest c = true) : s.admitTest c = .stop 0x71 0 := by
  rw [State.admitTest, if_neg (ne_true_of_eq_false hret)]
  simp only [hfield, hlock, if_true]
  rfl

variable (hlock : s.lockTest c = false)
include hlock

theorem State.admitTest_power (hpower : s.powerTest c ≠ .pass) : s.admitTest c = s.powerTest c := by
  rw [State.admitTest, if_neg (ne_true_of_eq_false hret)]
  simp only [hfield, hlock, Bool.false_eq_true, if_false]

theorem State.admitTest_powered (hpower : s.powerTest c = .pass) :
    s.admitTest c = if s.fenceTest c then .stop 0x52 0 else .pass := by
  rw [State.admitTest, if_neg (ne_true_of_eq_false hret)]
  simp only [hfield, hlock, hpower, Bool.false_eq_true, if_false]
  rfl

end
end

/-! ### The fourteen commands (R293, R296, R300) -/

/-- It is the turn of the fetched command of `q` and `t` to be looked at. -/
def State.InTurn (s : State) (q : Fin 128) (t : BitVec 16) (c : Cmd) : Prop :=
  s.cmd? q.val t = some c ∧ s.shadow = false ∧ c.unadmitted = true ∧ c.fin = none ∧ s.turn c = true

/-- What the tests of a command in turn decide comes about. -/
def State.decided (s : State) (q : Fin 128) (t : BitVec 16) (c : Cmd) : State :=
  match s.admitTest c with
  | .stop st r => s.finish q t st r
  | .hold =>
    let z := s.modCmd q.val t (fun x => { x with st := .held })
    if z.needsOff c ∨ (z.autoWake && (c.opc == 0x21 || c.opc == 0x22)) then z.wakeUp else z
  | .pass => s.admitted c

/-- The media commands with their opcodes and, of ZONE MANAGE, their actions. -/
def mediaCommands (q : Fin 128) (t : BitVec 16) : List (Instr × Nat × Nat) :=
  [(.readBlocks q t, 0x20, 0), (.zoneWrite q t, 0x21, 0), (.zoneAppend q t, 0x22, 0),
    (.zoneOpen q t, 0x23, 1), (.zoneClose q t, 0x23, 2), (.zoneFinish q t, 0x23, 3), (.zoneReset q t, 0x23, 4),
    (.zoneOffline q t, 0x23, 5), (.zoneReport q t, 0x24, 0), (.flush q t, 0x25, 0), (.verifyBlocks q t, 0x26, 0),
    (.peerMove q t, 0x27, 0), (.convRead q t, 0x28, 0), (.convWrite q t, 0x29, 0)]

/-- Each is considered under its opcode and its action. -/
theorem exec_mediaCommands (s : State) (q : Fin 128) (t : BitVec 16) (c : Cmd) : ∀ x ∈ mediaCommands q t, ∃ p,
    exec x.1 s = .next (s.consider x.2.1 q t p) ∧ ((x.2.2 ≠ 0 → c.pf 2 0 4 = x.2.2) → p c = true) := by
  have any {o : Nat} {i : Instr} (hexec : exec i s = .next (s.consider o q t (fun _ => true))) : ∃ p,
      exec i s = .next (s.consider o q t p) ∧ ((0 ≠ 0 → c.pf 2 0 4 = 0) → p c = true) := ⟨_, hexec, fun _ => rfl⟩
  have manage {n : Nat} {i : Instr} (hn : n ≠ 0) (hexec : exec i s = .next (s.consider 0x23 q t (fun c => c.pf 2 0 4 == n))) :
      ∃ p, exec i s = .next (s.consider 0x23 q t p) ∧ ((n ≠ 0 → c.pf 2 0 4 = n) → p c = true) :=
    ⟨_, hexec, fun hact => beq_iff_eq.mpr (hact hn)⟩
  simp only [mediaCommands, List.forall_mem_cons]
  exact ⟨any rfl, any rfl, any rfl, manage (by decide) rfl, manage (by decide) rfl, manage (by decide) rfl,
    manage (by decide) rfl, manage (by decide) rfl, any rfl, any rfl, any rfl, any rfl, any rfl, any rfl, List.forall_mem_nil _⟩

section
variable {s : State} {q : Fin 128} {t : BitVec 16} {c : Cmd} (hturn : s.InTurn q t c)
include hturn

theorem State.consider_inTurn {o : Nat} {p : Cmd → Bool} (hopc : c.opc.toNat = o) (hp : p c = true) :
    s.consider o q t p = s.decided q t c := by
  obtain ⟨hc, hsh, hun, hfin, hfirst⟩ := hturn
  simp only [State.consider, hc]
  rw [if_neg (by simp [hopc, hsh, hun, hfin, hp, hfirst])]
  rfl

section
variable {x : Instr × Nat × Nat} (hx : x ∈ mediaCommands q t) (hopc : c.opc.toNat = x.2.1)
  (hact : x.2.2 ≠ 0 → c.pf 2 0 4 = x.2.2)
include hx hopc hact

theorem exec_media : exec x.1 s = .next (s.decided q t c) := by
  obtain ⟨p, hexec, hp⟩ := exec_mediaCommands s q t c x hx
  rw [hexec, State.consider_inTurn hturn hopc (hp hact)]

theorem exec_media_stop {st r : Nat} (htest : s.admitTest c = .stop st r) : exec x.1 s = .next (s.finish q t st r) := by
  rw [exec_media hturn hx hopc hact]
  simp only [State.decided, htest]

theorem exec_media_pass (htest : s.admitTest c = .pass) : exec x.1 s = .next (s.admitted c) := by
  rw [exec_media hturn hx hopc hact]
  simp only [State.decided, htest]

end
end

/-- A held command wakes nothing that is on, unless AUTO_WAKE asks for it. -/
theorem State.decided_hold {s : State} {q : Fin 128} {t : BitVec 16} {c : Cmd} (htest : s.admitTest c = .hold)
    (hon : s.needsOff c = false) (hwake : s.autoWake = false) :
    s.decided q t c = s.modCmd q.val t (fun y => { y with st := .held }) := by
  have hkeep : (s.modCmd q.val t (fun y => { y with st := .held })).needsOff c = false := hon
  have hsleep : (s.modCmd q.val t (fun y => { y with st := .held })).autoWake = false := hwake
  simp only [State.decided, htest]
  rw [if_neg (by simp [hkeep, hsleep])]

/-- Settles O25: the tests decide in their order, and what they decide comes about. -/
theorem hostCommandsAreTestedInOrder : Obligations.HostCommandsAreTestedInOrder := by
  intro s q t c hc hsh hun hfin hfirst x hx hopc hact ends
  have hturn : s.InTurn q t c := ⟨hc, hsh, hun, hfin, hfirst⟩
  have stops {st r : Nat} := exec_media_stop (st := st) (r := r) hturn hx hopc hact
  refine ⟨fun hret => stops (State.admitTest_retired hret), fun hret => ⟨fun ofs hfield => stops
    (State.admitTest_badField hret hfield), fun hfield => ⟨fun hlock => stops (State.admitTest_locked hret hfield hlock),
    fun hlock => ?_⟩⟩⟩
  refine ⟨fun st r hpower => stops ?_, fun hpower => ⟨_, exec_media hturn hx hopc hact, fun hon hwake => ?_⟩,
    fun hpower hfence => stops ?_, fun hpower hfence => exec_media_pass hturn hx hopc hact ?_⟩
  · rw [State.admitTest_power hret hfield hlock (by simp [hpower]), hpower]
  · refine State.decided_hold ?_ hon hwake
    rw [State.admitTest_power hret hfield hlock (by simp [hpower]), hpower]
  · rw [State.admitTest_powered hret hfield hlock hpower, if_pos hfence]
  · rw [State.admitTest_powered hret hfield hlock hpower, if_neg (ne_true_of_eq_false hfence)]

end Sys2Proof.Machine
end

section
/-! PROOFS. What admitted media commands answer or run (R299 to R304, R306 to R311). -/
namespace Sys2Proof.Machine

open Sys2Proof

section
variable {s : State} {c : Cmd}

/-! ### Reading (R303, R306, R307) -/

/-- Opcodes that read a zone: READ, VERIFY and PEER MOVE. -/
def zoneReads : List Byte := [0x20, 0x26, 0x27]

theorem State.admitted_zoneRead (hopc : c.opc ∈ zoneReads) : s.admitted c = s.goRead c := by
  simp only [zoneReads, List.mem_cons, List.not_mem_nil, or_false] at hopc
  obtain h | h | h := hopc <;> simp [State.admitted, isWriteOpc, h]

theorem State.goRead_offline (hopc : c.opc ∈ zoneReads) (hoff : (s.zone c.zone).st = .offline) :
    s.goRead c = s.finish c.qp c.tag 0x30 0 :=
  (if_neg (by rintro h; simp [zoneReads, h] at hopc)).trans (if_pos hoff)

/-- A read of a zone that is there looks up its zone and every chunk it touches. -/
theorem State.goRead_looksUp (hopc : c.opc ∈ zoneReads) (hoff : (s.zone c.zone).st ≠ .offline) :
    let z0 := s.modCmd c.qp.val c.tag (fun y => { y with st := .running, top := (s.zone c.zone).awp })
    let z1 := if (s.zone c.zone).locHead.isSome then z0.needIdx c.zone else z0
    s.goRead c = ((((List.range c.count.toNat).map (fun i => (c.blk + i) / 16)).eraseDups).foldl
      (fun (y : State) k => y.locAccess c.zone k false) (z1.zoneAccess c.zone false)).pumpReads :=
  (if_neg (by rintro h; simp [zoneReads, h] at hopc)).trans (if_neg hoff)

theorem State.admitted_convRead (hopc : c.opc = 0x28) :
    s.admitted c = (s.modCmd c.qp.val c.tag (fun y => { y with st := .running })).pumpReads := by
  have hread : s.admitted c = s.goRead c := by simp [State.admitted, isWriteOpc, hopc]
  exact hread.trans (if_pos hopc)

/-! ### Writing (R300, R301, R303 to R305, R308, R309) -/

theorem State.admitted_convWrite (hopc : c.opc = 0x29) : s.admitted c = (s.takeConv c).startData c.qp c.tag := by
  simp [State.admitted, isWriteOpc, State.goWrite, hopc]

section
variable (hopc : c.opc = 0x21 ∨ c.opc = 0x22)
include hopc

theorem State.admitted_refusedWrite {st r : Nat} (htest : s.writeTest c = .error (st, r)) :
    s.admitted c = s.finish c.qp c.tag st r := by
  obtain h | h := hopc <;> simp [State.admitted, isWriteOpc, State.goWrite, h, htest]

theorem State.admitted_takenWrite {a : Nat} (htest : s.writeTest c = .ok a) (hown : c.peer = false) :
    s.admitted c = (s.takeWrite c a).startData c.qp c.tag := by
  obtain h | h := hopc <;> simp [State.admitted, isWriteOpc, State.goWrite, h, htest, hown]

end

theorem State.writeTest_full (hst : (s.zone c.zone).st = .full) : s.writeTest c = .error (0x31, 0) := by
  simp only [State.writeTest, hst]
  rfl

theorem State.writeTest_state (hst : (s.zone c.zone).st = .readOnly ∨ (s.zone c.zone).st = .offline) :
    s.writeTest c = .error (0x30, 0) := by
  obtain hst | hst := hst <;> simp only [State.writeTest, hst] <;> rfl

/-- Zone states that take a write. -/
def writableStates : List ZState := [.empty, .opened, .closed]

/-- A zone that takes writes: the write pointer, the end of the zone, the open limit and the space are tested in this order. -/
theorem State.writeTest_writable (hst : (s.zone c.zone).st ∈ writableStates) : s.writeTest c =
    if c.opc = 0x21 ∧ c.blk ≠ (s.zone c.zone).awp then .error (0x32, lbaOf c.zone (s.zone c.zone).awp)
    else if 524288 < (s.zone c.zone).awp + c.count.toNat then .error (0x31, 0)
    else if (s.zone c.zone).st = .empty then s.chooseAct c (s.needOf c.zone c.count.toNat)
    else if (s.zone c.zone).st = .closed ∧ s.openMax (s.zone c.zone).act.val ≤ s.openCount (s.zone c.zone).act.val then
      .error (0x33, 0)
    else if !s.spaceFor (s.zone c.zone).act.val (s.needOf c.zone c.count.toNat) then .error noSpace
    else .ok (s.zone c.zone).act.val := by
  simp only [writableStates, List.mem_cons, List.not_mem_nil, or_false] at hst
  obtain hst | hst | hst := hst <;> simp only [State.writeTest, hst] <;> rfl

section
variable (hst : (s.zone c.zone).st ∈ writableStates)
include hst

theorem State.writeTest_pointer (hopc : c.opc = 0x21) (hblk : c.blk ≠ (s.zone c.zone).awp) :
    s.writeTest c = .error (0x32, lbaOf c.zone (s.zone c.zone).awp) := by
  rw [State.writeTest_writable hst, if_pos ⟨hopc, hblk⟩]

section
variable (hblk : c.opc = 0x21 → c.blk = (s.zone c.zone).awp)
include hblk

theorem State.writeTest_end (hend : 524288 < (s.zone c.zone).awp + c.count.toNat) : s.writeTest c = .error (0x31, 0) := by
  rw [State.writeTest_writable hst, if_neg fun h => h.2 (hblk h.1), if_pos hend]

section
variable (hend : (s.zone c.zone).awp + c.count.toNat ≤ 524288)
include hend

theorem State.writeTest_limit (hclosed : (s.zone c.zone).st = .closed)
    (hmax : s.openMax (s.zone c.zone).act.val ≤ s.openCount (s.zone c.zone).act.val) : s.writeTest c = .error (0x33, 0) := by
  rw [State.writeTest_writable hst, if_neg fun h => h.2 (hblk h.1), if_neg (Nat.not_lt.mpr hend), if_neg (by simp [hclosed]),
    if_pos ⟨hclosed, hmax⟩]

/-- An open zone, or a closed one below the limit, is written if its actuator has the space. -/
theorem State.writeTest_space (hopen : (s.zone c.zone).st = .opened ∨ ((s.zone c.zone).st = .closed ∧
      s.openCount (s.zone c.zone).act.val < s.openMax (s.zone c.zone).act.val)) : s.writeTest c =
    if s.spaceFor (s.zone c.zone).act.val (s.needOf c.zone c.count.toNat) then .ok (s.zone c.zone).act.val
    else .error (0x31, 2 ^ 63) := by
  have hfull : (s.zone c.zone).st ≠ .empty := by rcases hopen with h | ⟨h, -⟩ <;> simp [h]
  have hroom : ¬ ((s.zone c.zone).st = .closed ∧ s.openMax (s.zone c.zone).act.val ≤ s.openCount (s.zone c.zone).act.val) := by
    rintro ⟨hclosed, hmax⟩
    obtain h | ⟨-, hlt⟩ := hopen
    · exact absurd (h.symm.trans hclosed) (by decide)
    · omega
  rw [State.writeTest_writable hst, if_neg fun h => h.2 (hblk h.1), if_neg (Nat.not_lt.mpr hend), if_neg hfull, if_neg hroom]
  cases s.spaceFor (s.zone c.zone).act.val (s.needOf c.zone c.count.toNat) <;> rfl

end
end
end

/-! ### ZONE MANAGE, FLUSH and ZONE REPORT (R299, R302, R304, R310, R311) -/

theorem State.admitted_open (hopc : c.opc = 0x23) (hact : c.pf 2 0 4 = 1) : s.admitted c = s.goOpen c := by
  simp [State.admitted, isWriteOpc, hopc, hact]

theorem State.admitted_manage (hopc : c.opc = 0x23) (hact : c.pf 2 0 4 ≠ 1) : s.admitted c = s.manageTry c := by
  simp [State.admitted, isWriteOpc, hopc, hact]

theorem State.goOpen_opened (hst : (s.zone c.zone).st = .opened) : s.goOpen c = s.finish c.qp c.tag 0 0 := by
  simp only [State.goOpen, hst]
  rfl

theorem State.goOpen_closed (hst : (s.zone c.zone).st = .closed) : s.goOpen c =
    if s.openMax (s.zone c.zone).act.val ≤ s.openCount (s.zone c.zone).act.val then s.finish c.qp c.tag 0x33 0
    else (s.openZone c.zone (fin4 (s.zone c.zone).act.val) (s.zone c.zone).key).finish c.qp c.tag 0 1 := by
  simp only [State.goOpen, hst]
  rfl

theorem State.goOpen_refused (hst : (s.zone c.zone).st ∈ [ZState.full, .readOnly, .offline]) :
    s.goOpen c = s.finish c.qp c.tag 0x30 0 := by
  simp only [List.mem_cons, List.not_mem_nil, or_false] at hst
  obtain hst | hst | hst := hst <;> simp only [State.goOpen, hst] <;> rfl

theorem State.admitted_flush (hopc : c.opc = 0x25) : s.admitted c = s.flushTry c := by
  simp [State.admitted, isWriteOpc, hopc]

/-- The zones that match are those from the first on whose state the filter names. -/
theorem State.matching_eq (s : State) (z filter : Nat) : s.matching z filter = ((List.range (262144 - z)).filter
    (fun i => filter = 0 ∨ (s.zone (z + i)).st.code = filter - 1)).map (z + ·) := by
  rw [State.matching, ← List.filterMap_eq_map, List.filterMap_filter]
  exact List.filterMap_congr fun i _ => by simp

theorem State.admitted_report (hopc : c.opc = 0x24) :
    let l := (List.range (262144 - c.zone)).filter (fun i => c.pf 0 0 3 = 0 ∨ (s.zone (c.zone + i)).st.code = c.pf 0 0 3 - 1)
    let n := min l.length ((c.count.toNat - 32) / 32)
    s.admitted c = s.reply c 0 n (leBytes 4 l.length ++ leBytes 4 n ++ leBytes 24 0 ++
      ((l.take n).map (fun i => s.reportEntry (c.zone + i))).flatten) := by
  intro l n
  have hrun : s.admitted c = s.goReport c := by simp [State.admitted, isWriteOpc, hopc]
  rw [hrun, State.goReport, State.matching_eq, List.length_map, ← List.map_take, List.map_map]
  rfl

end

/-- Settles O26: an admitted command is its own rule, and its rule answers by the state of its zone. -/
theorem admittedCommandsRun : Obligations.AdmittedCommandsRun := by
  intro s q t c hc hsh hun hfin hfirst htest z ends
  have hturn : s.InTurn q t c := ⟨hc, hsh, hun, hfin, hfirst⟩
  have runs {i : Instr} {o act : Nat} (hi : (i, o, act) ∈ mediaCommands q t) (hopc : c.opc.toNat = o)
      (hact : act ≠ 0 → c.pf 2 0 4 = act) : exec i s = .next (s.admitted c) := exec_media_pass hturn hi hopc hact htest
  refine ⟨fun x hx => ?_, fun hopc => ?_, fun hopc => ?_, fun x hx => ?_, fun hopc => ⟨fun hact => ?_, fun x hx => ?_⟩,
    fun hopc => ?_, fun hopc => ?_⟩
  · have hread : exec x s = .next (s.admitted c) ∧ c.opc ∈ zoneReads := by
      simp only [List.mem_cons, Prod.mk.injEq, List.not_mem_nil, or_false] at hx
      obtain ⟨rfl, hopc⟩ | ⟨rfl, hopc⟩ | ⟨rfl, hopc⟩ := hx <;>
        exact ⟨runs (act := 0) (by simp [mediaCommands]) (congrArg BitVec.toNat hopc) nofun, by simp [zoneReads, hopc]⟩
    obtain ⟨hrun, hopc⟩ := hread
    rw [State.admitted_zoneRead hopc] at hrun
    exact ⟨fun hoff => hrun.trans (congrArg _ (State.goRead_offline hopc hoff)),
      fun hon => hrun.trans (congrArg _ (State.goRead_looksUp hopc hon))⟩
  · rw [runs (act := 0) (by simp [mediaCommands]) (congrArg BitVec.toNat hopc) nofun, State.admitted_convRead hopc]
  · rw [runs (act := 0) (by simp [mediaCommands]) (congrArg BitVec.toNat hopc) nofun, State.admitted_convWrite hopc]
  · have hwrite : exec x s = .next (s.admitted c) ∧ (c.opc = 0x21 ∨ c.opc = 0x22) := by
      simp only [List.mem_cons, Prod.mk.injEq, List.not_mem_nil, or_false] at hx
      obtain ⟨rfl, hopc⟩ | ⟨rfl, hopc⟩ := hx <;>
        exact ⟨runs (act := 0) (by simp [mediaCommands]) (congrArg BitVec.toNat hopc) nofun, by simp [hopc]⟩
    obtain ⟨hrun, hopc⟩ := hwrite
    have refused {st r : Nat} (h : s.writeTest c = .error (st, r)) : ends x st r :=
      hrun.trans (congrArg _ (State.admitted_refusedWrite hopc h))
    refine ⟨fun hst => refused (State.writeTest_full hst), fun hst => refused (State.writeTest_state hst), fun hst =>
      ⟨fun h21 hblk => refused (State.writeTest_pointer hst h21 hblk), fun hblk =>
      ⟨fun hend => refused (State.writeTest_end hst hblk hend), fun hend =>
      ⟨fun hclosed hmax => refused (State.writeTest_limit hst hblk hend hclosed hmax), fun hopen =>
      ⟨fun hspace => refused ?_, fun hspace hown => hrun.trans (congrArg _ (State.admitted_takenWrite hopc ?_ hown))⟩⟩⟩⟩⟩
    · rw [State.writeTest_space hst hblk hend hopen, if_neg (ne_true_of_eq_false hspace)]
    · rw [State.writeTest_space hst hblk hend hopen, if_pos hspace]
  · have hrun : exec (.zoneOpen q t) s = .next (s.goOpen c) := by
      rw [runs (act := 1) (by simp [mediaCommands]) (congrArg BitVec.toNat hopc) (fun _ => hact), State.admitted_open hopc hact]
    refine ⟨fun hst => hrun.trans (congrArg _ (State.goOpen_opened hst)), fun hst hmax => ?_, fun hst hroom => ?_,
      fun hst => hrun.trans (congrArg _ (State.goOpen_refused hst))⟩
    · exact hrun.trans (congrArg _ ((State.goOpen_closed hst).trans (if_pos hmax)))
    · exact hrun.trans (congrArg _ ((State.goOpen_closed hst).trans (if_neg (Nat.not_le.mpr hroom))))
  · simp only [List.mem_cons, Prod.mk.injEq, List.not_mem_nil, or_false] at hx
    obtain ⟨rfl, hact⟩ | ⟨rfl, hact⟩ | ⟨rfl, hact⟩ | ⟨rfl, hact⟩ := hx <;>
      rw [runs (by simp [mediaCommands]) (congrArg BitVec.toNat hopc) (fun _ => hact),
        State.admitted_manage hopc (by simp [hact])]
  · rw [runs (act := 0) (by simp [mediaCommands]) (congrArg BitVec.toNat hopc) nofun, State.admitted_flush hopc]
  · exact (runs (act := 0) (by simp [mediaCommands]) (congrArg BitVec.toNat hopc) nofun).trans
      (congrArg _ (State.admitted_report hopc))

end Sys2Proof.Machine
end

section
/-! PROOFS. DECOMMISSIONED is final (R377): what no longer runs answers SECURITY_ERROR with RESULT 5, and
what R377 names still acts. -/
namespace Sys2Proof.Machine

open Sys2Proof

section
variable {s : State} (hlife : s.nv.life = .decommissioned)
include hlife

/-! ### Commands (R295, R377) -/

/-- Opcodes that a decommissioned part still takes: IDENTIFY, GET LOG, POWER CONTROL, SERVICE and FABRIC QUERY. -/
def lastOpcodes : List Nat := [0x01, 0x04, 0x0B, 0x0C, 0x0F]

theorem State.retired_iff {c : Cmd} : s.retired c = true ↔ c.opc.toNat ∉ lastOpcodes := by
  simp [State.retired, hlife, lastOpcodes]

theorem State.retired_false {c : Cmd} (hopc : c.opc.toNat ∈ lastOpcodes) : s.retired c = false :=
  Bool.eq_false_iff.mpr fun hret => (State.retired_iff hlife).mp hret hopc

/-- A media command in turn ends, whatever it names. -/
theorem exec_media_retired {q : Fin 128} {t : BitVec 16} {c : Cmd} {x : Instr × Nat × Nat} (hturn : s.InTurn q t c)
    (hx : x ∈ mediaCommands q t) (hopc : c.opc.toNat = x.2.1) (hact : x.2.2 ≠ 0 → c.pf 2 0 4 = x.2.2) :
    exec x.1 s = .next (s.finish q t 0x70 5) := by
  have hmedia : ∀ y ∈ mediaCommands q t, y.2.1 ∉ lastOpcodes := by simp [mediaCommands, lastOpcodes]
  exact exec_media_stop hturn hx hopc hact (State.admitTest_retired ((State.retired_iff hlife).mpr (hopc ▸ hmedia x hx)))

section
variable {t : BitVec 16} {c : Cmd} (hc : s.cmd? 0 t = some c) (hsh : s.shadow = false) (hfin : c.fin = none)
  (hst : c.st ≠ .running)
include hc hsh hfin hst

theorem State.adminCmd_retired {o : Nat} {f : Cmd → State} (hopc : c.opc.toNat = o) (ho : o ∉ lastOpcodes) :
    s.adminCmd o t f = s.finish 0 t 0x70 5 := by
  have hret : s.retired c = true := (State.retired_iff hlife).mpr (hopc ▸ ho)
  simp [State.adminCmd, hc, hopc, hsh, hfin, hst, hret, stSecurityError]

theorem State.takesAdmin_last (hopc : c.opc.toNat ∈ lastOpcodes) : s.TakesAdmin t c :=
  ⟨hc, hsh, hfin, hst, State.retired_false hlife hopc⟩

end

/-! ### Messages (R377, R381) -/

theorem State.secRun_decommissioned {v : Via} {send : Bool} {proto msg : Nat} {ok : Bool} {f : State → State} (hok : ok = true)
    (hmsg : s.msgIs v send proto msg = true) : s.secRun v send proto msg ok f = s.secFail v 5 := by
  simp [State.secRun, hok, hmsg, hlife]

end

/-- The commands of queue pair 0 that a decommissioned part no longer runs, with their opcodes. -/
def retiredAdmin (t : BitVec 16) (image : List Byte) : List (Instr × Byte) :=
  [(.createQp t, 0x02), (.deleteQp t, 0x03), (.getCounters t, 0x05), (.setRights t, 0x06),
    (.abortCmd t, 0x07), (.selfTestShort t, 0x08), (.selfTestExtended t, 0x08), (.selfTestAbort t, 0x08),
    (.microcodeLoad t image, 0x0D)]

theorem exec_retiredAdmin (s : State) (t : BitVec 16) (image : List Byte) : ∀ x ∈ retiredAdmin t image, ∃ f,
    exec x.1 s = .next (s.adminCmd x.2.toNat t f) ∧ x.2.toNat ∉ lastOpcodes := by
  simp only [retiredAdmin, List.forall_mem_cons]
  exact ⟨⟨_, rfl, by decide⟩, ⟨_, rfl, by decide⟩, ⟨_, rfl, by decide⟩, ⟨_, rfl, by decide⟩, ⟨_, rfl, by decide⟩,
    ⟨_, rfl, by decide⟩, ⟨_, rfl, by decide⟩, ⟨_, rfl, by decide⟩, ⟨_, rfl, by decide⟩, List.forall_mem_nil _⟩

section
variable (s : State) (v : Via)

theorem State.viaCp_lt (n : Nat) : s.viaCp v n < 2 ^ 32 := by
  cases v with
  | qp0 t =>
    cases hc : s.cmd? 0 t with
    | none => simp [State.viaCp, hc]
    | some c =>
      simp only [State.viaCp, hc]
      exact BitVec.isLt _
  | mbox => exact (ofLe_lt _).trans_le (by simp [State.mboxBytes])

theorem State.viaLen_lt : s.viaLen v < 2 ^ 32 := by
  cases v with
  | qp0 t =>
    cases hc : s.cmd? 0 t with
    | none => simp [State.viaLen, hc]
    | some c =>
      simp only [State.viaLen, hc]
      exact BitVec.isLt _
  | mbox => exact (ofLe_lt _).trans_le (by simp [State.mboxBytes])

/-- A word read from a message's parameter names that parameter. -/
theorem State.toNat_viaCp (n : Nat) : (BitVec.ofNat 32 (s.viaCp v n)).toNat = s.viaCp v n :=
  (BitVec.toNat_ofNat ..).trans (Nat.mod_eq_of_lt (s.viaCp_lt v n))

theorem State.toNat_viaLen : (BitVec.ofNat 32 (s.viaLen v)).toNat = s.viaLen v :=
  (BitVec.toNat_ofNat ..).trans (Nat.mod_eq_of_lt (s.viaLen_lt v))

theorem toNat_leAt_one (d : List Byte) (i : Nat) : (BitVec.ofNat 8 (leAt d i 1)).toNat = leAt d i 1 := by
  refine (BitVec.toNat_ofNat ..).trans (Nat.mod_eq_of_lt ((ofLe_lt _).trans_le ?_))
  exact Nat.pow_le_pow_right (n := 256) (by decide) (List.length_take_le 1 _)

/-- Message `i` is run as one of protocol `proto` and number `msg`, sent or received. -/
def State.RunsAs (s : State) (v : Via) (send : Bool) (i : Instr) (proto msg : Nat) : Prop :=
  ∃ ok f, exec i s = .next (s.secRun v send proto msg ok f) ∧ ok = true

/-- Messages sent that a decommissioned part refuses, with their protocols and numbers. -/
def refusedSends (n : Fin 16) (good : Bool) (fsvn : Word) (slot : Fin 4) : List (Instr × Nat × Nat) :=
  let d := s.viaData v
  let w := fun k => BitVec.ofNat 32 (s.viaCp v k)
  let r := BitVec.ofNat 8 (s.viaCp v 2)
  let role := BitVec.ofNat 8 (leAt d 0 1)
  let cid := BitVec.ofNat 32 (leAt d 4 4)
  [(.authResponse v role cid (d.drop 8), 1, 2), (.authEnd v n, 1, 3),
    (.authSetKey v role cid ((d.drop 8).take 96) (d.drop 104), 1, 4), (.integrate v d, 2, 1),
    (.claim v (d.take 96) (BitVec.ofNat 32 (leAt d 96 4)) (d.drop 100), 2, 2), (.returnLifecycle v, 2, 3),
    (.decommission v, 2, 4), (.consent v (w 2), 2, 5), (.commitSvn v (bitOf (s.viaCp v 2) 0), 2, 6),
    (.keysCreate v r (bitOf (s.viaCp v 2) 8), 3, 1), (.keysLock v r, 3, 2), (.keysUnlock v r, 3, 3),
    (.keysDestroy v r, 3, 4), (.keysSetConv v r, 3, 5), (.peercertAnchor v d, 4, 1), (.peercertCert v d, 4, 3),
    (.firmwareChunk v (w 2) d, 5, 1), (.firmwareFinish v good fsvn slot, 5, 2), (.sysrecStage v (w 2) d, 6, 1)]

/-- Messages received that a decommissioned part refuses. -/
def refusedReceives : List (Instr × Nat × Nat) :=
  [(.authChallenge v, 1, 1), (.keysQuery v, 3, 6), (.peercertDeviceKey v, 4, 2),
    (.sysrecRead v (BitVec.ofNat 32 (s.viaCp v 2)) (BitVec.ofNat 32 (s.viaCp v 3)) (BitVec.ofNat 32 (s.viaLen v)), 6, 3)]

/-- Each names its own payload and parameters, so it is run. -/
theorem exec_refusedSends (n : Fin 16) (good : Bool) (fsvn : Word) (slot : Fin 4) :
    ∀ x ∈ refusedSends s v n good fsvn slot, s.RunsAs v true x.1 x.2.1 x.2.2 := by
  have h2 := s.toNat_viaCp v 2
  have hrole := toNat_leAt_one (s.viaData v) 0
  have hcid := toNat_leAt_four (s.viaData v)
  have hrange : (s.viaCp v 2 % 256 == (BitVec.ofNat 8 (s.viaCp v 2)).toNat) = true :=
    beq_iff_eq.mpr (BitVec.toNat_ofNat (s.viaCp v 2) 8).symm
  simp only [refusedSends, List.forall_mem_cons]
  exact ⟨⟨_, _, rfl, by rw [hrole, hcid]; simp⟩, ⟨_, _, rfl, rfl⟩, ⟨_, _, rfl, by rw [hrole, hcid]; simp⟩,
    ⟨_, _, rfl, by simp⟩, ⟨_, _, rfl, by rw [hcid]; simp⟩, ⟨_, _, rfl, rfl⟩, ⟨_, _, rfl, rfl⟩, ⟨_, _, rfl, by rw [h2]; simp⟩,
    ⟨_, _, rfl, by simp⟩, ⟨_, _, exec_keysCreate_eq s v _, hrange⟩, ⟨_, _, rfl, hrange⟩, ⟨_, _, rfl, hrange⟩,
    ⟨_, _, rfl, hrange⟩, ⟨_, _, rfl, hrange⟩, ⟨_, _, rfl, by simp⟩, ⟨_, _, rfl, by simp⟩, ⟨_, _, rfl, by rw [h2]; simp⟩,
    ⟨_, _, rfl, rfl⟩, ⟨_, _, rfl, by rw [h2]; simp⟩, List.forall_mem_nil _⟩

theorem exec_refusedReceives : ∀ x ∈ refusedReceives s v, s.RunsAs v false x.1 x.2.1 x.2.2 := by
  simp only [refusedReceives, List.forall_mem_cons]
  exact ⟨⟨_, _, rfl, rfl⟩, ⟨_, _, rfl, rfl⟩, ⟨_, _, rfl, rfl⟩,
    ⟨_, _, rfl, by rw [State.toNat_viaCp, State.toNat_viaCp, State.toNat_viaLen]; simp⟩, List.forall_mem_nil _⟩

end

section
variable {s : State}

/-- A message that is run at all fails on a decommissioned part. -/
theorem State.RunsAs.fails {v : Via} {send : Bool} {i : Instr} {proto msg : Nat} (hruns : s.RunsAs v send i proto msg)
    (hlife : s.nv.life = .decommissioned) (hmsg : s.msgIs v send proto msg = true) : exec i s = .next (s.secFail v 5) := by
  obtain ⟨ok, f, hexec, hok⟩ := hruns
  rw [hexec, State.secRun_decommissioned hlife hok hmsg]

/-- A COMMIT that is not under way is run as a message. -/
theorem exec_sysrecCommit_runs (v : Via) (hfree : s.recs.commit = none) (hidle : ∀ c, s.viaCmd v = some c → c.st ≠ .running) :
    s.RunsAs v true (.sysrecCommit v (BitVec.ofNat 32 (s.viaCp v 2)) (BitVec.ofNat 32 (s.viaCp v 3))) 6 2 := by
  refine ⟨_, _, congrArg Host.Outcome.next (if_neg ?_), by rw [State.toNat_viaCp, State.toNat_viaCp]; simp⟩
  cases hc : s.viaCmd v with
  | none => simp [hfree]
  | some c => simpa using hidle c hc

/-- A packet in order for another module goes on, one hop nearer its end (R330, R340). -/
theorem State.takePkt_forwards {inp : Option (Fin 5)} {p : Pkt} (hknown : knownType p.ptype.toNat = true)
    (huni : bitOf p.flags.toNat 1 = false) (hother : s.isMine p.dst = false) (hdst : p.dst ≠ 0) (httl : 1 < p.ttl.toNat) :
    s.takePkt inp p = s.forward inp { p with ttl := p.ttl - 1 } := by
  rw [State.takePkt, if_neg (by simp [hknown]), if_neg (ne_true_of_eq_false huni), if_neg (ne_true_of_eq_false hother),
    if_neg (by simpa using fun _ => hdst), if_neg (Nat.not_le.mpr httl)]

end

/-- Settles O59: commands and messages end by their first test, and what R377 names is untouched by it. -/
theorem decommissionedIsFinal : Obligations.DecommissionedIsFinal := by
  intro s hlife
  have serves {t : BitVec 16} {c : Cmd} (hc : s.cmd? 0 t = some c) (hsh : s.shadow = false) (hfin : c.fin = none)
      (hst : c.st ≠ .running) {o : Byte} (hopc : c.opc = o) (ho : o.toNat ∈ lastOpcodes) : s.TakesAdmin t c :=
    State.takesAdmin_last hlife hc hsh hfin hst (hopc ▸ ho)
  refine ⟨fun c t hstep => ((exec_kept c (kept_refl s)).next t hstep).holds.life hlife,
    fun q tag c hc hsh hun hfin hfirst x hx hopc hact => exec_media_retired hlife ⟨hc, hsh, hun, hfin, hfirst⟩ hx hopc hact,
    fun tag c hc hsh hfin hst => ⟨fun x hx hopc => ?_, fun x hx hopc hact => ?_, fun hopc hpage => ?_, fun hopc hpage => ?_,
      fun hopc hpage => ?_, fun hopc ha => ?_, fun hopc ha => ?_, fun hopc ha => ?_, fun hopc ha hnone => ?_,
      fun hopc ha hfetched hreq hord => ?_⟩,
    fun v n good fsvn slot => ⟨fun x hx hmsg => (exec_refusedSends s v n good fsvn slot x hx).fails hlife hmsg,
      fun x hx hmsg => (exec_refusedReceives s v x hx).fails hlife hmsg,
      fun hmsg hfree hidle => (exec_sysrecCommit_runs v hfree hidle).fails hlife hmsg⟩,
    fun n h p hup hseq hknown huni hother hdst httl => (exec_linkPacket_good h p hup).trans
      (congrArg _ ((if_neg (not_not_intro hseq)).trans (State.takePkt_forwards hknown huni hother hdst httl)))⟩
  · obtain ⟨f, hexec, hopcode⟩ := exec_retiredAdmin s tag c.data x hx
    rw [hexec, State.adminCmd_retired hlife hc hsh hfin hst (congrArg BitVec.toNat hopc) hopcode]
  · simp only [List.mem_cons, List.not_mem_nil, or_false] at hx
    obtain rfl | rfl | rfl := hx <;>
      exact congrArg Host.Outcome.next (State.sanitize_decommissioned hc hopc hact hst hlife)
  · exact exec_identify_page (serves hc hsh hfin hst hopc (by decide)) hopc hpage
  · rw [exec_getLog_page (serves hc hsh hfin hst hopc (by decide)) hopc (by omega) (by omega), hpage]; rfl
  · rw [exec_fabricQuery_page (serves hc hsh hfin hst hopc (by decide)) hopc, if_neg hpage]
  · exact exec_locateOn_taken (serves hc hsh hfin hst hopc (by decide)) hopc ha
  · exact exec_locateOff_taken (serves hc hsh hfin hst hopc (by decide)) hopc ha
  · exact exec_safeRemovalRequest_taken (serves hc hsh hfin hst hopc (by decide)) hopc ha
  · exact exec_safeRemovalCancel_none (serves hc hsh hfin hst hopc (by decide)) hopc ha hnone
  · exact (exec_power_begins hc hopc hsh (by simp [hfetched]) ⟨hreq, hord⟩ rfl ha).trans rfl

end Sys2Proof.Machine
end
